-- ==== Sys2Proof/Word.lean ====
section
/-! DEFINITION. Word.lean: the word types of the Holette H4 and a keyed store of plain data.
Register contents, addresses while they are computed and instruction fields are bit vectors (R4);
whatever is only counted or named is a Nat or an inductive type. -/

namespace Sys2Proof

/-- A 32-bit register lane or instruction word (R36, R68). -/
abbrev Word := BitVec 32

/-- A 64-bit pair value (R8). -/
abbrev DWord := BitVec 64

/-- A byte of memory (R5). -/
abbrev Byte := BitVec 8

/-- One bit per lane of a gang, lane 0 in bit 0 (R7). -/
abbrev LaneMask := BitVec 32

/-- Plain keyed data: a list of key and value pairs in rising key order. A key that is not listed
holds the default its reader names. -/
abbrev Store (α : Type) := List (Nat × α)

/-- The value a store holds at a key, or the default `d`. -/
def Store.get {α : Type} (d : α) : Store α → Nat → α
  | [], _ => d
  | (k, v) :: t, j => if j = k then v else Store.get d t j

/-- The store with the value at one key replaced. -/
def Store.put {α : Type} : Store α → Nat → α → Store α
  | [], k, v => [(k, v)]
  | (k', v') :: t, k, v =>
    if k < k' then (k, v) :: (k', v') :: t
    else if k = k' then (k, v) :: t
    else (k', v') :: Store.put t k v

/-- The store without a key. -/
def Store.del {α : Type} (m : Store α) (k : Nat) : Store α := m.filter fun p => p.1 != k

/-- The value at a key, if the key is listed. -/
def Store.find {α : Type} : Store α → Nat → Option α
  | [], _ => none
  | (k, v) :: t, j => if j = k then some v else Store.find t j

/-- The value at a list position, or the default. -/
def nth {α : Type} (d : α) : List α → Nat → α
  | [], _ => d
  | x :: _, 0 => x
  | _ :: t, n + 1 => nth d t n

/-- The list with the element at one position changed. -/
def modAt {α : Type} (f : α → α) : List α → Nat → List α
  | [], _ => []
  | x :: t, 0 => f x :: t
  | x :: t, n + 1 => x :: modAt f t n

/-- The numbers 0 to n − 1 in increasing order. -/
def upto (n : Nat) : List Nat := List.range n

/-- The bits n − 1 to 0 of a number that are set, lowest first. -/
def bitsOf (n v : Nat) : List Nat := (upto n).filter fun i => v.testBit i

end Sys2Proof
end

