-- ==== Sys2Proof/Config.lean ====
section
/-! DEFINITION. Config.lean: the free values of the model. Each is a constant with no body: a claim
about the model holds for every value of it. The assumption log names every one. -/

namespace Sys2Proof.Config

/-- Which of the enabled steps of the package comes next (DESIGN CHOICE, log 1). -/
opaque pick : Nat → Nat

/-- Cycles of a core's clock, beyond one, that pass at a scheduler turn (DESIGN CHOICE, log 2). -/
opaque stall : Nat → Nat

/-- Whether a chain that could issue waits in a cycle for a pipe, an operand or a register bank (R20, R57, R79): by
the counter and the gang (DESIGN CHOICE, log 2). -/
opaque delayed : Nat → Nat → Bool

/-- Nanoseconds of CLK.NS that pass at a step (DESIGN CHOICE, log 2). -/
opaque elapsed : Nat → Nat

/-- Occurrences of a timing event counted by PERF.CNT0 to PERF.CNT7 (DESIGN CHOICE, log 2). -/
opaque timingEvents : Nat → Nat

/-- Which bits an approximate function of R131 returns among those within its bound: by operation
and operand, the same on every core (DESIGN CHOICE, log 6). -/
opaque xfChoice : Nat → Word → Nat

/-- Whether an access goes ahead of an order that no agent within its scope can see (R191; DESIGN CHOICE, log 10). -/
opaque outOfScope : Nat → Bool

/-- Whether a word inside a lookahead window sees the value before (false) or after (true) the pending
write, lane by lane (R58; DESIGN CHOICE, log 7). -/
opaque windowNew : Nat → Nat → Bool

/-- Which of the values that a copy's source byte has held since the collective started is copied (R254; DESIGN CHOICE, log 14). -/
opaque copyNew : Nat → Bool

/-- The order in which the elements of a chunk are performed (R254, R261; DESIGN CHOICE, log 14). -/
opaque copyOrder : Nat → Nat

/-- Whether a translation uses a cached entry or the entry as it stands (R354; DESIGN CHOICE, log 19). -/
opaque useCached : Nat → Bool

/-- Which entry of a full translation or pointer cache makes way for a new one (R352; DESIGN CHOICE, log 19). -/
opaque cacheVictim : Nat → Nat

/-- The pseudo-channel of its memory die that holds a line, reduced by its user to 0 to 159 (R401; DESIGN CHOICE, log 27). -/
opaque pseudoChannel : Nat → Nat

/-- The witness seed the checker mints for an attempt (R378; DESIGN CHOICE, log 13). -/
opaque witnessSeed : Nat → BitVec 128

/-- The checker's secret generator for spot checks, replays and screening (R384, R389, R397; DESIGN CHOICE, log 13). -/
opaque secret : Nat → Nat

/-- The interval between sampling choices, reduced by its user to the range of R326 (DESIGN CHOICE, log 16). -/
opaque sampleInterval : Nat → Nat

/-- Cycle counts and the level reached in a sampling record (R326; DESIGN CHOICE, log 2). -/
opaque sampleField : Nat → Word

/-- The SHA-512 digest of a message (R394, R442, R446; DESIGN CHOICE, log 11). -/
opaque sha512 : List Byte → BitVec 512

/-- The ECDSA P-521 signature r, s of a digest under the attestation key (R394; DESIGN CHOICE, log 11). -/
opaque attest : BitVec 512 → Nat × Nat

/-- Whether a signature r, s of a digest verifies with the Stavindyn firmware key (R442, R443; DESIGN CHOICE, log 11). -/
opaque verifies : BitVec 512 → Nat → Nat → Bool

/-- The on-die hop distance from a cluster to a port of a compute die, reduced by its user to 0 to 7: die,
port, cluster (R363; DESIGN CHOICE, log 5). -/
opaque hopDistance : Nat → Nat → Nat → Nat

/-- Where the 16 MiB overflow area of a compute die's posted-atomic buffers lies in its D space, reduced by its
user to a 4 KiB unit at or below the middle (R172, R210; DESIGN CHOICE, log 5). -/
opaque overflowArea : Nat → Nat

/-- What the device writes in the 32 bytes of an overflow area that hold a spilled operation (R189, R210; DESIGN CHOICE,
log 15). -/
opaque spillByte : Nat → BitVec 8

/-- What a byte of a block reads as under a key that the block was not written under: by the loadings of the two keys, the
block, its bytes and the byte's offset (R347; DESIGN CHOICE, log 40). -/
opaque deciphered : Nat → Nat → Nat → Nat → Nat → BitVec 8

/-- Where the link-die firmware has the topology record written in host complex memory (R367, R442; DESIGN CHOICE, log 5). -/
opaque topologyAddr : Nat

/-- Where the link-die firmware has the receipt log begin in host complex memory (R394, R442; DESIGN CHOICE, log 5). -/
opaque receiptAddr : Nat

/-- The bytes that a reduce flit from another package leaves, for its operation and type are in no field of it (R262, R361;
DESIGN CHOICE, log 17). -/
opaque reducedByte : Nat → BitVec 8

/-- The serial number of the die of a node (R449; DESIGN CHOICE, log 5). -/
opaque serial : Nat → DWord

/-- The certificate chain of the responder (R446; DESIGN CHOICE, log 11). -/
opaque certificate : List Byte

/-- The SHA-512 digest of the KD ROM, measurement 1 (R446; DESIGN CHOICE, log 11). -/
opaque romDigest : BitVec 512

/-- A public key, nonce or session value the SPDM responder draws (R446; DESIGN CHOICE, log 11). -/
opaque spdmRandom : Nat → BitVec 512

end Sys2Proof.Config
end

