-- ==== Sys2Proof/Machine/Float.lean ====
section
/-! DEFINITION. Machine/Float.lean: the floating-point numbers of Registers II (R106 to R139) by exact
arithmetic and one rounding, shared by the FP words, the atomic units and the matrix array. -/

namespace Sys2Proof.Machine

/-- A binary format: exponent width and fraction width (R106). -/
structure Fmt where
  ew : Nat
  pw : Nat
deriving DecidableEq, Repr

def f16 : Fmt := ⟨5, 10⟩
def bf16 : Fmt := ⟨8, 7⟩
def f32 : Fmt := ⟨8, 23⟩
def f64 : Fmt := ⟨11, 52⟩

/-- The exponent bias (R106). -/
def Fmt.bias (f : Fmt) : Nat := 2 ^ (f.ew - 1) - 1
/-- The bits of plus infinity. -/
def Fmt.inf (f : Fmt) : Nat := (2 ^ f.ew - 1) * 2 ^ f.pw
/-- The position of the sign bit. -/
def Fmt.signBit (f : Fmt) : Nat := 2 ^ (f.ew + f.pw)
/-- The canonical quiet NaN (R111). -/
def Fmt.nan (f : Fmt) : Nat := f.inf + 2 ^ (f.pw - 1)

/-- The rounding modes (R109). -/
inductive Rm where
  | rn | rz | ru | rd
deriving DecidableEq, Repr

def Rm.ofBits (b : BitVec 2) : Rm := if b = 0 then .rn else if b = 1 then .rz else if b = 2 then .ru else .rd

/-- The number a bit pattern stands for; a finite value is (−1)^neg × m × 2^e (R106). -/
inductive FVal where
  | nan (signalling : Bool)
  | inf (neg : Bool)
  | fin (neg : Bool) (m : Nat) (e : Int)
deriving DecidableEq, Repr

/-- The value of a bit pattern (R106, R107). -/
def Fmt.val (f : Fmt) (x : Nat) : FVal :=
  let neg := x / f.signBit % 2 == 1
  let ex := x / 2 ^ f.pw % 2 ^ f.ew
  let fr := x % 2 ^ f.pw
  if ex = 2 ^ f.ew - 1 then
    if fr = 0 then .inf neg else .nan (fr < 2 ^ (f.pw - 1))
  else if ex = 0 then .fin neg fr (1 - (f.bias : Int) - f.pw)
  else .fin neg (2 ^ f.pw + fr) ((ex : Int) - f.bias - f.pw)

def FVal.isNan : FVal → Bool
  | .nan _ => true
  | _ => false
def FVal.isSnan : FVal → Bool
  | .nan b => b
  | _ => false
def FVal.isInf : FVal → Bool
  | .inf _ => true
  | _ => false
def FVal.isZero : FVal → Bool
  | .fin _ m _ => m == 0
  | _ => false
def FVal.neg : FVal → FVal
  | .nan b => .nan b
  | .inf n => .inf (!n)
  | .fin n m e => .fin (!n) m e
def FVal.isNeg : FVal → Bool
  | .nan _ => false
  | .inf n => n
  | .fin n _ _ => n

/-- The sticky flags IV, DZ, OF, UF, NX of R113, as bits 0 to 4. -/
abbrev FpFlags := BitVec 5
def flagIV : FpFlags := 1
def flagDZ : FpFlags := 2
def flagOF : FpFlags := 4
def flagUF : FpFlags := 8
def flagNX : FpFlags := 16

/-- A result: its bits and the flags it raises. -/
structure FRes where
  bits : Nat
  fl : FpFlags
deriving DecidableEq, Repr

/-- m × 2^−sh rounded to an integer in a mode; `sticky` says that the exact value lies strictly above
m × 2^−sh by less than one unit of m. Returns the integer and whether it is inexact (R109). -/
def roundInt (rm : Rm) (neg : Bool) (m : Nat) (sh : Int) (sticky : Bool) : Nat × Bool :=
  if sh ≤ 0 then (m * 2 ^ (-sh).toNat, sticky)
  else
    let k := sh.toNat
    let q := m / 2 ^ k
    let r := m % 2 ^ k
    let h := 2 ^ (k - 1)
    let inexact := r != 0 || sticky
    let up := match rm with
      | .rn => (r > h) || (r == h && (sticky || q % 2 == 1))
      | .rz => false
      | .ru => inexact && !neg
      | .rd => inexact && neg
    (if up then q + 1 else q, inexact)

/-- Rounds (−1)^neg × m × 2^e, plus less than one unit of m when `sticky`, to a format (R109, R110). -/
def roundMag (f : Fmt) (rm : Rm) (neg : Bool) (m : Nat) (e : Int) (sticky : Bool) : FRes :=
  let s := if neg then f.signBit else 0
  if m = 0 && !sticky then ⟨s, 0⟩
  else
    let top : Int := e + (Nat.log2 m : Int)
    let emin : Int := 1 - (f.bias : Int)
    let q := max top emin - f.pw
    let (sig, nx) := roundInt rm neg m (q - e) sticky
    let bits := ((q + f.pw + f.bias).toNat - 1) * 2 ^ f.pw + sig
    if f.inf ≤ bits then
      let toInf := match rm with
        | .rn => true
        | .rz => false
        | .ru => !neg
        | .rd => neg
      ⟨s + (if toInf then f.inf else f.inf - 1), flagOF ||| flagNX⟩
    else
      let qu := top - f.pw
      let (sigU, _) := roundInt rm neg m (qu - e) sticky
      let tiny := top < emin && sigU < 2 ^ (f.pw + (emin - top).toNat)
      ⟨s + bits, (if nx then flagNX else 0) ||| (if nx && tiny then flagUF else 0)⟩

/-- Rounds an exact value to a format; a NaN becomes canonical, with IV when signalling (R111, R112). -/
def roundF (f : Fmt) (rm : Rm) : FVal → FRes
  | .nan sig => ⟨f.nan, if sig then flagIV else 0⟩
  | .inf neg => ⟨(if neg then f.signBit else 0) + f.inf, 0⟩
  | .fin neg m e => roundMag f rm neg m e false

/-- The exact product, and whether it is 0 × ∞ (R112). A signalling operand stays signalling. -/
def fmulEx (a b : FVal) : FVal × Bool :=
  match a, b with
  | .nan x, y => (.nan (x || y.isSnan), false)
  | x, .nan y => (.nan (x.isSnan || y), false)
  | .inf n, .inf n' => (.inf (n != n'), false)
  | .inf n, .fin n' m _ => if m = 0 then (.nan false, true) else (.inf (n != n'), false)
  | .fin n m _, .inf n' => if m = 0 then (.nan false, true) else (.inf (n != n'), false)
  | .fin n m e, .fin n' m' e' => (.fin (n != n') (m * m') (e + e'), false)

/-- The least exponent of the finite terms. -/
def minExp : List FVal → Int → Int
  | [], e => e
  | .fin _ _ e' :: t, e => minExp t (min e e')
  | _ :: t, e => minExp t e

/-- The sum of the finite terms in units of 2^e, where e is at most every term's exponent. -/
def sumAt (e : Int) : List FVal → Int
  | [] => 0
  | .fin n m e' :: t =>
    let v : Int := (m * 2 ^ (e' - e).toNat : Nat)
    (if n then -v else v) + sumAt e t
  | _ :: t => sumAt e t

/-- The exact sum of the terms, and whether infinities of both signs meet (R110, R112). A zero sum is
−0 only when every term is −0. Beside a NaN, infinities of both signs do not meet (DESIGN CHOICE, log 6): R123 does not say
whether they do in a sum of three. -/
def fsumEx (ts : List FVal) : FVal × Bool :=
  if ts.any FVal.isNan then (.nan (ts.any FVal.isSnan), false)
  else
    let p := ts.any (fun t => t == .inf false)
    let n := ts.any (fun t => t == .inf true)
    if p && n then (.nan false, true)
    else if p then (.inf false, false)
    else if n then (.inf true, false)
    else
      let e := minExp ts (match ts with
        | .fin _ _ e :: _ => e
        | _ => 0)
      let v := sumAt e ts
      if v = 0 then (.fin (ts.all (fun t => t.isZero && t.isNeg)) 0 0, false)
      else (.fin (v < 0) v.natAbs e, false)

def ivIf (b : Bool) : FpFlags := if b then flagIV else 0

/-- a + b (R121). -/
def fadd (f : Fmt) (a b : Nat) : FRes :=
  let (v, iv) := fsumEx [f.val a, f.val b]
  let r := roundF f .rn v
  ⟨r.bits, r.fl ||| ivIf iv⟩

/-- a − b (R121). -/
def fsub (f : Fmt) (a b : Nat) : FRes :=
  let (v, iv) := fsumEx [f.val a, (f.val b).neg]
  let r := roundF f .rn v
  ⟨r.bits, r.fl ||| ivIf iv⟩

/-- a × b (R121). -/
def fmul (f : Fmt) (a b : Nat) : FRes :=
  let (v, iv) := fmulEx (f.val a) (f.val b)
  let r := roundF f .rn v
  ⟨r.bits, r.fl ||| ivIf iv⟩

/-- The sum of the products and the addends, rounded once (R122, R123). 0 × ∞ raises IV even beside a
quiet NaN (R112). -/
def fdot (f : Fmt) (prods : List (FVal × FVal)) (adds : List FVal) : FRes :=
  let ps := prods.map fun p => fmulEx p.1 p.2
  let (v, iv) := fsumEx (ps.map (·.1) ++ adds)
  let r := roundF f .rn v
  ⟨r.bits, r.fl ||| ivIf (iv || ps.any (·.2))⟩

/-- a × b + c, rounded once (R122). -/
def ffma (f : Fmt) (a b c : Nat) : FRes := fdot f [(f.val a, f.val b)] [f.val c]

/-- Order of two numbers that are not NaN; ±0 are equal. -/
def fcompare (a b : FVal) : Ordering :=
  match a, b with
  | .inf x, .inf y => if x == y then .eq else if x then .lt else .gt
  | .inf x, _ => if x then .lt else .gt
  | _, .inf y => if y then .gt else .lt
  | x, y =>
    let e := minExp [x, y] (minExp [x] 0)
    compare (sumAt e [x]) (sumAt e [y])

/-- minimumNumber (`mx` false) or maximumNumber of IEEE 754-2019 on bit patterns (R124). -/
def fminmax (f : Fmt) (mx : Bool) (a b : Nat) : FRes :=
  let x := f.val a
  let y := f.val b
  let fl := ivIf (x.isSnan || y.isSnan)
  if x.isNan && y.isNan then ⟨f.nan, fl⟩
  else if x.isNan then ⟨b, fl⟩
  else if y.isNan then ⟨a, fl⟩
  else
    let aLess := match fcompare x y with
      | .lt => true
      | .gt => false
      | .eq => x.isNeg
    ⟨if aLess != mx then a else b, fl⟩

/-- Integer square root, bit by bit: `fuel` bits are still to be decided. -/
def isqrtAux : Nat → Nat → Nat → Nat
  | 0, _, r => r
  | k + 1, n, r =>
    let c := r + 2 ^ k
    isqrtAux k n (if c * c ≤ n then c else r)

/-- ⌊√n⌋. -/
def isqrt (n : Nat) : Nat := isqrtAux (Nat.log2 n / 2 + 1) n 0

/-- a / b (R130). -/
def fdiv (f : Fmt) (a b : Nat) : FRes :=
  match f.val a, f.val b with
  | .nan x, y => roundF f .rn (.nan (x || y.isSnan))
  | x, .nan y => roundF f .rn (.nan (x.isSnan || y))
  | .inf _, .inf _ => ⟨f.nan, flagIV⟩
  | .inf n, .fin n' _ _ => roundF f .rn (.inf (n != n'))
  | .fin n _ _, .inf n' => roundF f .rn (.fin (n != n') 0 0)
  | .fin n m e, .fin n' m' e' =>
    if m' = 0 then
      if m = 0 then ⟨f.nan, flagIV⟩ else ⟨(roundF f .rn (.inf (n != n'))).bits, flagDZ⟩
    else
      let k := 2 * f.pw + 8
      roundMag f .rn (n != n') (m * 2 ^ k / m') (e - e' - k) (m * 2 ^ k % m' != 0)

/-- √a (R130). -/
def fsqrt (f : Fmt) (a : Nat) : FRes :=
  match f.val a with
  | .nan x => roundF f .rn (.nan x)
  | .inf n => if n then ⟨f.nan, flagIV⟩ else ⟨f.inf, 0⟩
  | .fin n m e =>
    if m = 0 then ⟨a, 0⟩
    else if n then ⟨f.nan, flagIV⟩
    else
      let k := 2 * f.pw + 8 + (if (e + (2 * f.pw + 8 : Nat)) % 2 = 0 then 0 else 1)
      let x := m * 2 ^ k
      let r := isqrt x
      roundMag f .rn false r ((e - k) / 2) (r * r != x)

/-- Rounds to an integral value in the same format (R128). -/
def frnd (f : Fmt) (rm : Rm) (a : Nat) : FRes :=
  match f.val a with
  | .nan x => ⟨f.nan, ivIf x⟩
  | .inf _ => ⟨a, 0⟩
  | .fin n m e =>
    if 0 ≤ e then ⟨a, 0⟩
    else
      let (q, _) := roundInt rm n m (-e) false
      ⟨(roundMag f .rn n q 0 false).bits, 0⟩

/-- a × 2^n (R129). Beyond ±8,192 every finite result has overflowed or underflowed in every format. -/
def fscale (f : Fmt) (a : Nat) (n : Int) : FRes :=
  match f.val a with
  | .fin s m e => roundF f .rn (.fin s m (e + max (-8192) (min 8192 n)))
  | v => roundF f .rn v

/-- The class mask of R127. -/
def fclass (f : Fmt) (a : Nat) : Nat :=
  match f.val a with
  | .nan s => if s then 1 else 2
  | .inf n => if n then 4 else 512
  | .fin n m _ =>
    if m = 0 then (if n then 32 else 64)
    else if m < 2 ^ f.pw then (if n then 16 else 128)
    else (if n then 8 else 256)

/-- The conditions of FCMP and whether the pair raises IV (R126). -/
def fcmp (f : Fmt) (cond : Nat) (a b : Nat) : Bool × FpFlags :=
  let x := f.val a
  let y := f.val b
  let un := x.isNan || y.isNan
  let sn := x.isSnan || y.isSnan
  let o := fcompare x y
  let c := match cond with
    | 0 => !un && o == .eq
    | 1 => un || o != .eq
    | 2 => !un && o == .lt
    | 3 => !un && o != .lt
    | 4 => !un && o != .gt
    | 5 => !un && o == .gt
    | 6 => un
    | _ => !un
  (c, ivIf (if 2 ≤ cond && cond ≤ 5 then un else sn))

/-- Rounds a value to an integer and saturates it to lo … hi (R134): the integer and its flags. -/
def ftoInt (rm : Rm) (lo hi : Int) (v : FVal) : Int × FpFlags :=
  match v with
  | .nan _ => (0, flagIV)
  | .inf n => (if n then lo else hi, flagIV)
  | .fin n m e =>
    let (q, nx) := roundInt rm n m (-e) false
    let i : Int := if n then -(q : Int) else q
    if i < lo then (lo, flagIV)
    else if hi < i then (hi, flagIV)
    else (i, if nx then flagNX else 0)

/-- An integer as an exact value. -/
def FVal.ofInt (i : Int) : FVal := .fin (i < 0) i.natAbs 0

/-- The bfloat16 bits of the sixteen Q4N codes (R117). -/
def q4Table : List Nat :=
  [0xBF80, 0xBF32, 0xBF06, 0xBECA, 0xBE90, 0xBE3C, 0xBDB8, 0x0000,
   0x3DA0, 0x3E24, 0x3E7C, 0x3EAC, 0x3EE0, 0x3F10, 0x3F39, 0x3F80]

/-- The value of a Q4N code (R117). -/
def q4val (code : Nat) : FVal := bf16.val (nth 0 q4Table code)

/-- The code of the nearest value of R117, from the codes `c` to 15 against the best so far; a tie goes
to the even code (R136). All values are in units of 2^e. -/
def q4nearest (e t : Int) : List Nat → Nat → Nat
  | [], best => best
  | c :: cs, best =>
    let d := fun k => (sumAt e [q4val k] - t).natAbs
    q4nearest e t cs (if d c < d best || (d c == d best && c % 2 == 0) then c else best)

/-- QENC (R136): the code and the flags. A NaN product raises IV and not NX (DESIGN CHOICE, log 6): whether a NaN counts as
not exactly the value of the code is open. -/
def qenc (a b : Nat) : Nat × FpFlags :=
  let x := f32.val a
  let y := f32.val b
  let (t, bad) := fmulEx x y
  match t with
  | .nan _ => (7, flagIV)
  | .inf n => (if n then 0 else 15, ivIf bad ||| flagNX)
  | .fin n m e =>
    if m = 0 then (7, 0)
    else
      let u := min e (-16)
      let v := sumAt u [.fin n m e]
      let c :=
        if sumAt u [q4val 15] < v then 15
        else if v < sumAt u [q4val 0] then 0
        else q4nearest u v [1, 2, 3, 4, 5, 6, 7, 8, 9, 10, 11, 12, 13, 14, 15] 0
      (c, if sumAt u [q4val c] == v then 0 else flagNX)

/-- QDEC (R137). -/
def qdec (a b : Nat) : FRes :=
  let (v, iv) := fmulEx (q4val (a % 16)) (f32.val b)
  let r := roundF f32 .rn v
  ⟨r.bits, r.fl ||| ivIf iv⟩

/-! The functions of R131 in fixed point with 400 fraction bits: each result is within its bound of the
exact value, and which of the admitted results is returned is free (DESIGN CHOICE, log 6). -/

def fixP : Nat := 400

/-- Σ (−1)^k x^(2k+1) / (2k+1) in fixed point for x = 1 / n, `k` terms from term i. -/
def atanInv (n : Nat) : Nat → Nat → Nat → Int
  | 0, _, _ => 0
  | k + 1, i, p =>
    let t : Int := (p / (2 * i + 1) : Nat)
    (if i % 2 = 0 then t else -t) + atanInv n k (i + 1) (p / (n * n))

/-- π by Machin's formula. -/
def fixPi : Int :=
  16 * atanInv 5 100 0 (2 ^ fixP / 5) - 4 * atanInv 239 40 0 (2 ^ fixP / 239)

/-- ln 2 = Σ 1 / (k 2^k). -/
def fixLn2 : Nat → Nat → Int
  | 0, _ => 0
  | n + 1, k => ((2 ^ fixP / (k * 2 ^ k) : Nat) : Int) + fixLn2 n (k + 1)

def ln2 : Int := fixLn2 400 1

def fixMul (a b : Int) : Int := a * b / 2 ^ fixP

/-- Σ x^k / k!, from term k with the running term t. -/
def expSeries (x : Int) : Nat → Nat → Int → Int
  | 0, _, _ => 0
  | n + 1, k, t => t + expSeries x n (k + 1) (fixMul t x / (k + 1))

/-- Σ (−1)^k x^(2k + o) / (2k + o)!, with the running term t. -/
def trigSeries (x2 : Int) : Nat → Nat → Int → Int
  | 0, _, _ => 0
  | n + 1, k, t => t + trigSeries x2 n (k + 2) (-(fixMul t x2 / ((k + 1) * (k + 2))))

/-- 2 Σ y^(2k+1) / (2k+1) = ln((1 + y) / (1 − y)). -/
def atanhSeries (y2 : Int) : Nat → Nat → Int → Int
  | 0, _, _ => 0
  | n + 1, k, t => 2 * (t / k) + atanhSeries y2 n (k + 2) (fixMul t y2)

/-- A finite value in fixed point. -/
def toFix (n : Bool) (m : Nat) (e : Int) : Int :=
  let v : Int := if 0 ≤ e + fixP then ((m * 2 ^ (e + fixP).toNat : Nat) : Int) else ((m / 2 ^ (-(e + fixP)).toNat : Nat) : Int)
  if n then -v else v

/-- The value x × 2^sh (x in fixed point, not exact) delivered within `ulps` units in the last place, 2 at most:
the rounded result, moved by a free offset that keeps the bound (R131). Below a power of two the values stand twice as
close, so that 4 of them may lie within 2 units. -/
def deliver (op : Nat) (a : Nat) (ulps : Nat) (x : Int) (sh : Int) : FRes :=
  let m := x.natAbs
  let e := sh - fixP
  let r := roundMag f32 .rn (x < 0) m e true
  let off : Int := (Config.xfChoice op (BitVec.ofNat 32 a) % 9 : Nat) - 4
  let c := ((r.bits : Int) + off).toNat
  let q := max (e + Nat.log2 m) (-126) - 23
  let near : Bool := match f32.val c with
    | .fin n m' e' =>
      let u := min (min e' e) q
      n == decide (x < 0) &&
        decide ((sumAt u [.fin false m' e'] - sumAt u [.fin false m e]).natAbs ≤ ulps * 2 ^ (q - u).toNat)
    | _ => false
  let fl := r.fl ||| flagNX
  if near && r.bits % 2 ^ 31 != f32.inf then ⟨c, fl⟩ else ⟨r.bits, fl⟩

/-- FRCP (R131). -/
def frcp (a : Nat) : FRes :=
  match f32.val a with
  | .nan s => roundF f32 .rn (.nan s)
  | .inf n => roundF f32 .rn (.fin n 0 0)
  | .fin n m e =>
    if m = 0 then ⟨(roundF f32 .rn (.inf n)).bits, flagDZ⟩
    else if m = 2 ^ Nat.log2 m then roundMag f32 .rn n 1 (-(e + Nat.log2 m)) false
    else
      let x : Int := ((2 ^ (fixP + 24) / m : Nat) : Int)
      deliver 0 a 1 (if n then -x else x) (-e - 24)

/-- FRSQ (R131). -/
def frsq (a : Nat) : FRes :=
  match f32.val a with
  | .nan s => roundF f32 .rn (.nan s)
  | .inf n => if n then ⟨f32.nan, flagIV⟩ else ⟨0, 0⟩
  | .fin n m e =>
    if m = 0 then ⟨(roundF f32 .rn (.inf n)).bits, flagDZ⟩
    else if n then ⟨f32.nan, flagIV⟩
    else
      let t := e + Nat.log2 m
      if m = 2 ^ Nat.log2 m && t % 2 = 0 then roundMag f32 .rn false 1 (-t / 2) false
      else
        let k : Nat := if e % 2 = 0 then 0 else 1
        let x : Int := (isqrt (2 ^ (2 * fixP + 64) / (m * 2 ^ k)) : Nat)
        deliver 1 a 1 x (-(e - k) / 2 - 32)

/-- FEXP2 (R131). Far below the subnormal numbers the exact value is only known to be above zero: every value within the
bound is free there too (log 6). -/
def fexp2 (a : Nat) : FRes :=
  match f32.val a with
  | .nan s => roundF f32 .rn (.nan s)
  | .inf n => if n then ⟨0, 0⟩ else ⟨f32.inf, 0⟩
  | .fin n m e =>
    if m = 0 then ⟨0x3F800000, 0⟩
    else
      let x := toFix n m e
      let big : Int := 2 ^ fixP
      let k := x / big
      if 128 ≤ k then ⟨f32.inf, flagOF ||| flagNX⟩
      else if k < -160 then deliver 2 a 2 1 (-300)
      else if x % big = 0 ∧ -149 ≤ k then roundMag f32 .rn false 1 k false
      else deliver 2 a 2 (expSeries (fixMul (x % big) ln2) 100 0 big) k

/-- FLOG2 (R131). -/
def flog2 (a : Nat) : FRes :=
  match f32.val a with
  | .nan s => roundF f32 .rn (.nan s)
  | .inf n => if n then ⟨f32.nan, flagIV⟩ else ⟨f32.inf, 0⟩
  | .fin n m e =>
    if m = 0 then ⟨(roundF f32 .rn (.inf true)).bits, flagDZ⟩
    else if n then ⟨f32.nan, flagIV⟩
    else
      let l := Nat.log2 m
      let t := e + l
      if m = 2 ^ l then roundF f32 .rn (.ofInt t)
      else
        let big : Int := 2 ^ fixP
        let y : Int := ((m - 2 ^ l : Nat) : Int) * big / ((m + 2 ^ l : Nat) : Int)
        deliver 3 a 2 (t * big + atanhSeries (fixMul y y) 140 1 y * big / ln2) 0

/-- sin (`cosine` false) or cos of a finite value, in fixed point. The sine of a number so small that its cube is lost is
still less than the number. -/
def fixTrig (cosine : Bool) (x : Int) : Int :=
  let r := x % (2 * fixPi)
  let r := if fixPi < r then r - 2 * fixPi else r
  if cosine then trigSeries (fixMul r r) 80 0 (2 ^ fixP)
  else
    let v := trigSeries (fixMul r r) 80 1 r
    if v = r then r - r.sign else v

/-- FSIN (R131). -/
def fsin (a : Nat) : FRes :=
  match f32.val a with
  | .nan s => roundF f32 .rn (.nan s)
  | .inf _ => ⟨f32.nan, flagIV⟩
  | .fin n m e => if m = 0 then ⟨a, 0⟩ else deliver 4 a 2 (fixTrig false (toFix n m e)) 0

/-- FCOS (R131). -/
def fcos (a : Nat) : FRes :=
  match f32.val a with
  | .nan s => roundF f32 .rn (.nan s)
  | .inf _ => ⟨f32.nan, flagIV⟩
  | .fin n m e => if m = 0 then ⟨0x3F800000, 0⟩ else deliver 5 a 2 (fixTrig true (toFix n m e)) 0

end Sys2Proof.Machine
end

