-- ==== Sys2Proof/Syntax.lean ====
section
/-! DEFINITION. Syntax.lean: the steps of the Holette H4, one constructor for each row of the opcode
table. The first group are instruction words (R36 to R52): a constructor's arguments are the fields of
the row's encoding, in the order of the word from bit 31 down, `c` being the chain bit. The second
group are the steps of agents other than a program word (completions, the dispatcher, the checker,
the fabric, the host); their arguments name the subject of the step. -/

namespace Sys2Proof

/-- A package rail other than a compute-die rail and VCAR (R438, R439). -/
inductive Rail where
  | vmd | vhbm | vkd | vld
  deriving DecidableEq, Repr

/-- How IMGQUEUE names a save image: a slot of a core's save pool, or a physical address (R447). -/
inductive ImageSource where
  | pool (die core slot : Nat)
  | physical (addr : Nat)
  deriving DecidableEq, Repr

/-- Every step of the machine. -/
inductive Instr where
  | nop (c : Bool)  -- NOP, R52
  | mov (c : Bool) (d a : BitVec 6) (q : BitVec 4)  -- MOV, R83
  | movi (c : Bool) (d : BitVec 6) (i : BitVec 18)  -- MOVI, R83
  | movhi (c : Bool) (d : BitVec 6) (i : BitVec 14)  -- MOVHI, R83
  | laneid (c : Bool) (d : BitVec 6) (m : BitVec 2) (q : BitVec 4)  -- LANEID, R84
  | sel (c : Bool) (d a b : BitVec 6) (m : BitVec 2) (q : BitVec 4)  -- SEL, R86
  | shfl (c : Bool) (d a b : BitVec 6) (m : BitVec 2) (q : BitVec 4)  -- SHFL, R87
  | bcast (c : Bool) (d a b : BitVec 6) (q : BitVec 4)  -- BCAST, R88
  | unif (c : Bool) (d a : BitVec 6) (q : BitVec 4)  -- UNIF, R88
  | icmp (c : Bool) (d : BitVec 3) (a b : BitVec 6) (m : BitVec 2) (q : BitVec 4)  -- ICMP, R89
  | icmpi (c : Bool) (k d : BitVec 3) (a : BitVec 6) (i : BitVec 12)  -- ICMPI, R90
  | plog (c : Bool) (d a b : BitVec 3) (m : BitVec 2) (q : BitVec 4)  -- PLOG, R91
  | p2v (c : Bool) (d : BitVec 6) (q : BitVec 4)  -- P2V, R91
  | v2p (c : Bool) (a : BitVec 6) (q : BitVec 4)  -- V2P, R91
  | voteAnyAll (c : Bool) (d a : BitVec 3) (m : BitVec 1) (q : BitVec 4)  -- VOTE_ANY_ALL, R92
  | voteBallot (c : Bool) (d : BitVec 6) (a : BitVec 3) (q : BitVec 4)  -- VOTE_BALLOT, R92
  | iadd (c : Bool) (d a b : BitVec 6) (m : BitVec 2) (q : BitVec 4)  -- IADD, R93
  | isub (c : Bool) (d a b : BitVec 6) (m : BitVec 2) (q : BitVec 4)  -- ISUB, R93
  | iaddi (c : Bool) (d a : BitVec 6) (i : BitVec 12)  -- IADDI, R93
  | imul (c : Bool) (d a b : BitVec 6) (m : BitVec 2) (q : BitVec 4)  -- IMUL, R93
  | imulhs (c : Bool) (d a b : BitVec 6) (m : BitVec 1) (q : BitVec 4)  -- IMULHS, R93
  | imulhn (c : Bool) (d a b : BitVec 6) (m : BitVec 1) (q : BitVec 4)  -- IMULHN, R93
  | imad (c : Bool) (d a b e : BitVec 6)  -- IMAD, R94
  | imadw (c : Bool) (d : BitVec 5) (a b : BitVec 6) (e : BitVec 5)  -- IMADW, R94
  | imadwn (c : Bool) (d : BitVec 5) (a b : BitVec 6) (e : BitVec 5)  -- IMADWN, R94
  | imin (c : Bool) (d a b : BitVec 6) (m : BitVec 2) (q : BitVec 4)  -- IMIN, R93
  | imax (c : Bool) (d a b : BitVec 6) (m : BitVec 2) (q : BitVec 4)  -- IMAX, R93
  | iabs (c : Bool) (d a : BitVec 6) (m : BitVec 2) (q : BitVec 4)  -- IABS, R93
  | ineg (c : Bool) (d a : BitVec 6) (m : BitVec 2) (q : BitVec 4)  -- INEG, R93
  | idiv (c : Bool) (d a b : BitVec 6) (m : BitVec 2) (q : BitVec 4)  -- IDIV, R95
  | irem (c : Bool) (d a b : BitVec 6) (m : BitVec 2) (q : BitVec 4)  -- IREM, R95
  | iaccw (c : Bool) (d : BitVec 5) (a : BitVec 6) (m : BitVec 2) (q : BitVec 4)  -- IACCW, R96
  | addr (c : Bool) (d a : BitVec 5) (b : BitVec 6) (m : BitVec 2) (q : BitVec 4)  -- ADDR, R97
  | addri (c : Bool) (d a : BitVec 5) (i : BitVec 12)  -- ADDRI, R97
  | and (c : Bool) (d a b : BitVec 6) (m : BitVec 1) (q : BitVec 4)  -- AND, R98
  | or (c : Bool) (d a b : BitVec 6) (m : BitVec 1) (q : BitVec 4)  -- OR, R98
  | xor (c : Bool) (d a b : BitVec 6) (m : BitVec 1) (q : BitVec 4)  -- XOR, R98
  | andn (c : Bool) (d a b : BitVec 6) (m : BitVec 1) (q : BitVec 4)  -- ANDN, R98
  | not (c : Bool) (d a : BitVec 6) (m : BitVec 1) (q : BitVec 4)  -- NOT, R98
  | andi (c : Bool) (d a : BitVec 6) (i : BitVec 12)  -- ANDI, R98
  | ori (c : Bool) (d a : BitVec 6) (i : BitVec 12)  -- ORI, R98
  | xori (c : Bool) (d a : BitVec 6) (i : BitVec 12)  -- XORI, R98
  | shl (c : Bool) (d a b : BitVec 6) (m : BitVec 2) (q : BitVec 4)  -- SHL, R99
  | shr (c : Bool) (d a b : BitVec 6) (m : BitVec 2) (q : BitVec 4)  -- SHR, R99
  | sar (c : Bool) (d a b : BitVec 6) (m : BitVec 2) (q : BitVec 4)  -- SAR, R99
  | shli (c : Bool) (d a : BitVec 6) (w : BitVec 1) (n : BitVec 6)  -- SHLI, R99
  | shri (c : Bool) (d a : BitVec 6) (w : BitVec 1) (n : BitVec 6)  -- SHRI, R99
  | sari (c : Bool) (d a : BitVec 6) (w : BitVec 1) (n : BitVec 6)  -- SARI, R99
  | bfx (c : Bool) (d a : BitVec 6) (l p : BitVec 5)  -- BFX, R100
  | bfxs (c : Bool) (d a : BitVec 6) (l p : BitVec 5)  -- BFXS, R100
  | bfi (c : Bool) (d a : BitVec 6) (l p : BitVec 5)  -- BFI, R100
  | bitop (c : Bool) (d a : BitVec 6) (m : BitVec 2) (q : BitVec 4)  -- BITOP, R101
  | scan (c : Bool) (d a : BitVec 6) (m : BitVec 2) (q : BitVec 4)  -- SCAN, R102
  | ired (c : Bool) (d a : BitVec 6) (m : BitVec 2) (q : BitVec 4)  -- IRED, R103
  | waitf (m : BitVec 12)  -- WAITF, R202
  | waitc (k : BitVec 3) (n : BitVec 6)  -- WAITC, R203
  | waitany (p : BitVec 1) (m : BitVec 8)  -- WAITANY, R299
  | bar (w : BitVec 1) (s : BitVec 2)  -- BAR, R302
  | fadd (c : Bool) (d a b : BitVec 6) (m : BitVec 2) (q : BitVec 4)  -- FADD, R121
  | fsub (c : Bool) (d a b : BitVec 6) (m : BitVec 2) (q : BitVec 4)  -- FSUB, R121
  | fmul (c : Bool) (d a b : BitVec 6) (m : BitVec 2) (q : BitVec 4)  -- FMUL, R121
  | ffma32 (c : Bool) (d a b e : BitVec 6)  -- FFMA32, R122
  | ffma64 (c : Bool) (d a b e : BitVec 5)  -- FFMA64, R122
  | ffmabf (c : Bool) (d a b e : BitVec 6)  -- FFMABF, R122
  | ffmah (c : Bool) (d a b e : BitVec 6)  -- FFMAH, R122
  | fmin (c : Bool) (d a b : BitVec 6) (m : BitVec 2) (q : BitVec 4)  -- FMIN, R124
  | fmax (c : Bool) (d a b : BitVec 6) (m : BitVec 2) (q : BitVec 4)  -- FMAX, R124
  | fsgn (c : Bool) (d a b : BitVec 6) (m : BitVec 2) (q : BitVec 4)  -- FSGN, R125
  | fcmp (c : Bool) (d : BitVec 3) (a b : BitVec 6) (m : BitVec 1) (q : BitVec 4)  -- FCMP, R126
  | fclass (c : Bool) (d a : BitVec 6) (m : BitVec 2) (q : BitVec 4)  -- FCLASS, R127
  | frnd (c : Bool) (d a : BitVec 6) (r m : BitVec 2) (q : BitVec 4)  -- FRND, R128
  | fdiv (c : Bool) (d a b : BitVec 6) (m : BitVec 1) (q : BitVec 4)  -- FDIV, R130
  | fsqrt (c : Bool) (d a : BitVec 6) (m : BitVec 1) (q : BitVec 4)  -- FSQRT, R130
  | frcp (c : Bool) (d a : BitVec 6) (q : BitVec 4)  -- FRCP, R131
  | frsq (c : Bool) (d a : BitVec 6) (q : BitVec 4)  -- FRSQ, R131
  | fexp2 (c : Bool) (d a : BitVec 6) (q : BitVec 4)  -- FEXP2, R131
  | flog2 (c : Bool) (d a : BitVec 6) (q : BitVec 4)  -- FLOG2, R131
  | fsin (c : Bool) (d a : BitVec 6) (q : BitVec 4)  -- FSIN, R131
  | fcos (c : Bool) (d a : BitVec 6) (q : BitVec 4)  -- FCOS, R131
  | cvt (c : Bool) (d a : BitVec 6) (t s : BitVec 3) (r : BitVec 2) (q : BitVec 4)  -- CVT, R134
  | cvtp (c : Bool) (d a b : BitVec 6) (m : BitVec 1) (q : BitVec 4)  -- CVTP, R135
  | qenc (c : Bool) (d a b : BitVec 6) (q : BitVec 4)  -- QENC, R136
  | qdec (c : Bool) (d a b : BitVec 6) (q : BitVec 4)  -- QDEC, R137
  | fscale (c : Bool) (d a b : BitVec 6) (m : BitVec 2) (q : BitVec 4)  -- FSCALE, R129
  | fdot2 (c : Bool) (d a b e : BitVec 6)  -- FDOT2, R123
  | fmovi (c : Bool) (d : BitVec 6) (i : BitVec 18)  -- FMOVI, R132
  | fsum (c : Bool) (d a : BitVec 6) (m : BitVec 1) (q : BitVec 4)  -- FSUM, R138
  | fscan (c : Bool) (d a : BitVec 6) (m : BitVec 1) (q : BitVec 4)  -- FSCAN, R139
  | bra (q : BitVec 4) (n : BitVec 1) (i : BitVec 19)  -- BRA, R156
  | jmp (a : BitVec 5) (q : BitVec 4)  -- JMP, R157
  | call (q : BitVec 4) (n : BitVec 1) (i : BitVec 19)  -- CALL, R156
  | calli (a : BitVec 5) (q : BitVec 4)  -- CALLI, R157
  | ret  -- RET, R158
  | regang (m : BitVec 8)  -- REGANG, R160
  | exit  -- EXIT, R162
  | yield  -- YIELD, R163
  | sleep (n : BitVec 16)  -- SLEEP, R164
  | rds (c : Bool) (d : BitVec 6) (s : BitVec 10)  -- RDS, R153
  | rdsMqRecv (c : Bool) (d : BitVec 6) (n : BitVec 2)  -- RDS_MQ_RECV, R269
  | rdsGangFpstat (c : Bool) (d : BitVec 6)  -- RDS_GANG_FPSTAT, R114
  | wrs (c : Bool) (d : BitVec 6) (s : BitVec 10)  -- WRS, R153
  | wrsMqSend (c : Bool) (d : BitVec 6)  -- WRS_MQ_SEND, R272
  | wrsGangFpstat (c : Bool) (d : BitVec 6)  -- WRS_GANG_FPSTAT, R114
  | wrsSliceStatus (c : Bool) (d : BitVec 6)  -- WRS_SLICE_STATUS, R145
  | wrsMxUe (c : Bool) (d : BitVec 6)  -- WRS_MX_UE, R237
  | wrsPerfSel (c : Bool) (d : BitVec 6) (n : BitVec 3)  -- WRS_PERF_SEL, R418
  | wrsTrapQ (c : Bool) (d : BitVec 6)  -- WRS_TRAP_Q, R316
  | wrsDbgCtl (c : Bool) (d : BitVec 6)  -- WRS_DBG_CTL, R324
  | injectZFlipMma (c : Bool) (d : BitVec 6)  -- INJECT_Z_FLIP_MMA, R406
  | injectZFlipZst (c : Bool) (d : BitVec 6)  -- INJECT_Z_FLIP_ZST, R406
  | injectZUe (c : Bool) (d : BitVec 6)  -- INJECT_Z_UE, R406
  | injectSlotUe (c : Bool) (d : BitVec 6)  -- INJECT_SLOT_UE, R406
  | injectFatal (c : Bool) (d : BitVec 6)  -- INJECT_FATAL, R435
  | trap (k : BitVec 8)  -- TRAP, R319
  | rte  -- RTE, R320
  | brk (k : BitVec 8)  -- BRK, R319
  | mkpush (c : Bool) (q : BitVec 4)  -- MKPUSH, R159
  | mkctl (c : Bool) (o : BitVec 1)  -- MKCTL, R159
  | ld (c : Bool) (d a : BitVec 6) (f l : BitVec 4) (s z : BitVec 2)  -- LD, R184
  | ldw (c : Bool) (d a : BitVec 6) (f l : BitVec 4) (s : BitVec 1) (z : BitVec 2)  -- LDW, R177
  | ldt (c : Bool) (d a : BitVec 6) (f l : BitVec 4) (s : BitVec 1) (z : BitVec 2)  -- LDT, R177
  | lda (c : Bool) (d a : BitVec 6) (f l : BitVec 4) (s z : BitVec 2)  -- LDA, R184
  | ldx (c : Bool) (d a : BitVec 6) (f l : BitVec 4) (s z : BitVec 2)  -- LDX, R184
  | st (c : Bool) (d a : BitVec 6) (f l : BitVec 4) (s z : BitVec 2)  -- ST, R185
  | stf (c : Bool) (d a : BitVec 6) (f l : BitVec 4) (s : BitVec 1) (z : BitVec 2)  -- STF, R185
  | strel (c : Bool) (d a : BitVec 6) (f l : BitVec 4) (s z : BitVec 2)  -- STREL, R185
  | stx (c : Bool) (d a : BitVec 6) (f l : BitVec 4) (s : BitVec 2) (z : BitVec 1)  -- STX, R185
  | gst (c : Bool) (d : BitVec 6) (a : BitVec 5) (f l : BitVec 4) (z : BitVec 2)  -- GST, R186
  | atom (c : Bool) (d a : BitVec 6) (t : BitVec 3) (o : BitVec 4) (p : BitVec 1) (f : BitVec 4)  -- ATOM, R207
  | fence (c : Bool) (r : BitVec 1) (k : BitVec 2) (s : BitVec 3)  -- FENCE, R204
  | claim (c : Bool) (n : BitVec 5) (t : BitVec 4)  -- CLAIM, R223
  | free (c : Bool) (n : BitVec 5)  -- FREE, R223
  | tld (c : Bool) (n : BitVec 5) (y z : BitVec 6)  -- TLD, R224
  | tldt (c : Bool) (n : BitVec 5) (y z : BitVec 6)  -- TLDT, R224
  | tldm (c : Bool) (n : BitVec 5) (y : BitVec 6)  -- TLDM, R225
  | zclr (c : Bool) (n : BitVec 4)  -- ZCLR, R226
  | zld (c : Bool) (n : BitVec 4) (y z : BitVec 6)  -- ZLD, R226
  | zst (c : Bool) (m : BitVec 2) (n : BitVec 4) (y z : BitVec 6)  -- ZST, R227
  | mmabf (c : Bool) (n : BitVec 4) (a b : BitVec 5)  -- MMABF, R230
  | mmah (c : Bool) (n : BitVec 4) (a b : BitVec 5)  -- MMAH, R230
  | mmai8 (c : Bool) (n : BitVec 4) (a b : BitVec 5)  -- MMAI8, R230
  | mmai16 (c : Bool) (n : BitVec 3) (a b : BitVec 5)  -- MMAI16, R230
  | mmaf64 (c : Bool) (n : BitVec 4) (a b : BitVec 5)  -- MMAF64, R230
  | mmaq4 (c : Bool) (n : BitVec 3) (a b : BitVec 5)  -- MMAQ4, R231
  | mmasbf (c : Bool) (n : BitVec 4) (a b : BitVec 5)  -- MMASBF, R232
  | mmasi8 (c : Bool) (h : BitVec 1) (n : BitVec 4) (a b : BitVec 5)  -- MMASI8, R232
  | mgemm (c : Bool) (y : BitVec 6)  -- MGEMM, R239
  | tst (c : Bool) (n : BitVec 5) (y z : BitVec 6)  -- TST, R228
  | cpart (c : Bool) (y : BitVec 6)  -- CPART, R259
  | cpmx (c : Bool) (y : BitVec 6)  -- CPMX, R259
  | gather (c : Bool) (y : BitVec 6)  -- GATHER, R260
  | scatter (c : Bool) (y : BitVec 6)  -- SCATTER, R260
  | cred (c : Bool) (y : BitVec 6)  -- CRED, R261
  | chtest (c : Bool) (p : BitVec 3) (y z : BitVec 6)  -- CHTEST, R263
  | chreset (c : Bool) (y : BitVec 6)  -- CHRESET, R264
  | feset (c : Bool) (x y : BitVec 6) (s v : BitVec 1)  -- FESET, R187
  | bind (c : Bool) (k n : BitVec 3) (y : BitVec 6) (z : BitVec 5)  -- BIND, R297
  | unbind (c : Bool) (n : BitVec 3)  -- UNBIND, R298
  | ginfo (c : Bool) (x : BitVec 6) (s : BitVec 2) (i : BitVec 3)  -- GINFO, R306
  | launch (c : Bool) (n y : BitVec 6)  -- LAUNCH, R286
  | chopen (c : Bool) (n : BitVec 4) (m : BitVec 6)  -- CHOPEN, R287
  | chclose (c : Bool) (n : BitVec 4)  -- CHCLOSE, R287
  | chsel (c : Bool) (n : BitVec 4)  -- CHSEL, R287
  | wseed (c : Bool) (x : BitVec 4)  -- WSEED, R408
  | wemit (c : Bool) (i : BitVec 4) (y : BitVec 6) (z : BitVec 5)  -- WEMIT, R409
  | wclose (c : Bool)  -- WCLOSE, R410
  | sigrd (c : Bool) (x : BitVec 5)  -- SIGRD, R411
  | relreq (c : Bool) (x y : BitVec 6)  -- RELREQ, R412
  | tlbinvPage (c : Bool) (y : BitVec 5)  -- TLBINV_PAGE, R356
  | tlbinvRange (c : Bool) (y : BitVec 5) (z : BitVec 6)  -- TLBINV_RANGE, R356
  | tlbinvCtx (c : Bool)  -- TLBINV_CTX, R356
  | tlbinvAll (c : Bool)  -- TLBINV_ALL, R356
  | cwb (c : Bool) (h v : BitVec 1) (y : BitVec 5) (z : BitVec 6)  -- CWB, R357
  | evict (c : Bool)  -- EVICT, R288
  | schedulerCycle (die core : Nat)  -- SCHEDULER_CYCLE, R284
  | ageingLevelRise (gang : Nat)  -- AGEING_LEVEL_RISE, R284
  | sleepExpiry (gang slice : Nat)  -- SLEEP_EXPIRY, R164
  | handlerEntry (gang : Nat)  -- HANDLER_ENTRY, R313
  | scratchpadLoadComplete (gang op : Nat)  -- SCRATCHPAD_LOAD_COMPLETE, R184
  | scratchpadStoreComplete (gang op : Nat)  -- SCRATCHPAD_STORE_COMPLETE, R185
  | gstComplete (gang op : Nat)  -- GST_COMPLETE, R186
  | atomComplete (gang op : Nat)  -- ATOM_COMPLETE, R207
  | postedAtomicPerform (op : Nat)  -- POSTED_ATOMIC_PERFORM, R210
  | walkEnd (gang op : Nat)  -- WALK_END, R353
  | mxCommandStart (cmd : Nat)  -- MX_COMMAND_START, R241
  | microTileComplete (cmd : Nat)  -- MICRO_TILE_COMPLETE, R233
  | mxCommandComplete (cmd : Nat)  -- MX_COMMAND_COMPLETE, R241
  | mgemmStepComplete (cmd : Nat)  -- MGEMM_STEP_COMPLETE, R239
  | mgemmEnd (cmd : Nat)  -- MGEMM_END, R240
  | collectiveStart (block : Nat)  -- COLLECTIVE_START, R251
  | chunkLanded (block coll chunk : Nat)  -- CHUNK_LANDED, R252
  | copyFailure (block coll chunk : Nat)  -- COPY_FAILURE, R253
  | collectiveEnd (block coll : Nat)  -- COLLECTIVE_END, R253
  | fesetEffect (gang op : Nat)  -- FESET_EFFECT, R187
  | fesetComplete (gang op : Nat)  -- FESET_COMPLETE, R265
  | chresetEffect (gang op : Nat)  -- CHRESET_EFFECT, R264
  | flitPlacement (flit : Nat)  -- FLIT_PLACEMENT, R271
  | flitResend (flit : Nat)  -- FLIT_RESEND, R271
  | bindingPending (gang bind : Nat)  -- BINDING_PENDING, R293
  | timerBindingExpiry (gang bind : Nat)  -- TIMER_BINDING_EXPIRY, R292
  | brokenTaskTimeout (task : Nat)  -- BROKEN_TASK_TIMEOUT, R303
  | samplingChoice (die core sched : Nat)  -- SAMPLING_CHOICE, R326
  | samplingRecord (die core sched : Nat)  -- SAMPLING_RECORD, R326
  | taskRecordArrival (record : Nat)  -- TASK_RECORD_ARRIVAL, R278
  | blockAdmission  -- BLOCK_ADMISSION, R281
  | blockEvictionSave (block : Nat)  -- BLOCK_EVICTION_SAVE, R283
  | blockRestore (image : Nat)  -- BLOCK_RESTORE, R333
  | witnessItemStore (gang op : Nat)  -- WITNESS_ITEM_STORE, R409
  | sigrdReply (gang op : Nat)  -- SIGRD_REPLY, R411
  | relreqReply (gang op : Nat)  -- RELREQ_REPLY, R412
  | witnessTest (oper : Nat)  -- WITNESS_TEST, R390
  | operatorRelease (oper : Nat)  -- OPERATOR_RELEASE, R390
  | replayStart (replay : Nat)  -- REPLAY_START, R398
  | replayEnd (replay : Nat)  -- REPLAY_END, R399
  | replayAbandon (replay : Nat)  -- REPLAY_ABANDON, R398
  | unitRetirement (node kind index : Nat)  -- UNIT_RETIREMENT, R403
  | errorCountAgeing (node kind index : Nat)  -- ERROR_COUNT_AGEING, R421
  | dieFatalError (die : Nat)  -- DIE_FATAL_ERROR, R404
  | linkFlitReceive (link side seqno : Nat) (raw : List Byte)  -- LINK_FLIT_RECEIVE, R362
  | linkAck (link side seqno : Nat)  -- LINK_ACK, R362
  | linkRetrain (link : Nat)  -- LINK_RETRAIN, R362
  | linkReplayRequest (link side seqno : Nat)  -- LINK_REPLAY_REQUEST, R362
  | linkRetrainingEnd (link : Nat) (trained : Bool)  -- LINK_RETRAINING_END, R362
  | requestTimeout (request : Nat)  -- REQUEST_TIMEOUT, R362
  | probe (node port : Nat)  -- PROBE, R363
  | probeReply (node port : Nat)  -- PROBE_REPLY, R363
  | routeWrite (node : Nat)  -- ROUTE_WRITE, R364
  | routeRecompute  -- ROUTE_RECOMPUTE, R366
  | readRequest (die line : Nat)  -- READ_REQUEST, R369
  | ownRequest (die line : Nat)  -- OWN_REQUEST, R369
  | forwardedRequest (die line req : Nat) (own : Bool)  -- FORWARDED_REQUEST, R369
  | tokensArrive (holder origin line tokens : Nat) (owner dirty data : Bool)  -- TOKENS_ARRIVE, R369
  | dieCacheEviction (die line : Nat)  -- DIE_CACHE_EVICTION, R369
  | transientRetryTimeout (die line : Nat)  -- TRANSIENT_RETRY_TIMEOUT, R370
  | persistentActivate (die line : Nat) (own : Bool)  -- PERSISTENT_ACTIVATE, R370: for the home, or for a die (forDie)
  | persistentDeactivate (die line : Nat)  -- PERSISTENT_DEACTIVATE, R370: for the home, or for a die (forDie)
  | deactivateAcknowledge (die line : Nat)  -- DEACTIVATE_ACKNOWLEDGE, R370
  | nackEndpointAbsent (request : Nat)  -- NACK_ENDPOINT_ABSENT, R373
  | carriageTrainingDone  -- CARRIAGE_TRAINING_DONE, R373
  | heartbeat  -- HEARTBEAT, R373
  | carriageReset  -- CARRIAGE_RESET, R374
  | carriageTransitFlit (dst hops : Nat) (raw : List Byte)  -- CARRIAGE_TRANSIT_FLIT, R374
  | hostApertureRead (aperture : Option Nat) (offset count : Nat)  -- HOST_APERTURE_READ, R350
  | hostApertureWrite (aperture : Option Nat) (offset : Nat) (bytes : List Byte)  -- HOST_APERTURE_WRITE, R350
  | heartbeatMiss  -- HEARTBEAT_MISS, R373
  | quiesce (port : Nat)  -- QUIESCE, R374
  | governorLevelChange (node depth : Nat)  -- GOVERNOR_LEVEL_CHANGE, R375
  | hostWindowSend (window : Nat) (payload : List Byte)  -- HOST_WINDOW_SEND, R273
  | hostWindowRecv (place : Nat)  -- HOST_WINDOW_RECV, R273: a byte of the windows, 4 KiB each
  | powerOn  -- POWER_ON, R439
  | computeRailFall (die : Nat)  -- COMPUTE_RAIL_FALL, R439
  | packageRailFall (rail : Rail)  -- PACKAGE_RAIL_FALL, R439
  | vcarFall  -- VCAR_FALL, R439
  | packageReset  -- PACKAGE_RESET, R442
  | thermalStepDown (node : Nat)  -- THERMAL_STEP_DOWN, R440
  | thermalStepUp (node : Nat)  -- THERMAL_STEP_UP, R440
  | thermalTrip (node : Nat)  -- THERMAL_TRIP, R440
  | mctpPacket (source : Nat) (checksumOk : Bool) (datagram : List Byte)  -- MCTP_PACKET, R445
  | setEndpointId (source eid : Nat)  -- SET_ENDPOINT_ID, R445
  | getVersion  -- GET_VERSION, R446
  | getCapabilities  -- GET_CAPABILITIES, R446
  | negotiateAlgorithms (p521 sha512 aes256gcm : Bool)  -- NEGOTIATE_ALGORITHMS, R446
  | getDigests  -- GET_DIGESTS, R446
  | getCertificate (slot offset count : Nat)  -- GET_CERTIFICATE, R446
  | challenge (nonce : List Byte)  -- CHALLENGE, R446
  | getMeasurements (index : Nat) (nonce : List Byte)  -- GET_MEASUREMENTS, R446
  | keyExchange (source : Nat) (share : List Byte)  -- KEY_EXCHANGE, R446
  | finish (source : Nat) (proofOk : Bool)  -- FINISH, R446
  | endSession (source : Nat)  -- END_SESSION, R446
  | ctxwrite (ses : Bool) (ctx : Nat) (entry : List Byte)  -- CTXWRITE, R337
  | grant (ses : Bool) (die num ctx base len : Nat)  -- GRANT, R343
  | winbind (window tenant : Nat) (cap : List Byte)  -- WINBIND, R273
  | pkgnum (num : Nat)  -- PKGNUM, R360
  | fwdtab (pkg primary alternate : Nat)  -- FWDTAB, R374
  | screen (q : Nat)  -- SCREEN, R397
  | window (seconds threshold : Nat)  -- WINDOW, R421
  | keyload (ses : Bool) (slot tenant : Nat)  -- KEYLOAD, R405
  | retireRemove (ses : Bool) (node kind index : Nat)  -- RETIRE_REMOVE, R402
  | injlock (ses lock : Bool)  -- INJLOCK, R406
  | halt (die core : Nat) (on : Bool)  -- HALT, R325
  | tlbi (ctx : Option Nat) (va pages : Nat)  -- TLBI, R354
  | savepool (die core : Nat) (base : DWord)  -- SAVEPOOL, R327
  | faultread  -- FAULTREAD, R401
  | countread (node : Nat)  -- COUNTREAD, R420
  | reset (ses : Bool)  -- RESET, R441
  | coreinit (ses : Bool) (die core : Nat)  -- COREINIT, R441
  | carreset (ses : Bool)  -- CARRESET, R441
  | taskend (ses : Bool) (task : Nat)  -- TASKEND, R447
  | imgqueue (ses : Bool) (source : ImageSource)  -- IMGQUEUE, R447
  | aperbind (ses : Bool) (aperture : Nat) (target : Option (Nat × Nat))  -- APERBIND, R350
  | hostrange (ses : Bool) (base len : Nat) (declare : Bool)  -- HOSTRANGE, R351
  | fwwrite (ses : Bool) (offset : Nat) (bytes : List Byte)  -- FWWRITE, R443
  | fwselect (ses : Bool)  -- FWSELECT, R443
  | vcarPowerOn  -- VCAR_POWER_ON, R439
  deriving DecidableEq, Repr

end Sys2Proof
end

