-- ==== Sys2Proof/WellFormed.lean ====
section
/-! DEFINITION. WellFormed.lean: which field values the specification assigns (R46 to R58 and the
encoding tables of the chapters). A word whose fields are not well formed is illegal (R59). -/

namespace Sys2Proof

/-- A guard other than the illegal 0b1111 (R47). -/
def guardOk (q : BitVec 4) : Bool := q != 15

/-- A register field that may name a pair (R8). -/
def isEven (r : BitVec 6) : Bool := r.toNat % 2 == 0

/-- A predicate destination other than p7 (R46). -/
def notP7 (d : BitVec 3) : Bool := d != 7

/-- The base of a block of n registers: a pair is even, a quad a multiple of 4 (R8, R54). -/
def blockOk (n : Nat) (d : BitVec 6) : Bool := d.toNat % n == 0

/-- Size and operand block of a load or store (R54). -/
def sizeOk (z : BitVec 2) (d : BitVec 6) : Bool := z != 3 && blockOk (2 ^ z.toNat) d

/-- Flag and lookahead of an L-format word (R56, R183). -/
def flagOk (f l : BitVec 4) : Bool := decide (f.toNat < 12) || (f == 15 && l == 0)

/-- Registers of one operand of an ATOM type (R205). -/
def atomRegs (t : Nat) : Nat := if t = 6 then 4 else if t = 1 ∨ t = 3 ∨ t = 5 then 2 else 1

/-- The legal pairings of ATOM type and operation (R206). -/
def atomOk (t o : Nat) : Bool :=
  if t ≤ 1 then decide (o ≤ 10)
  else if t ≤ 3 then decide (9 ≤ o ∧ o ≤ 13)
  else if t ≤ 5 then decide (11 ≤ o ∧ o ≤ 13)
  else t == 6 && (o == 9 || o == 10)

/-- The special registers of R144 that RDS may name; RDS of GANG.FPSTAT and of MQ.RECV0 to MQ.RECV3 are
rows of their own. -/
def rdsOk (s : Nat) : Bool :=
  [0x000, 0x001, 0x002, 0x010, 0x011, 0x012, 0x013, 0x014, 0x020, 0x021, 0x022, 0x023,
   0x030, 0x031, 0x032, 0x041, 0x046, 0x050, 0x051, 0x052, 0x058, 0x060, 0x061].contains s
  || decide (0x088 ≤ s ∧ s ≤ 0x08F)
  || [0x100, 0x101, 0x102, 0x103, 0x110, 0x111, 0x112, 0x113, 0x114, 0x138, 0x140, 0x141, 0x148].contains s
  || decide (0x130 ≤ s ∧ s ≤ 0x137) || decide (0x150 ≤ s ∧ s ≤ 0x157)

/-- The special registers of R144 that WRS may name and that have no row of their own. -/
def wrsOk (s : Nat) : Bool :=
  [0x002, 0x041, 0x058, 0x102, 0x110, 0x111, 0x112, 0x113, 0x140, 0x141, 0x148].contains s
  || decide (0x130 ≤ s ∧ s ≤ 0x137)

/-- The 64-bit special registers of R144. -/
def sregWide (s : Nat) : Bool :=
  [0x001, 0x002, 0x013, 0x014, 0x021, 0x060, 0x061, 0x100, 0x102, 0x111, 0x112, 0x141].contains s
  || decide (0x088 ≤ s ∧ s ≤ 0x08F) || decide (0x130 ≤ s ∧ s ≤ 0x137)

/-- Every field holds a value the specification assigns. The steps that no word encodes have no
reserved value. -/
def Instr.wf : Instr → Bool
  | .nop _ => true
  | .mov _ _ _ q => guardOk q
  | .movi _ _ _ => true
  | .movhi _ _ _ => true
  | .laneid _ _ _ q => guardOk q
  | .sel _ _ _ _ _ q => guardOk q
  | .shfl _ _ _ _ _ q => guardOk q
  | .bcast _ _ _ _ q => guardOk q
  | .unif _ _ _ q => guardOk q
  | .icmp _ d a b m _ => notP7 d && (!(m.toNat ≥ 2) || (isEven a && isEven b))
  | .icmpi _ _ d _ _ => notP7 d
  | .plog _ d _ _ _ q => notP7 d && guardOk q
  | .p2v _ _ q => guardOk q
  | .v2p _ _ q => guardOk q
  | .voteAnyAll _ d _ _ q => notP7 d && guardOk q
  | .voteBallot _ _ _ q => guardOk q
  | .iadd _ d a b m q => guardOk q && (!(m == 1) || (isEven d && isEven a && isEven b))
  | .isub _ d a b m q => guardOk q && (!(m == 1) || (isEven d && isEven a && isEven b))
  | .iaddi _ _ _ _ => true
  | .imul _ d a b m q => guardOk q && (!(m == 1) || (isEven d && isEven a && isEven b))
  | .imulhs _ d a b m q => guardOk q && (!(m == 1) || (isEven d && isEven a && isEven b))
  | .imulhn _ d a b m q => guardOk q && (!(m == 1) || (isEven d && isEven a && isEven b))
  | .imad _ _ _ _ _ => true
  | .imadw _ _ _ _ _ => true
  | .imadwn _ _ _ _ _ => true
  | .imin _ d a b m q => guardOk q && (!(m.toNat ≥ 2) || (isEven d && isEven a && isEven b))
  | .imax _ d a b m q => guardOk q && (!(m.toNat ≥ 2) || (isEven d && isEven a && isEven b))
  | .iabs _ d a m q => guardOk q && (!(m == 1) || (isEven d && isEven a))
  | .ineg _ d a m q => guardOk q && (!(m == 1) || (isEven d && isEven a))
  | .idiv _ d a b m q => guardOk q && (!(m.toNat ≥ 2) || (isEven d && isEven a && isEven b))
  | .irem _ d a b m q => guardOk q && (!(m.toNat ≥ 2) || (isEven d && isEven a && isEven b))
  | .iaccw _ _ _ _ q => guardOk q
  | .addr _ _ _ _ _ q => guardOk q
  | .addri _ _ _ _ => true
  | .and _ d a b m q => guardOk q && (!(m == 1) || (isEven d && isEven a && isEven b))
  | .or _ d a b m q => guardOk q && (!(m == 1) || (isEven d && isEven a && isEven b))
  | .xor _ d a b m q => guardOk q && (!(m == 1) || (isEven d && isEven a && isEven b))
  | .andn _ d a b m q => guardOk q && (!(m == 1) || (isEven d && isEven a && isEven b))
  | .not _ d a m q => guardOk q && (!(m == 1) || (isEven d && isEven a))
  | .andi _ _ _ _ => true
  | .ori _ _ _ _ => true
  | .xori _ _ _ _ => true
  | .shl _ d a _ m q => guardOk q && (!(m == 1) || (isEven d && isEven a))
  | .shr _ d a _ m q => guardOk q && (!(m == 1) || (isEven d && isEven a))
  | .sar _ d a _ m q => guardOk q && (!(m == 1) || (isEven d && isEven a))
  | .shli _ d a w _ => (!(w == 1) || (isEven d && isEven a))
  | .shri _ d a w _ => (!(w == 1) || (isEven d && isEven a))
  | .sari _ d a w _ => (!(w == 1) || (isEven d && isEven a))
  | .bfx _ _ _ l p => (p.toNat + l.toNat + 1 ≤ 32)
  | .bfxs _ _ _ l p => (p.toNat + l.toNat + 1 ≤ 32)
  | .bfi _ _ _ l p => (p.toNat + l.toNat + 1 ≤ 32)
  | .bitop _ _ _ _ q => guardOk q
  | .scan _ d _ m q => guardOk q && (!(m == 2) || (isEven d))
  | .ired _ d _ m q => guardOk q && (!(m == 1) || (isEven d))
  | .waitf _ => true
  | .waitc k _ => (k.toNat < 6)
  | .waitany _ _ => true
  | .bar _ _ => true
  | .fadd _ d a b m q => guardOk q && (!(m == 1) || (isEven d && isEven a && isEven b))
  | .fsub _ d a b m q => guardOk q && (!(m == 1) || (isEven d && isEven a && isEven b))
  | .fmul _ d a b m q => guardOk q && (!(m == 1) || (isEven d && isEven a && isEven b))
  | .ffma32 _ _ _ _ _ => true
  | .ffma64 _ _ _ _ _ => true
  | .ffmabf _ _ _ _ _ => true
  | .ffmah _ _ _ _ _ => true
  | .fmin _ d a b m q => guardOk q && (!(m == 1) || (isEven d && isEven a && isEven b))
  | .fmax _ d a b m q => guardOk q && (!(m == 1) || (isEven d && isEven a && isEven b))
  | .fsgn _ d a b m q => guardOk q && (!(m == 1) || (isEven d && isEven a && isEven b))
  | .fcmp _ d a b m _ => notP7 d && (!(m == 1) || (isEven a && isEven b))
  | .fclass _ _ a m q => guardOk q && (!(m == 1) || (isEven a))
  | .frnd _ d a _ m q => guardOk q && (!(m == 1) || (isEven d && isEven a))
  | .fdiv _ d a b m q => guardOk q && (!(m == 1) || (isEven d && isEven a && isEven b))
  | .fsqrt _ d a m q => guardOk q && (!(m == 1) || (isEven d && isEven a))
  | .frcp _ _ _ q => guardOk q
  | .frsq _ _ _ q => guardOk q
  | .fexp2 _ _ _ q => guardOk q
  | .flog2 _ _ _ q => guardOk q
  | .fsin _ _ _ q => guardOk q
  | .fcos _ _ _ q => guardOk q
  | .cvt _ d a t s _ q => guardOk q && t != s && (!(s == 1 || s == 5) || (isEven a)) && (!(t == 1 || t == 5) || (isEven d))
  | .cvtp _ _ _ _ _ q => guardOk q
  | .qenc _ _ _ _ q => guardOk q
  | .qdec _ _ _ _ q => guardOk q
  | .fscale _ d a _ m q => guardOk q && (!(m == 1) || (isEven d && isEven a))
  | .fdot2 _ _ _ _ _ => true
  | .fmovi _ _ _ => true
  | .fsum _ d a m q => guardOk q && (!(m == 1) || (isEven d && isEven a))
  | .fscan _ d a m q => guardOk q && (!(m == 1) || (isEven d && isEven a))
  | .bra q _ _ => guardOk q
  | .jmp _ q => guardOk q
  | .call q _ _ => guardOk q
  | .calli _ q => guardOk q
  | .ret => true
  | .regang m => m != 0
  | .exit => true
  | .yield => true
  | .sleep _ => true
  | .rds _ d s => rdsOk s.toNat && (!(sregWide s.toNat) || (isEven d))
  | .rdsMqRecv _ _ _ => true
  | .rdsGangFpstat _ _ => true
  | .wrs _ d s => wrsOk s.toNat && (!(sregWide s.toNat) || (isEven d))
  | .wrsMqSend _ _ => true
  | .wrsGangFpstat _ _ => true
  | .wrsSliceStatus _ _ => true
  | .wrsMxUe _ _ => true
  | .wrsPerfSel _ _ _ => true
  | .wrsTrapQ _ _ => true
  | .wrsDbgCtl _ _ => true
  | .injectZFlipMma _ _ => true
  | .injectZFlipZst _ _ => true
  | .injectZUe _ _ => true
  | .injectSlotUe _ _ => true
  | .injectFatal _ _ => true
  | .trap _ => true
  | .rte => true
  | .brk _ => true
  | .mkpush _ q => guardOk q
  | .mkctl _ _ => true
  | .ld _ d _ f l _ z => sizeOk z d && flagOk f l
  | .ldw _ d _ f l _ z => sizeOk z d && flagOk f l
  | .ldt _ d _ f l _ z => sizeOk z d && flagOk f l
  | .lda _ d _ f l _ z => sizeOk z d && flagOk f l
  | .ldx _ _ _ f l _ _ => flagOk f l
  | .st _ d _ f l _ z => sizeOk z d && flagOk f l
  | .stf _ d _ f l _ z => sizeOk z d && flagOk f l
  | .strel _ d _ f l _ z => sizeOk z d && flagOk f l
  | .stx _ _ _ f l _ _ => flagOk f l
  | .gst _ d _ f l z => sizeOk z d && flagOk f l
  | .atom _ d a t o p f => atomOk t.toNat o.toNat && blockOk (atomRegs t.toNat) d && (f.toNat < 12 || f == 15) && !(o == 10 && f == 15) && (!(p == 1) || (isEven a))
  | .fence _ _ k s => (s.toNat < 6) && k != 3
  | .claim _ _ t => (t.toNat < 9)
  | .free _ _ => true
  | .tld _ _ _ _ => true
  | .tldt _ _ _ _ => true
  | .tldm _ _ _ => true
  | .zclr _ _ => true
  | .zld _ _ _ _ => true
  | .zst _ _ _ _ _ => true
  | .mmabf _ _ _ _ => true
  | .mmah _ _ _ _ => true
  | .mmai8 _ _ _ _ => true
  | .mmai16 _ _ _ _ => true
  | .mmaf64 _ _ _ _ => true
  | .mmaq4 _ _ _ _ => true
  | .mmasbf _ _ _ _ => true
  | .mmasi8 _ _ _ _ _ => true
  | .mgemm _ _ => true
  | .tst _ _ _ _ => true
  | .cpart _ _ => true
  | .cpmx _ _ => true
  | .gather _ _ => true
  | .scatter _ _ => true
  | .cred _ _ => true
  | .chtest _ p _ _ => p != 7
  | .chreset _ _ => true
  | .feset _ _ _ _ _ => true
  | .bind _ k _ _ _ => (k.toNat < 6)
  | .unbind _ _ => true
  | .ginfo _ _ _ i => i != 7
  | .launch _ _ _ => true
  | .chopen _ n _ => n != 0
  | .chclose _ n => n != 0
  | .chsel _ _ => true
  | .wseed _ _ => true
  | .wemit _ i _ _ => (i.toNat < 6)
  | .wclose _ => true
  | .sigrd _ _ => true
  | .relreq _ _ _ => true
  | .tlbinvPage _ _ => true
  | .tlbinvRange _ _ _ => true
  | .tlbinvCtx _ => true
  | .tlbinvAll _ => true
  | .cwb _ _ _ _ _ => true
  | .evict _ => true
  | .schedulerCycle _ _ => true
  | .ageingLevelRise _ => true
  | .sleepExpiry _ _ => true
  | .handlerEntry _ => true
  | .scratchpadLoadComplete _ _ => true
  | .scratchpadStoreComplete _ _ => true
  | .gstComplete _ _ => true
  | .atomComplete _ _ => true
  | .postedAtomicPerform _ => true
  | .walkEnd _ _ => true
  | .mxCommandStart _ => true
  | .microTileComplete _ => true
  | .mxCommandComplete _ => true
  | .mgemmStepComplete _ => true
  | .mgemmEnd _ => true
  | .collectiveStart _ => true
  | .chunkLanded _ _ _ => true
  | .copyFailure _ _ _ => true
  | .collectiveEnd _ _ => true
  | .fesetEffect _ _ => true
  | .fesetComplete _ _ => true
  | .chresetEffect _ _ => true
  | .flitPlacement _ => true
  | .flitResend _ => true
  | .bindingPending _ _ => true
  | .timerBindingExpiry _ _ => true
  | .brokenTaskTimeout _ => true
  | .samplingChoice _ _ _ => true
  | .samplingRecord _ _ _ => true
  | .taskRecordArrival _ => true
  | .blockAdmission => true
  | .blockEvictionSave _ => true
  | .blockRestore _ => true
  | .witnessItemStore _ _ => true
  | .sigrdReply _ _ => true
  | .relreqReply _ _ => true
  | .witnessTest _ => true
  | .operatorRelease _ => true
  | .replayStart _ => true
  | .replayEnd _ => true
  | .replayAbandon _ => true
  | .unitRetirement _ _ _ => true
  | .errorCountAgeing _ _ _ => true
  | .dieFatalError _ => true
  | .linkFlitReceive _ _ _ _ => true
  | .linkAck _ _ _ => true
  | .linkRetrain _ => true
  | .requestTimeout _ => true
  | .probe _ _ => true
  | .probeReply _ _ => true
  | .routeWrite _ => true
  | .routeRecompute => true
  | .readRequest _ _ => true
  | .ownRequest _ _ => true
  | .forwardedRequest _ _ _ _ => true
  | .tokensArrive _ _ _ _ _ _ _ => true
  | .dieCacheEviction _ _ => true
  | .transientRetryTimeout _ _ => true
  | .persistentActivate _ _ _ => true
  | .persistentDeactivate _ _ => true
  | .deactivateAcknowledge _ _ => true
  | .nackEndpointAbsent _ => true
  | .carriageTransitFlit _ _ _ => true
  | .carriageTrainingDone => true
  | .heartbeat => true
  | .heartbeatMiss => true
  | .quiesce _ => true
  | .carriageReset => true
  | .governorLevelChange _ _ => true
  | .hostWindowSend _ _ => true
  | .hostWindowRecv p => p % 4096 == 0x080 || (p % 8 == 0 && decide (0x100 ≤ p % 4096) && decide (p % 4096 ≤ 0x178))
  | .hostApertureRead _ _ _ => true
  | .hostApertureWrite _ _ _ => true
  | .powerOn => true
  | .computeRailFall _ => true
  | .packageRailFall _ => true
  | .vcarFall => true
  | .packageReset => true
  | .thermalStepDown _ => true
  | .thermalStepUp _ => true
  | .thermalTrip _ => true
  | .mctpPacket _ _ _ => true
  | .setEndpointId _ _ => true
  | .getVersion => true
  | .getCapabilities => true
  | .negotiateAlgorithms _ _ _ => true
  | .getDigests => true
  | .getCertificate _ _ _ => true
  | .challenge _ => true
  | .getMeasurements _ _ => true
  | .keyExchange _ _ => true
  | .finish _ _ => true
  | .endSession _ => true
  | .ctxwrite _ _ _ => true
  | .grant _ _ _ _ _ _ => true
  | .winbind _ _ _ => true
  | .pkgnum _ => true
  | .fwdtab _ _ _ => true
  | .screen _ => true
  | .window _ _ => true
  | .keyload _ _ _ => true
  | .retireRemove _ _ _ _ => true
  | .injlock _ _ => true
  | .halt _ _ _ => true
  | .tlbi _ _ _ => true
  | .savepool _ _ _ => true
  | .faultread => true
  | .countread _ => true
  | .reset _ => true
  | .coreinit _ _ _ => true
  | .carreset _ => true
  | .taskend _ _ => true
  | .imgqueue _ _ => true
  | .aperbind _ _ _ => true
  | .hostrange _ _ _ _ => true
  | .fwwrite _ _ _ => true
  | .fwselect _ => true
  | .vcarPowerOn => true
  | .linkReplayRequest _ _ _ => true
  | .linkRetrainingEnd _ _ => true

end Sys2Proof
end

