-- ==== Sys2Proof/Decode.lean ====
section
/-! DEFINITION. Decode.lean: the decoder of instruction words, total on any bits and refusing by name,
and the encoder, both from the encoding tables of R45 and R49 to R55 and of the chapters. -/

namespace Sys2Proof

/-- Why bits are no instruction (R59). -/
inductive Reject where
  /-- The major, or the minor of an engine major, is unassigned. -/
  | unassigned
  /-- A reserved bit is set or a field holds a reserved value. -/
  | reserved
  /-- Fewer bytes than a word. -/
  | tooShort
  deriving DecidableEq, Repr

/-- The `w` bits of a number from bit `lo` up. -/
def fld (w n lo : Nat) : BitVec w := BitVec.ofNat w (n / 2 ^ lo)

/-- Whether one bit of a number is set. -/
def flg (n lo : Nat) : Bool := n / 2 ^ lo % 2 == 1

/-- The word of an instruction, as a number; none for a step that no word encodes. -/
def encodeNat : Instr → Option Nat
  | .nop c => some (0x01000000 + c.toNat * 2147483648)
  | .mov c d a q => some (0x02000000 + c.toNat * 2147483648 + d.toNat * 262144 + a.toNat * 4096 + q.toNat)
  | .movi c d i => some (0x03000000 + c.toNat * 2147483648 + d.toNat * 262144 + i.toNat)
  | .movhi c d i => some (0x04000000 + c.toNat * 2147483648 + d.toNat * 262144 + i.toNat)
  | .laneid c d m q => some (0x05000000 + c.toNat * 2147483648 + d.toNat * 262144 + m.toNat * 16 + q.toNat)
  | .sel c d a b m q => some (0x06000000 + c.toNat * 2147483648 + d.toNat * 262144 + a.toNat * 4096 + b.toNat * 64 + m.toNat * 16 + q.toNat)
  | .shfl c d a b m q => some (0x07000000 + c.toNat * 2147483648 + d.toNat * 262144 + a.toNat * 4096 + b.toNat * 64 + m.toNat * 16 + q.toNat)
  | .bcast c d a b q => some (0x08000000 + c.toNat * 2147483648 + d.toNat * 262144 + a.toNat * 4096 + b.toNat * 64 + q.toNat)
  | .unif c d a q => some (0x09000000 + c.toNat * 2147483648 + d.toNat * 262144 + a.toNat * 4096 + q.toNat)
  | .icmp c d a b m q => some (0x0A000000 + c.toNat * 2147483648 + d.toNat * 262144 + a.toNat * 4096 + b.toNat * 64 + m.toNat * 16 + q.toNat)
  | .icmpi c k d a i => some (0x0B000000 + c.toNat * 2147483648 + k.toNat * 2097152 + d.toNat * 262144 + a.toNat * 4096 + i.toNat)
  | .plog c d a b m q => some (0x0C000000 + c.toNat * 2147483648 + d.toNat * 262144 + a.toNat * 4096 + b.toNat * 64 + m.toNat * 16 + q.toNat)
  | .p2v c d q => some (0x0D000000 + c.toNat * 2147483648 + d.toNat * 262144 + q.toNat)
  | .v2p c a q => some (0x0E000000 + c.toNat * 2147483648 + a.toNat * 4096 + q.toNat)
  | .voteAnyAll c d a m q => some (0x0F000000 + c.toNat * 2147483648 + d.toNat * 262144 + a.toNat * 4096 + m.toNat * 16 + q.toNat)
  | .voteBallot c d a q => some (0x0F000020 + c.toNat * 2147483648 + d.toNat * 262144 + a.toNat * 4096 + q.toNat)
  | .iadd c d a b m q => some (0x10000000 + c.toNat * 2147483648 + d.toNat * 262144 + a.toNat * 4096 + b.toNat * 64 + m.toNat * 16 + q.toNat)
  | .isub c d a b m q => some (0x11000000 + c.toNat * 2147483648 + d.toNat * 262144 + a.toNat * 4096 + b.toNat * 64 + m.toNat * 16 + q.toNat)
  | .iaddi c d a i => some (0x12000000 + c.toNat * 2147483648 + d.toNat * 262144 + a.toNat * 4096 + i.toNat)
  | .imul c d a b m q => some (0x13000000 + c.toNat * 2147483648 + d.toNat * 262144 + a.toNat * 4096 + b.toNat * 64 + m.toNat * 16 + q.toNat)
  | .imulhs c d a b m q => some (0x14000000 + c.toNat * 2147483648 + d.toNat * 262144 + a.toNat * 4096 + b.toNat * 64 + m.toNat * 16 + q.toNat)
  | .imulhn c d a b m q => some (0x15000000 + c.toNat * 2147483648 + d.toNat * 262144 + a.toNat * 4096 + b.toNat * 64 + m.toNat * 16 + q.toNat)
  | .imad c d a b e => some (0x16000000 + c.toNat * 2147483648 + d.toNat * 262144 + a.toNat * 4096 + b.toNat * 64 + e.toNat)
  | .imadw c d a b e => some (0x17000000 + c.toNat * 2147483648 + d.toNat * 524288 + a.toNat * 4096 + b.toNat * 64 + e.toNat * 2)
  | .imadwn c d a b e => some (0x18000000 + c.toNat * 2147483648 + d.toNat * 524288 + a.toNat * 4096 + b.toNat * 64 + e.toNat * 2)
  | .imin c d a b m q => some (0x19000000 + c.toNat * 2147483648 + d.toNat * 262144 + a.toNat * 4096 + b.toNat * 64 + m.toNat * 16 + q.toNat)
  | .imax c d a b m q => some (0x1A000000 + c.toNat * 2147483648 + d.toNat * 262144 + a.toNat * 4096 + b.toNat * 64 + m.toNat * 16 + q.toNat)
  | .iabs c d a m q => some (0x1B000000 + c.toNat * 2147483648 + d.toNat * 262144 + a.toNat * 4096 + m.toNat * 16 + q.toNat)
  | .ineg c d a m q => some (0x1C000000 + c.toNat * 2147483648 + d.toNat * 262144 + a.toNat * 4096 + m.toNat * 16 + q.toNat)
  | .idiv c d a b m q => some (0x1D000000 + c.toNat * 2147483648 + d.toNat * 262144 + a.toNat * 4096 + b.toNat * 64 + m.toNat * 16 + q.toNat)
  | .irem c d a b m q => some (0x1E000000 + c.toNat * 2147483648 + d.toNat * 262144 + a.toNat * 4096 + b.toNat * 64 + m.toNat * 16 + q.toNat)
  | .iaccw c d a m q => some (0x1F000000 + c.toNat * 2147483648 + d.toNat * 524288 + a.toNat * 4096 + m.toNat * 16 + q.toNat)
  | .addr c d a b m q => some (0x20000000 + c.toNat * 2147483648 + d.toNat * 524288 + a.toNat * 8192 + b.toNat * 64 + m.toNat * 16 + q.toNat)
  | .addri c d a i => some (0x21000000 + c.toNat * 2147483648 + d.toNat * 524288 + a.toNat * 8192 + i.toNat)
  | .and c d a b m q => some (0x22000000 + c.toNat * 2147483648 + d.toNat * 262144 + a.toNat * 4096 + b.toNat * 64 + m.toNat * 16 + q.toNat)
  | .or c d a b m q => some (0x23000000 + c.toNat * 2147483648 + d.toNat * 262144 + a.toNat * 4096 + b.toNat * 64 + m.toNat * 16 + q.toNat)
  | .xor c d a b m q => some (0x24000000 + c.toNat * 2147483648 + d.toNat * 262144 + a.toNat * 4096 + b.toNat * 64 + m.toNat * 16 + q.toNat)
  | .andn c d a b m q => some (0x25000000 + c.toNat * 2147483648 + d.toNat * 262144 + a.toNat * 4096 + b.toNat * 64 + m.toNat * 16 + q.toNat)
  | .not c d a m q => some (0x26000000 + c.toNat * 2147483648 + d.toNat * 262144 + a.toNat * 4096 + m.toNat * 16 + q.toNat)
  | .andi c d a i => some (0x27000000 + c.toNat * 2147483648 + d.toNat * 262144 + a.toNat * 4096 + i.toNat)
  | .ori c d a i => some (0x28000000 + c.toNat * 2147483648 + d.toNat * 262144 + a.toNat * 4096 + i.toNat)
  | .xori c d a i => some (0x29000000 + c.toNat * 2147483648 + d.toNat * 262144 + a.toNat * 4096 + i.toNat)
  | .shl c d a b m q => some (0x2A000000 + c.toNat * 2147483648 + d.toNat * 262144 + a.toNat * 4096 + b.toNat * 64 + m.toNat * 16 + q.toNat)
  | .shr c d a b m q => some (0x2B000000 + c.toNat * 2147483648 + d.toNat * 262144 + a.toNat * 4096 + b.toNat * 64 + m.toNat * 16 + q.toNat)
  | .sar c d a b m q => some (0x2C000000 + c.toNat * 2147483648 + d.toNat * 262144 + a.toNat * 4096 + b.toNat * 64 + m.toNat * 16 + q.toNat)
  | .shli c d a w n => some (0x2D000000 + c.toNat * 2147483648 + d.toNat * 262144 + a.toNat * 4096 + w.toNat * 64 + n.toNat)
  | .shri c d a w n => some (0x2E000000 + c.toNat * 2147483648 + d.toNat * 262144 + a.toNat * 4096 + w.toNat * 64 + n.toNat)
  | .sari c d a w n => some (0x2F000000 + c.toNat * 2147483648 + d.toNat * 262144 + a.toNat * 4096 + w.toNat * 64 + n.toNat)
  | .bfx c d a l p => some (0x30000000 + c.toNat * 2147483648 + d.toNat * 262144 + a.toNat * 4096 + l.toNat * 32 + p.toNat)
  | .bfxs c d a l p => some (0x31000000 + c.toNat * 2147483648 + d.toNat * 262144 + a.toNat * 4096 + l.toNat * 32 + p.toNat)
  | .bfi c d a l p => some (0x32000000 + c.toNat * 2147483648 + d.toNat * 262144 + a.toNat * 4096 + l.toNat * 32 + p.toNat)
  | .bitop c d a m q => some (0x33000000 + c.toNat * 2147483648 + d.toNat * 262144 + a.toNat * 4096 + m.toNat * 16 + q.toNat)
  | .scan c d a m q => some (0x34000000 + c.toNat * 2147483648 + d.toNat * 262144 + a.toNat * 4096 + m.toNat * 16 + q.toNat)
  | .ired c d a m q => some (0x35000000 + c.toNat * 2147483648 + d.toNat * 262144 + a.toNat * 4096 + m.toNat * 16 + q.toNat)
  | .waitf m => some (0x36000000 + m.toNat)
  | .waitc k n => some (0x37000000 + k.toNat * 2097152 + n.toNat * 32768)
  | .waitany p m => some (0x38000000 + p.toNat * 256 + m.toNat)
  | .bar w s => some (0x39000000 + w.toNat * 4 + s.toNat)
  | .fadd c d a b m q => some (0x40000000 + c.toNat * 2147483648 + d.toNat * 262144 + a.toNat * 4096 + b.toNat * 64 + m.toNat * 16 + q.toNat)
  | .fsub c d a b m q => some (0x41000000 + c.toNat * 2147483648 + d.toNat * 262144 + a.toNat * 4096 + b.toNat * 64 + m.toNat * 16 + q.toNat)
  | .fmul c d a b m q => some (0x42000000 + c.toNat * 2147483648 + d.toNat * 262144 + a.toNat * 4096 + b.toNat * 64 + m.toNat * 16 + q.toNat)
  | .ffma32 c d a b e => some (0x43000000 + c.toNat * 2147483648 + d.toNat * 262144 + a.toNat * 4096 + b.toNat * 64 + e.toNat)
  | .ffma64 c d a b e => some (0x44000000 + c.toNat * 2147483648 + d.toNat * 524288 + a.toNat * 8192 + b.toNat * 128 + e.toNat * 2)
  | .ffmabf c d a b e => some (0x45000000 + c.toNat * 2147483648 + d.toNat * 262144 + a.toNat * 4096 + b.toNat * 64 + e.toNat)
  | .ffmah c d a b e => some (0x46000000 + c.toNat * 2147483648 + d.toNat * 262144 + a.toNat * 4096 + b.toNat * 64 + e.toNat)
  | .fmin c d a b m q => some (0x47000000 + c.toNat * 2147483648 + d.toNat * 262144 + a.toNat * 4096 + b.toNat * 64 + m.toNat * 16 + q.toNat)
  | .fmax c d a b m q => some (0x48000000 + c.toNat * 2147483648 + d.toNat * 262144 + a.toNat * 4096 + b.toNat * 64 + m.toNat * 16 + q.toNat)
  | .fsgn c d a b m q => some (0x49000000 + c.toNat * 2147483648 + d.toNat * 262144 + a.toNat * 4096 + b.toNat * 64 + m.toNat * 16 + q.toNat)
  | .fcmp c d a b m q => some (0x4A000000 + c.toNat * 2147483648 + d.toNat * 262144 + a.toNat * 4096 + b.toNat * 64 + m.toNat * 16 + q.toNat)
  | .fclass c d a m q => some (0x4B000000 + c.toNat * 2147483648 + d.toNat * 262144 + a.toNat * 4096 + m.toNat * 16 + q.toNat)
  | .frnd c d a r m q => some (0x4C000000 + c.toNat * 2147483648 + d.toNat * 262144 + a.toNat * 4096 + r.toNat * 64 + m.toNat * 16 + q.toNat)
  | .fdiv c d a b m q => some (0x4D000000 + c.toNat * 2147483648 + d.toNat * 262144 + a.toNat * 4096 + b.toNat * 64 + m.toNat * 16 + q.toNat)
  | .fsqrt c d a m q => some (0x4E000000 + c.toNat * 2147483648 + d.toNat * 262144 + a.toNat * 4096 + m.toNat * 16 + q.toNat)
  | .frcp c d a q => some (0x4F000000 + c.toNat * 2147483648 + d.toNat * 262144 + a.toNat * 4096 + q.toNat)
  | .frsq c d a q => some (0x50000000 + c.toNat * 2147483648 + d.toNat * 262144 + a.toNat * 4096 + q.toNat)
  | .fexp2 c d a q => some (0x51000000 + c.toNat * 2147483648 + d.toNat * 262144 + a.toNat * 4096 + q.toNat)
  | .flog2 c d a q => some (0x52000000 + c.toNat * 2147483648 + d.toNat * 262144 + a.toNat * 4096 + q.toNat)
  | .fsin c d a q => some (0x53000000 + c.toNat * 2147483648 + d.toNat * 262144 + a.toNat * 4096 + q.toNat)
  | .fcos c d a q => some (0x54000000 + c.toNat * 2147483648 + d.toNat * 262144 + a.toNat * 4096 + q.toNat)
  | .cvt c d a t s r q => some (0x55000000 + c.toNat * 2147483648 + d.toNat * 262144 + a.toNat * 4096 + t.toNat * 512 + s.toNat * 64 + r.toNat * 16 + q.toNat)
  | .cvtp c d a b m q => some (0x56000020 + c.toNat * 2147483648 + d.toNat * 262144 + a.toNat * 4096 + b.toNat * 64 + m.toNat * 16 + q.toNat)
  | .qenc c d a b q => some (0x57000000 + c.toNat * 2147483648 + d.toNat * 262144 + a.toNat * 4096 + b.toNat * 64 + q.toNat)
  | .qdec c d a b q => some (0x58000000 + c.toNat * 2147483648 + d.toNat * 262144 + a.toNat * 4096 + b.toNat * 64 + q.toNat)
  | .fscale c d a b m q => some (0x59000000 + c.toNat * 2147483648 + d.toNat * 262144 + a.toNat * 4096 + b.toNat * 64 + m.toNat * 16 + q.toNat)
  | .fdot2 c d a b e => some (0x5A000000 + c.toNat * 2147483648 + d.toNat * 262144 + a.toNat * 4096 + b.toNat * 64 + e.toNat)
  | .fmovi c d i => some (0x5B000000 + c.toNat * 2147483648 + d.toNat * 262144 + i.toNat)
  | .fsum c d a m q => some (0x5C000000 + c.toNat * 2147483648 + d.toNat * 262144 + a.toNat * 4096 + m.toNat * 16 + q.toNat)
  | .fscan c d a m q => some (0x5D000000 + c.toNat * 2147483648 + d.toNat * 262144 + a.toNat * 4096 + m.toNat * 16 + q.toNat)
  | .bra q n i => some (0x60000000 + q.toNat * 1048576 + n.toNat * 524288 + i.toNat)
  | .jmp a q => some (0x61000000 + a.toNat * 8192 + q.toNat)
  | .call q n i => some (0x62000000 + q.toNat * 1048576 + n.toNat * 524288 + i.toNat)
  | .calli a q => some (0x63000000 + a.toNat * 8192 + q.toNat)
  | .ret => some (0x64000000)
  | .regang m => some (0x65000000 + m.toNat)
  | .exit => some (0x66000000)
  | .yield => some (0x67000000)
  | .sleep n => some (0x68000000 + n.toNat)
  | .rds c d s => some (0x69000000 + c.toNat * 2147483648 + d.toNat * 262144 + s.toNat * 256)
  | .rdsMqRecv c d n => some (0x69004200 + c.toNat * 2147483648 + d.toNat * 262144 + n.toNat * 256)
  | .rdsGangFpstat c d => some (0x69001500 + c.toNat * 2147483648 + d.toNat * 262144)
  | .wrs c d s => some (0x6A000000 + c.toNat * 2147483648 + d.toNat * 262144 + s.toNat * 256)
  | .wrsMqSend c d => some (0x6A004000 + c.toNat * 2147483648 + d.toNat * 262144)
  | .wrsGangFpstat c d => some (0x6A001500 + c.toNat * 2147483648 + d.toNat * 262144)
  | .wrsSliceStatus c d => some (0x6A000000 + c.toNat * 2147483648 + d.toNat * 262144)
  | .wrsMxUe c d => some (0x6A005100 + c.toNat * 2147483648 + d.toNat * 262144)
  | .wrsPerfSel c d n => some (0x6A015000 + c.toNat * 2147483648 + d.toNat * 262144 + n.toNat * 256)
  | .wrsTrapQ c d => some (0x6A011400 + c.toNat * 2147483648 + d.toNat * 262144)
  | .wrsDbgCtl c d => some (0x6A013800 + c.toNat * 2147483648 + d.toNat * 262144)
  | .injectZFlipMma _ _ => none
  | .injectZFlipZst _ _ => none
  | .injectZUe _ _ => none
  | .injectSlotUe _ _ => none
  | .injectFatal _ _ => none
  | .trap k => some (0x6B000000 + k.toNat)
  | .rte => some (0x6C000000)
  | .brk k => some (0x6D000000 + k.toNat)
  | .mkpush c q => some (0x6E000000 + c.toNat * 2147483648 + q.toNat)
  | .mkctl c o => some (0x6F000000 + c.toNat * 2147483648 + o.toNat)
  | .ld c d a f l s z => some (0x70000000 + c.toNat * 2147483648 + d.toNat * 262144 + a.toNat * 4096 + f.toNat * 256 + l.toNat * 16 + s.toNat * 4 + z.toNat)
  | .ldw c d a f l s z => some (0x71000004 + c.toNat * 2147483648 + d.toNat * 262144 + a.toNat * 4096 + f.toNat * 256 + l.toNat * 16 + s.toNat * 8 + z.toNat)
  | .ldt c d a f l s z => some (0x72000004 + c.toNat * 2147483648 + d.toNat * 262144 + a.toNat * 4096 + f.toNat * 256 + l.toNat * 16 + s.toNat * 8 + z.toNat)
  | .lda c d a f l s z => some (0x73000000 + c.toNat * 2147483648 + d.toNat * 262144 + a.toNat * 4096 + f.toNat * 256 + l.toNat * 16 + s.toNat * 4 + z.toNat)
  | .ldx c d a f l s z => some (0x74000000 + c.toNat * 2147483648 + d.toNat * 262144 + a.toNat * 4096 + f.toNat * 256 + l.toNat * 16 + s.toNat * 4 + z.toNat)
  | .st c d a f l s z => some (0x75000000 + c.toNat * 2147483648 + d.toNat * 262144 + a.toNat * 4096 + f.toNat * 256 + l.toNat * 16 + s.toNat * 4 + z.toNat)
  | .stf c d a f l s z => some (0x76000004 + c.toNat * 2147483648 + d.toNat * 262144 + a.toNat * 4096 + f.toNat * 256 + l.toNat * 16 + s.toNat * 8 + z.toNat)
  | .strel c d a f l s z => some (0x77000000 + c.toNat * 2147483648 + d.toNat * 262144 + a.toNat * 4096 + f.toNat * 256 + l.toNat * 16 + s.toNat * 4 + z.toNat)
  | .stx c d a f l s z => some (0x78000000 + c.toNat * 2147483648 + d.toNat * 262144 + a.toNat * 4096 + f.toNat * 256 + l.toNat * 16 + s.toNat * 4 + z.toNat)
  | .gst c d a f l z => some (0x79000000 + c.toNat * 2147483648 + d.toNat * 262144 + a.toNat * 8192 + f.toNat * 256 + l.toNat * 16 + z.toNat)
  | .atom c d a t o p f => some (0x7A000000 + c.toNat * 2147483648 + d.toNat * 262144 + a.toNat * 4096 + t.toNat * 512 + o.toNat * 32 + p.toNat * 16 + f.toNat)
  | .fence c r k s => some (0x7B000000 + c.toNat * 2147483648 + r.toNat * 32 + k.toNat * 8 + s.toNat)
  | .claim c n t => some (0x7C000000 + c.toNat * 2147483648 + n.toNat * 262144 + t.toNat * 4096)
  | .free c n => some (0x7C000001 + c.toNat * 2147483648 + n.toNat * 262144)
  | .tld c n y z => some (0x7C000002 + c.toNat * 2147483648 + n.toNat * 262144 + y.toNat * 4096 + z.toNat * 64)
  | .tldt c n y z => some (0x7C000003 + c.toNat * 2147483648 + n.toNat * 262144 + y.toNat * 4096 + z.toNat * 64)
  | .tldm c n y => some (0x7C000004 + c.toNat * 2147483648 + n.toNat * 262144 + y.toNat * 4096)
  | .zclr c n => some (0x7C000005 + c.toNat * 2147483648 + n.toNat * 262144)
  | .zld c n y z => some (0x7C000006 + c.toNat * 2147483648 + n.toNat * 262144 + y.toNat * 4096 + z.toNat * 64)
  | .zst c m n y z => some (0x7C000007 + c.toNat * 2147483648 + m.toNat * 4194304 + n.toNat * 262144 + y.toNat * 4096 + z.toNat * 64)
  | .mmabf c n a b => some (0x7C000008 + c.toNat * 2147483648 + n.toNat * 262144 + a.toNat * 4096 + b.toNat * 64)
  | .mmah c n a b => some (0x7C000009 + c.toNat * 2147483648 + n.toNat * 262144 + a.toNat * 4096 + b.toNat * 64)
  | .mmai8 c n a b => some (0x7C00000A + c.toNat * 2147483648 + n.toNat * 262144 + a.toNat * 4096 + b.toNat * 64)
  | .mmai16 c n a b => some (0x7C00000B + c.toNat * 2147483648 + n.toNat * 524288 + a.toNat * 4096 + b.toNat * 64)
  | .mmaf64 c n a b => some (0x7C00000C + c.toNat * 2147483648 + n.toNat * 262144 + a.toNat * 4096 + b.toNat * 64)
  | .mmaq4 c n a b => some (0x7C00000D + c.toNat * 2147483648 + n.toNat * 524288 + a.toNat * 4096 + b.toNat * 64)
  | .mmasbf c n a b => some (0x7C00000E + c.toNat * 2147483648 + n.toNat * 262144 + a.toNat * 4096 + b.toNat * 64)
  | .mmasi8 c h n a b => some (0x7C00000F + c.toNat * 2147483648 + h.toNat * 4194304 + n.toNat * 262144 + a.toNat * 4096 + b.toNat * 64)
  | .mgemm c y => some (0x7C000010 + c.toNat * 2147483648 + y.toNat * 4096)
  | .tst c n y z => some (0x7C000011 + c.toNat * 2147483648 + n.toNat * 262144 + y.toNat * 4096 + z.toNat * 64)
  | .cpart c y => some (0x7D000000 + c.toNat * 2147483648 + y.toNat * 4096)
  | .cpmx c y => some (0x7D000001 + c.toNat * 2147483648 + y.toNat * 4096)
  | .gather c y => some (0x7D000002 + c.toNat * 2147483648 + y.toNat * 4096)
  | .scatter c y => some (0x7D000003 + c.toNat * 2147483648 + y.toNat * 4096)
  | .cred c y => some (0x7D000004 + c.toNat * 2147483648 + y.toNat * 4096)
  | .chtest c p y z => some (0x7D000005 + c.toNat * 2147483648 + p.toNat * 262144 + y.toNat * 4096 + z.toNat * 64)
  | .chreset c y => some (0x7D000006 + c.toNat * 2147483648 + y.toNat * 4096)
  | .feset c x y s v => some (0x7D000007 + c.toNat * 2147483648 + x.toNat * 262144 + y.toNat * 4096 + s.toNat * 128 + v.toNat * 64)
  | .bind c k n y z => some (0x7E000000 + c.toNat * 2147483648 + k.toNat * 2097152 + n.toNat * 262144 + y.toNat * 4096 + z.toNat * 128)
  | .unbind c n => some (0x7E000001 + c.toNat * 2147483648 + n.toNat * 262144)
  | .ginfo c x s i => some (0x7E000002 + c.toNat * 2147483648 + x.toNat * 262144 + s.toNat * 4096 + i.toNat * 64)
  | .launch c n y => some (0x7E000003 + c.toNat * 2147483648 + n.toNat * 262144 + y.toNat * 4096)
  | .chopen c n m => some (0x7E000004 + c.toNat * 2147483648 + n.toNat * 262144 + m.toNat * 4096)
  | .chclose c n => some (0x7E000005 + c.toNat * 2147483648 + n.toNat * 262144)
  | .chsel c n => some (0x7E000006 + c.toNat * 2147483648 + n.toNat * 262144)
  | .wseed c x => some (0x7F000000 + c.toNat * 2147483648 + x.toNat * 1048576)
  | .wemit c i y z => some (0x7F000001 + c.toNat * 2147483648 + i.toNat * 262144 + y.toNat * 4096 + z.toNat * 128)
  | .wclose c => some (0x7F000002 + c.toNat * 2147483648)
  | .sigrd c x => some (0x7F000003 + c.toNat * 2147483648 + x.toNat * 524288)
  | .relreq c x y => some (0x7F000004 + c.toNat * 2147483648 + x.toNat * 262144 + y.toNat * 4096)
  | .tlbinvPage c y => some (0x7F000005 + c.toNat * 2147483648 + y.toNat * 8192)
  | .tlbinvRange c y z => some (0x7F040005 + c.toNat * 2147483648 + y.toNat * 8192 + z.toNat * 64)
  | .tlbinvCtx c => some (0x7F080005 + c.toNat * 2147483648)
  | .tlbinvAll c => some (0x7F0C0005 + c.toNat * 2147483648)
  | .cwb c h v y z => some (0x7F000006 + c.toNat * 2147483648 + h.toNat * 524288 + v.toNat * 262144 + y.toNat * 8192 + z.toNat * 64)
  | .evict c => some (0x7F000007 + c.toNat * 2147483648)
  | .schedulerCycle _ _ => none
  | .ageingLevelRise _ => none
  | .sleepExpiry _ _ => none
  | .handlerEntry _ => none
  | .scratchpadLoadComplete _ _ => none
  | .scratchpadStoreComplete _ _ => none
  | .gstComplete _ _ => none
  | .atomComplete _ _ => none
  | .postedAtomicPerform _ => none
  | .walkEnd _ _ => none
  | .mxCommandStart _ => none
  | .microTileComplete _ => none
  | .mxCommandComplete _ => none
  | .mgemmStepComplete _ => none
  | .mgemmEnd _ => none
  | .collectiveStart _ => none
  | .chunkLanded _ _ _ => none
  | .copyFailure _ _ _ => none
  | .collectiveEnd _ _ => none
  | .fesetEffect _ _ => none
  | .fesetComplete _ _ => none
  | .chresetEffect _ _ => none
  | .flitPlacement _ => none
  | .flitResend _ => none
  | .bindingPending _ _ => none
  | .timerBindingExpiry _ _ => none
  | .brokenTaskTimeout _ => none
  | .samplingChoice _ _ _ => none
  | .samplingRecord _ _ _ => none
  | .taskRecordArrival _ => none
  | .blockAdmission => none
  | .blockEvictionSave _ => none
  | .blockRestore _ => none
  | .witnessItemStore _ _ => none
  | .sigrdReply _ _ => none
  | .relreqReply _ _ => none
  | .witnessTest _ => none
  | .operatorRelease _ => none
  | .replayStart _ => none
  | .replayEnd _ => none
  | .replayAbandon _ => none
  | .unitRetirement _ _ _ => none
  | .errorCountAgeing _ _ _ => none
  | .dieFatalError _ => none
  | .linkFlitReceive _ _ _ _ => none
  | .linkAck _ _ _ => none
  | .linkRetrain _ => none
  | .requestTimeout _ => none
  | .probe _ _ => none
  | .probeReply _ _ => none
  | .routeWrite _ => none
  | .routeRecompute => none
  | .readRequest _ _ => none
  | .ownRequest _ _ => none
  | .forwardedRequest _ _ _ _ => none
  | .tokensArrive _ _ _ _ _ _ _ => none
  | .dieCacheEviction _ _ => none
  | .transientRetryTimeout _ _ => none
  | .persistentActivate _ _ _ => none
  | .persistentDeactivate _ _ => none
  | .deactivateAcknowledge _ _ => none
  | .nackEndpointAbsent _ => none
  | .carriageTransitFlit _ _ _ => none
  | .carriageTrainingDone => none
  | .heartbeat => none
  | .heartbeatMiss => none
  | .quiesce _ => none
  | .carriageReset => none
  | .governorLevelChange _ _ => none
  | .hostWindowSend _ _ => none
  | .hostWindowRecv _ => none
  | .hostApertureRead _ _ _ => none
  | .hostApertureWrite _ _ _ => none
  | .powerOn => none
  | .computeRailFall _ => none
  | .packageRailFall _ => none
  | .vcarFall => none
  | .packageReset => none
  | .thermalStepDown _ => none
  | .thermalStepUp _ => none
  | .thermalTrip _ => none
  | .mctpPacket _ _ _ => none
  | .setEndpointId _ _ => none
  | .getVersion => none
  | .getCapabilities => none
  | .negotiateAlgorithms _ _ _ => none
  | .getDigests => none
  | .getCertificate _ _ _ => none
  | .challenge _ => none
  | .getMeasurements _ _ => none
  | .keyExchange _ _ => none
  | .finish _ _ => none
  | .endSession _ => none
  | .ctxwrite _ _ _ => none
  | .grant _ _ _ _ _ _ => none
  | .winbind _ _ _ => none
  | .pkgnum _ => none
  | .fwdtab _ _ _ => none
  | .screen _ => none
  | .window _ _ => none
  | .keyload _ _ _ => none
  | .retireRemove _ _ _ _ => none
  | .injlock _ _ => none
  | .halt _ _ _ => none
  | .tlbi _ _ _ => none
  | .savepool _ _ _ => none
  | .faultread => none
  | .countread _ => none
  | .reset _ => none
  | .coreinit _ _ _ => none
  | .carreset _ => none
  | .taskend _ _ => none
  | .imgqueue _ _ => none
  | .aperbind _ _ _ => none
  | .hostrange _ _ _ _ => none
  | .fwwrite _ _ _ => none
  | .fwselect _ => none
  | .vcarPowerOn => none
  | .linkReplayRequest _ _ _ => none
  | .linkRetrainingEnd _ _ => none

/-- The words of the matrix unit (R49), by their minor. -/
def mxWord (minor n : Nat) : Option Instr :=
  match minor with
  | 0x00 => some (.claim (flg n 31) (fld 5 n 18) (fld 4 n 12))
  | 0x01 => some (.free (flg n 31) (fld 5 n 18))
  | 0x02 => some (.tld (flg n 31) (fld 5 n 18) (fld 6 n 12) (fld 6 n 6))
  | 0x03 => some (.tldt (flg n 31) (fld 5 n 18) (fld 6 n 12) (fld 6 n 6))
  | 0x04 => some (.tldm (flg n 31) (fld 5 n 18) (fld 6 n 12))
  | 0x05 => some (.zclr (flg n 31) (fld 4 n 18))
  | 0x06 => some (.zld (flg n 31) (fld 4 n 18) (fld 6 n 12) (fld 6 n 6))
  | 0x07 => some (.zst (flg n 31) (fld 2 n 22) (fld 4 n 18) (fld 6 n 12) (fld 6 n 6))
  | 0x08 => some (.mmabf (flg n 31) (fld 4 n 18) (fld 5 n 12) (fld 5 n 6))
  | 0x09 => some (.mmah (flg n 31) (fld 4 n 18) (fld 5 n 12) (fld 5 n 6))
  | 0x0a => some (.mmai8 (flg n 31) (fld 4 n 18) (fld 5 n 12) (fld 5 n 6))
  | 0x0b => some (.mmai16 (flg n 31) (fld 3 n 19) (fld 5 n 12) (fld 5 n 6))
  | 0x0c => some (.mmaf64 (flg n 31) (fld 4 n 18) (fld 5 n 12) (fld 5 n 6))
  | 0x0d => some (.mmaq4 (flg n 31) (fld 3 n 19) (fld 5 n 12) (fld 5 n 6))
  | 0x0e => some (.mmasbf (flg n 31) (fld 4 n 18) (fld 5 n 12) (fld 5 n 6))
  | 0x0f => some (.mmasi8 (flg n 31) (fld 1 n 22) (fld 4 n 18) (fld 5 n 12) (fld 5 n 6))
  | 0x10 => some (.mgemm (flg n 31) (fld 6 n 12))
  | 0x11 => some (.tst (flg n 31) (fld 5 n 18) (fld 6 n 12) (fld 6 n 6))
  | _ => none

/-- The words of the copy engine (R49), by their minor. -/
def copyWord (minor n : Nat) : Option Instr :=
  match minor with
  | 0x00 => some (.cpart (flg n 31) (fld 6 n 12))
  | 0x01 => some (.cpmx (flg n 31) (fld 6 n 12))
  | 0x02 => some (.gather (flg n 31) (fld 6 n 12))
  | 0x03 => some (.scatter (flg n 31) (fld 6 n 12))
  | 0x04 => some (.cred (flg n 31) (fld 6 n 12))
  | 0x05 => some (.chtest (flg n 31) (fld 3 n 18) (fld 6 n 12) (fld 6 n 6))
  | 0x06 => some (.chreset (flg n 31) (fld 6 n 12))
  | 0x07 => some (.feset (flg n 31) (fld 6 n 18) (fld 6 n 12) (fld 1 n 7) (fld 1 n 6))
  | _ => none

/-- The words of the queue unit (R49), by their minor. -/
def queueWord (minor n : Nat) : Option Instr :=
  match minor with
  | 0x00 => some (.bind (flg n 31) (fld 3 n 21) (fld 3 n 18) (fld 6 n 12) (fld 5 n 7))
  | 0x01 => some (.unbind (flg n 31) (fld 3 n 18))
  | 0x02 => some (.ginfo (flg n 31) (fld 6 n 18) (fld 2 n 12) (fld 3 n 6))
  | 0x03 => some (.launch (flg n 31) (fld 6 n 18) (fld 6 n 12))
  | 0x04 => some (.chopen (flg n 31) (fld 4 n 18) (fld 6 n 12))
  | 0x05 => some (.chclose (flg n 31) (fld 4 n 18))
  | 0x06 => some (.chsel (flg n 31) (fld 4 n 18))
  | _ => none

/-- The words of the checker and the system words (R49), by their minor. -/
def checkWord (minor n : Nat) : Option Instr :=
  match minor with
  | 0x00 => some (.wseed (flg n 31) (fld 4 n 20))
  | 0x01 => some (.wemit (flg n 31) (fld 4 n 18) (fld 6 n 12) (fld 5 n 7))
  | 0x02 => some (.wclose (flg n 31))
  | 0x03 => some (.sigrd (flg n 31) (fld 5 n 19))
  | 0x04 => some (.relreq (flg n 31) (fld 6 n 18) (fld 6 n 12))
  | 0x05 =>
    match n / 2 ^ 18 % 64 with
    | 0 => some (.tlbinvPage (flg n 31) (fld 5 n 13))
    | 1 => some (.tlbinvRange (flg n 31) (fld 5 n 13) (fld 6 n 6))
    | 2 => some (.tlbinvCtx (flg n 31))
    | 3 => some (.tlbinvAll (flg n 31))
    | _ => none
  | 0x06 => some (.cwb (flg n 31) (fld 1 n 19) (fld 1 n 18) (fld 5 n 13) (fld 6 n 6))
  | 0x07 => some (.evict (flg n 31))
  | _ => none

/-- The instruction that the fields of a word with a major describe. -/
def majorWord (major n : Nat) : Option Instr :=
  match major with
  | 0x01 => some (.nop (flg n 31))
  | 0x02 => some (.mov (flg n 31) (fld 6 n 18) (fld 6 n 12) (fld 4 n 0))
  | 0x03 => some (.movi (flg n 31) (fld 6 n 18) (fld 18 n 0))
  | 0x04 => some (.movhi (flg n 31) (fld 6 n 18) (fld 14 n 0))
  | 0x05 => some (.laneid (flg n 31) (fld 6 n 18) (fld 2 n 4) (fld 4 n 0))
  | 0x06 => some (.sel (flg n 31) (fld 6 n 18) (fld 6 n 12) (fld 6 n 6) (fld 2 n 4) (fld 4 n 0))
  | 0x07 => some (.shfl (flg n 31) (fld 6 n 18) (fld 6 n 12) (fld 6 n 6) (fld 2 n 4) (fld 4 n 0))
  | 0x08 => some (.bcast (flg n 31) (fld 6 n 18) (fld 6 n 12) (fld 6 n 6) (fld 4 n 0))
  | 0x09 => some (.unif (flg n 31) (fld 6 n 18) (fld 6 n 12) (fld 4 n 0))
  | 0x0a => some (.icmp (flg n 31) (fld 3 n 18) (fld 6 n 12) (fld 6 n 6) (fld 2 n 4) (fld 4 n 0))
  | 0x0b => some (.icmpi (flg n 31) (fld 3 n 21) (fld 3 n 18) (fld 6 n 12) (fld 12 n 0))
  | 0x0c => some (.plog (flg n 31) (fld 3 n 18) (fld 3 n 12) (fld 3 n 6) (fld 2 n 4) (fld 4 n 0))
  | 0x0d => some (.p2v (flg n 31) (fld 6 n 18) (fld 4 n 0))
  | 0x0e => some (.v2p (flg n 31) (fld 6 n 12) (fld 4 n 0))
  | 0x0f => if flg n 5 then some (.voteBallot (flg n 31) (fld 6 n 18) (fld 3 n 12) (fld 4 n 0)) else some (.voteAnyAll (flg n 31) (fld 3 n 18) (fld 3 n 12) (fld 1 n 4) (fld 4 n 0))
  | 0x10 => some (.iadd (flg n 31) (fld 6 n 18) (fld 6 n 12) (fld 6 n 6) (fld 2 n 4) (fld 4 n 0))
  | 0x11 => some (.isub (flg n 31) (fld 6 n 18) (fld 6 n 12) (fld 6 n 6) (fld 2 n 4) (fld 4 n 0))
  | 0x12 => some (.iaddi (flg n 31) (fld 6 n 18) (fld 6 n 12) (fld 12 n 0))
  | 0x13 => some (.imul (flg n 31) (fld 6 n 18) (fld 6 n 12) (fld 6 n 6) (fld 2 n 4) (fld 4 n 0))
  | 0x14 => some (.imulhs (flg n 31) (fld 6 n 18) (fld 6 n 12) (fld 6 n 6) (fld 1 n 4) (fld 4 n 0))
  | 0x15 => some (.imulhn (flg n 31) (fld 6 n 18) (fld 6 n 12) (fld 6 n 6) (fld 1 n 4) (fld 4 n 0))
  | 0x16 => some (.imad (flg n 31) (fld 6 n 18) (fld 6 n 12) (fld 6 n 6) (fld 6 n 0))
  | 0x17 => some (.imadw (flg n 31) (fld 5 n 19) (fld 6 n 12) (fld 6 n 6) (fld 5 n 1))
  | 0x18 => some (.imadwn (flg n 31) (fld 5 n 19) (fld 6 n 12) (fld 6 n 6) (fld 5 n 1))
  | 0x19 => some (.imin (flg n 31) (fld 6 n 18) (fld 6 n 12) (fld 6 n 6) (fld 2 n 4) (fld 4 n 0))
  | 0x1a => some (.imax (flg n 31) (fld 6 n 18) (fld 6 n 12) (fld 6 n 6) (fld 2 n 4) (fld 4 n 0))
  | 0x1b => some (.iabs (flg n 31) (fld 6 n 18) (fld 6 n 12) (fld 2 n 4) (fld 4 n 0))
  | 0x1c => some (.ineg (flg n 31) (fld 6 n 18) (fld 6 n 12) (fld 2 n 4) (fld 4 n 0))
  | 0x1d => some (.idiv (flg n 31) (fld 6 n 18) (fld 6 n 12) (fld 6 n 6) (fld 2 n 4) (fld 4 n 0))
  | 0x1e => some (.irem (flg n 31) (fld 6 n 18) (fld 6 n 12) (fld 6 n 6) (fld 2 n 4) (fld 4 n 0))
  | 0x1f => some (.iaccw (flg n 31) (fld 5 n 19) (fld 6 n 12) (fld 2 n 4) (fld 4 n 0))
  | 0x20 => some (.addr (flg n 31) (fld 5 n 19) (fld 5 n 13) (fld 6 n 6) (fld 2 n 4) (fld 4 n 0))
  | 0x21 => some (.addri (flg n 31) (fld 5 n 19) (fld 5 n 13) (fld 12 n 0))
  | 0x22 => some (.and (flg n 31) (fld 6 n 18) (fld 6 n 12) (fld 6 n 6) (fld 1 n 4) (fld 4 n 0))
  | 0x23 => some (.or (flg n 31) (fld 6 n 18) (fld 6 n 12) (fld 6 n 6) (fld 1 n 4) (fld 4 n 0))
  | 0x24 => some (.xor (flg n 31) (fld 6 n 18) (fld 6 n 12) (fld 6 n 6) (fld 1 n 4) (fld 4 n 0))
  | 0x25 => some (.andn (flg n 31) (fld 6 n 18) (fld 6 n 12) (fld 6 n 6) (fld 1 n 4) (fld 4 n 0))
  | 0x26 => some (.not (flg n 31) (fld 6 n 18) (fld 6 n 12) (fld 1 n 4) (fld 4 n 0))
  | 0x27 => some (.andi (flg n 31) (fld 6 n 18) (fld 6 n 12) (fld 12 n 0))
  | 0x28 => some (.ori (flg n 31) (fld 6 n 18) (fld 6 n 12) (fld 12 n 0))
  | 0x29 => some (.xori (flg n 31) (fld 6 n 18) (fld 6 n 12) (fld 12 n 0))
  | 0x2a => some (.shl (flg n 31) (fld 6 n 18) (fld 6 n 12) (fld 6 n 6) (fld 2 n 4) (fld 4 n 0))
  | 0x2b => some (.shr (flg n 31) (fld 6 n 18) (fld 6 n 12) (fld 6 n 6) (fld 2 n 4) (fld 4 n 0))
  | 0x2c => some (.sar (flg n 31) (fld 6 n 18) (fld 6 n 12) (fld 6 n 6) (fld 2 n 4) (fld 4 n 0))
  | 0x2d => some (.shli (flg n 31) (fld 6 n 18) (fld 6 n 12) (fld 1 n 6) (fld 6 n 0))
  | 0x2e => some (.shri (flg n 31) (fld 6 n 18) (fld 6 n 12) (fld 1 n 6) (fld 6 n 0))
  | 0x2f => some (.sari (flg n 31) (fld 6 n 18) (fld 6 n 12) (fld 1 n 6) (fld 6 n 0))
  | 0x30 => some (.bfx (flg n 31) (fld 6 n 18) (fld 6 n 12) (fld 5 n 5) (fld 5 n 0))
  | 0x31 => some (.bfxs (flg n 31) (fld 6 n 18) (fld 6 n 12) (fld 5 n 5) (fld 5 n 0))
  | 0x32 => some (.bfi (flg n 31) (fld 6 n 18) (fld 6 n 12) (fld 5 n 5) (fld 5 n 0))
  | 0x33 => some (.bitop (flg n 31) (fld 6 n 18) (fld 6 n 12) (fld 2 n 4) (fld 4 n 0))
  | 0x34 => some (.scan (flg n 31) (fld 6 n 18) (fld 6 n 12) (fld 2 n 4) (fld 4 n 0))
  | 0x35 => some (.ired (flg n 31) (fld 6 n 18) (fld 6 n 12) (fld 2 n 4) (fld 4 n 0))
  | 0x36 => some (.waitf (fld 12 n 0))
  | 0x37 => some (.waitc (fld 3 n 21) (fld 6 n 15))
  | 0x38 => some (.waitany (fld 1 n 8) (fld 8 n 0))
  | 0x39 => some (.bar (fld 1 n 2) (fld 2 n 0))
  | 0x40 => some (.fadd (flg n 31) (fld 6 n 18) (fld 6 n 12) (fld 6 n 6) (fld 2 n 4) (fld 4 n 0))
  | 0x41 => some (.fsub (flg n 31) (fld 6 n 18) (fld 6 n 12) (fld 6 n 6) (fld 2 n 4) (fld 4 n 0))
  | 0x42 => some (.fmul (flg n 31) (fld 6 n 18) (fld 6 n 12) (fld 6 n 6) (fld 2 n 4) (fld 4 n 0))
  | 0x43 => some (.ffma32 (flg n 31) (fld 6 n 18) (fld 6 n 12) (fld 6 n 6) (fld 6 n 0))
  | 0x44 => some (.ffma64 (flg n 31) (fld 5 n 19) (fld 5 n 13) (fld 5 n 7) (fld 5 n 1))
  | 0x45 => some (.ffmabf (flg n 31) (fld 6 n 18) (fld 6 n 12) (fld 6 n 6) (fld 6 n 0))
  | 0x46 => some (.ffmah (flg n 31) (fld 6 n 18) (fld 6 n 12) (fld 6 n 6) (fld 6 n 0))
  | 0x47 => some (.fmin (flg n 31) (fld 6 n 18) (fld 6 n 12) (fld 6 n 6) (fld 2 n 4) (fld 4 n 0))
  | 0x48 => some (.fmax (flg n 31) (fld 6 n 18) (fld 6 n 12) (fld 6 n 6) (fld 2 n 4) (fld 4 n 0))
  | 0x49 => some (.fsgn (flg n 31) (fld 6 n 18) (fld 6 n 12) (fld 6 n 6) (fld 2 n 4) (fld 4 n 0))
  | 0x4a => some (.fcmp (flg n 31) (fld 3 n 18) (fld 6 n 12) (fld 6 n 6) (fld 1 n 4) (fld 4 n 0))
  | 0x4b => some (.fclass (flg n 31) (fld 6 n 18) (fld 6 n 12) (fld 2 n 4) (fld 4 n 0))
  | 0x4c => some (.frnd (flg n 31) (fld 6 n 18) (fld 6 n 12) (fld 2 n 6) (fld 2 n 4) (fld 4 n 0))
  | 0x4d => some (.fdiv (flg n 31) (fld 6 n 18) (fld 6 n 12) (fld 6 n 6) (fld 1 n 4) (fld 4 n 0))
  | 0x4e => some (.fsqrt (flg n 31) (fld 6 n 18) (fld 6 n 12) (fld 1 n 4) (fld 4 n 0))
  | 0x4f => some (.frcp (flg n 31) (fld 6 n 18) (fld 6 n 12) (fld 4 n 0))
  | 0x50 => some (.frsq (flg n 31) (fld 6 n 18) (fld 6 n 12) (fld 4 n 0))
  | 0x51 => some (.fexp2 (flg n 31) (fld 6 n 18) (fld 6 n 12) (fld 4 n 0))
  | 0x52 => some (.flog2 (flg n 31) (fld 6 n 18) (fld 6 n 12) (fld 4 n 0))
  | 0x53 => some (.fsin (flg n 31) (fld 6 n 18) (fld 6 n 12) (fld 4 n 0))
  | 0x54 => some (.fcos (flg n 31) (fld 6 n 18) (fld 6 n 12) (fld 4 n 0))
  | 0x55 => some (.cvt (flg n 31) (fld 6 n 18) (fld 6 n 12) (fld 3 n 9) (fld 3 n 6) (fld 2 n 4) (fld 4 n 0))
  | 0x56 => some (.cvtp (flg n 31) (fld 6 n 18) (fld 6 n 12) (fld 6 n 6) (fld 1 n 4) (fld 4 n 0))
  | 0x57 => some (.qenc (flg n 31) (fld 6 n 18) (fld 6 n 12) (fld 6 n 6) (fld 4 n 0))
  | 0x58 => some (.qdec (flg n 31) (fld 6 n 18) (fld 6 n 12) (fld 6 n 6) (fld 4 n 0))
  | 0x59 => some (.fscale (flg n 31) (fld 6 n 18) (fld 6 n 12) (fld 6 n 6) (fld 2 n 4) (fld 4 n 0))
  | 0x5a => some (.fdot2 (flg n 31) (fld 6 n 18) (fld 6 n 12) (fld 6 n 6) (fld 6 n 0))
  | 0x5b => some (.fmovi (flg n 31) (fld 6 n 18) (fld 18 n 0))
  | 0x5c => some (.fsum (flg n 31) (fld 6 n 18) (fld 6 n 12) (fld 1 n 4) (fld 4 n 0))
  | 0x5d => some (.fscan (flg n 31) (fld 6 n 18) (fld 6 n 12) (fld 1 n 4) (fld 4 n 0))
  | 0x60 => some (.bra (fld 4 n 20) (fld 1 n 19) (fld 19 n 0))
  | 0x61 => some (.jmp (fld 5 n 13) (fld 4 n 0))
  | 0x62 => some (.call (fld 4 n 20) (fld 1 n 19) (fld 19 n 0))
  | 0x63 => some (.calli (fld 5 n 13) (fld 4 n 0))
  | 0x64 => some (.ret)
  | 0x65 => some (.regang (fld 8 n 0))
  | 0x66 => some (.exit)
  | 0x67 => some (.yield)
  | 0x68 => some (.sleep (fld 16 n 0))
  | 0x69 =>
    let s := n / 2 ^ 8 % 1024
    if s = 0x015 then some (.rdsGangFpstat (flg n 31) (fld 6 n 18))
    else if 0x042 ≤ s ∧ s ≤ 0x045 then some (.rdsMqRecv (flg n 31) (fld 6 n 18) (BitVec.ofNat 2 (s - 0x042)))
    else some (.rds (flg n 31) (fld 6 n 18) (fld 10 n 8))
  | 0x6a =>
    let s := n / 2 ^ 8 % 1024
    if s = 0x000 then some (.wrsSliceStatus (flg n 31) (fld 6 n 18))
    else if s = 0x015 then some (.wrsGangFpstat (flg n 31) (fld 6 n 18))
    else if s = 0x040 then some (.wrsMqSend (flg n 31) (fld 6 n 18))
    else if s = 0x051 then some (.wrsMxUe (flg n 31) (fld 6 n 18))
    else if s = 0x114 then some (.wrsTrapQ (flg n 31) (fld 6 n 18))
    else if s = 0x138 then some (.wrsDbgCtl (flg n 31) (fld 6 n 18))
    else if 0x150 ≤ s ∧ s ≤ 0x157 then some (.wrsPerfSel (flg n 31) (fld 6 n 18) (fld 3 n 8))
    else some (.wrs (flg n 31) (fld 6 n 18) (fld 10 n 8))
  | 0x6b => some (.trap (fld 8 n 0))
  | 0x6c => some (.rte)
  | 0x6d => some (.brk (fld 8 n 0))
  | 0x6e => some (.mkpush (flg n 31) (fld 4 n 0))
  | 0x6f => some (.mkctl (flg n 31) (fld 1 n 0))
  | 0x70 => some (.ld (flg n 31) (fld 6 n 18) (fld 6 n 12) (fld 4 n 8) (fld 4 n 4) (fld 2 n 2) (fld 2 n 0))
  | 0x71 => some (.ldw (flg n 31) (fld 6 n 18) (fld 6 n 12) (fld 4 n 8) (fld 4 n 4) (fld 1 n 3) (fld 2 n 0))
  | 0x72 => some (.ldt (flg n 31) (fld 6 n 18) (fld 6 n 12) (fld 4 n 8) (fld 4 n 4) (fld 1 n 3) (fld 2 n 0))
  | 0x73 => some (.lda (flg n 31) (fld 6 n 18) (fld 6 n 12) (fld 4 n 8) (fld 4 n 4) (fld 2 n 2) (fld 2 n 0))
  | 0x74 => some (.ldx (flg n 31) (fld 6 n 18) (fld 6 n 12) (fld 4 n 8) (fld 4 n 4) (fld 2 n 2) (fld 2 n 0))
  | 0x75 => some (.st (flg n 31) (fld 6 n 18) (fld 6 n 12) (fld 4 n 8) (fld 4 n 4) (fld 2 n 2) (fld 2 n 0))
  | 0x76 => some (.stf (flg n 31) (fld 6 n 18) (fld 6 n 12) (fld 4 n 8) (fld 4 n 4) (fld 1 n 3) (fld 2 n 0))
  | 0x77 => some (.strel (flg n 31) (fld 6 n 18) (fld 6 n 12) (fld 4 n 8) (fld 4 n 4) (fld 2 n 2) (fld 2 n 0))
  | 0x78 => some (.stx (flg n 31) (fld 6 n 18) (fld 6 n 12) (fld 4 n 8) (fld 4 n 4) (fld 2 n 2) (fld 1 n 0))
  | 0x79 => some (.gst (flg n 31) (fld 6 n 18) (fld 5 n 13) (fld 4 n 8) (fld 4 n 4) (fld 2 n 0))
  | 0x7a => some (.atom (flg n 31) (fld 6 n 18) (fld 6 n 12) (fld 3 n 9) (fld 4 n 5) (fld 1 n 4) (fld 4 n 0))
  | 0x7b => some (.fence (flg n 31) (fld 1 n 5) (fld 2 n 3) (fld 3 n 0))
  | 0x7c => mxWord (n % 64) n
  | 0x7d => copyWord (n % 64) n
  | 0x7e => queueWord (n % 64) n
  | 0x7f => checkWord (n % 64) n
  | _ => none

/-- The instruction a word's fields describe, whatever its reserved bits and values (R36, R49). -/
def candidate (n : Nat) : Option Instr := majorWord (n / 2 ^ 24 % 128) n

/-- The instruction of a 32-bit word (R36, R59): the one whose fields it describes, if each holds an
assigned value and every other bit of the word is as the encoding has it. -/
def decodeNat (n : Nat) : Except Reject Instr :=
  match candidate n with
  | none => .error .unassigned
  | some i => if i.wf && encodeNat i == some n then .ok i else .error .reserved

/-- The instruction of a word. -/
def decodeWord (w : Word) : Except Reject Instr := decodeNat w.toNat

/-- The word of an instruction; none for a step that no word encodes. -/
def encode (i : Instr) : Option Word := (encodeNat i).map (BitVec.ofNat 32)

/-- The number whose bytes, least significant first, are listed (R5). -/
def leNat : List Byte → Nat
  | [] => 0
  | x :: t => x.toNat + 256 * leNat t

/-- The n bytes of a number, least significant first (R5). -/
def leBytes : Nat → Nat → List Byte
  | 0, _ => []
  | n + 1, v => BitVec.ofNat 8 v :: leBytes n (v / 256)

/-- The first instruction of a list of bytes, and the rest (R36). -/
def decodeBytes : List Byte → Except Reject (Instr × List Byte)
  | x0 :: x1 :: x2 :: x3 :: t =>
    match decodeNat (leNat [x0, x1, x2, x3]) with
    | .ok i => .ok (i, t)
    | .error e => .error e
  | _ => .error .tooShort

/-- The instruction the decoder reads from an opcode-table word of `nbits` bits, laid out in memory as
the hardware stores it, the bits above `nbits` zero. -/
def decodeTableWord (nbits w : Nat) : Option Instr :=
  match decodeBytes (leBytes 4 (w % 2 ^ nbits)) with
  | .ok (i, _) => some i
  | .error _ => none

/-- The mnemonic's chain bit: the word is chained to the next (R36). -/
def chained (w : Word) : Bool := w.getLsbD 31

end Sys2Proof
end

