-- ==== Sys2Proof/Machine/Wiring.lean ====
section
/-! DEFINITION. Machine/Wiring.lean: the physical links between the dies of a package (R16, R449). -/

namespace Sys2Proof.Machine

open Sys2Proof

/-- A physical link: a node and a port at each end, its bandwidth per direction in GB/s, and the lowest and highest
protocol version that each end supports (R16, R365, R449). -/
structure Wire where
  nodeA : Nat
  portA : Nat
  nodeB : Nat
  portB : Nat
  bw : Nat
  loA : Nat := 1
  hiA : Nat := 1
  loB : Nat := 1
  hiB : Nat := 1
  deriving DecidableEq, Repr

/-- A link of the nominal wiring. -/
def wire (a pa b pb bw : Nat) : Wire := { nodeA := a, portA := pa, nodeB := b, portB := pb, bw := bw }

/-- The links of compute die n under the nominal wiring, its ring link to the next die first (R16, R449). -/
def cdWires (n : Nat) : List Wire :=
  [wire n 0 ((n + 1) % 4) 1 2000]
    ++ ((List.range 4).map fun j => wire n (2 + j) (4 + (2 * n + j) % 8) (if j < 2 then 0 else 1) 4000)
    ++ [wire n 6 12 n 500, wire n 7 13 n 1000]

/-- Every link of the nominal wiring (R16). -/
def nominalWires : List Wire :=
  (List.range 4).flatMap cdWires ++ ((List.range 8).map fun m => wire (4 + m) 2 12 (4 + m) 250) ++ [wire 12 12 13 4 100]

/-- The version a link runs at: the highest that both its ends support, if their ranges meet (R365). -/
def Wire.version (w : Wire) : Option Nat :=
  let v := min w.hiA w.hiB
  if max w.loA w.loB ≤ v then some v else none

/-- The cost of a link of some bandwidth: 4 TB/s over it, rounded up (R363). -/
def linkCost (bw : Nat) : Nat := (4000 + (bw - 1)) / bw

end Sys2Proof.Machine
end

