-- ==== Sys2Proof/Machine/State.lean ====
section
/-! DEFINITION. Machine/State.lean: everything the specification gives an H4 package to hold, as plain
data, the reasons a step can stop, and the package right after reset. A field that is the model's own
and not the specification's says so with the number of its log entry. -/

namespace Sys2Proof.Machine

open Sys2Proof

/-- Reasons the machine stops with a fault. Every failure the specification describes is a trap, a
status, a lane kill or a record (R309), so none of those is a fault of the model. -/
inductive Fault where
  /-- Raised by `step` when the group chosen for issue names no live slice of the focused gang: a state
  that no run reaches, because SCHEDULER_CYCLE chooses a ready group. Safe. -/
  | noSuchGroup
  deriving DecidableEq, Repr

/-- Reasons the machine has no meaning for a step. -/
inductive Refusal where
  /-- Raised by `exec` for a row of the opcode table that has no meaning yet. Safe. -/
  | notModelled (mnemonic : String)
  deriving DecidableEq, Repr

/-! ## Gangs -/

/-- What a slice waits for before its next word (R331, R410, R411). -/
inductive Wait where
  | none
  | waitf (mask : BitVec 12)
  /-- The operations WAITC still awaits, with the class and the number its word names (R203). -/
  | waitc (cls n : Nat) (ops : List Nat)
  | waitany (mask : BitVec 8)
  | bar (slot : Nat) (phase : Word)
  /-- Waiting at the REGANG at a word address, with its mask (R160). -/
  | regang (mask : BitVec 8) (word : DWord)
  /-- Sleeping, by a word of n, until CLK.CYCLE reaches a value; while that is 0 the sleep stands still with
  some 16-cycle units still to run (R164, R331). -/
  | sleep (n units until_ : Nat)
  /-- The chain bit of a WCLOSE, and the counted operations and the posted atomics it still awaits (R331, R410). -/
  | wclose (chain : Bool) (ops posted : List Nat)
  /-- A reply of the checker (R411, R412). -/
  | reply (op : Nat)
  deriving DecidableEq, Repr

/-- A pending completion flag of a slice (R56, R58): the flag, the word it belongs to (R320) and the
words its lookahead window still admits. -/
structure FlagRec where
  flag : Nat
  op   : Nat
  win  : Nat
  deriving DecidableEq, Repr

/-- A slice (R22): four lanes with one program counter, active mask and mask stack. -/
structure Slice where
  pc     : DWord := 0          -- SLICE.PC in the form of R39
  link   : DWord := 0
  active : BitVec 4 := 0
  stack  : List (BitVec 4) := []   -- entry 0, the one pushed first, at the head
  priv   : Bool := false
  step   : Bool := false
  brk    : Bool := false
  cause  : Word := 0           -- EV.CAUSE
  flags  : List FlagRec := []
  wait   : Wait := .none
  sync   : List Nat := []      -- words of its last chain that it awaits synchronously (R56, R355)
  backs  : List Nat := []      -- lines that a CWB of it has had written back and awaits (R355, R357)
  closed : Bool := false       -- closed by WCLOSE (R410)
  grp    : Nat := 0            -- its issue group, named by the group's lowest slice when it formed (R24)
  deriving DecidableEq, Repr

/-- The memory spaces a word addresses (R167). -/
inductive Space where
  | l | s | c | d | g
  deriving DecidableEq, Repr

/-- The words of majors 0x70 to 0x7A. -/
inductive MemKind where
  | ld | ldw | ldt | lda | ldx | st | stf | strel | stx | gst | atom
  deriving DecidableEq, Repr

/-- What an outstanding memory word does, as its word says. -/
structure MemOp where
  kind   : MemKind
  space  : Space
  size   : Nat            -- bytes of one lane's access
  signed : Bool := false  -- LDX of a signed type
  reg    : Nat            -- first register of d
  aop    : Nat := 0       -- ATOM: operation code (R55)
  aty    : Nat := 0       -- ATOM: type code (R55)
  ret    : Bool := true   -- ATOM: returning
  deriving DecidableEq, Repr

/-- A translated address: the leaf's words and place, the page's size and the offset in it (R345). -/
structure Xlat where
  w0 : DWord
  w1 : DWord
  leaf : Nat
  size : Nat
  off : Nat
  deriving DecidableEq, Repr

/-- An outstanding memory word of a gang (R311), with the operands captured at issue (R332). -/
structure Flight where
  id     : Nat                  -- increases with issue order (R190)
  op     : MemOp
  word   : Word                 -- the instruction word (R316)
  pc     : DWord                -- its address
  slice  : Nat                  -- lowest slice of the issuing group (R317)
  slices : BitVec 8             -- slices of the issuing group
  flag   : Nat                  -- 0 to 11, or 15
  exec   : LaneMask             -- lanes that execute the word
  remain : LaneMask             -- lanes still to perform
  addr   : Store DWord          -- by lane
  place  : Store Nat := []      -- flat addresses of a scratchpad word, by lane
  data   : Store (BitVec 128)   -- by lane
  casv   : Store (BitVec 128)   -- by lane
  got    : Store (BitVec 128) := []  -- values served lanes received
  half   : Bool := false        -- its uniform destination is written, its flag has not cleared (R58)
  kid    : Option Nat := none   -- its operation in k1 or k2
  walked : Bool := true         -- translation has returned
  held   : Store Xlat := []     -- by lane, the translations of a GST of which some lanes are performed (R186)
  parked : Option Nat := none   -- place in the granule wait table
  late   : Bool := false        -- issued by a closed slice (R410)
  cause  : Nat := 0             -- CODE of its fault, 0 if none
  info   : Nat := 0
  faddr  : DWord := 0
  deriving DecidableEq, Repr

/-- A draining FENCE (R204): its word, its slice and group, whether it was issued in a handler, and whether one of
the posted atomics before it has met an abort completion (R210). -/
structure Drain where
  pc    : DWord
  slice : Nat
  group : BitVec 8
  priv  : Bool := false
  hit   : Bool := false
  deriving DecidableEq, Repr

/-- An order among accesses not yet settled (R194), at a scope of R191: the accesses issued after `at_` (only the
writes, if `writesOnly`) are performed after every access of `waits`. -/
structure FenceRec where
  at_        : Nat
  waits      : List Nat
  writesOnly : Bool
  scope      : Nat := 5
  drain      : Option Drain := none
  deriving DecidableEq, Repr

/-- What an operation counted in an engine class does when it is not a memory word, a matrix command, a
collective part or a flit (R198). -/
inductive KWork where
  | plain
  /-- FESET of [base, base + len) of a flat space, to full or empty (R187). -/
  | feset (base len : Nat) (full : Bool) (took : Bool)
  /-- CHRESET of the chunk object at an S offset (R264). -/
  | chreset (off : Nat)
  /-- CHCLOSE of a channel, waiting for the flits sent on it (R287). -/
  | chclose (flits : List Nat)
  /-- WEMIT of an item: code, first index, element size and bytes (R409). -/
  | wemit (item first size : Nat) (bytes : List Byte)
  deriving DecidableEq, Repr

/-- An operation counted in class k0 to k5; a gang lists them oldest first (R198). -/
structure KOp where
  id   : Nat
  cls  : Nat
  done : Bool := false
  work : KWork := .plain
  deriving DecidableEq, Repr

/-- A binding that is armed or pending (R291, R292). -/
structure Binding where
  kind    : Nat
  arg     : Word
  handler : DWord
  pending : Bool := false
  broken  : Bool := false   -- the .bar source was found broken
  deadline : Nat := 0       -- .timer
  deriving DecidableEq, Repr

/-- A membership slot's arrival at its group's barrier (R302). -/
structure Arrival where
  slices  : BitVec 8 := 0      -- slices marked arrived
  arrived : Bool := false      -- the gang as a whole has arrived
  phase   : Word := 0
  deriving DecidableEq, Repr

/-- A channel of a gang (R274). -/
structure Chan where
  opened : Bool := false
  cap    : Nat := 0
  seqno  : Nat := 0
  deriving DecidableEq, Repr

/-- The mode of a gang (R330). -/
inductive GMode where
  | running | inTrap | inDebug | halted
  deriving DecidableEq, Repr

/-- A stop being brought about (R310): its CODE, INFO, the word and address it reports, the slice that
names the trapping group. -/
structure Stop where
  code  : Nat
  info  : Nat
  pc    : DWord
  addr  : DWord
  slice : Nat
  group : BitVec 8       -- the trapping group T (R313)
  opid  : Option Nat := none  -- the word whose fault it is, if it faulted after issue
  deriving DecidableEq, Repr

/-- A trap frame (R313): the saved slices and the replay entries, oldest first. -/
structure Frame where
  slices  : List Slice
  entries : List Flight
  deriving DecidableEq, Repr

/-- A reply of the checker that a slice waits for (R411, R412): an operator id for RELREQ, none for
SIGRD; the destination register and the lanes that receive it. -/
structure ReplyRec where
  id   : Nat
  oper : Option Nat
  reg  : Nat
  exec : LaneMask
  deriving DecidableEq, Repr

/-- A uniform register (R68): its value, the value it had before a long-latency write whose flag has not cleared, and the
lanes in which a word inside the window reads that one (R58). -/
structure Uni where
  now   : Word := 0
  old   : Word := 0
  lanes : LaneMask := 0
  deriving DecidableEq, Repr

/-- A gang (R23, R330). -/
structure Gang where
  uid    : Nat := 0
  task   : Nat := 0
  block  : Nat := 0          -- uid of its block
  id     : Nat := 0          -- GANG.ID
  rank0  : Nat := 0
  sched  : Nat := 0
  width  : Nat := 0
  ngen   : Nat := 0
  naff   : Nat := 0
  nuni   : Nat := 0
  slices : List Slice := []
  gen    : Store Word := []       -- register r, lane L at 32 r + L
  affB   : Store Word := []       -- affine bases
  affS   : Store Word := []       -- affine strides
  uni    : Store Uni := []
  preds  : Store LaneMask := []   -- p0 to p6
  live   : BitVec 8 := 0
  killed : LaneMask := 0
  killCause : BitVec 3 := 0
  fpstat : BitVec 5 := 0
  mqDest : BitVec 6 := 0
  chCur  : BitVec 4 := 0
  chans  : Store Chan := []
  allow  : Store Nat := []
  kops   : List KOp := []
  binds  : Store Binding := []    -- b0 to b7 that are armed
  arrivals : Store Arrival := []  -- membership slots 0 to 3
  mxUe   : BitVec 5 := 0
  mxUeLoc : BitVec 23 := 0
  abort  : Option DWord := none   -- recorded posted abort (R210)
  trapCause : Word := 0
  trapPc : DWord := 0
  trapAddr : DWord := 0
  trapSel : BitVec 7 := 0
  frame  : Option Frame := none
  past   : List Slice := []       -- frame words 0 to 31 as the last RTE left them (R316, R336)
  mode   : GMode := .running
  hslices : BitVec 8 := 0         -- slices in the handler
  flights : List Flight := []
  hlist  : List Flight := []      -- words of a handler that a nested stop has made replay entries (R310, R321)
  fences : List FenceRec := []
  collN  : Nat := 0               -- collective words issued (R244)
  stop   : Option Stop := none
  level  : Nat := 0
  key    : Nat := 0
  waits  : Nat := 0
  lastGrp : Nat := 0              -- issue group that issued last (R20)
  yielded : Option Nat := none    -- group ineligible in the next cycle (R163)
  cached : List (Nat × BitVec 8) := []  -- register cache: registers, newest first, with the slices each is held for (R79)
  exempt : BitVec 8 := 0          -- slices whose next chain no comparator matches (R320)
  replies : List ReplyRec := []
  deriving DecidableEq, Repr

/-! ## Blocks, engines and cores -/

/-- The endpoint a capability names (R268, R343). -/
inductive Endpoint where
  | queue (task blockNo q : Nat)
  | dispatch (ctx : Nat)
  | window (w : Nat)
  deriving DecidableEq, Repr

/-- A flit of R268: its payload and the header the device adds. -/
structure Flit where
  id      : Nat
  payload : List Byte
  tenant  : Nat
  task    : Nat              -- sending task, 0 for the host or the dispatcher
  sender  : Option Nat       -- uid of the sending gang
  window  : Option Nat       -- sending host window
  cap     : Nat              -- capability the sender used, for its allowance unit
  chan    : Nat
  seqno   : Nat
  dst     : Endpoint
  reply   : Option Endpoint
  kid     : Option Nat       -- the sender's k4 operation
  refused : Option Nat := none  -- place among recorded refusals
  reserved : Bool := false   -- room has been reserved for it
  deriving DecidableEq, Repr

/-- The binding of an operand slot name (R213): the physical slot of the block and its type. -/
structure SlotBind where
  phys : Nat
  ty   : Nat
  deriving DecidableEq, Repr

/-- A gang's part of a collective (R244, R245). -/
structure Part where
  coll : Nat
  rank : Nat
  gang : Nat
  minor : Nat
  desc : Option (List Byte)   -- none: an empty part
  kid  : Nat
  kid3 : Option Nat
  late : Bool
  base : Nat                  -- issue position of the part (R254)
  deriving DecidableEq, Repr

/-- A collective that has started (R251). -/
structure Coll where
  num    : Nat
  parts  : List Part          -- in rank order
  obj    : Nat                -- CHOBJ of part 0
  gen    : Word               -- generation it started with
  expect : Nat
  landed : List Nat
  fail   : Option (Nat × DWord)  -- final status and FADDR of the first failure
  followed : Bool := false    -- the follow-on has been issued
  kill   : Bool := false      -- its final status is written; a follow-on is still to complete
  orig   : List (Nat × Nat × Nat) := []  -- what sources held at the start: part, element, value (R254)
  dty    : Nat := 0           -- type of slot DSLOT at the start (R259)
  deriving DecidableEq, Repr

/-- A command of the matrix unit, in acceptance order in its core's queue (R218). -/
structure MxCmd where
  id    : Nat
  gang  : Nat
  kid   : Nat
  block : Nat
  word  : Instr              -- the MX word, or the follow-on of a CPMX
  y     : Word
  z     : Word
  slotsR : List Nat          -- physical slots it reads
  slotsW : List Nat          -- physical slots it writes
  zR    : List Nat           -- z tiles it reads
  zW    : List Nat
  coll  : Option Nat := none -- the collective of a CPMX
  ready : Bool := true       -- false: a follow-on whose chunks have not all landed
  readyAt : Option Nat := none  -- when it, or the step its MGEMM stands at, became ready (R241)
  started : Bool := false
  tiles : Nat := 0           -- micro-tiles complete
  step  : Nat := 0           -- MGEMM step index
  params : List Byte := []   -- MGEMM parameter block bytes 0 to 55
  status : Nat := 0
  faddr : DWord := 0
  late  : Bool := false
  tys   : List Nat := []     -- slot types at acceptance
  after : List Nat := []     -- accesses its S reads follow (R220)
  deriving DecidableEq, Repr

/-- A block (R26, R28): its resources and its place. -/
structure Block where
  uid    : Nat := 0
  task   : Nat := 0
  num    : Nat := 0
  die    : Nat := 0
  core   : Nat := 0
  home   : Nat := 0
  width  : Nat := 0
  ngen   : Nat := 0
  naff   : Nat := 0
  nuni   : Nat := 0
  sbytes : Nat := 0
  slots  : Nat := 0
  zt     : Nat := 0
  lmem   : Nat := 0          -- in units of 16 bytes
  rq     : Nat := 0
  prio   : Nat := 0
  admitted : Nat := 0        -- admission sequence
  queues : Store (List Flit) := []
  slotTab : Store SlotBind := []
  parts  : List Part := []   -- of collectives not started
  nextColl : Nat := 0        -- collectives started
  colls  : List Coll := []
  sig    : DWord := 0        -- result signature (R379)
  attempt : Nat := 1           -- the attempt of its operator (R400)
  replay : Option Nat := none  -- the checker's replay it runs for (R398)
  evicting : Bool := false
  gone   : Bool := false     -- retired; kept while accesses it issued are in flight
  deriving DecidableEq, Repr

/-- Tagged sampling of one scheduler (R326). -/
structure Sampler where
  left  : Nat := 0             -- chains until the next choice; 0 until an interval has been drawn
  chosen : Option (List Byte) := none    -- what is known of a chain just chosen
  building : Option (List Byte) := none  -- record being built
  deriving DecidableEq, Repr

/-- A compute core (R21, R144). -/
structure Core where
  die    : Nat := 0
  idx    : Nat := 0
  cycle  : Nat := 0            -- CLK.CYCLE
  lostSlots : Nat := 0         -- retired units of R403
  lostZt : Nat := 0
  lostSegs : Nat := 0          -- register segments, over the schedulers
  lostS  : Nat := 0
  saveBase : DWord := 0
  dbgPc  : Store DWord := []
  dbgCtl : BitVec 18 := 0
  sampPeriod : BitVec 20 := 0
  sampRec : DWord := 0
  samplers : Store Sampler := []
  errInj : Word := 0
  injPhys : Nat := 0           -- the unit ERR.INJ resolved to
  injBlock : Nat := 0
  perfSel : Store Word := []
  perfCnt : Store DWord := []
  mxq    : List MxCmd := []
  arrayUe : List (Nat × Nat × Nat) := []  -- errors the array is to detect: output row and column, partial result (R235)
  turn   : Nat := 0            -- scheduler whose turn it is within the cycle
  retired : Bool := false
  deriving DecidableEq, Repr

/-- A posted atomic lane not yet performed (R210). -/
structure Posted where
  id    : Nat
  word  : Nat                  -- the ATOM word it belongs to
  lane  : Nat
  gang  : Nat
  block : Nat
  die   : Nat
  core  : Nat
  slot  : Option Nat := none   -- its place in the die's overflow area, once it has spilled
  op    : MemOp
  addr  : DWord
  phys  : Nat                  -- flat address
  leaf  : Nat                  -- its page's leaf entry, 0 for S
  data  : BitVec 128
  ctx   : Nat                  -- its task's context
  task  : Nat
  late  : Bool
  deriving DecidableEq, Repr

/-- A save image (R327 to R332): where its bytes are, and what they stand for. -/
structure Image where
  id     : Nat
  die    : Nat                 -- core pool and slot that hold it
  core   : Nat
  slot   : Option Nat
  addr   : Nat
  block  : Block
  gangs  : List Gang
  mx     : List MxCmd
  dieOfEviction : Nat
  grant  : Bool
  deriving DecidableEq, Repr

/-! ## Tasks and the dispatcher -/

/-- The fields of a task record (R276, R277). -/
structure TaskRec where
  code : Nat := 0
  param : Nat := 0
  gtab : Nat := 0
  ctab : Nat := 0
  affin : Nat := 0
  gangs : Nat := 1
  width : Nat := 4
  prio : Nat := 0
  restart : Bool := false
  wclass : Nat := 0
  replay : Bool := false
  rq : Nat := 0
  home : Nat := 1
  ngen : Nat := 0
  naff : Nat := 0
  nuni : Nat := 0
  sbytes : Nat := 0
  slots : Nat := 0
  zt : Nat := 0
  lmem : Nat := 0
  opid : Nat := 0
  parents : List Nat := []
  deriving DecidableEq, Repr

/-- A capability as a task holds it (R342, R343); `kind = 0` when it is held invalid. -/
structure Cap where
  kind : Nat := 0
  perm : Nat := 0
  allow : Nat := 0
  reply : Nat := 0xFF
  f8   : Nat := 0      -- TASKSEL, CTX, WINDOW, GRANT or PKG
  f10  : Nat := 0      -- DIES
  f12  : Nat := 0      -- block number
  f16  : Nat := 0      -- logical queue, or BASE
  f24  : Nat := 0      -- LENGTH
  deriving DecidableEq, Repr

/-- A gang's memberships (R341): group, rank for each valid slot. -/
structure Member where
  grp   : List Nat := []
  valid : Nat := 0
  rank  : List Nat := []
  deriving DecidableEq, Repr

/-- A group's barrier (R301) and its group table entry (R339). -/
structure Barrier where
  num : Nat
  scope0 : Nat                 -- SCOPE of the table
  size : Nat
  phase : Word := 0
  expected : Nat
  arrived : List Nat := []     -- gangs that arrived in this phase
  owed    : List Nat := []     -- covered words issued before the arrivals of this phase (R200)
  broken : Bool := false
  scope : Nat := 0             -- scope of the current phase (R340)
  wide : Bool := false         -- a replay's group with members outside its block (R398)
  deriving DecidableEq, Repr

/-- A task (R27, R275). -/
structure Task where
  id     : Nat := 0
  record : TaskRec := {}
  ctx    : Nat := 0
  tenant : Nat := 0
  caps   : List Cap := []
  members : List Member := []
  barriers : List Barrier := []
  reply  : Option Endpoint := none
  attempt : Nat := 1
  excluded : BitVec 4 := 0
  nextBlock : Nat := 0
  retired : List Nat := []     -- blocks that have retired
  ran    : List (Nat × Nat × Nat) := []  -- block, die, core of each admission of the attempt
  failed : Option Nat := none  -- REASON, once it has failed
  brokenAt : Option Nat := none
  ending : Bool := false
  kblocks : List Nat := []
  kgang  : Nat := 0
  kmask  : Word := 0
  kcause : Nat := 0
  pabort : DWord := 0
  deriving DecidableEq, Repr

/-- An entry of the dispatcher queue (R281): a task with blocks to admit, or an evicted block. -/
inductive QEntry where
  | task (id : Nat)
  | image (id : Nat)
  deriving DecidableEq, Repr

/-- A record on its way to the dispatcher or waiting at its endpoint (R275). -/
structure Record where
  id    : Nat
  bytes : List Byte
  ctx   : Nat
  flit  : Flit                 -- for its allowance, its k4 operation and its reply endpoint
  deriving DecidableEq, Repr

/-- A translation context (R337). -/
structure Ctx where
  root : Nat := 0
  tenant : Nat := 0
  valid : Bool := false
  launchx : Bool := false
  remote : Bool := false
  trapent : DWord := 0
  dbgent : DWord := 0
  deriving DecidableEq, Repr

/-- A D grant (R343). -/
structure Grant where
  die : Nat
  num : Nat
  ctx : Nat
  base : Nat
  len : Nat
  deriving DecidableEq, Repr

/-- A host window (R273). -/
structure Window where
  bound : Bool := false
  tenant : Nat := 0
  cap : Cap := {}
  left : Nat := 0
  recv : List Flit := []
  deriving DecidableEq, Repr

/-- A cached translation: the cache that holds it (128 × die + core for a core's, 512 + die for a die's, 600 for that
of the apertures), its context, page, page size and the two words of its leaf (R350, R352). -/
structure TlbEntry where
  holder : Nat
  ctx : Nat
  va : Nat
  size : Nat
  w0 : DWord
  w1 : DWord
  leaf : Nat
  deriving DecidableEq, Repr

/-- A pointer entry in the cache of a die's walker: the table that it leads to from a level of the tables of a context,
for the addresses with some leading bits (R352). -/
structure WalkEntry where
  die : Nat
  ctx : Nat
  lvl : Nat
  tag : Nat
  next : Nat
  deriving DecidableEq, Repr

/-- A miss in the table of a die's walker: one walk for a page of a context, and the words, by gang and identity, that
have merged into it (R353). The walks of a die start in the order of its misses. -/
structure Miss where
  die : Nat
  ctx : Nat
  page : Nat
  who : List (Nat × Nat)
  deriving DecidableEq, Repr

/-! ## The checker -/

/-- The state of an operator (R378). -/
inductive OpState where
  | running | closed | passed | released | discarded
  deriving DecidableEq, Repr

/-- An operator entry of the lineage table (R377). -/
structure Oper where
  id     : Nat
  tenant : Nat
  opid   : Nat
  task   : Nat
  cls    : Nat
  state  : OpState := .running
  attempt : Nat := 1
  seed   : BitVec 128 := 0
  items  : List (Nat × Nat × List Byte) := []  -- item, index, element
  dups   : List (Nat × List Byte) := []  -- elements emitted for an index emitted before: item, element
  ue     : Option Nat := none     -- node of the unit that reported an uncorrectable error
  noclose : Bool := false
  late   : Bool := false
  sigs   : Store DWord := []      -- by block
  deps   : List Nat := []         -- operators it depends on
  plainDeps : List Nat := []      -- tasks of class NONE whose pending data it has read
  parents : List Nat := []
  screening : List Nat := []      -- replays outstanding
  replayed : List Nat := []
  repl   : Option Bool := none    -- false: a replay has failed the operator
  blame  : Option Nat := none
  badBlock : Option Nat := none   -- the block whose replays blame the die (R399)
  cause  : Nat := 0
  rtag   : Nat := 0
  waited : Bool := false          -- a release of it has waited for a free tag (R395)
  deriving DecidableEq, Repr

/-- An entry of the history of ended operators (R377). -/
structure OpHist where
  tenant : Nat
  opid : Nat
  released : Bool
  rtag : Nat
  attempt : Nat
  deriving DecidableEq, Repr

/-- A versioned page with a pending frame: its leaf entry, the context and address it is mapped at, its
recorded writers (operator entries; tasks of class NONE by task) and readers (R182, R391). -/
structure Page where
  leaf : Nat
  size : Nat := 4096
  writers : List Nat := []
  plain : List Nat := []       -- writing tasks of class NONE
  readers : List Nat := []
  deriving DecidableEq, Repr

/-- A live release tag (R395). -/
structure Tag where
  num : Nat
  tenant : Nat
  opers : List Nat
  frames : List Nat            -- leaves whose PA frame carries it
  deriving DecidableEq, Repr

/-- A replay of a block by the checker (R398, R399). -/
structure Replay where
  id : Nat
  oper : Nat
  task : Nat
  block : Nat
  die : Nat := 0               -- die it runs on, once started
  uid : Option Nat := none     -- block that runs it, once started
  start : Nat := 0
  screen : Bool
  orig : Nat                   -- die of the original
  src : Task := {}             -- the task as it stood when the block was chosen
  sigs : List (Nat × Nat × DWord) := []  -- die, core and signature of the replays that have ended
  deriving DecidableEq, Repr

/-- An entry of the fault record (R401). -/
structure FaultRec where
  ns : Nat
  cls : Nat
  node : Nat
  kind : Nat
  index : Nat
  addr : Nat
  opid : Nat
  count : Nat
  outcome : Nat
  deriving DecidableEq, Repr

/-- The counted errors of a unit (R402, R421), newest first. A unit of a core is named by the core's place, its number
while no core of its die is retired. -/
structure UnitErr where
  node : Nat
  kind : Nat
  index : Nat
  times : List Nat
  lasting : Bool := false
  deriving DecidableEq, Repr

/-- The checker's state. -/
structure Checker where
  opers : List Oper := []
  hist : List OpHist := []
  pages : List Page := []
  tags : List Tag := []
  nextTag : Nat := 1
  receipts : List (List Byte) := []
  q : Nat := 10
  replays : List Replay := []
  faults : List FaultRec := []     -- oldest first
  units : List UnitErr := []
  w : Nat := 86400                 -- seconds
  t : Nat := 3
  retired : List (Nat × Nat × Nat) := []   -- node, kind, index of the place (R402)
  off : List (Nat × Nat) := []     -- the places of cores out of use since the last package reset: die, place (R17)
  keys : Store Nat := []           -- slot to tenant
  gens : Store Nat := []           -- slot to the number of the loading of its key, 0 for that of the boot
  injLock : Bool := false
  deriving DecidableEq, Repr

/-! ## The fabric -/

/-- A node as discovery found it (R363, R367). -/
structure Node where
  found : Bool := false
  level : Nat := 0
  excluded : Bool := false
  routes : Store Nat := []     -- port, at 2 × destination + phase; entry 28 leads to other packages
  deriving DecidableEq, Repr

/-- The state of a link (R362, R367). -/
inductive LinkState where
  | dead | live | unusable | training
  deriving DecidableEq, Repr

/-- A flit on a link (R361), the step its delivery brings about, and how often it has been replayed (R362). -/
structure LinkFlit where
  seqno : Nat
  dstn : Nat
  raw : List Byte
  deliver : Instr
  replays : Nat := 0
  deriving DecidableEq, Repr

/-- A link between two die ports (R449, R362). Side 0 is the first end. -/
structure Link where
  nodeA : Nat
  portA : Nat
  nodeB : Nat
  portB : Nat
  bw : Nat                         -- trained bandwidth, GB/s
  cost : Nat := 0                  -- as the checker has computed it, once a probe reply has named the link (R363)
  version : Nat := 1
  state : LinkState := .live
  next0 : Nat := 0                 -- next sequence number of each side's sender
  next1 : Nat := 0
  rx0 : Nat := 0                   -- next sequence number each side's receiver takes
  rx1 : Nat := 0
  buf0 : List LinkFlit := []       -- replay buffers of the two senders, oldest first
  buf1 : List LinkFlit := []
  retrains : Nat := 0
  deriving DecidableEq, Repr

/-- A flit kept at a node from entering the fabric while the tables change (R366): from, to, its bytes, and the step its
delivery brings about. -/
structure Held where
  src : Nat
  dst : Nat
  raw : List Byte
  deliver : Instr
  deriving DecidableEq, Repr

/-- The tokens of one holder for a line (R368). -/
structure Holding where
  tokens : Nat := 0
  owner : Bool := false
  dirty : Bool := false
  valid : Bool := false
  deriving DecidableEq, Repr

/-- A line of G under the token protocol (R368 to R372). Holder 4 is the home. -/
structure Line where
  hold : Store Holding := [(4, { tokens := 64, owner := true, dirty := false, valid := true })]
  hint : BitVec 4 := 0
  waiting : List (Nat × Bool) := []       -- dies whose requests wait at the home, oldest first
  tries : Store Nat := []                 -- transient tries of each die's outstanding request
  wants : Store Bool := []                -- each die's outstanding request: true for own
  active : Option (Nat × Bool) := none    -- active persistent entry, as the home keeps it
  told : List (Nat × Nat) := []           -- dies at which a persistent entry is active, each with its requester
  acks : List Nat := []                   -- dies that have not acknowledged the deactivate
  queue : List (Nat × Nat × Bool) := []   -- persistent requests waiting: arrival number, die, kind
  coming : Nat := 0                       -- token flits on their way to the home
  hbm : Bool := false                     -- the home writes what is on its way to its stack (R357)
  asked : Store Nat := []                 -- CLK.NS at which each holder last sent its outstanding request (R362)
  gaveUp : List Nat := []                 -- holders whose request has timed out: the access ends with an abort completion
  late : List Nat := []                   -- holders whose request has timed out and whose reply may still come
  deriving DecidableEq, Repr

/-- The Carriage's state (R373). -/
inductive CarState where
  | off | training | forward | isolateLocal
  deriving DecidableEq, Repr

/-- The Carriage (R373, R374). -/
structure Carriage where
  state : CarState := .training
  trained : Bool := false          -- the ports have trained
  ready : Bool := false            -- the checker has reported the local side ready
  beatAt : Nat := 0                -- CLK.NS of the last heartbeat
  fwd : Store (Nat × Nat) := []    -- primary and alternate port by package
  quiesced : List Nat := []
  orphans : List (Nat × Nat × Nat) := []   -- requests from outside awaiting a reply: package, node and tag of the origin
  misses : Nat := 0
  dead : List Nat := []            -- ports whose link is dead, or unusable for its version (R362, R365)
  training : Store Nat := []       -- ports that retrain, each with the retrainings that have failed (R362)
  ranges : Store (Nat × Nat) := [] -- versions the far end of a port supports, if other than 1 alone (R365)
  asked : List Nat := []           -- neighbours asked to quiesce that have not answered
  resetAt : Option Nat := none     -- CLK.NS at which the neighbours were asked
  sent : List (Nat × List Byte) := []   -- flits sent, by port, newest first
  deriving DecidableEq, Repr

/-- A request of this package that awaits a reply from another package (R362). -/
structure Request where
  id : Nat
  block : Nat
  coll : Nat
  chunk : Nat
  sentNs : Nat
  die : Nat := 0
  unsent : Nat := 0                -- flits of it that have not left the package
  due : Nat := 1                   -- replies that it still awaits
  expired : Bool := false          -- it has timed out: its reply will be discarded
  preReset : Bool := false         -- sent before a reset of the local side
  deriving DecidableEq, Repr

/-- The fabric: nodes, links, lines, the Carriage, the governors. -/
structure Fabric where
  present : List Nat := [0, 1, 2, 3, 4, 5, 6, 7, 8, 9, 10, 11, 12, 13]
  nodes : Store Node := []
  wires : List Wire := nominalWires
  links : List Link := []
  held : List Held := []           -- flits that wait for the new tables, oldest first (R366)
  cutAt : Store Nat := []          -- CLK.NS since which a compute die has had no path to KD (R404)
  gen : Nat := 0                   -- GEN of the topology record
  topology : List Byte := []       -- the record as last published
  lines : Store Line := []
  lost : List Nat := []            -- lines marked lost
  bufUe : List Nat := []           -- compute dies a fabric buffer of which holds an uncorrectable error (R181)
  car : Carriage := {}
  requests : List Request := []
  gov : Store Nat := []            -- governor level by node
  govAt : Store Nat := []          -- CLK.NS at which the level was reached
  pkg : Nat := 0
  cnt : Store DWord := []          -- package counters: 1,024 node + 32 index + port
  paused : Bool := false           -- R366 step 2
  probed : List (Nat × Nat) := []  -- probes outstanding: node and port they were sent from
  writes : List Nat := []          -- nodes whose new route tables are still to be written
  deriving DecidableEq, Repr

/-! ## Platform -/

/-- Power, clocks, boot and management. -/
structure Platform where
  vcd : BitVec 4 := 15             -- compute-die rails up
  vcar : Bool := true
  hot : Store Bool := []           -- nodes whose clock is stepped down
  floor : Nat := 0                 -- rollback floor
  fwDigest : BitVec 512 := 0       -- measurement 2
  booting : Bool := false          -- between package reset and step 7 of R442
  bootFail : Option Nat := none    -- step of R442 at which the boot stopped
  eid : Nat := 0
  busOwner : Nat := 0
  partials : List (Nat × Nat × Nat × List Byte) := []  -- source, tag, next sequence, bytes so far
  received : List (Nat × List Byte) := []  -- messages reassembled, newest first: source EID and bytes
  version : Bool := false          -- SPDM negotiation reached so far (R446)
  capab : Bool := false
  algo : Bool := false
  shared : Option Nat := none      -- requester whose KEY_EXCHANGE awaits FINISH
  session : Option Nat := none     -- requester of the open session
  last : Option Nat := none        -- last requester that completed a session (R448)
  answers : List (Nat × List Byte) := []   -- answers on the management port: status and data, newest first
  hostReads : List (Nat × List Byte) := [] -- answers to host accesses, newest first: 0 and data, 1 abort, 2 abort with reason SHUTTER
  errors : List (Nat × Nat × Nat × Nat) := []  -- uncorrectable errors reported to the host complex, newest first: node, unit kind, index, address (R32)
  hostWrites : List (Nat × List Byte) := []  -- what KD has written into host complex memory, newest first: address and bytes (R367, R394)
  unsolicited : List (Nat × Nat) := []     -- kind (0 halt, 1 image, 2 fatal, 3 boot, 4 topology, 5 frames of a retired pseudo-channel) and subject
  deriving DecidableEq, Repr

/-- What the words of one chain share while the chain issues (DEDUCED, log 8): the address of the word being
executed, of the chain's last word, the chain's length and the word's place in it; the registers its words read,
those its fixed-latency words write and those its other words write (R79); the slices whose program counter a word has set; whether a word holds the chain back (R40), has stopped it before issue
(R44) or has itself closed it (a TRAP, BRK or RTE); a stop to be taken after the chain; the floating-point flags raised so far (R114); the chain's first word (R326);
the counters whose increments of this cycle are discarded (R418). -/
structure Issue where
  wpc     : DWord := 0
  last    : DWord := 0
  len     : Nat := 1
  idx     : Nat := 0
  reads   : List Nat := []
  writes  : List Nat := []
  drops   : List Nat := []
  moved   : BitVec 8 := 0
  held    : Bool := false
  trapped : Bool := false
  ended   : Bool := false
  after   : Option Stop := none
  fp      : BitVec 5 := 0
  word    : Word := 0
  zeroed  : BitVec 8 := 0
  deriving DecidableEq, Repr

/-- How a block of 16 bytes of device memory is enciphered (R347): the loading of the key it was last written under, and the
bytes, by offset, that are not as memory lists them, for a write under another key has changed them. -/
structure Seal where
  gen : Nat := 0
  kept : Store Byte := []
  deriving DecidableEq, Repr

/-- The whole package. -/
structure State where
  /-- The gang, block and core in focus; the lists hold the others. -/
  g : Gang := {}
  b : Block := {}
  c : Core := {}
  gangs : List Gang := []
  blocks : List Block := []
  cores : List Core := []
  /-- Memory: bytes by flat address, rising, none zero. The spaces are laid out in Machine/Mem.lean. -/
  mem : List Host.Cell := []
  /-- The blocks of device memory that stand otherwise than plain under the key of the boot, by address / 16 (R347). -/
  seals : Store Seal := []
  /-- Granules that are empty, by flat address / 16; every other granule is full (R176). -/
  empty : List Nat := []
  /-- Protected words (flat address / 4) and G lines that hold an uncorrectable error (R181). -/
  ue : List Nat := []
  posted : List Posted := []
  images : List Image := []
  ns : Nat := 0                    -- CLK.NS
  ctxs : Store Ctx := []
  grants : List Grant := []
  tasks : List Task := []
  nextTask : Nat := 1
  /-- The dispatcher: whether it accepts records (R442 step 7), its eight levels, records waiting. -/
  accepting : Bool := false
  levels : Store (List QEntry) := []
  evictFor : Option QEntry := none     -- the entry whose block waits: nothing else is admitted before it (R281)
  evictAt : Option (Nat × Nat) := none -- the core on which blocks are being evicted for it (R282)
  records : List Record := []
  flits : List Flit := []          -- flits sent and not yet placed
  windows : Store Window := []
  /-- The translation caches, newest entries first; the pointer caches and the miss tables of the walkers. -/
  tlb : List TlbEntry := []
  walks : List WalkEntry := []
  misses : List Miss := []
  apertures : Store (Nat × Nat) := []      -- context and virtual base
  ranges : List (Nat × Nat) := []          -- host-private ranges
  ck : Checker := {}
  fab : Fabric := {}
  plat : Platform := {}
  /-- The group a scheduler has chosen for its next chain: gang and group (DESIGN CHOICE, log 1). -/
  sel : Option (Nat × Nat) := none
  /-- The state of the gang before the chain being issued, from which the chain's words read (DEDUCED, log 8). -/
  snap : Option Gang := none
  /-- The chain being issued (DEDUCED, log 8). -/
  iss : Issue := {}
  /-- The next unused identity (DESIGN CHOICE, log 1). -/
  next : Nat := 1
  /-- The counter the free values are applied to (DESIGN CHOICE, log 1). -/
  ctr : Nat := 0
  /-- Steps that take place before any other (DESIGN CHOICE, log 1). -/
  urgent : List Instr := []
  /-- Internal steps that may take place (DESIGN CHOICE, log 1). -/
  agenda : List Instr := []
  /-- Steps of the outside world, in order (DESIGN CHOICE, log 1). -/
  inputs : List Instr := []
  deriving DecidableEq, Repr

/-- The package right after reset: power is up and package reset has just been asserted, so the boot of
R442 is the first step. Every list is empty, every register at its reset value (DESIGN CHOICE, log 5). -/
def State.reset : State := { agenda := [.packageReset] }

end Sys2Proof.Machine
end

