-- ==== Sys2Proof/Machine/Mem.lean ====
section
/-! DEFINITION. Machine/Mem.lean: memory as a canonical list of cells, and where each space of R167 lies
in it. The spaces are kept apart by their base addresses, which are the model's own: no program sees
them. A byte that is not listed reads as zero (R70, R169, R170, R172; DESIGN CHOICE, log 4). -/

namespace Sys2Proof.Machine

open Sys2Proof

/-- The byte at an address. -/
def memGet (m : List Host.Cell) (a : Nat) : Byte := Store.get 0 m a

/-- Memory with one byte written; a zero byte is not listed. -/
def memPut : List Host.Cell → Nat → Byte → List Host.Cell
  | [], a, b => if b = 0 then [] else [(a, b)]
  | (k, v) :: t, a, b =>
    if a < k then (if b = 0 then (k, v) :: t else (a, b) :: (k, v) :: t)
    else if a = k then (if b = 0 then t else (a, b) :: t)
    else (k, v) :: memPut t a b

/-- Every listed address is at least a bound, and the addresses rise with no zero byte. -/
def memWfFrom : Nat → List Host.Cell → Bool
  | _, [] => true
  | lo, (k, v) :: t => decide (lo ≤ k) && v != 0 && memWfFrom (k + 1) t

/-- The canonical form: addresses strictly rising, no zero byte listed. -/
def Memory.wf (m : List Host.Cell) : Bool := memWfFrom 0 m

/-- The n bytes from an address up. -/
def memBytes (m : List Host.Cell) (a : Nat) : Nat → List Byte
  | 0 => []
  | n + 1 => memGet m a :: memBytes m (a + 1) n

/-- The little-endian field of n bytes at an offset of a byte list (R5). -/
def fieldAt (b : List Byte) (off n : Nat) : Nat := leNat ((b.drop off).take n)

/-- The little-endian number in the n bytes at an address (R5). -/
def memNat (m : List Host.Cell) (a n : Nat) : Nat := leNat (memBytes m a n)

/-- Memory with a list of bytes written from an address up. -/
def memWrite (m : List Host.Cell) (a : Nat) : List Byte → List Host.Cell
  | [] => m
  | b :: t => memWrite (memPut m a b) (a + 1) t

/-- Memory with a number written little-endian in n bytes. -/
def memWriteNat (m : List Host.Cell) (a n v : Nat) : List Host.Cell := memWrite m a (leBytes n v)

/-- Memory with n bytes zeroed from an address up. -/
def memZero (m : List Host.Cell) (a n : Nat) : List Host.Cell :=
  m.filter fun c => decide (c.1 < a) || decide (a + n ≤ c.1)

/-- Memory with n bytes copied from one place to another. -/
def memCopy (m : List Host.Cell) (src dst n : Nat) : List Host.Cell :=
  let cells := m.filter fun c => decide (src ≤ c.1) && decide (c.1 < src + n)
  cells.foldl (fun m c => memPut m (c.1 - src + dst) c.2) (memZero m dst n)

/-- Memory with some bytes written, each if its number in the list is in a byte mask. -/
def memWriteMasked (m : List Host.Cell) (a mask : Nat) : List Byte → List Host.Cell
  | [] => m
  | b :: t => memWriteMasked (if mask % 2 = 1 then memPut m a b else m) (a + 1) (mask / 2) t

/-! ## The places of the spaces -/

/-- D space of a die (R172). -/
def atD (die off : Nat) : Nat := 2 ^ 50 + die * 2 ^ 25 + off

/-- S space of a block (R170). -/
def atS (block off : Nat) : Nat := 2 ^ 64 + block * 2 ^ 20 + off

/-- A byte of a z tile of a block (R217). -/
def atZ (block tile byte : Nat) : Nat := 2 ^ 96 + block * 2 ^ 20 + tile * 2 ^ 14 + byte

/-- A byte of a physical operand slot of a block (R214). -/
def atSlot (block phys byte : Nat) : Nat := 2 ^ 97 + block * 2 ^ 20 + phys * 2 ^ 14 + byte

/-- A byte of a slot's sidecar (R215, R216). -/
def atSide (block phys byte : Nat) : Nat := atSlot block phys (8192 + byte)

/-- A byte of a lane's L space (R169). -/
def atL (gang lane off : Nat) : Nat := 2 ^ 98 + gang * 2 ^ 16 + lane * 2 ^ 10 + off

/-- A byte of the boot flash (R443). -/
def atFlash (off : Nat) : Nat := 2 ^ 100 + off

/-- The memory die that owns a physical address (R18). -/
def homeDie (p : Nat) : Nat := p / 2 ^ 36 % 8

/-- Whether any protected word of a range of a scratchpad holds an uncorrectable error (R181). -/
def hasUE (ue : List Nat) (a n : Nat) : Bool := ue.any fun w => decide (a / 4 ≤ w) && decide (4 * w < a + n)

/-- The mark list without the words that a write of n bytes at `a` covers whole: such a write makes new
check bits (R181). -/
def clearUE (ue : List Nat) (a n : Nat) : List Nat :=
  ue.filter fun w => !(decide (a ≤ 4 * w) && decide (4 * w + 4 ≤ a + n))

/-- Whether a write of n bytes touches a marked word only in part, and so has to read it (R181). -/
def partUE (ue : List Nat) (a n : Nat) : Bool :=
  ue.any fun w => decide (a / 4 ≤ w) && decide (4 * w < a + n)
    && !(decide (a ≤ 4 * w) && decide (4 * w + 4 ≤ a + n))

/-- Whether the granule that holds a flat address is full (R176). -/
def granFull (empty : List Nat) (a : Nat) : Bool := !empty.contains (a / 16)

/-- The granules that n bytes at a flat address touch. -/
def granules (a n : Nat) : List Nat := if n = 0 then [] else (upto ((a + n - 1) / 16 - a / 16 + 1)).map (a / 16 + ·)

/-- The list with numbers added, in rising order and without repeats. -/
def insertNat : List Nat → Nat → List Nat
  | [], k => [k]
  | x :: t, k => if k < x then k :: x :: t else if k = x then x :: t else x :: insertNat t k

/-- The empty granules with those of a range set full. -/
def setFull (empty : List Nat) (a n : Nat) : List Nat :=
  empty.filter fun gr => decide (gr < a / 16) || decide (n = 0) || decide ((a + n - 1) / 16 < gr)

/-- The empty granules with those of a range set empty. -/
def setEmpty (empty : List Nat) (a n : Nat) : List Nat := (granules a n).foldl insertNat empty

end Sys2Proof.Machine
end

