-- ==== Sys2Proof/Machine/Operands.lean ====
section
/-! DEFINITION. Machine/Operands.lean: registers and their shapes (R68 to R73), predicates and guards
(R47, R78), the lanes that execute a word (R47, R80), and how a destination is written (R71, R75, R76). -/

namespace Sys2Proof.Machine

open Sys2Proof

/-- A register's shape and its number within the shape (R68); `unalloc` above those allocated. -/
inductive Shape where
  | general
  | affine (i : Nat)
  | uniform (i : Nat)
  | unalloc
  deriving DecidableEq, Repr

/-- The shape of register r (R68). -/
def Gang.shape (g : Gang) (r : Nat) : Shape :=
  if r < g.ngen then .general
  else if r < g.ngen + g.naff then .affine (r - g.ngen)
  else if r < g.ngen + g.naff + g.nuni then .uniform (r - g.ngen - g.naff)
  else .unalloc

/-- Whether two shapes are of one kind. -/
def Shape.same : Shape → Shape → Bool
  | .general, .general | .affine _, .affine _ | .uniform _, .uniform _ => true
  | _, _ => false

/-- Whether n registers from r are allocated and of one shape (R46, R72). -/
def Gang.regOk (g : Gang) (n r : Nat) : Bool :=
  (g.shape r).same (g.shape r) && (g.shape r).same (g.shape (r + n - 1))

/-- A general register in a lane. -/
def Gang.genAt (g : Gang) (r L : Nat) : Word := Store.get 0 g.gen (r * 32 + L)

/-- A uniform register as lane L reads it (R58). -/
def Uni.at (u : Uni) (L : Nat) : Word := if u.lanes.getLsbD L then u.old else u.now

/-- Uniform register i as lane L reads it. -/
def Gang.uniAt (g : Gang) (i L : Nat) : Word := (Store.get {} g.uni i).at L

/-- The 32-bit value of register r in lane L (R68). -/
def Gang.val (g : Gang) (r L : Nat) : Word :=
  match g.shape r with
  | .general => g.genAt r L
  | .affine i => Store.get 0 g.affB i + BitVec.ofNat 32 L * Store.get 0 g.affS i
  | .uniform i => g.uniAt i L
  | .unalloc => 0

/-- The 64-bit base and stride of the affine pair whose even register is number i (R73). -/
def Gang.affBase64 (g : Gang) (i : Nat) : DWord := Store.get 0 g.affB (i + 1) ++ Store.get 0 g.affB i
def Gang.affStride64 (g : Gang) (i : Nat) : DWord := Store.get 0 g.affS (i + 1) ++ Store.get 0 g.affS i

/-- The 64-bit value of the pair r:r+1 in lane L (R8, R73). -/
def Gang.val64 (g : Gang) (r L : Nat) : DWord :=
  match g.shape r with
  | .affine i => g.affBase64 i + BitVec.ofNat 64 L * g.affStride64 i
  | _ => g.val (r + 1) L ++ g.val r L

/-- The 128-bit value of the quad from r in lane L (R54, R73). -/
def Gang.val128 (g : Gang) (r L : Nat) : BitVec 128 := g.val64 (r + 2) L ++ g.val64 r L

/-- The n registers from r in lane L, n being 1, 2 or 4. -/
def Gang.valN (g : Gang) (n r L : Nat) : BitVec 128 :=
  if n = 4 then g.val128 r L else if n = 2 then (g.val64 r L).setWidth 128 else (g.val r L).setWidth 128

/-- A general register written in one lane. -/
def Gang.setGen (g : Gang) (r L : Nat) (v : Word) : Gang := { g with gen := Store.put g.gen (r * 32 + L) v }

/-- A uniform register changed. -/
def Gang.modUni (g : Gang) (i : Nat) (f : Uni → Uni) : Gang := { g with uni := Store.put g.uni i (f (Store.get {} g.uni i)) }

/-- A uniform register written: every lane reads the new value. -/
def Gang.setUni (g : Gang) (i : Nat) (v : Word) : Gang := g.modUni i fun u => { u with now := v, lanes := 0 }

/-- Register d, if it is uniform, kept as it is now for lanes that read it inside a window (R58). -/
def Gang.keepOld (g : Gang) (d : Nat) : Gang :=
  match g.shape d with
  | .uniform i => g.modUni i fun u => { u with old := u.now }
  | _ => g

/-- The lanes in which register d, if it is uniform, is read as it was before a long-latency write. -/
def Gang.readOld (g : Gang) (d : Nat) (m : LaneMask) : Gang :=
  match g.shape d with
  | .uniform i => g.modUni i fun u => { u with lanes := m }
  | _ => g

/-- An affine register written. -/
def Gang.setAff (g : Gang) (i : Nat) (base stride : Word) : Gang :=
  { g with affB := Store.put g.affB i base, affS := Store.put g.affS i stride }

/-- One 32-bit register written in the executing lanes: each lane of a general register, the leader's
value for a uniform one (R71, R76). An affine register is not written here (R75). -/
def Gang.write (g : Gang) (d : Nat) (exec : List Nat) (f : Nat → Word) : Gang :=
  match g.shape d with
  | .general => exec.foldl (fun g L => g.setGen d L (f L)) g
  | .uniform i =>
    match exec with
    | [] => g
    | L :: _ => g.setUni i (f L)
  | _ => g

/-- A pair written in the executing lanes (R8). -/
def Gang.write64 (g : Gang) (d : Nat) (exec : List Nat) (f : Nat → DWord) : Gang :=
  (g.write d exec fun L => (f L).setWidth 32).write (d + 1) exec fun L => ((f L) >>> 32).setWidth 32

/-- n registers from d written in the executing lanes, the lowest bits first (R54). -/
def Gang.writeN (g : Gang) (n d : Nat) (exec : List Nat) (f : Nat → BitVec 128) : Gang :=
  (upto n).foldl (fun g j => g.write (d + j) exec fun L => ((f L) >>> (32 * j)).setWidth 32) g

/-- The registers of an outstanding word's destination (R54). -/
def MemOp.regs (o : MemOp) : Nat := if o.size = 16 then 4 else if o.size = 8 then 2 else 1

/-- Predicate k in lane L; p7 reads true (R78). -/
def Gang.pred (g : Gang) (k L : Nat) : Bool := k == 7 || (Store.get 0 g.preds k).getLsbD L

/-- A predicate written in some lanes (R78); p7 is never written. -/
def Gang.setPred (g : Gang) (k : Nat) (exec : List Nat) (f : Nat → Bool) : Gang :=
  let set (m : LaneMask) (L : Nat) : LaneMask := if f L then m ||| (1#32 <<< L) else m &&& ~~~(1#32 <<< L)
  if k = 7 then g else { g with preds := Store.put g.preds k (exec.foldl set (Store.get 0 g.preds k)) }

/-- Whether a guard holds in a lane (R47). -/
def Gang.guardAt (g : Gang) (q : BitVec 4) (L : Nat) : Bool :=
  g.pred (q.toNat % 8) L != q.getLsbD 3

/-- The slice with number i. -/
def Gang.slice (g : Gang) (i : Nat) : Slice := nth {} g.slices i

/-- Whether slice i is live and belongs to an issue group (R24). -/
def Gang.inGroup (g : Gang) (k i : Nat) : Bool := g.live.getLsbD i && (g.slice i).grp == k

/-- The live slices of an issue group. -/
def Gang.group (g : Gang) (k : Nat) : List Nat := (upto 8).filter (g.inGroup k)

/-- A set of slices as a mask. -/
def sliceMask (l : List Nat) : BitVec 8 := l.foldl (fun m i => m ||| (1#8 <<< i)) 0

/-- A set of lanes as a mask. -/
def laneMask (l : List Nat) : LaneMask := l.foldl (fun m i => m ||| (1#32 <<< i)) 0

/-- The lanes of a mask, in increasing order. -/
def maskLanes (m : LaneMask) : List Nat := (upto 32).filter m.getLsbD

/-- Whether lane L is active in an issue group (R22, R47). -/
def Gang.active (g : Gang) (k L : Nat) : Bool := g.inGroup k (L / 4) && (g.slice (L / 4)).active.getLsbD (L % 4)

/-- The active lanes of an issue group, in increasing order (R7). -/
def Gang.lanes (g : Gang) (k : Nat) : List Nat := (upto 32).filter (g.active k)

/-- The gang from whose state the words of the chain read (R40). -/
def State.src (s : State) : Gang := s.snap.getD s.g

/-- The issuing group. -/
def State.grp (s : State) : Nat :=
  match s.sel with
  | some (_, k) => k
  | none => 0

/-- The lanes that execute an unguarded word. -/
def State.lanes (s : State) : List Nat := s.src.lanes s.grp

/-- The lanes that execute a guarded word (R47). -/
def State.exec (s : State) (q : BitVec 4) : List Nat := s.lanes.filter (s.src.guardAt q)

/-- The slices of the issuing group. -/
def State.group (s : State) : List Nat := s.src.group s.grp

/-- The leader: the lowest executing lane (R11, R76). -/
def leader (exec : List Nat) : Nat := exec.headD 0

end Sys2Proof.Machine
end

