-- ==== Sys2Proof/Machine/Flags.lean ====
section
/-! DEFINITION. Machine/Flags.lean: how the flags of floating-point words reach GANG.FPSTAT (R112 to R114). -/

namespace Sys2Proof.Machine

open Sys2Proof

/-- The flags of the executing lanes together (R114). -/
def orFlags (exec : List Nat) (f : Nat → FpFlags) : FpFlags := exec.foldl (fun x L => x ||| f L) 0

/-- Flags merged into GANG.FPSTAT, and kept for a WRS of GANG.FPSTAT in the same chain (R114). -/
def State.mergeFp (s : State) (fl : FpFlags) : State :=
  { s with g := { s.g with fpstat := s.g.fpstat ||| fl }, iss := { s.iss with fp := s.iss.fp ||| fl } }

/-- WRS of GANG.FPSTAT: the flags of floating-point words of the same chain are ORed into the written
value (R114). -/
def State.writeFpstat (s : State) (v : Word) : State :=
  { s with g := { s.g with fpstat := v.setWidth 5 ||| s.iss.fp } }

end Sys2Proof.Machine
end

