-- ==== Sys2Proof/Machine/Ops.lean ====
section
/-! DEFINITION. Machine/Ops.lean: the shared operations on the state: focusing on a gang, its block and
its core; the engine-class counters; the end of a chain; taking an exception and returning from one. -/

namespace Sys2Proof.Machine

open Sys2Proof

/-- The outcome of a step of this machine. -/
abbrev Res := Host.Outcome State Fault Refusal

/-! ## Focus -/

/-- The gang with an identity brought into focus, if there is one. -/
def State.focusGang (s : State) (uid : Nat) : State :=
  if s.g.uid = uid then s
  else match s.gangs.find? (fun g => g.uid == uid) with
    | none => s
    | some g => { s with g := g, gangs := s.g :: s.gangs.filter (fun x => x.uid != uid) }

/-- The block with an identity brought into focus. -/
def State.focusBlock (s : State) (uid : Nat) : State :=
  if s.b.uid = uid then s
  else match s.blocks.find? (fun b => b.uid == uid) with
    | none => s
    | some b => { s with b := b, blocks := s.b :: s.blocks.filter (fun x => x.uid != uid) }

/-- A core brought into focus; a core not yet touched holds its values of core reset. -/
def State.focusCore (s : State) (die idx : Nat) : State :=
  if s.c.die = die ∧ s.c.idx = idx then s
  else match s.cores.find? (fun c => c.die == die && c.idx == idx) with
    | none => { s with c := { die := die, idx := idx }, cores := s.c :: s.cores }
    | some c => { s with c := c, cores := s.c :: s.cores.filter (fun x => !(x.die == die && x.idx == idx)) }

/-- A block and its core in focus. -/
def State.atBlock (s : State) (uid : Nat) : State :=
  let s := s.focusBlock uid
  s.focusCore s.b.die s.b.core

/-- A gang, its block and its core in focus. -/
def State.focus (s : State) (uid : Nat) : State :=
  let s := s.focusGang uid
  s.atBlock s.g.block

/-- The gang, the block and the core in focus that another state has there. -/
def State.focusAs (s t : State) : State := ((s.focusGang t.g.uid).focusBlock t.b.uid).focusCore t.c.die t.c.idx

/-- Every gang of the package; identity 0 names none. -/
def State.allGangs (s : State) : List Gang := (s.g :: s.gangs).filter fun g => g.uid != 0

/-- Every block resident on a core. -/
def State.allBlocks (s : State) : List Block := (s.b :: s.blocks).filter fun b => b.uid != 0 && !b.gone

def State.findGang (s : State) (uid : Nat) : Option Gang := s.allGangs.find? fun g => g.uid == uid
def State.findBlock (s : State) (uid : Nat) : Option Block :=
  ((s.b :: s.blocks ++ s.images.map Image.block).filter fun b => b.uid != 0).find? fun b => b.uid == uid

/-- The core with a place, as it stands. -/
def State.coreAt (s : State) (die idx : Nat) : Core :=
  if s.c.die = die ∧ s.c.idx = idx then s.c
  else match s.cores.find? (fun c => c.die == die && c.idx == idx) with
    | none => { die := die, idx := idx }
    | some c => c

/-- A gang changed, resident or saved in an image: its operations and its allowance go on while it is
evicted. -/
def State.modGang (s : State) (uid : Nat) (f : Gang → Gang) : State :=
  if s.g.uid = uid then { s with g := f s.g }
  else
    let sel (g : Gang) : Gang := if g.uid = uid then f g else g
    { s with gangs := s.gangs.map sel, images := s.images.map fun im => { im with gangs := im.gangs.map sel } }

/-- A block changed, resident or saved in an image. -/
def State.modBlock (s : State) (uid : Nat) (f : Block → Block) : State :=
  if s.b.uid = uid then { s with b := f s.b }
  else
    let sel (b : Block) : Block := if b.uid = uid then f b else b
    { s with blocks := s.blocks.map sel, images := s.images.map fun im => { im with block := sel im.block } }

/-- Every gang changed. -/
def State.mapGangs (s : State) (f : Gang → Gang) : State := { s with g := f s.g, gangs := s.gangs.map f }

def State.modCore (s : State) (die idx : Nat) (f : Core → Core) : State :=
  if s.c.die = die ∧ s.c.idx = idx then { s with c := f s.c }
  else match s.cores.find? (fun c => c.die == die && c.idx == idx) with
    | none => { s with cores := f { die := die, idx := idx } :: s.cores }
    | some _ => { s with cores := s.cores.map fun c => if c.die = die ∧ c.idx = idx then f c else c }

def Gang.modSlice (g : Gang) (i : Nat) (f : Slice → Slice) : Gang := { g with slices := modAt f g.slices i }

/-- Several slices changed. -/
def Gang.modSlices (g : Gang) (l : List Nat) (f : Nat → Slice → Slice) : Gang :=
  l.foldl (fun g i => g.modSlice i (f i)) g

/-- A task of the package. -/
def State.task (s : State) (id : Nat) : Task := (s.tasks.find? fun t => t.id == id).getD {}

def State.modTask (s : State) (id : Nat) (f : Task → Task) : State :=
  { s with tasks := s.tasks.map fun t => if t.id = id then f t else t }

/-- The entry of the context table with a number (R337); every entry is invalid until written. -/
def State.ctx (s : State) (n : Nat) : Ctx := Store.get {} s.ctxs n

/-- A step added to those that may take place, unless it is already among them. -/
def State.later (s : State) (i : Instr) : State :=
  if s.agenda.contains i then s else { s with agenda := s.agenda ++ [i] }

/-- A step that takes place before any other. -/
def State.soon (s : State) (i : Instr) : State :=
  if s.urgent.contains i then s else { s with urgent := s.urgent ++ [i] }

/-- A step taken off those that may take place. -/
def State.notLater (s : State) (i : Instr) : State := { s with agenda := s.agenda.filter (· != i) }

/-- A fresh identity. -/
def State.fresh (s : State) : State := { s with next := s.next + 1 }

/-! ## Performance counters (R417 to R419) -/

/-- Occurrences of an event added to every counter of the core in focus that selects it. The occurrence
is attributed to a scheduler and priority, or to neither. -/
def Core.count (c : Core) (event n : Nat) (who : Option (Nat × Nat)) : Core :=
  let passes (sel : Word) : Bool :=
    sel.getLsbD 31 && (sel.extractLsb' 0 10).toNat == event &&
      match who with
      | none => !sel.getLsbD 12 && sel.extractLsb' 13 8 == 0
      | some (sched, prio) =>
        (!sel.getLsbD 12 || (sel.extractLsb' 10 2).toNat == sched)
          && (sel.extractLsb' 13 8 == 0 || sel.getLsbD (13 + prio))
  let add (p : Store DWord) (i : Nat) : Store DWord :=
    if passes (Store.get 0 c.perfSel i) then Store.put p i (Store.get 0 p i + BitVec.ofNat 64 n) else p
  { c with perfCnt := (upto 8).foldl add c.perfCnt }

/-- Occurrences attributed to the gang in focus. -/
def State.count (s : State) (event n : Nat) : State :=
  { s with c := s.c.count event n (some (s.g.sched, s.b.prio)) }

/-- A package counter of R420 raised: node, index, port. -/
def State.pcount (s : State) (node index port n : Nat) : State :=
  let k := 1024 * node + 32 * index + port
  { s with fab := { s.fab with cnt := Store.put s.fab.cnt k (Store.get 0 s.fab.cnt k + BitVec.ofNat 64 n) } }

/-! ## Engine-class counters (R198) -/

/-- The counter of a class: the operations of that class not yet retired. -/
def Gang.kcount (g : Gang) (cls : Nat) : Nat := (g.kops.filter fun k => k.cls == cls).length

/-- Operations retired: of each class the completed ones that no older one still outstanding precedes.
`seen` are the classes with an older outstanding operation. -/
def retireOps : List Nat → List KOp → List KOp
  | _, [] => []
  | seen, k :: t =>
    if k.done && !seen.contains k.cls then retireOps seen t
    else k :: retireOps (k.cls :: seen) t

/-- An operation of a class counted for the gang in focus, with the next identity. -/
def State.addK (s : State) (cls : Nat) (work : KWork) : State :=
  { s with g := { s.g with kops := s.g.kops ++ [{ id := s.next, cls := cls, work := work }] }, next := s.next + 1 }

/-- An operation of a gang completed, and what may retire retired. -/
def State.doneK (s : State) (gang kid : Nat) : State :=
  s.modGang gang fun g => { g with kops := retireOps [] (g.kops.map fun k => if k.id = kid then { k with done := true } else k) }

/-- The operation with an identity. -/
def Gang.kop (g : Gang) (kid : Nat) : Option KOp := g.kops.find? fun k => k.id == kid

/-! ## Chains -/

/-- The word after a word address (R37, R39). -/
def nextWord (pc : DWord) : DWord := if pc.extractLsb' 0 2 == 2#2 then pc + 10 else pc + 1

/-- The packet of a word address (R39). -/
def packetOf (pc : DWord) : DWord := pc &&& ~~~3#64

/-- The chain waits and issues nothing (R40). -/
def State.hold (s : State) : State := { s with iss := { s.iss with held := true } }

/-- Whether two slices stand at one program counter, both waiting or both not (R24). -/
def Slice.together (a b : Slice) : Bool := a.pc == b.pc && (a.wait == .none) == (b.wait == .none)

/-- The lowest of some slices that stands together with slice i. -/
def Gang.firstAt (g : Gang) (l : List Nat) (i : Nat) : Nat :=
  (l.find? fun j => (g.slice j).together (g.slice i)).getD i

/-- Slices of one group that stand at different program counters part into one group for each (R24). -/
def Gang.part (g : Gang) (l : List Nat) : Gang :=
  let l := l.filter g.live.getLsbD
  if l.all (fun i => (g.slice i).together (g.slice (l.headD 0))) then g
  else g.modSlices l fun i sl => { sl with grp := g.firstAt l i }

/-- A slice after its chain: its program counter goes on after the chain unless a word has set it, and its
windows count the chain's words (R43, R58). -/
def Slice.afterChain (sl : Slice) (moved : Bool) (iss : Issue) : Slice :=
  { sl with
    pc := if moved then sl.pc else nextWord iss.last
    flags := sl.flags.map fun f => { f with win := f.win - iss.len } }

/-! ## The register cache (R79) -/

/-- Whether the register cache holds a register for every slice of a set. -/
def Gang.holdsReg (g : Gang) (m : BitVec 8) (r : Nat) : Bool := g.cached.any fun (x : Nat × BitVec 8) => x.1 == r && (m &&& ~~~x.2) == 0

/-- The largest number of some registers that lie in one bank: register r lies in bank r mod 4. -/
def mostInBank (l : List Nat) : Nat := (upto 4).foldl (fun n b => max n (l.filter fun r => r % 4 == b).length) 0

/-- A general register written by a fixed-latency word for a set of slices becomes the newest of the six entries. -/
def Gang.cacheReg (m : BitVec 8) (g : Gang) (r : Nat) : Gang :=
  match g.shape r with
  | .general =>
    let old : BitVec 8 := ((g.cached.find? fun x => x.1 == r).map Prod.snd).getD 0
    { g with cached := ((r, old ||| m) :: g.cached.filter fun x => x.1 != r).take 6 }
  | _ => g

/-- A register written by a long-latency word is held no longer for the slices of that word (DEDUCED, log 2). -/
def Gang.uncacheReg (m : BitVec 8) (g : Gang) (r : Nat) : Gang :=
  { g with cached := g.cached.map fun x => if x.1 = r then (x.1, x.2 &&& ~~~m) else x }

/-- The operands of a chain read, from the register cache or from the banks, and its results entered in the cache. -/
def State.readBanks (s : State) : State :=
  let m := sliceMask s.group
  let general (r : Nat) : Bool := s.g.shape r == .general
  let reads := s.iss.reads.filter general
  let banks := reads.filter fun r => !s.g.holdsReg m r
  let s := ((s.count 0x004 (mostInBank banks - 1)).count 0x005 (reads.length - banks.length)).count 0x006 banks.length
  { s with g := s.iss.writes.foldl (Gang.cacheReg m) (s.iss.drops.foldl (Gang.uncacheReg m) s.g) }

/-- A chain counted (R419); a counter that one of its words has set to zero stays there (R418). -/
def State.countChain (s : State) : State :=
  let s := ((s.count 0x002 1).count 0x003 s.iss.len).readBanks
  { s with c := { s.c with perfCnt := s.c.perfCnt.filter fun (p : Nat × DWord) => !(decide (p.1 < 8) && s.iss.zeroed.getLsbD p.1) } }

/-- The end of the chain for the slices of the issuing group: they go on and part (R24), the comparators'
exemption is used up (R320), and the chain is counted (R419). -/
def State.endChain (s : State) : State :=
  let l := s.group
  let g := (s.g.modSlices l fun i sl => sl.afterChain (s.iss.moved.getLsbD i) s.iss).part l
  let g := { g with exempt := g.exempt &&& ~~~(sliceMask l), lastGrp := l.headD 0 }
  ({ s with g := g, iss := { s.iss with ended := true } }).countChain

/-! ## Taking an exception (R310 to R321) -/

/-- TRAP.CAUSE (R314). -/
def trapCauseWord (code info slice : Nat) (more : Bool) : Word :=
  BitVec.ofNat 32 (code + 256 * info + 65536 * slice + if more then 16777216 else 0)

/-- The handler entry of the focused gang's context for a stop; 0 when there is none (R313, R337). -/
def State.handlerEntry (s : State) (code : Nat) : DWord :=
  let c := s.ctx (s.task s.g.task).ctx
  if !c.valid then 0 else if 17 ≤ code then c.dbgent else c.trapent

/-- Words of the gang that a stop has to wait for: returning ATOMs, and no-return ATOMs that have not
left the MEM pipe, that have not faulted (R209); and words every access of which has been performed, which end and
become no entry (R310). -/
def Gang.stopWaits (g : Gang) : Bool := g.flights.any fun f => (f.op.kind == .atom || f.remain == 0) && f.cause == 0

/-- The gang halts, and the host complex is told (R321, R448). Its unfinished words are replay entries (R310). -/
def State.haltGang (s : State) : State :=
  let mark (f : Flight) : Flight := { f with parked := none }
  { s with
    g := { s.g with mode := .halted, stop := none, flights := [], hlist := s.g.hlist ++ s.g.flights.map mark }
    plat := { s.plat with unsolicited := (0, s.g.uid) :: s.plat.unsolicited } }

/-- A slice as a stop records it: a sleep keeps the 16-cycle units still to run, rounded up (R164). -/
def Slice.stopped (cycle : Nat) (sl : Slice) : Slice :=
  match sl.wait with
  | .sleep n _ u => if u = 0 then sl else { sl with wait := .sleep n ((u - cycle + 14) / 16) 0 }
  | _ => sl

/-- A slice that goes on after a stop: a sleep runs for its recorded units from now (R164). -/
def Slice.resumed (cycle : Nat) (sl : Slice) : Slice :=
  match sl.wait with
  | .sleep n k u => if u = 0 then { sl with wait := .sleep n k (cycle + 16 * k + 1) } else sl
  | _ => sl

/-- Entering a handler once the stop is complete (R313 to R317): the state of every slice and the
unfinished words go to the frame; TRAP.CAUSE, TRAP.PC and TRAP.ADDR take the report; the slices of the
trapping group go to the handler's entry, privileged. A stop in privileged code, and a stop for which
the context has no entry, halts the gang (R321). -/
def State.enterHandler (s : State) (st : Stop) : State :=
  let g := s.g
  let group := bitsOf 8 st.group.toNat
  if group.any (fun i => (g.slice i).priv) then s.haltGang
  else
    let entry := s.handlerEntry st.code
    let more := g.flights.any fun f => f.cause != 0 && some f.id != st.opid
    let mark (f : Flight) : Flight := { f with parked := none }
    let saved : Gang :=
      { g with
        frame := some { slices := g.slices.map (Slice.stopped s.c.cycle), entries := g.flights.map mark }
        flights := []
        trapCause := trapCauseWord st.code st.info st.slice more
        trapPc := st.pc
        trapAddr := st.addr
        stop := none
        hslices := st.group
        mode := if 17 ≤ st.code then .inDebug else .inTrap }
    if entry == 0 then ({ s with g := { saved with hslices := 0 } }).haltGang
    else
      let enter (i : Nat) (sl : Slice) : Slice :=
        { sl with
          pc := entry, priv := true, step := false, stack := []
          active := ~~~(g.killed.extractLsb' (4 * i) 4)
          flags := [], wait := .none, sync := [], backs := [] }
      ({ s with g := saved.modSlices group enter }).count 0x01B 1

/-- A stop of the gang in focus (R310): of two stops the one of the earlier word stands (R312). When the
words before it have ended the handler is entered; otherwise HANDLER_ENTRY follows when they have. -/
def State.raise (s : State) (st : Stop) : State :=
  let pick : Stop :=
    match s.g.stop, st.opid with
    | some old, some n =>
      match old.opid with
      | some m => if n < m then st else old
      | none => st
    | some old, none => old
    | none, _ => st
  if s.g.mode == .halted then s
  else
    let s := { s with g := { s.g with stop := some pick } }
    if s.g.stopWaits then s.later (.handlerEntry s.g.uid) else s.enterHandler pick

/-- A fault found before the chain issues (R44): the stop lies before the chain, and names the word. -/
def State.fault (s : State) (code info : Nat) (addr : DWord) : State :=
  let s := { s with iss := { s.iss with trapped := true } }
  s.raise { code := code, info := info, pc := s.iss.wpc, addr := addr, slice := s.group.headD 0, group := sliceMask s.group }

/-- A stop after the chain: taken at once by the chain's last word, else when the chain ends (R319). -/
def State.stopAfter (s : State) (code info : Nat) (addr : DWord) : State :=
  let st : Stop := { code := code, info := info, pc := s.iss.wpc, addr := addr, slice := s.group.headD 0, group := sliceMask s.group }
  if s.iss.wpc == s.iss.last then
    let s := s.endChain
    s.raise { st with group := sliceMask (s.g.group (s.g.slice st.slice).grp) }
  else { s with iss := { s.iss with after := some st } }

/-- Whether every slice of the issuing group runs privileged (R33). -/
def State.priv (s : State) : Bool := s.group.all fun i => (s.src.slice i).priv

/-- An effect that only privileged code has; unprivileged code takes PRV (R33). -/
def State.privileged (s : State) (f : State → State) : State := if s.priv then f s else s.fault 2 0 0

/-- An effect under the operand checks of R46 and R72: registers above those allocated, and blocks of
registers that span shapes, raise OPR. The list gives each operand's size and first register. -/
def State.withRegs (s : State) (ops : List (Nat × Nat)) (f : State → State) : State :=
  if ops.all (fun p => s.src.regOk p.1 p.2) then f s else s.fault 3 0 0

/-- Whether a register is affine (R75). -/
def State.isAffine (s : State) (r : Nat) : Bool :=
  match s.src.shape r with
  | .affine _ => true
  | _ => false

/-- As `withRegs`, for a word that may not write an affine destination (R75). -/
def State.withDest (s : State) (d : Nat × Nat) (ops : List (Nat × Nat)) (f : State → State) : State :=
  s.withRegs (d :: ops) fun s => if s.isAffine d.2 then s.fault 3 0 0 else f s

/-! ## Returning from an exception (R320) -/

/-- Whether a saved program counter may be restored (R320). One whose packet address is no multiple of 12 is restored too, and
the packet there is fetched (DESIGN CHOICE, log 37). -/
def pcRestorable (pc : DWord) : Bool := pc.extractLsb' 0 2 != 3#2 && pc.extractLsb' 48 16 == 0

/-- The words of a frame put back in flight: their lanes in REMAIN are performed with the captured
operands, as the word would; a word with no lane left only completes. -/
def reinject (f : Flight) : Flight :=
  { f with cause := 0, info := 0, faddr := 0, walked := f.op.space != .g || f.remain == 0, held := [], parked := none }

/-- Whether RTE is held back: the replay entries and the handler's own outstanding words are more than sixteen (R311). -/
def State.rteHold (s : State) : Bool :=
  s.priv && decide (16 < s.src.flights.length + ((s.src.frame.map fun fr => fr.entries.length).getD 0))

/-- RTE: every slice gets its saved state back, and the replay entries are re-injected before any slice
issues, ahead of the handler's own words, which were issued later (R311, R320). A saved program counter that cannot be restored is a nested fault. -/
def State.returnFromTrap (s : State) : State :=
  let s := s.countChain
  match s.g.frame with
  | none => s.haltGang
  | some fr =>
    let live := (upto 8).filter s.g.live.getLsbD
    if live.all (fun i => pcRestorable (nth {} fr.slices i).pc) then
      let back (i : Nat) (sl : Slice) : Slice :=
        let o := nth {} fr.slices i
        { (o.resumed s.c.cycle) with link := sl.link, cause := sl.cause, closed := sl.closed }
      let g := s.g.modSlices live back
      { s with
        g := { g with
          frame := none, past := fr.slices, flights := fr.entries.map reinject ++ s.g.flights, mode := .running, hslices := 0
          exempt := s.g.live }
        iss := { s.iss with ended := true } }
    else { (s.haltGang) with iss := { s.iss with ended := true } }

end Sys2Proof.Machine
end

