-- ==== Sys2Proof/Machine/IntOps.lean ====
section
/-! DEFINITION. Machine/IntOps.lean: the words of majors 0x01 to 0x35 (R52, R82 to R103): moves, lane
exchange, compares, integer arithmetic, logic, shifts, scans. Each reads the state before its chain
(`State.src`) and writes under R71, R75 and R76. -/

namespace Sys2Proof.Machine

open Sys2Proof

/-! ## The frame of R80 -/

/-- The guard of a word without one: p7, always true (R47). -/
def always : BitVec 4 := 7

/-- A word with a one-register result that no affine register takes: operands `rs`, value by lane. -/
def State.put32 (s : State) (q : BitVec 4) (d : BitVec 6) (rs : List (Nat × Nat)) (f : Gang → Nat → Word) : State :=
  s.withDest (1, d.toNat) rs fun s => { s with g := s.g.write d.toNat (s.exec q) (f s.src) }

/-- The same with a pair as its destination. -/
def State.put64 (s : State) (q : BitVec 4) (d : Nat) (rs : List (Nat × Nat)) (f : Gang → Nat → DWord) : State :=
  s.withDest (2, d) rs fun s => { s with g := s.g.write64 d (s.exec q) (f s.src) }

/-- A word that writes a predicate in its lanes (R78). -/
def State.putPred (s : State) (q : BitVec 4) (k : Nat) (rs : List (Nat × Nat)) (f : Gang → Nat → Bool) : State :=
  s.withRegs rs fun s => { s with g := s.g.setPred k (s.exec q) (f s.src) }

/-- A value for the whole gang: a base and a stride, and whether its register is uniform (R74). -/
structure AffVal (w : Nat) where
  uni    : Bool
  base   : BitVec w
  stride : BitVec w
  deriving DecidableEq, Repr

/-- A 32-bit operand of a word with an affine destination (R74); a general register gives none. -/
def Gang.aff32 (g : Gang) (r : Nat) : Option (AffVal 32) :=
  match g.shape r with
  | .affine i => some { uni := false, base := Store.get 0 g.affB i, stride := Store.get 0 g.affS i }
  | .uniform _ => some { uni := true, base := g.val r 0, stride := 0 }
  | _ => none

/-- A 64-bit operand of a word with an affine destination (R73, R74). -/
def Gang.aff64 (g : Gang) (r : Nat) : Option (AffVal 64) :=
  match g.shape r with
  | .affine i => some { uni := false, base := g.affBase64 i, stride := g.affStride64 i }
  | .uniform _ => some { uni := true, base := g.val64 r 0, stride := 0 }
  | _ => none

/-- An affine register written, if the operands and the mode are admitted, else OPR (R75); written once
if any lane executes. -/
def State.putAff32 (s : State) (q : BitVec 4) (d : Nat) (v : Option (AffVal 32)) : State :=
  match v, s.src.shape d with
  | some v, .affine i => if (s.exec q).isEmpty then s else { s with g := s.g.setAff i v.base v.stride }
  | _, _ => s.fault 3 0 0

/-- An affine pair written (R73, R75). -/
def State.putAff64 (s : State) (q : BitVec 4) (d : Nat) (v : Option (AffVal 64)) : State :=
  match v, s.src.shape d with
  | some v, .affine i =>
    if (s.exec q).isEmpty then s
    else
      let lo (x : DWord) : Word := x.setWidth 32
      let hi (x : DWord) : Word := (x >>> 32).setWidth 32
      { s with g := (s.g.setAff i (lo v.base) (lo v.stride)).setAff (i + 1) (hi v.base) (hi v.stride) }
  | _, _ => s.fault 3 0 0

/-- Elementwise on 32, 16x2 or 8x4 bits, by the mode (R80). -/
def elems (m : Nat) (f : (w : Nat) → BitVec w → BitVec w → BitVec w) (a b : Word) : Word :=
  let h (j : Nat) : BitVec 16 := f 16 (a.extractLsb' (16 * j) 16) (b.extractLsb' (16 * j) 16)
  let e (j : Nat) : BitVec 8 := f 8 (a.extractLsb' (8 * j) 8) (b.extractLsb' (8 * j) 8)
  if m = 2 then h 1 ++ h 0 else if m = 3 then e 3 ++ e 2 ++ e 1 ++ e 0 else f 32 a b

/-- An arithmetic word in the modes 32, 64, 16x2 and 8x4 (R53, R93), with its result for an affine
destination where R74 lists it. -/
def State.arith (s : State) (q : BitVec 4) (d a b : BitVec 6) (m : BitVec 2)
    (f : (w : Nat) → BitVec w → BitVec w → BitVec w)
    (fa : (w : Nat) → AffVal w → AffVal w → Option (AffVal w)) : State :=
  let a := a.toNat
  let b := b.toNat
  if m = 1 then
    s.withRegs [(2, d.toNat), (2, a), (2, b)] fun s =>
      if s.isAffine d.toNat then
        s.putAff64 q d.toNat (match s.src.aff64 a, s.src.aff64 b with
          | some x, some y => fa 64 x y
          | _, _ => none)
      else s.put64 q d.toNat [] fun g L => f 64 (g.val64 a L) (g.val64 b L)
  else
    s.withRegs [(1, d.toNat), (1, a), (1, b)] fun s =>
      if s.isAffine d.toNat then
        s.putAff32 q d.toNat (if m = 0 then (match s.src.aff32 a, s.src.aff32 b with
          | some x, some y => fa 32 x y
          | _, _ => none) else none)
      else s.put32 q d [] fun g L => elems m.toNat f (g.val a L) (g.val b L)

/-- No affine result. -/
def noAff (w : Nat) (_ _ : AffVal w) : Option (AffVal w) := none

/-- A two-operand word of 32 bits or pairs that no affine register takes (R93, R95, R98). -/
def State.wide2 (s : State) (q : BitVec 4) (d a b : BitVec 6) (wide : Bool)
    (f : (w : Nat) → BitVec w → BitVec w → BitVec w) : State :=
  let a := a.toNat
  let b := b.toNat
  if wide then s.put64 q d.toNat [(2, a), (2, b)] fun g L => f 64 (g.val64 a L) (g.val64 b L)
  else s.put32 q d [(1, a), (1, b)] fun g L => f 32 (g.val a L) (g.val b L)

/-! ## Moves, constants and lanes (R83 to R92) -/

/-- NOP (R52). -/
def execNop (s : State) : Res := .next s

/-- MOV (R83). -/
def execMov (d a : BitVec 6) (q : BitVec 4) (s : State) : Res :=
  .next (s.withRegs [(1, d.toNat), (1, a.toNat)] fun s =>
    if s.isAffine d.toNat then s.putAff32 q d.toNat (s.src.aff32 a.toNat)
    else s.put32 q d [] fun g L => g.val a.toNat L)

/-- MOVI (R83). -/
def execMovi (d : BitVec 6) (i : BitVec 18) (s : State) : Res :=
  .next (s.put32 always d [] fun _ _ => i.signExtend 32)

/-- MOVHI (R83). -/
def execMovhi (d : BitVec 6) (i : BitVec 14) (s : State) : Res :=
  .next (s.put32 always d [] fun g L => i ++ (g.val d.toNat L).extractLsb' 0 18)

/-- The identity LANEID writes in a lane (R84). -/
def laneIdentity (m : BitVec 2) (width L : Nat) : Word :=
  BitVec.ofNat 32 (if m = 0 then L else if m = 1 then L / 4 else if m = 2 then L % 4 else width)

/-- LANEID (R84). -/
def execLaneid (d : BitVec 6) (m : BitVec 2) (q : BitVec 4) (s : State) : Res :=
  .next (s.withRegs [(1, d.toNat)] fun s =>
    if s.isAffine d.toNat then
      s.putAff32 q d.toNat (if m = 0 then some { uni := false, base := 0, stride := 1 } else none)
    else s.put32 q d [] fun g L => laneIdentity m g.width L)

/-- SEL (R86). -/
def execSel (d a b : BitVec 6) (m : BitVec 2) (q : BitVec 4) (s : State) : Res :=
  .next (s.put32 q d [(1, a.toNat), (1, b.toNat)] fun g L =>
    if g.pred m.toNat L then g.val a.toNat L else g.val b.toNat L)

/-- The lane SHFL reads, if it is one of the participants (R87). The value of b counts as unsigned
(DEDUCED, log 22). -/
def shflLane (m : BitVec 2) (part : List Nat) (L j : Nat) : Option Nat :=
  let s : Int :=
    if m = 0 then (j % 32 : Nat) else if m = 1 then (L : Int) - j else if m = 2 then (L : Int) + j
    else (L ^^^ (j % 32) : Nat)
  if 0 ≤ s ∧ part.contains s.toNat then some s.toNat else none

/-- SHFL (R87). -/
def execShfl (d a b : BitVec 6) (m : BitVec 2) (q : BitVec 4) (s : State) : Res :=
  let part := s.exec q
  .next (s.put32 q d [(1, a.toNat), (1, b.toNat)] fun g L =>
    g.val a.toNat ((shflLane m part L (g.val b.toNat L).toNat).getD L))

/-- BCAST (R88). -/
def execBcast (d a b : BitVec 6) (q : BitVec 4) (s : State) : Res :=
  let part := s.exec q
  .next (s.put32 q d [(1, a.toNat), (1, b.toNat)] fun g _ =>
    let j := (g.val b.toNat (leader part)).toNat % 32
    g.val a.toNat (if part.contains j then j else leader part))

/-- UNIF (R88). -/
def execUnif (d a : BitVec 6) (q : BitVec 4) (s : State) : Res :=
  let part := s.exec q
  .next (s.put32 q d [(1, a.toNat)] fun g _ => g.val a.toNat (leader part))

/-- The conditions of ICMP (R89). -/
def icond (w : Nat) (unsigned : Bool) (c : Nat) (a b : BitVec w) : Bool :=
  let lt := if unsigned then a.ult b else a.slt b
  match c with
  | 0 => a == b
  | 1 => a != b
  | 2 => lt
  | 3 => !lt
  | 4 => lt || a == b
  | 5 => !(lt || a == b)
  | 6 => (a &&& b) != 0
  | _ => (a &&& b) == 0

/-- ICMP (R89). -/
def execIcmp (d : BitVec 3) (a b : BitVec 6) (m : BitVec 2) (q : BitVec 4) (s : State) : Res :=
  let wide := m.getLsbD 1
  let n := if wide then 2 else 1
  let uns := m.getLsbD 0
  .next (s.putPred always d.toNat [(n, a.toNat), (n, b.toNat)] fun g L =>
    let c := if wide then icond 64 uns (q.toNat % 8) (g.val64 a.toNat L) (g.val64 b.toNat L)
      else icond 32 uns (q.toNat % 8) (g.val a.toNat L) (g.val b.toNat L)
    c && (!q.getLsbD 3 || g.pred d.toNat L))

/-- ICMPI (R90). -/
def execIcmpi (k d : BitVec 3) (a : BitVec 6) (i : BitVec 12) (s : State) : Res :=
  .next (s.putPred always d.toNat [(1, a.toNat)] fun g L =>
    let x := g.val a.toNat L
    let y : Word := i.signExtend 32
    match k.toNat with
    | 0 => x == y
    | 1 => x != y
    | 2 => x.slt y
    | 3 => !x.slt y
    | 4 => x.ult y
    | 5 => !x.ult y
    | 6 => (x &&& y) != 0
    | _ => (x &&& y) == 0)

/-- PLOG (R91). -/
def execPlog (d a b : BitVec 3) (m : BitVec 2) (q : BitVec 4) (s : State) : Res :=
  .next (s.putPred q d.toNat [] fun g L =>
    let x := g.pred a.toNat L
    let y := g.pred b.toNat L
    if m = 0 then x && y else if m = 1 then x || y else if m = 2 then x != y else x && !y)

/-- The predicates of a lane as P2V writes them (R91). -/
def Gang.predBits (g : Gang) (L : Nat) : Word :=
  (upto 8).foldl (fun w k => if g.pred k L then w ||| (1#32 <<< k) else w) 0

/-- P2V (R91). -/
def execP2v (d : BitVec 6) (q : BitVec 4) (s : State) : Res :=
  .next (s.put32 q d [] fun g L => g.predBits L)

/-- V2P (R91). -/
def execV2p (a : BitVec 6) (q : BitVec 4) (s : State) : Res :=
  .next (s.withRegs [(1, a.toNat)] fun s =>
    { s with g := (upto 7).foldl (fun g k => g.setPred k (s.exec q) fun L => (s.src.val a.toNat L).getLsbD k) s.g })

/-- VOTE.any and VOTE.all (R92). -/
def execVoteAnyAll (d a : BitVec 3) (m : BitVec 1) (q : BitVec 4) (s : State) : Res :=
  let part := s.exec q
  .next (s.putPred q d.toNat [] fun g _ =>
    if m = 0 then part.any (g.pred a.toNat) else part.all (g.pred a.toNat))

/-- VOTE.ballot (R92). -/
def execVoteBallot (d : BitVec 6) (a : BitVec 3) (q : BitVec 4) (s : State) : Res :=
  let part := s.exec q
  .next (s.put32 q d [] fun g _ => laneMask (part.filter (g.pred a.toNat)))

/-! ## Integer arithmetic (R93 to R97) -/

/-- The high half of the exact product (R93). -/
def mulHigh (signed : Bool) (w : Nat) (a b : BitVec w) : BitVec w :=
  let x : BitVec (w + w) := if signed then a.signExtend (w + w) * b.signExtend (w + w) else a.setWidth (w + w) * b.setWidth (w + w)
  (x >>> w).setWidth w

/-- The lesser or greater of two integers (R93). -/
def minMax (mx unsigned : Bool) (w : Nat) (a b : BitVec w) : BitVec w :=
  if (if unsigned then a.ult b else a.slt b) != mx then a else b

/-- Division truncated toward zero, with the fixed results of R95. -/
def quotient (unsigned : Bool) (w : Nat) (a b : BitVec w) : BitVec w :=
  if b = 0 then BitVec.allOnes w else if unsigned then a.udiv b else a.sdiv b

/-- The remainder (R95). -/
def remainder (unsigned : Bool) (w : Nat) (a b : BitVec w) : BitVec w :=
  if b = 0 then a else if unsigned then a.umod b else a.srem b

/-- IADD (R93). -/
def execIadd (d a b : BitVec 6) (m : BitVec 2) (q : BitVec 4) (s : State) : Res :=
  .next (s.arith q d a b m (fun _ x y => x + y) fun _ x y =>
    some { uni := false, base := x.base + y.base, stride := x.stride + y.stride })

/-- ISUB (R93). -/
def execIsub (d a b : BitVec 6) (m : BitVec 2) (q : BitVec 4) (s : State) : Res :=
  .next (s.arith q d a b m (fun _ x y => x - y) fun _ x y =>
    some { uni := false, base := x.base - y.base, stride := x.stride - y.stride })

/-- IADDI (R93). -/
def execIaddi (d a : BitVec 6) (i : BitVec 12) (s : State) : Res :=
  .next (s.put32 always d [(1, a.toNat)] fun g L => g.val a.toNat L + i.signExtend 32)

/-- IMUL (R93); an affine product needs one uniform operand (R74). -/
def execImul (d a b : BitVec 6) (m : BitVec 2) (q : BitVec 4) (s : State) : Res :=
  .next (s.arith q d a b m (fun _ x y => x * y) fun _ x y =>
    if x.uni || y.uni then some { uni := false, base := x.base * y.base, stride := x.stride * y.base + x.base * y.stride }
    else none)

/-- IMULHS (R93). -/
def execImulhs (d a b : BitVec 6) (m : BitVec 1) (q : BitVec 4) (s : State) : Res :=
  .next (s.wide2 q d a b (m == 1) (mulHigh true))

/-- IMULHN (R93). -/
def execImulhn (d a b : BitVec 6) (m : BitVec 1) (q : BitVec 4) (s : State) : Res :=
  .next (s.wide2 q d a b (m == 1) (mulHigh false))

/-- IMAD (R94). -/
def execImad (d a b e : BitVec 6) (s : State) : Res :=
  .next (s.put32 always d [(1, a.toNat), (1, b.toNat), (1, e.toNat)] fun g L =>
    g.val a.toNat L * g.val b.toNat L + g.val e.toNat L)

/-- IMADW (R94). -/
def execImadw (d : BitVec 5) (a b : BitVec 6) (e : BitVec 5) (s : State) : Res :=
  let e := 2 * e.toNat
  .next (s.put64 always (2 * d.toNat) [(1, a.toNat), (1, b.toNat), (2, e)] fun g L =>
    (g.val a.toNat L).signExtend 64 * (g.val b.toNat L).signExtend 64 + g.val64 e L)

/-- IMADWN (R94). -/
def execImadwn (d : BitVec 5) (a b : BitVec 6) (e : BitVec 5) (s : State) : Res :=
  let e := 2 * e.toNat
  .next (s.put64 always (2 * d.toNat) [(1, a.toNat), (1, b.toNat), (2, e)] fun g L =>
    (g.val a.toNat L).setWidth 64 * (g.val b.toNat L).setWidth 64 + g.val64 e L)

/-- IMIN (R93). -/
def execImin (d a b : BitVec 6) (m : BitVec 2) (q : BitVec 4) (s : State) : Res :=
  .next (s.wide2 q d a b (m.getLsbD 1) (minMax false (m.getLsbD 0)))

/-- IMAX (R93). -/
def execImax (d a b : BitVec 6) (m : BitVec 2) (q : BitVec 4) (s : State) : Res :=
  .next (s.wide2 q d a b (m.getLsbD 1) (minMax true (m.getLsbD 0)))

/-- IABS (R93). -/
def execIabs (d a : BitVec 6) (m : BitVec 2) (q : BitVec 4) (s : State) : Res :=
  .next (s.arith q d a a m (fun _ x _ => if x.msb then -x else x) noAff)

/-- INEG (R93). -/
def execIneg (d a : BitVec 6) (m : BitVec 2) (q : BitVec 4) (s : State) : Res :=
  .next (s.arith q d a a m (fun _ x _ => 0 - x) noAff)

/-- IDIV (R95). -/
def execIdiv (d a b : BitVec 6) (m : BitVec 2) (q : BitVec 4) (s : State) : Res :=
  .next (s.wide2 q d a b (m.getLsbD 1) (quotient (m.getLsbD 0)))

/-- IREM (R95). -/
def execIrem (d a b : BitVec 6) (m : BitVec 2) (q : BitVec 4) (s : State) : Res :=
  .next (s.wide2 q d a b (m.getLsbD 1) (remainder (m.getLsbD 0)))

/-- The source of IACCW, extended (R96). -/
def iaccwTerm (m : BitVec 2) (a : Word) : DWord :=
  if m = 0 then a.signExtend 64
  else if m = 1 then a.setWidth 64
  else if m = 2 then (a.extractLsb' 0 16).signExtend 64
  else (a.extractLsb' 0 16).setWidth 64

/-- IACCW (R96). -/
def execIaccw (d : BitVec 5) (a : BitVec 6) (m : BitVec 2) (q : BitVec 4) (s : State) : Res :=
  let d := 2 * d.toNat
  .next (s.put64 q d [(1, a.toNat)] fun g L => g.val64 d L + iaccwTerm m (g.val a.toNat L))

/-- ADDR (R97). -/
def execAddr (d a : BitVec 5) (b : BitVec 6) (m : BitVec 2) (q : BitVec 4) (s : State) : Res :=
  let d := 2 * d.toNat
  let a := 2 * a.toNat
  let b := b.toNat
  let sh (x : Word) : DWord := x.signExtend 64 <<< m.toNat
  .next (s.withRegs [(2, d), (2, a), (1, b)] fun s =>
    if s.isAffine d then
      s.putAff64 q d (match s.src.aff64 a, s.src.aff32 b with
        | some x, some y => some { uni := false, base := x.base + sh y.base, stride := x.stride + sh y.stride }
        | _, _ => none)
    else s.put64 q d [] fun g L => g.val64 a L + sh (g.val b L))

/-- ADDRI (R97). -/
def execAddri (d a : BitVec 5) (i : BitVec 12) (s : State) : Res :=
  let d := 2 * d.toNat
  let a := 2 * a.toNat
  .next (s.withRegs [(2, d), (2, a)] fun s =>
    if s.isAffine d then
      s.putAff64 always d ((s.src.aff64 a).map fun x => { uni := false, base := x.base + i.signExtend 64, stride := x.stride })
    else s.put64 always d [] fun g L => g.val64 a L + i.signExtend 64)

/-! ## Logic, shifts and bit fields (R98 to R101) -/

/-- AND (R98). -/
def execAnd (d a b : BitVec 6) (m : BitVec 1) (q : BitVec 4) (s : State) : Res :=
  .next (s.wide2 q d a b (m == 1) fun _ x y => x &&& y)

/-- OR (R98). -/
def execOr (d a b : BitVec 6) (m : BitVec 1) (q : BitVec 4) (s : State) : Res :=
  .next (s.wide2 q d a b (m == 1) fun _ x y => x ||| y)

/-- XOR (R98). -/
def execXor (d a b : BitVec 6) (m : BitVec 1) (q : BitVec 4) (s : State) : Res :=
  .next (s.wide2 q d a b (m == 1) fun _ x y => x ^^^ y)

/-- ANDN (R98). -/
def execAndn (d a b : BitVec 6) (m : BitVec 1) (q : BitVec 4) (s : State) : Res :=
  .next (s.wide2 q d a b (m == 1) fun _ x y => x &&& ~~~y)

/-- NOT (R98). -/
def execNot (d a : BitVec 6) (m : BitVec 1) (q : BitVec 4) (s : State) : Res :=
  .next (s.wide2 q d a a (m == 1) fun _ x _ => ~~~x)

/-- ANDI (R98). -/
def execAndi (d a : BitVec 6) (i : BitVec 12) (s : State) : Res :=
  .next (s.put32 always d [(1, a.toNat)] fun g L => g.val a.toNat L &&& i.signExtend 32)

/-- ORI (R98). -/
def execOri (d a : BitVec 6) (i : BitVec 12) (s : State) : Res :=
  .next (s.put32 always d [(1, a.toNat)] fun g L => g.val a.toNat L ||| i.signExtend 32)

/-- XORI (R98). -/
def execXori (d a : BitVec 6) (i : BitVec 12) (s : State) : Res :=
  .next (s.put32 always d [(1, a.toNat)] fun g L => g.val a.toNat L ^^^ i.signExtend 32)

/-- The three shifts (R99): 0 left, 1 right, 2 arithmetic right. -/
inductive Shift where
  | left | right | arith
  deriving DecidableEq, Repr

/-- A shift by any count (R99). -/
def shiftBy (k : Shift) (w : Nat) (a : BitVec w) (n : Nat) : BitVec w :=
  match k with
  | .left => if n < w then a <<< n else 0
  | .right => if n < w then a >>> n else 0
  | .arith => if n < w then a.sshiftRight n else if a.msb then BitVec.allOnes w else 0

/-- SHL, SHR and SAR (R99): in modes 32 and 64 the count is the single register b, in the packed modes the
matching element of b. -/
def State.shiftVar (s : State) (k : Shift) (d a b : BitVec 6) (m : BitVec 2) (q : BitVec 4) : State :=
  if m = 1 then
    s.put64 q d.toNat [(2, a.toNat), (1, b.toNat)] fun g L => shiftBy k 64 (g.val64 a.toNat L) (g.val b.toNat L).toNat
  else
    s.put32 q d [(1, a.toNat), (1, b.toNat)] fun g L =>
      elems m.toNat (fun w x y => shiftBy k w x y.toNat) (g.val a.toNat L) (g.val b.toNat L)

/-- SHL (R99). -/
def execShl (d a b : BitVec 6) (m : BitVec 2) (q : BitVec 4) (s : State) : Res := .next (s.shiftVar .left d a b m q)

/-- SHR (R99). -/
def execShr (d a b : BitVec 6) (m : BitVec 2) (q : BitVec 4) (s : State) : Res := .next (s.shiftVar .right d a b m q)

/-- SAR (R99). -/
def execSar (d a b : BitVec 6) (m : BitVec 2) (q : BitVec 4) (s : State) : Res := .next (s.shiftVar .arith d a b m q)

/-- SHLI (R99); the result may be affine (R74). -/
def execShli (d a : BitVec 6) (w : BitVec 1) (n : BitVec 6) (s : State) : Res :=
  let k := n.toNat
  let k2 := if w = 1 then 2 else 1
  .next (s.withRegs [(k2, d.toNat), (k2, a.toNat)] fun s =>
    if s.isAffine d.toNat then
      if w = 1 then s.putAff64 always d.toNat ((s.src.aff64 a.toNat).map fun x =>
        { uni := false, base := shiftBy .left 64 x.base k, stride := shiftBy .left 64 x.stride k })
      else s.putAff32 always d.toNat ((s.src.aff32 a.toNat).map fun x =>
        { uni := false, base := shiftBy .left 32 x.base k, stride := shiftBy .left 32 x.stride k })
    else if w = 1 then s.put64 always d.toNat [] fun g L => shiftBy .left 64 (g.val64 a.toNat L) k
    else s.put32 always d [] fun g L => shiftBy .left 32 (g.val a.toNat L) k)

/-- A right shift by an immediate (R99). -/
def State.shiftImm (s : State) (k : Shift) (d a : BitVec 6) (w : BitVec 1) (n : BitVec 6) : State :=
  if w = 1 then s.put64 always d.toNat [(2, a.toNat)] fun g L => shiftBy k 64 (g.val64 a.toNat L) n.toNat
  else s.put32 always d [(1, a.toNat)] fun g L => shiftBy k 32 (g.val a.toNat L) n.toNat

/-- SHRI (R99). -/
def execShri (d a : BitVec 6) (w : BitVec 1) (n : BitVec 6) (s : State) : Res := .next (s.shiftImm .right d a w n)

/-- SARI (R99). -/
def execSari (d a : BitVec 6) (w : BitVec 1) (n : BitVec 6) (s : State) : Res := .next (s.shiftImm .arith d a w n)

/-- 2^len − 1, where the field holds len − 1 (R82, R100). -/
def fieldMask (l : BitVec 5) : Word := BitVec.ofNat 32 (2 ^ (l.toNat + 1) - 1)

/-- BFX (R100). -/
def execBfx (d a : BitVec 6) (l p : BitVec 5) (s : State) : Res :=
  .next (s.put32 always d [(1, a.toNat)] fun g L => (g.val a.toNat L >>> p.toNat) &&& fieldMask l)

/-- BFXS (R100). -/
def execBfxs (d a : BitVec 6) (l p : BitVec 5) (s : State) : Res :=
  .next (s.put32 always d [(1, a.toNat)] fun g L =>
    ((g.val a.toNat L).extractLsb' p.toNat (l.toNat + 1)).signExtend 32)

/-- BFI (R100). -/
def execBfi (d a : BitVec 6) (l p : BitVec 5) (s : State) : Res :=
  .next (s.put32 always d [(1, a.toNat)] fun g L =>
    (g.val d.toNat L &&& ~~~(fieldMask l <<< p.toNat)) ||| ((g.val a.toNat L &&& fieldMask l) <<< p.toNat))

/-- The bit counts and the bit reversal of R101. -/
def bitOp (m : BitVec 2) (a : Word) : Word :=
  let ones := bitsOf 32 a.toNat
  if m = 0 then BitVec.ofNat 32 ones.length
  else if m = 1 then BitVec.ofNat 32 (match ones.getLast? with
    | some i => 31 - i
    | none => 32)
  else if m = 2 then BitVec.ofNat 32 (ones.headD 32)
  else ones.foldl (fun w i => w ||| (1#32 <<< (31 - i))) 0

/-- BITOP (R101). -/
def execBitop (d a : BitVec 6) (m : BitVec 2) (q : BitVec 4) (s : State) : Res :=
  .next (s.put32 q d [(1, a.toNat)] fun g L => bitOp m (g.val a.toNat L))

/-! ## Scans and reductions (R102, R103) -/

/-- The prefix over the participants as it stands at lane L: before its own term (`excl`) or after it. -/
def scanAt {α : Type} (op : α → α → α) (x : Nat → α) (excl : Bool) : α → List Nat → Nat → α
  | acc, [], _ => acc
  | acc, P :: t, L => if P = L then (if excl then acc else op acc (x P)) else scanAt op x excl (op acc (x P)) t L

/-- The greater of two signed words. -/
def smax (a b : Word) : Word := if a.slt b then b else a

/-- The lesser of two signed words. -/
def smin (a b : Word) : Word := if b.slt a then b else a

/-- SCAN (R102). -/
def execScan (d a : BitVec 6) (m : BitVec 2) (q : BitVec 4) (s : State) : Res :=
  let part := s.exec q
  let a := a.toNat
  .next (
    if m = 2 then
      s.put64 q d.toNat [(1, a)] fun g L => scanAt (· + ·) (fun P => (g.val a P).signExtend 64) false 0 part L
    else if m = 3 then
      s.put32 q d [(1, a)] fun g L => scanAt smax (g.val a) false 0x80000000 part L
    else s.put32 q d [(1, a)] fun g L => scanAt (· + ·) (g.val a) (m == 1) 0 part L)

/-- IRED (R103). -/
def execIred (d a : BitVec 6) (m : BitVec 2) (q : BitVec 4) (s : State) : Res :=
  let part := s.exec q
  let a := a.toNat
  .next (
    if m = 1 then
      s.put64 q d.toNat [(1, a)] fun g _ => part.foldl (fun acc P => acc + (g.val a P).signExtend 64) 0
    else
      s.put32 q d [(1, a)] fun g _ =>
        if m = 0 then part.foldl (fun acc P => acc + g.val a P) 0
        else if m = 2 then part.foldl (fun acc P => smax acc (g.val a P)) 0x80000000
        else part.foldl (fun acc P => smin acc (g.val a P)) 0x7FFFFFFF)

end Sys2Proof.Machine
end

