-- ==== Sys2Proof/Machine/FpOps.lean ====
section
/-! DEFINITION. Machine/FpOps.lean: the words of majors 0x40 to 0x5D (R119 to R139) over the exact
arithmetic of Machine/Float.lean. The flags of every executing lane and element reach GANG.FPSTAT (R114). -/

namespace Sys2Proof.Machine

open Sys2Proof

/-! ## The frame of R120 -/

/-- A result of 32 bits and its flags. -/
structure Fp32 where
  bits : Word
  fl   : FpFlags
  deriving DecidableEq, Repr

/-- A result of 64 bits and its flags. -/
structure Fp64 where
  bits : DWord
  fl   : FpFlags
  deriving DecidableEq, Repr

def FRes.w32 (r : FRes) : Fp32 := { bits := BitVec.ofNat 32 r.bits, fl := r.fl }
def FRes.w64 (r : FRes) : Fp64 := { bits := BitVec.ofNat 64 r.bits, fl := r.fl }

/-- A floating-point word with a one-register result: operands, result by lane (R114, R120). -/
def State.fput32 (s : State) (q : BitVec 4) (d : BitVec 6) (rs : List (Nat × Nat)) (f : Gang → Nat → Fp32) : State :=
  s.withDest (1, d.toNat) rs fun s =>
    let e := s.exec q
    { s with g := s.g.write d.toNat e fun L => (f s.src L).bits }.mergeFp (orFlags e fun L => (f s.src L).fl)

/-- The same with a pair as its destination. -/
def State.fput64 (s : State) (q : BitVec 4) (d : Nat) (rs : List (Nat × Nat)) (f : Gang → Nat → Fp64) : State :=
  s.withDest (2, d) rs fun s =>
    let e := s.exec q
    { s with g := s.g.write64 d e fun L => (f s.src L).bits }.mergeFp (orFlags e fun L => (f s.src L).fl)

/-- Two packed 16-bit results (R108). -/
def pack2 (lo hi : FRes) : Fp32 := { bits := BitVec.ofNat 32 (lo.bits + 65536 * hi.bits), fl := lo.fl ||| hi.fl }

/-- Element j of a packed operand. -/
def el16 (w : Word) (j : Nat) : Nat := w.toNat / 65536 ^ j % 65536

/-- The format of a type code (R53). -/
def fmtOf (m : Nat) : Fmt := if m = 0 then f32 else if m = 1 then f64 else if m = 2 then bf16 else f16

/-- A two-operand word in the four types (R53, R119). -/
def State.fop2 (s : State) (q : BitVec 4) (d a b : BitVec 6) (m : Nat) (f : Fmt → Nat → Nat → FRes) : State :=
  let a := a.toNat
  let b := b.toNat
  if m = 1 then s.fput64 q d.toNat [(2, a), (2, b)] fun g L => (f f64 (g.val64 a L).toNat (g.val64 b L).toNat).w64
  else
    s.fput32 q d [(1, a), (1, b)] fun g L =>
      let x := g.val a L
      let y := g.val b L
      if m = 0 then (f f32 x.toNat y.toNat).w32
      else pack2 (f (fmtOf m) (el16 x 0) (el16 y 0)) (f (fmtOf m) (el16 x 1) (el16 y 1))

/-- A fused word on packed elements (R122). -/
def State.fop3packed (s : State) (d a b e : BitVec 6) (f : Fmt) : State :=
  s.fput32 always d [(1, a.toNat), (1, b.toNat), (1, e.toNat)] fun g L =>
    let r (j : Nat) : FRes := ffma f (el16 (g.val a.toNat L) j) (el16 (g.val b.toNat L) j) (el16 (g.val e.toNat L) j)
    pack2 (r 0) (r 1)

/-! ## Arithmetic (R121 to R130) -/

/-- FADD (R121). -/
def execFadd (d a b : BitVec 6) (m : BitVec 2) (q : BitVec 4) (s : State) : Res := .next (s.fop2 q d a b m.toNat fadd)

/-- FSUB (R121). -/
def execFsub (d a b : BitVec 6) (m : BitVec 2) (q : BitVec 4) (s : State) : Res := .next (s.fop2 q d a b m.toNat fsub)

/-- FMUL (R121). -/
def execFmul (d a b : BitVec 6) (m : BitVec 2) (q : BitVec 4) (s : State) : Res := .next (s.fop2 q d a b m.toNat fmul)

/-- FFMA32 (R122). -/
def execFfma32 (d a b e : BitVec 6) (s : State) : Res :=
  .next (s.fput32 always d [(1, a.toNat), (1, b.toNat), (1, e.toNat)] fun g L =>
    (ffma f32 (g.val a.toNat L).toNat (g.val b.toNat L).toNat (g.val e.toNat L).toNat).w32)

/-- FFMA64 (R122). -/
def execFfma64 (d a b e : BitVec 5) (s : State) : Res :=
  let a := 2 * a.toNat
  let b := 2 * b.toNat
  let e := 2 * e.toNat
  .next (s.fput64 always (2 * d.toNat) [(2, a), (2, b), (2, e)] fun g L =>
    (ffma f64 (g.val64 a L).toNat (g.val64 b L).toNat (g.val64 e L).toNat).w64)

/-- FFMABF (R122). -/
def execFfmabf (d a b e : BitVec 6) (s : State) : Res := .next (s.fop3packed d a b e bf16)

/-- FFMAH (R122). -/
def execFfmah (d a b e : BitVec 6) (s : State) : Res := .next (s.fop3packed d a b e f16)

/-- FDOT2 (R123). -/
def execFdot2 (d a b e : BitVec 6) (s : State) : Res :=
  .next (s.fput32 always d [(1, a.toNat), (1, b.toNat), (1, e.toNat)] fun g L =>
    let x := g.val a.toNat L
    let y := g.val b.toNat L
    let p (j : Nat) : FVal × FVal := (bf16.val (el16 x j), bf16.val (el16 y j))
    (fdot f32 [p 0, p 1] [f32.val (g.val e.toNat L).toNat]).w32)

/-- FMIN (R124). -/
def execFmin (d a b : BitVec 6) (m : BitVec 2) (q : BitVec 4) (s : State) : Res :=
  .next (s.fop2 q d a b m.toNat fun f => fminmax f false)

/-- FMAX (R124). -/
def execFmax (d a b : BitVec 6) (m : BitVec 2) (q : BitVec 4) (s : State) : Res :=
  .next (s.fop2 q d a b m.toNat fun f => fminmax f true)

/-- The bits of a with the sign of b (R125). -/
def fsgn (f : Fmt) (a b : Nat) : FRes := { bits := a % f.signBit + b / f.signBit * f.signBit, fl := 0 }

/-- FSGN (R125). -/
def execFsgn (d a b : BitVec 6) (m : BitVec 2) (q : BitVec 4) (s : State) : Res := .next (s.fop2 q d a b m.toNat fsgn)

/-- FCMP (R126). -/
def execFcmp (d : BitVec 3) (a b : BitVec 6) (m : BitVec 1) (q : BitVec 4) (s : State) : Res :=
  let n := if m = 1 then 2 else 1
  let r (g : Gang) (L : Nat) : Bool × FpFlags :=
    if m = 1 then fcmp f64 (q.toNat % 8) (g.val64 a.toNat L).toNat (g.val64 b.toNat L).toNat
    else fcmp f32 (q.toNat % 8) (g.val a.toNat L).toNat (g.val b.toNat L).toNat
  .next (s.withRegs [(n, a.toNat), (n, b.toNat)] fun s =>
    (s.putPred always d.toNat [] fun g L => (r g L).1 && (!q.getLsbD 3 || g.pred d.toNat L)).mergeFp
      (orFlags s.lanes fun L => (r s.src L).2))

/-- FCLASS (R127). -/
def execFclass (d a : BitVec 6) (m : BitVec 2) (q : BitVec 4) (s : State) : Res :=
  let a := a.toNat
  .next (s.put32 q d [(if m = 1 then 2 else 1, a)] fun g L => BitVec.ofNat 32 (
    if m = 0 then fclass f32 (g.val a L).toNat
    else if m = 1 then fclass f64 (g.val64 a L).toNat
    else fclass (fmtOf m.toNat) (el16 (g.val a L) 0) + 65536 * fclass (fmtOf m.toNat) (el16 (g.val a L) 1)))

/-- FRND (R128). -/
def execFrnd (d a : BitVec 6) (r m : BitVec 2) (q : BitVec 4) (s : State) : Res :=
  .next (s.fop2 q d a a m.toNat fun f x _ => frnd f (Rm.ofBits r) x)

/-- FDIV (R130). -/
def execFdiv (d a b : BitVec 6) (m : BitVec 1) (q : BitVec 4) (s : State) : Res := .next (s.fop2 q d a b m.toNat fdiv)

/-- FSQRT (R130). -/
def execFsqrt (d a : BitVec 6) (m : BitVec 1) (q : BitVec 4) (s : State) : Res :=
  .next (s.fop2 q d a a m.toNat fun f x _ => fsqrt f x)

/-- FSCALE (R129). -/
def execFscale (d a b : BitVec 6) (m : BitVec 2) (q : BitVec 4) (s : State) : Res :=
  let a := a.toNat
  let b := b.toNat
  .next (
    if m = 1 then
      s.fput64 q d.toNat [(2, a), (1, b)] fun g L => (fscale f64 (g.val64 a L).toNat (g.val b L).toInt).w64
    else
      s.fput32 q d [(1, a), (1, b)] fun g L =>
        let x := g.val a L
        let y := g.val b L
        let r (j : Nat) : FRes := fscale (fmtOf m.toNat) (el16 x j) (y.extractLsb' (16 * j) 16).toInt
        if m = 0 then (fscale f32 x.toNat y.toInt).w32 else pack2 (r 0) (r 1))

/-! ## The functions of XF (R131) -/

/-- A one-operand word on binary32. -/
def State.xf (s : State) (q : BitVec 4) (d a : BitVec 6) (f : Nat → FRes) : State :=
  s.fput32 q d [(1, a.toNat)] fun g L => (f (g.val a.toNat L).toNat).w32

/-- FRCP (R131). -/
def execFrcp (d a : BitVec 6) (q : BitVec 4) (s : State) : Res := .next (s.xf q d a frcp)

/-- FRSQ (R131). -/
def execFrsq (d a : BitVec 6) (q : BitVec 4) (s : State) : Res := .next (s.xf q d a frsq)

/-- FEXP2 (R131). -/
def execFexp2 (d a : BitVec 6) (q : BitVec 4) (s : State) : Res := .next (s.xf q d a fexp2)

/-- FLOG2 (R131). -/
def execFlog2 (d a : BitVec 6) (q : BitVec 4) (s : State) : Res := .next (s.xf q d a flog2)

/-- FSIN (R131). -/
def execFsin (d a : BitVec 6) (q : BitVec 4) (s : State) : Res := .next (s.xf q d a fsin)

/-- FCOS (R131). -/
def execFcos (d a : BitVec 6) (q : BitVec 4) (s : State) : Res := .next (s.xf q d a fcos)

/-- FMOVI (R132). -/
def execFmovi (d : BitVec 6) (i : BitVec 18) (s : State) : Res :=
  .next (s.put32 always d [] fun _ _ => i ++ 0#14)

/-! ## Conversions (R133 to R137) -/

/-- A value of CVT: a float with its format, or an integer (R133). -/
inductive CvtVal where
  | float (f : Fmt) (v : FVal)
  | int (i : Int)
  deriving DecidableEq, Repr

/-- The format of a float type code of R133. -/
def cvtFmt (t : Nat) : Fmt := if t = 0 then f32 else if t = 1 then f64 else if t = 2 then bf16 else f16

/-- The bits of an integer type code of R133. -/
def cvtBits (t : Nat) : Nat := if t = 4 then 32 else if t = 5 then 64 else if t = 6 then 16 else 8

/-- Whether a type code takes a pair (R133). -/
def cvtWide (t : Nat) : Bool := t == 1 || t == 5

/-- The source value of CVT, from the bits of its registers. -/
def cvtSource (t : Nat) (x : DWord) : CvtVal :=
  if t < 4 then
    let f := cvtFmt t
    .float f (f.val (x.toNat % (2 * f.signBit)))
  else .int (BitVec.ofNat (cvtBits t) x.toNat).toInt

/-- The least and greatest values of an integer type. -/
def intRange (t : Nat) : Int × Int := (-(2 ^ (cvtBits t - 1) : Nat), (2 ^ (cvtBits t - 1) - 1 : Nat))

/-- CVT (R134): the result as a 64-bit value, and the flags. An integer result of fewer than 32 bits is
sign-extended (R133). -/
def convert (rm : Rm) (t : Nat) (v : CvtVal) : Fp64 :=
  match v with
  | .float _ v =>
    if t < 4 then (roundF (cvtFmt t) rm v).w64
    else
      let (i, fl) := ftoInt rm (intRange t).1 (intRange t).2 v
      { bits := BitVec.ofInt 64 i, fl := fl }
  | .int i =>
    if t < 4 then (roundF (cvtFmt t) rm (.ofInt i)).w64
    else { bits := BitVec.ofInt 64 (max (intRange t).1 (min i (intRange t).2)), fl := 0 }

/-- CVT (R134). -/
def execCvt (d a : BitVec 6) (t sr : BitVec 3) (r : BitVec 2) (q : BitVec 4) (s : State) : Res :=
  let src := sr.toNat
  let res (g : Gang) (L : Nat) : Fp64 :=
    convert (Rm.ofBits r) t.toNat (cvtSource src (if cvtWide src then g.val64 a.toNat L else (g.val a.toNat L).setWidth 64))
  let rs := [(if cvtWide src then 2 else 1, a.toNat)]
  .next (
    if cvtWide t.toNat then s.fput64 q d.toNat rs res
    else s.fput32 q d rs fun g L => { bits := (res g L).bits.setWidth 32, fl := (res g L).fl })

/-- CVTP (R135). -/
def execCvtp (d a b : BitVec 6) (m : BitVec 1) (q : BitVec 4) (s : State) : Res :=
  let f := if m = 0 then bf16 else f16
  .next (s.fput32 q d [(1, a.toNat), (1, b.toNat)] fun g L =>
    pack2 (roundF f .rn (f32.val (g.val a.toNat L).toNat)) (roundF f .rn (f32.val (g.val b.toNat L).toNat)))

/-- QENC (R136). -/
def execQenc (d a b : BitVec 6) (q : BitVec 4) (s : State) : Res :=
  .next (s.fput32 q d [(1, a.toNat), (1, b.toNat)] fun g L =>
    let (c, fl) := qenc (g.val a.toNat L).toNat (g.val b.toNat L).toNat
    { bits := BitVec.ofNat 32 c, fl := fl })

/-- QDEC (R137). -/
def execQdec (d a b : BitVec 6) (q : BitVec 4) (s : State) : Res :=
  .next (s.fput32 q d [(1, a.toNat), (1, b.toNat)] fun g L => (qdec (g.val a.toNat L).toNat (g.val b.toNat L).toNat).w32)

/-! ## Gang sums and scans (R138, R139) -/

/-- A node of the tree of R138: a value and the flags of the additions below it. -/
def fnode (f : Fmt) : Option FRes → Option FRes → Option FRes
  | none, y => y
  | x, none => x
  | some x, some y =>
    let r := fadd f x.bits y.bits
    some { bits := r.bits, fl := r.fl ||| x.fl ||| y.fl }

/-- The tree of R138 over 2^k lanes from lane j × 2^k. -/
def fsumTree (f : Fmt) (leaf : Nat → Option FRes) : Nat → Nat → Option FRes
  | 0, j => leaf j
  | k + 1, j => fnode f (fsumTree f leaf k (2 * j)) (fsumTree f leaf k (2 * j + 1))

/-- A result with a NaN made canonical (R138, R139). -/
def canonical (f : Fmt) (x : Nat) : Nat := if (f.val x).isNan then f.nan else x

/-- IV when an operand is a signalling NaN (R112, R138). -/
def snanFlag (f : Fmt) (x : Nat) : FpFlags := ivIf (f.val x).isSnan

/-- The sum over the participants (R138). -/
def fsumOver (f : Fmt) (part : List Nat) (x : Nat → Nat) : FRes :=
  match fsumTree f (fun j => if part.contains j then some { bits := x j, fl := snanFlag f (x j) } else none) 5 0 with
  | some r => { r with bits := canonical f r.bits }
  | none => { bits := 0, fl := 0 }

/-- The running sum of R139 at lane L, with the flags of the additions and operands so far. -/
def fscanAt (f : Fmt) (x : Nat → Nat) : Option FRes → List Nat → Nat → FRes
  | acc, [], _ => acc.getD { bits := 0, fl := 0 }
  | acc, P :: t, L =>
    let v : FRes := { bits := x P, fl := snanFlag f (x P) }
    let now := (fnode f acc (some v)).getD v
    if P = L then { now with bits := canonical f now.bits } else fscanAt f x (some now) t L

/-- FSUM (R138). -/
def execFsum (d a : BitVec 6) (m : BitVec 1) (q : BitVec 4) (s : State) : Res :=
  let part := s.exec q
  let a := a.toNat
  .next (
    if m = 1 then s.fput64 q d.toNat [(2, a)] fun g _ => (fsumOver f64 part fun P => (g.val64 a P).toNat).w64
    else s.fput32 q d [(1, a)] fun g _ => (fsumOver f32 part fun P => (g.val a P).toNat).w32)

/-- FSCAN (R139). -/
def execFscan (d a : BitVec 6) (m : BitVec 1) (q : BitVec 4) (s : State) : Res :=
  let part := s.exec q
  let a := a.toNat
  .next (
    if m = 1 then s.fput64 q d.toNat [(2, a)] fun g L => (fscanAt f64 (fun P => (g.val64 a P).toNat) none part L).w64
    else s.fput32 q d [(1, a)] fun g L => (fscanAt f32 (fun P => (g.val a P).toNat) none part L).w32)

end Sys2Proof.Machine
end

