-- ==== Sys2Proof/Machine/Cipher.lean ====
section
/-! DEFINITION. Machine/Cipher.lean: device memory as it is read and written under a key (R256, R347, R350, R405). Memory
holds the plain bytes; what a block of 16 bytes reads as under a key that it was not written under is a free value
(DESIGN CHOICE, log 40). -/

namespace Sys2Proof.Machine

open Sys2Proof

/-- The key that a slot of the key store holds, by the number of its loading: 0 for the key of the boot (R405). -/
def State.keyGen (s : State) (slot : Nat) : Nat := Store.get 0 s.ck.gens slot

/-- How a block of memory is enciphered. -/
def State.sealOf (s : State) (block : Nat) : Seal := Store.get {} s.seals block

/-- The bytes of a block under the key it was last written under. -/
def State.plainBlock (s : State) (block : Nat) : List Byte :=
  (upto 16).map fun i => Store.get (memGet s.mem (16 * block + i)) (s.sealOf block).kept i

/-- A byte of a block as a key deciphers it: the plain byte under the key of the block, and any other way a free one. -/
def State.seenByte (s : State) (gen a : Nat) : Byte :=
  let x := s.sealOf (a / 16)
  if x.gen = gen then Store.get (memGet s.mem a) x.kept (a % 16)
  else Config.deciphered gen x.gen (a / 16) (leNat (s.plainBlock (a / 16))) (a % 16)

/-- A byte, and the n bytes from a physical address up, as they are read under the key of a slot. -/
def State.seenGet (s : State) (slot a : Nat) : Byte :=
  if s.seals.isEmpty && s.keyGen slot == 0 then memGet s.mem a else s.seenByte (s.keyGen slot) a
def State.seenAt (s : State) (slot a n : Nat) : List Byte :=
  if s.seals.isEmpty && s.keyGen slot == 0 then memBytes s.mem a n else (upto n).map fun i => s.seenByte (s.keyGen slot) (a + i)

/-- What becomes of a block of which the bytes at some offsets are written under a key: the others are as that key
deciphers them. -/
def State.sealBlock (s : State) (gen block : Nat) (written : Nat → Bool) : Seal :=
  let x := s.sealOf block
  let rest : Store Byte :=
    if x.gen = gen then x.kept.filter fun p => !written p.1
    else ((upto 16).filter fun i => !written i).map fun i => (i, s.seenByte gen (16 * block + i))
  { gen := gen, kept := rest }

/-- The seals with that of a block replaced; a block that stands as it does after the boot is not listed. -/
def putSeal (l : Store Seal) (block : Nat) (x : Seal) : Store Seal := if x = {} then Store.del l block else Store.put l block x

/-- The seals after n bytes from a physical address up have been written under a key. -/
def State.sealsAfter (s : State) (gen a n : Nat) : Store Seal :=
  if s.seals.isEmpty && gen == 0 then s.seals
  else (granules a n).foldl (fun l b => putSeal l b (s.sealBlock gen b fun i => decide (a ≤ 16 * b + i) && decide (16 * b + i < a + n))) s.seals

/-- Bytes written at a physical address under the key of a slot. -/
def State.putG (s : State) (slot a : Nat) (bytes : List Byte) : State :=
  { s with mem := memWrite s.mem a bytes, seals := s.sealsAfter (s.keyGen slot) a bytes.length }

/-- The seals after a frame has been copied to another under a key: each block as the key deciphers it. -/
def State.sealsCopied (s : State) (gen src dst n : Nat) : Store Seal :=
  let one (b : Nat) : Seal :=
    let x := s.sealOf b
    if x.gen = gen then x else { gen := gen, kept := (upto 16).map fun i => (i, s.seenByte gen (16 * b + i)) }
  if s.seals.isEmpty && gen == 0 then s.seals
  else (upto (n / 16)).foldl (fun l i => putSeal l (dst / 16 + i) (one (src / 16 + i))) s.seals

/-- The seals after the device has written a range of its own under the key of the boot. -/
def State.unsealed (s : State) (a n : Nat) : Store Seal :=
  s.seals.filter fun p => decide (16 * p.1 + 16 ≤ a) || decide (a + n ≤ 16 * p.1)

end Sys2Proof.Machine
end

