-- ==== Sys2Proof/Machine/Xlat.lean ====
section
/-! DEFINITION. Machine/Xlat.lean: translation of G addresses (R345 to R354), capabilities (R342 to R344),
the ranges of the scratchpads (R167, R171, R172) and pending frames of versioned pages (R182, R348). -/

namespace Sys2Proof.Machine

open Sys2Proof

/-! ## Page tables -/

/-- What an access needs of a leaf (R346). -/
inductive Need where
  | read | write | fetch | atom
  deriving DecidableEq, Repr

/-- Physical address of a frame or table in bits [55:20] of a word of an entry (R346, R348). -/
def entryPa (w : DWord) : Nat := (w.extractLsb' 20 36).toNat * 4096

/-- The frame of the page (PA). -/
def Xlat.frame (x : Xlat) : Nat := entryPa x.w0
/-- The page is versioned. -/
def Xlat.ver (x : Xlat) : Bool := x.w0.getLsbD 6
/-- A pending frame exists. -/
def Xlat.pend (x : Xlat) : Bool := x.ver && x.w1.getLsbD 0
/-- The staging frame. -/
def Xlat.stage (x : Xlat) : Nat := entryPa x.w1
/-- The physical address an access inside the package uses: the pending frame's where there is one (R349). -/
def Xlat.phys (x : Xlat) : Nat := (if x.pend then x.stage else x.frame) + x.off
/-- The key index. -/
def Xlat.key (x : Xlat) : Nat := (x.w0.extractLsb' 8 10).toNat
/-- The release tag of the frame at PA. -/
def Xlat.rtag (x : Xlat) : Nat := (x.w1.extractLsb' 4 16).toNat

/-- Whether a node answers: it is there, and discovery, if it has run, has found it (R3, R363). -/
def Fabric.answers (f : Fabric) (n : Nat) : Bool :=
  f.present.contains n && (f.gen == 0 || (Store.get ({} : Node) f.nodes n).found)

/-- Whether a physical address selects a memory die that answers (R3, R18). -/
def State.reachable (s : State) (p : Nat) : Bool := s.fab.answers (4 + homeDie p)

/-- Whether a line is lost or its stored data is uncorrectable (R181, R372). -/
def State.lineBad (s : State) (n : Nat) : Bool := s.fab.lost.contains n || s.ue.any fun w => w / 32 == n

/-- A page-table pointer: only V, LEAF and PA are used, and every other bit is zero (R346). -/
def pointerOk (w0 w1 : DWord) : Bool :=
  w0.getLsbD 0 && !w0.getLsbD 1 && w0.extractLsb' 2 18 == 0 && w0.extractLsb' 47 17 == 0
    && w0.extractLsb' 20 1 == 0 && w1 == 0

/-- A leaf without a set reserved bit or a misaligned frame (R346 to R348). -/
def leafOk (l1 : Bool) (w0 w1 : DWord) : Bool :=
  let align : Nat := if l1 then 2097152 else if w0.getLsbD 5 then 65536 else 4096
  w0.getLsbD 0 && w0.getLsbD 1 && !w0.getLsbD 7 && w0.extractLsb' 18 2 == 0 && w0.extractLsb' 47 17 == 0
    && entryPa w0 % align == 0 && !(l1 && w0.getLsbD 5)
    && (if w0.getLsbD 6 then w1.extractLsb' 1 3 == 0 && w1.extractLsb' 56 8 == 0 && entryPa w1 != 0
        else w1 == 0)

/-- The address of the entry for a virtual address in a table at a level (R345). -/
def entryAt (va lvl table : Nat) : Nat := table + 16 * (va / 2 ^ (12 + 9 * lvl) % 512)

/-- The walk of the tables from a table at a level (3 down to 0), as far as the leaf (R345): the tables it has gone
through, the highest first, and the leaf. The error is INFO 1 of XLT, or 3 where an entry's read receives an abort
completion (R3, R32). `bad` says at which addresses it does, `ptr` which pointer entries the walker uses from its
cache (R352, R354). -/
def walkFrom (m : List Host.Cell) (bad : Nat → Bool) (ptr : Nat → Option Nat) (va : Nat) : Nat → Nat → Except Nat (List Nat × Xlat)
  | lvl, table =>
    let at_ := entryAt va lvl table
    let w0 := BitVec.ofNat 64 (memNat m at_ 8)
    let w1 := BitVec.ofNat 64 (memNat m (at_ + 8) 8)
    match lvl with
    | 0 =>
      if bad at_ then .error 3
      else if leafOk false w0 w1 then
        let size := if w0.getLsbD 5 then 65536 else 4096
        .ok ([table], { w0 := w0, w1 := w1, leaf := at_ - (if size = 65536 then 16 * (va / 4096 % 16) else 0), size := size, off := va % size })
      else .error 1
    | n + 1 =>
      match ptr (n + 1) with
      | some next => (walkFrom m bad ptr va n next).map fun r => (table :: r.1, r.2)
      | none =>
        if bad at_ then .error 3
        else if n = 0 ∧ leafOk true w0 w1 then .ok ([table], { w0 := w0, w1 := w1, leaf := at_, size := 2097152, off := va % 2097152 })
        else if pointerOk w0 w1 then (walkFrom m bad ptr va n (entryPa w0)).map fun r => (table :: r.1, r.2)
        else .error 1

/-- Whether a frame overlaps a host-private range (R351). -/
def hostPrivate (ranges : List (Nat × Nat)) (a n : Nat) : Bool :=
  ranges.any fun r => decide (a < r.1 + r.2) && decide (r.1 < a + n)

/-- Whether a leaf's key is the tenant's and its frame is not host-private (R347, R351). -/
def State.owns (s : State) (tenant : Nat) (x : Xlat) : Bool :=
  Store.find s.ck.keys x.key == some tenant && !hostPrivate s.ranges x.frame x.size

/-- The permission test of R347: INFO 2 where it fails. -/
def State.permits (s : State) (tenant : Nat) (need : Need) (x : Xlat) : Bool :=
  let r := x.w0.getLsbD 2
  let w := x.w0.getLsbD 3
  (match need with
    | .read => r
    | .write => w
    | .fetch => x.w0.getLsbD 4
    | .atom => r && w)
  && s.owns tenant x

/-- The translation of an address that a cache holds (R352). -/
def State.cached (s : State) (holder ctx va : Nat) : Option TlbEntry :=
  s.tlb.find? fun e => e.holder == holder && e.ctx == ctx && decide (e.va ≤ va) && decide (va < e.va + e.size)

/-- A cached translation as one of an address. -/
def TlbEntry.xlat (e : TlbEntry) (va : Nat) : Xlat := { w0 := e.w0, w1 := e.w1, leaf := e.leaf, size := e.size, off := va - e.va }

/-- The translation caches of the core in focus: its own and its die's (R352). -/
def State.coreCaches (s : State) : List Nat := [128 * s.b.die + s.b.core, 512 + s.b.die]

/-- The cache of the translated apertures (R350). -/
def apertureCache : Nat := 600

/-- The table that a walker's pointer cache gives for an address at a level, where the walker uses it (R352). -/
def State.pointer (s : State) (die : Option Nat) (ctx va lvl : Nat) : Option Nat :=
  match die with
  | none => none
  | some d =>
    match s.walks.find? fun w => w.die == d && w.ctx == ctx && w.lvl == lvl && w.tag == va / 2 ^ (12 + 9 * lvl) with
    | some w => if Config.useCached (8 * s.ctr + 4 + lvl) then some w.next else none
    | none => none

/-- The walk of the tables of a context for an address, by the walker of a die or without one. -/
def State.walk (s : State) (die : Option Nat) (ctx va : Nat) : Except Nat (List Nat × Xlat) :=
  let c := s.ctx ctx
  if c.valid then walkFrom s.mem (fun a => !s.reachable a || s.lineBad (a / 128)) (s.pointer die ctx va) va 3 c.root else .error 1

/-- The translation that some caches hold of an address, where one of them uses it (R354). -/
def State.useCached (s : State) (holders : List Nat) (ctx va : Nat) : Option Xlat :=
  holders.findSome? fun h =>
    match s.cached h ctx va with
    | some e => if Config.useCached (8 * s.ctr + h / 512) then some (e.xlat va) else none
    | none => none

/-- The translation of an address through some caches and a walker: a cached entry until it is invalidated, or the
entry as it stands in memory, freely (R354; DESIGN CHOICE, log 19). The error is INFO of XLT, 1 no translation, 2 no
permission (R347), or 3 for an abort completion. -/
def State.translateBy (s : State) (holders : List Nat) (die : Option Nat) (ctx va : Nat) (need : Need) : Except Nat Xlat :=
  let c := s.ctx ctx
  let got : Except Nat Xlat :=
    match (if c.valid then s.useCached holders ctx va else none) with
    | some x => .ok x
    | none => (s.walk die ctx va).map Prod.snd
  match got with
  | .error e => .error e
  | .ok x => if s.permits c.tenant need x then .ok x else .error 2

/-- The translation of an address for the core in focus. -/
def State.translate (s : State) (ctx va : Nat) (need : Need) : Except Nat Xlat :=
  s.translateBy s.coreCaches (some s.b.die) ctx va need

/-- The translation of an address without a cache, for the dispatcher and the checker. -/
def State.translateRaw (s : State) (ctx va : Nat) (need : Need) : Except Nat Xlat := s.translateBy [] none ctx va need

/-- Entries of a cache: 256 in a core's, 16,384 in a die's, 1,024 in that of the apertures (R350, R352). -/
def cacheSize (holder : Nat) : Nat := if holder < 512 then 256 else if holder < 600 then 16384 else 1024

/-- A list of some things with a new one, and where those of its kind are as many as may be, without one of them, freely
chosen (DESIGN CHOICE, log 19). -/
def entered {α : Type} [DecidableEq α] (ctr size : Nat) (mine : α → Bool) (x : α) (l : List α) : List α :=
  let ms := l.filter mine
  if ms.length < size then x :: l
  else match ms[Config.cacheVictim ctr % ms.length]? with
    | some v => x :: l.erase v
    | none => x :: l

/-- A successful translation enters some caches (R352, R353). -/
def State.cacheBy (s : State) (holders : List Nat) (ctx va : Nat) (x : Xlat) : State :=
  holders.foldl (fun s h =>
    match s.cached h ctx va with
    | some _ => s
    | none =>
      let e : TlbEntry := { holder := h, ctx := ctx, va := va - x.off, size := x.size, w0 := x.w0, w1 := x.w1, leaf := x.leaf }
      { s with tlb := entered s.ctr (cacheSize h) (fun y => y.holder == h) e s.tlb }) s

/-- The pointer entries of a walk enter the walker's cache of 1,024 (R352): `tables` are the tables it went through, from
the root. -/
def State.cachePointers (s : State) (die ctx va : Nat) : Nat → List Nat → State
  | lvl + 1, _ :: next :: t =>
    let w : WalkEntry := { die := die, ctx := ctx, lvl := lvl + 1, tag := va / 2 ^ (12 + 9 * (lvl + 1)), next := next }
    let s := if s.walks.any fun y => { y with next := next } == w then s
      else { s with walks := entered s.ctr 1024 (fun y => y.die == die) w s.walks }
    State.cachePointers s die ctx va lvl (next :: t)
  | _, _ => s

/-- A successful translation for the core in focus enters the caches, and its pointer entries that of the die's
walker (R352, R353). -/
def State.cache (s : State) (ctx va : Nat) (x : Xlat) : State :=
  let s := match s.walk (some s.b.die) ctx va with
    | .ok (tables, _) => s.cachePointers s.b.die ctx va 3 tables
    | .error _ => s
  s.cacheBy s.coreCaches ctx va x

/-- The place of the entry at which the walk for an address meets an uncorrectable error, if it meets one. -/
def walkBad (m : List Host.Cell) (bad : Nat → Bool) (va : Nat) : Nat → Nat → Option Nat
  | lvl, table =>
    let at_ := entryAt va lvl table
    if bad at_ then some at_
    else match lvl with
      | 0 => none
      | n + 1 => walkBad m bad va n (entryPa (BitVec.ofNat 64 (memNat m at_ 8)))

/-- Every cached copy of an entry dropped, as before any change of its word 1 (R349). -/
def State.uncache (s : State) (leaf : Nat) : State := { s with tlb := s.tlb.filter fun e => e.leaf != leaf }

/-- The n bytes at a translated place, under its page's key (R256, R349). -/
def State.seen (s : State) (x : Xlat) (n : Nat) : List Byte := s.seenAt x.key x.phys n

/-! ## Versioned pages (R182, R348) -/

/-- The leaf entries of a page: sixteen for a 64 KiB page, else one (R348). -/
def leafEntries (x : Xlat) : List Nat := if x.size = 65536 then (upto 16).map fun i => x.leaf + 16 * i else [x.leaf]

/-- Word 1 of a page's leaf rewritten in every entry that describes it. -/
def State.setWord1 (s : State) (entries : List Nat) (w : DWord) : State :=
  { s with mem := entries.foldl (fun m a => memWriteNat m (a + 8) 8 w.toNat) s.mem }

/-- Copied data carries its errors with it: a line whose source is lost or uncorrectable is marked, a line copied whole
from good data is not (R32, R181). -/
def State.copyMarks (s : State) (src dst n : Nat) : State :=
  let in_ (a l : Nat) : Bool := decide (a ≤ 128 * l) && decide (128 * l < a + n)
  let shift (l : Nat) : Nat := l - src / 128 + dst / 128
  let lost := (s.fab.lost.filter (in_ src)).map shift
  let ue := (s.ue.filter fun w => in_ src (w / 32)).map fun w => 32 * shift (w / 32) + w % 32
  { s with
    ue := s.ue.filter (fun w => !in_ dst (w / 32)) ++ ue
    fab := { s.fab with lost := s.fab.lost.filter (fun l => !in_ dst l) ++ lost } }

/-- The pending frame of a versioned page made by its first write: a copy of the released frame (R348).
A page that is not versioned, or has its pending frame, is as it was. -/
def State.makePending (s : State) (x : Xlat) : State :=
  if x.ver && !x.pend then
    let s := s.uncache x.leaf
    let s := { s with
      mem := memCopy (memZero s.mem x.stage x.size) x.frame x.stage x.size
      seals := s.sealsCopied (s.keyGen x.key) x.frame x.stage x.size }
    (s.copyMarks x.frame x.stage x.size).setWord1 (leafEntries x) (x.w1 ||| 1)
  else s

/-- Where a write by an operator goes (R349). -/
def Xlat.writePhys (x : Xlat) : Nat := (if x.ver then x.stage else x.frame) + x.off

/-- The record of a versioned page, by its leaf. -/
def Checker.page (k : Checker) (leaf : Nat) : Page := (k.pages.find? fun p => p.leaf == leaf).getD { leaf := leaf }

def Checker.putPage (k : Checker) (p : Page) : Checker := { k with pages := p :: k.pages.filter fun q => q.leaf != p.leaf }

/-- The lineage entry of a task that is an operator (R377). -/
def State.operOf (s : State) (task : Nat) : Option Oper := s.ck.opers.find? fun o => o.task == task

def State.modOper (s : State) (id : Nat) (f : Oper → Oper) : State :=
  { s with ck := { s.ck with opers := s.ck.opers.map fun o => if o.id = id then f o else o } }

/-- A write to a versioned page recorded in the lineage table (R182). -/
def State.noteWrite (s : State) (task : Nat) (x : Xlat) : State :=
  if !x.ver then s
  else
    let p := s.ck.page x.leaf
    match s.operOf task with
    | some o => { s with ck := s.ck.putPage { p with writers := insertNat p.writers o.id, size := x.size } }
    | none => { s with ck := s.ck.putPage { p with plain := insertNat p.plain task, size := x.size } }

/-- A read of a versioned page recorded (R397); of pending data: the reader depends on each writer recorded so far (R182,
R392). -/
def State.noteRead (s : State) (task : Nat) (x : Xlat) : State :=
  if !x.ver then s
  else
    let p := s.ck.page x.leaf
    match s.operOf task with
    | none => s
    | some o =>
      let deps := p.writers.filter (· != o.id)
      let s := { s with ck := s.ck.putPage { p with readers := insertNat p.readers o.id } }
      if !x.pend then s
      else s.modOper o.id fun o => { o with deps := deps.foldl insertNat o.deps, plainDeps := p.plain.foldl insertNat o.plainDeps }

/-! ## Capabilities and ranges -/

/-- Capability n of a task; one at or beyond the table is held invalid (R344). -/
def Task.cap (t : Task) (n : Nat) : Cap := nth {} t.caps n

/-- A permission bit of a capability (R342). -/
def Cap.may (c : Cap) (bit : Nat) : Bool := c.perm.testBit bit

/-- Whether a byte of D space is granted to a task on a die, with READ (bit 2) or WRITE (bit 3) (R343). -/
def State.dByteOk (s : State) (t : Task) (die perm off : Nat) : Bool :=
  s.grants.any fun gr =>
    gr.die == die && gr.ctx == t.ctx && decide (gr.base ≤ off) && decide (off < gr.base + gr.len)
      && t.caps.any fun c => c.kind == 4 && c.f8 == gr.num && c.f10.testBit die && c.may perm

/-- Whether n bytes of D space are in range for a task on a die (R172, R343). -/
def State.dOk (s : State) (t : Task) (die perm off n : Nat) : Bool :=
  decide (off + n ≤ 33554432) && (upto n).all fun i => s.dByteOk t die perm (off + i)

/-- The home group number of a block's task gangs (GANG.GROUPS.SLOT0). -/
def State.homeGroup (s : State) (b : Block) : Nat :=
  nth 0 (nth {} (s.task b.task).members (b.num * b.home)).grp 0

/-- The block whose export window a gang of a task sees on a core (R171). -/
def State.exporter (s : State) (b : Block) (core : Nat) : Option Block :=
  let fits := s.allBlocks.filter fun x =>
    x.task == b.task && x.die == b.die && x.core == core && decide (131072 ≤ x.sbytes)
      && (match b.replay with
          | none => x.replay == none
          | some _ => x.uid == b.uid)
  fits.foldl (fun best x =>
    match best with
    | none => some x
    | some y => if s.homeGroup x < s.homeGroup y then some x else some y) none

/-- The flat address of a byte of C space for a block: a byte of a cluster member's export window (R171). -/
def State.exportByte (s : State) (b : Block) (off : Nat) : Option Nat :=
  let core := 8 * (b.core / 8) + off / 4096 % 8
  let x := off / 32768 * 4096 + off % 4096
  if off < 1048576 && decide (core < 112) && !(s.coreAt b.die core).retired then
    (s.exporter b core).map fun e => atS e.uid (e.sbytes - 131072 + x)
  else none

/-- The flat address of n bytes at an offset of a scratchpad space, if they are in range for the gang and
block given (R167, R171, R172). The permission is bit 2 or 3 of R342. -/
def State.spadAt (s : State) (g : Gang) (b : Block) (sp : Space) (perm lane off n : Nat) : Option Nat :=
  match sp with
  | .l => if off + n ≤ 16 * b.lmem then some (atL g.uid lane off) else none
  | .s => if off + n ≤ b.sbytes then some (atS b.uid off) else none
  | .c => if (upto n).all fun i => (s.exportByte b (off + i)).isSome then s.exportByte b off else none
  | .d => if s.dOk (s.task b.task) b.die perm off n then some (atD b.die off) else none
  | .g => none

end Sys2Proof.Machine
end

