-- ==== Sys2Proof/Machine/Issue.lean ====
section
/-! DEFINITION. Machine/Issue.lean: fetching a packet (R36, R37), its checks before any word issues
(R40 to R42, R58, R59), comparators (R324), and the beginning and the end of a chain. -/

namespace Sys2Proof.Machine

open Sys2Proof

/-! ## What the checks know of a word -/

/-- The pipes of R19 and R50; the two floating-point pipes count as one with two places. -/
inductive Pipe where
  | none | int | fp | xf | mem | ctl | eng
  deriving DecidableEq, Repr

/-- The pipe of a major (R50). -/
def pipeOf (major : Nat) : Pipe :=
  if major ≤ 1 then .none
  else if major = 0x1D ∨ major = 0x1E then .xf
  else if major ≤ 0x35 then .int
  else if major ≤ 0x39 then .ctl
  else if major ≤ 0x4C then .fp
  else if major ≤ 0x54 then .xf
  else if major ≤ 0x5D then .fp
  else if major ≤ 0x6F then .ctl
  else if major ≤ 0x7B then .mem
  else .eng

/-- A block of n registers as destinations; register r is number r. -/
def regDests (n r : Nat) : List Nat := (upto n).map (r + ·)

/-- Predicate k as a destination. -/
def predDest (k : Nat) : Nat := 64 + k

/-- A special register as a destination. -/
def sregDest (n : Nat) : Nat := 128 + n

/-- The registers, predicates and special registers a word writes, for the rule that two words of one
chain write no common destination (R40). CHCLOSE does not count as writing CH.CUR, which it may set to 0 (R287), so that a
chain of it and WRS CH.CUR is legal (DESIGN CHOICE, log 29). -/
def dests : Instr → List Nat
  | .mov _ d _ _ | .sel _ d _ _ _ _ | .shfl _ d _ _ _ _ | .bcast _ d _ _ _ | .unif _ d _ _ => [d.toNat]
  | .movi _ d _ | .movhi _ d _ | .laneid _ d _ _ => [d.toNat]
  | .icmp _ d _ _ _ _ | .icmpi _ _ d _ _ | .plog _ d _ _ _ _ | .voteAnyAll _ d _ _ _ => [predDest d.toNat]
  | .p2v _ d _ | .voteBallot _ d _ _ => [d.toNat]
  | .v2p _ _ _ => regDests 7 64
  | .iadd _ d _ _ m _ | .isub _ d _ _ m _ | .imul _ d _ _ m _ => regDests (if m = 1 then 2 else 1) d.toNat
  | .imulhs _ d _ _ m _ | .imulhn _ d _ _ m _ => regDests (if m = 1 then 2 else 1) d.toNat
  | .iaddi _ d _ _ | .imad _ d _ _ _ => [d.toNat]
  | .imadw _ d _ _ _ | .imadwn _ d _ _ _ => regDests 2 (2 * d.toNat)
  | .imin _ d _ _ m _ | .imax _ d _ _ m _ | .idiv _ d _ _ m _ | .irem _ d _ _ m _ =>
    regDests (if m.getLsbD 1 then 2 else 1) d.toNat
  | .iabs _ d _ m _ | .ineg _ d _ m _ => regDests (if m = 1 then 2 else 1) d.toNat
  | .iaccw _ d _ _ _ | .addr _ d _ _ _ _ | .addri _ d _ _ => regDests 2 (2 * d.toNat)
  | .and _ d _ _ m _ | .or _ d _ _ m _ | .xor _ d _ _ m _ | .andn _ d _ _ m _ => regDests (if m = 1 then 2 else 1) d.toNat
  | .not _ d _ m _ => regDests (if m = 1 then 2 else 1) d.toNat
  | .andi _ d _ _ | .ori _ d _ _ | .xori _ d _ _ => [d.toNat]
  | .shl _ d _ _ m _ | .shr _ d _ _ m _ | .sar _ d _ _ m _ => regDests (if m = 1 then 2 else 1) d.toNat
  | .shli _ d _ w _ | .shri _ d _ w _ | .sari _ d _ w _ => regDests (if w = 1 then 2 else 1) d.toNat
  | .bfx _ d _ _ _ | .bfxs _ d _ _ _ | .bfi _ d _ _ _ | .bitop _ d _ _ _ => [d.toNat]
  | .scan _ d _ m _ => regDests (if m = 2 then 2 else 1) d.toNat
  | .ired _ d _ m _ => regDests (if m = 1 then 2 else 1) d.toNat
  | .fadd _ d _ _ m _ | .fsub _ d _ _ m _ | .fmul _ d _ _ m _ => regDests (if m = 1 then 2 else 1) d.toNat
  | .ffma32 _ d _ _ _ | .ffmabf _ d _ _ _ | .ffmah _ d _ _ _ | .fdot2 _ d _ _ _ => [d.toNat]
  | .ffma64 _ d _ _ _ => regDests 2 (2 * d.toNat)
  | .fmin _ d _ _ m _ | .fmax _ d _ _ m _ | .fsgn _ d _ _ m _ | .fscale _ d _ _ m _ => regDests (if m = 1 then 2 else 1) d.toNat
  | .fcmp _ d _ _ _ _ => [predDest d.toNat]
  | .fclass _ d _ _ _ => [d.toNat]
  | .frnd _ d _ _ m _ => regDests (if m = 1 then 2 else 1) d.toNat
  | .fdiv _ d _ _ m _ => regDests (if m = 1 then 2 else 1) d.toNat
  | .fsqrt _ d _ m _ | .fsum _ d _ m _ | .fscan _ d _ m _ => regDests (if m = 1 then 2 else 1) d.toNat
  | .frcp _ d _ _ | .frsq _ d _ _ | .fexp2 _ d _ _ | .flog2 _ d _ _ | .fsin _ d _ _ | .fcos _ d _ _ => [d.toNat]
  | .cvt _ d _ t _ _ _ => regDests (if cvtWide t.toNat then 2 else 1) d.toNat
  | .cvtp _ d _ _ _ _ | .qenc _ d _ _ _ | .qdec _ d _ _ _ | .fmovi _ d _ => [d.toNat]
  | .rds _ d sr => regDests (if sregWide sr.toNat then 2 else 1) d.toNat
  | .rdsMqRecv _ d _ | .rdsGangFpstat _ d => [d.toNat]
  | .wrs _ _ sr => [sregDest sr.toNat]
  | .wrsMqSend _ _ => [sregDest 0x040]
  | .wrsGangFpstat _ _ => [sregDest 0x015]
  | .wrsSliceStatus _ _ => [sregDest 0x000]
  | .wrsMxUe _ _ => [sregDest 0x051]
  | .wrsPerfSel _ _ n => [sregDest (0x150 + n.toNat)]
  | .wrsTrapQ _ _ => [sregDest 0x114]
  | .wrsDbgCtl _ _ => [sregDest 0x138]
  | .injectZFlipMma _ _ | .injectZFlipZst _ _ | .injectZUe _ _ | .injectSlotUe _ _ | .injectFatal _ _ => [sregDest 0x148]
  | .ld _ d _ _ _ _ z | .lda _ d _ _ _ _ z => regDests (2 ^ z.toNat) d.toNat
  | .ldw _ d _ _ _ _ z | .ldt _ d _ _ _ _ z => regDests (2 ^ z.toNat) d.toNat
  | .ldx _ d _ _ _ _ _ => [d.toNat]
  | .atom _ d _ t _ _ f => if f = 15 then [] else regDests (atomRegs t.toNat) d.toNat
  | .chtest _ p _ _ => [predDest p.toNat]
  | .ginfo _ x _ _ => [x.toNat]
  | .chsel _ _ => [sregDest 0x058]
  | .wseed _ x => regDests 4 (4 * x.toNat)
  | .sigrd _ x => regDests 2 (2 * x.toNat)
  | .relreq _ x _ => [x.toNat]
  | _ => []

/-- Registers of an operand that is a pair where a word is wide. -/
def wideRegs (wide : Bool) (r : Nat) : List Nat := regDests (if wide then 2 else 1) r

/-- The registers a word reads as operands, a pair or a quad as its registers (R79). -/
def sources : Instr → List Nat
  | .mov _ _ a _ | .unif _ _ a _ | .icmpi _ _ _ a _ | .v2p _ a _ | .iaddi _ _ a _ | .andi _ _ a _ | .ori _ _ a _ | .xori _ _ a _
  | .bfx _ _ a _ _ | .bfxs _ _ a _ _ | .bitop _ _ a _ _ | .scan _ _ a _ _ | .ired _ _ a _ _ | .frcp _ _ a _ | .frsq _ _ a _
  | .fexp2 _ _ a _ | .flog2 _ _ a _ | .fsin _ _ a _ | .fcos _ _ a _ => [a.toNat]
  | .movhi _ d _ => [d.toNat]
  | .sel _ _ a b _ _ | .shfl _ _ a b _ _ | .bcast _ _ a b _ | .cvtp _ _ a b _ _ | .qenc _ _ a b _ | .qdec _ _ a b _ => [a.toNat, b.toNat]
  | .icmp _ _ a b m _ | .imin _ _ a b m _ | .imax _ _ a b m _ | .idiv _ _ a b m _ | .irem _ _ a b m _ =>
    wideRegs (m.getLsbD 1) a.toNat ++ wideRegs (m.getLsbD 1) b.toNat
  | .iadd _ _ a b m _ | .isub _ _ a b m _ | .imul _ _ a b m _ | .fadd _ _ a b m _ | .fsub _ _ a b m _ | .fmul _ _ a b m _
  | .fmin _ _ a b m _ | .fmax _ _ a b m _ | .fsgn _ _ a b m _ => wideRegs (m == 1) a.toNat ++ wideRegs (m == 1) b.toNat
  | .imulhs _ _ a b m _ | .imulhn _ _ a b m _ | .and _ _ a b m _ | .or _ _ a b m _ | .xor _ _ a b m _ | .andn _ _ a b m _
  | .fcmp _ _ a b m _ | .fdiv _ _ a b m _ => wideRegs (m == 1) a.toNat ++ wideRegs (m == 1) b.toNat
  | .imad _ _ a b e | .ffma32 _ _ a b e | .ffmabf _ _ a b e | .ffmah _ _ a b e | .fdot2 _ _ a b e => [a.toNat, b.toNat, e.toNat]
  | .imadw _ _ a b e | .imadwn _ _ a b e => [a.toNat, b.toNat] ++ regDests 2 (2 * e.toNat)
  | .ffma64 _ _ a b e => regDests 2 (2 * a.toNat) ++ regDests 2 (2 * b.toNat) ++ regDests 2 (2 * e.toNat)
  | .iabs _ _ a m _ | .ineg _ _ a m _ | .fclass _ _ a m _ | .frnd _ _ a _ m _ => wideRegs (m == 1) a.toNat
  | .not _ _ a m _ | .fsqrt _ _ a m _ | .fsum _ _ a m _ | .fscan _ _ a m _ => wideRegs (m == 1) a.toNat
  | .shli _ _ a w _ | .shri _ _ a w _ | .sari _ _ a w _ => wideRegs (w == 1) a.toNat
  | .iaccw _ d a _ _ => regDests 2 (2 * d.toNat) ++ [a.toNat]
  | .addr _ _ a b _ _ => regDests 2 (2 * a.toNat) ++ [b.toNat]
  | .addri _ _ a _ => regDests 2 (2 * a.toNat)
  | .shl _ _ a b m _ | .shr _ _ a b m _ | .sar _ _ a b m _ | .fscale _ _ a b m _ => wideRegs (m == 1) a.toNat ++ [b.toNat]
  | .bfi _ d a _ _ => [d.toNat, a.toNat]
  | .cvt _ _ a _ s _ _ => wideRegs (cvtWide s.toNat) a.toNat
  | .jmp a _ | .calli a _ => regDests 2 (2 * a.toNat)
  | .wrs _ d n => wideRegs (sregWide n.toNat) d.toNat
  | .wrsMqSend _ d | .wrsGangFpstat _ d | .wrsSliceStatus _ d | .wrsMxUe _ d | .wrsPerfSel _ d _ | .wrsTrapQ _ d | .wrsDbgCtl _ d
  | .injectZFlipMma _ d | .injectZFlipZst _ d | .injectZUe _ d | .injectSlotUe _ d | .injectFatal _ d => [d.toNat]
  | .ld _ _ a _ _ _ _ | .lda _ _ a _ _ _ _ | .ldx _ _ a _ _ _ _ | .ldw _ _ a _ _ _ _ | .ldt _ _ a _ _ _ _ => [a.toNat]
  | .st _ d a _ _ _ z | .strel _ d a _ _ _ z => regDests (2 ^ z.toNat) d.toNat ++ [a.toNat]
  | .stf _ d a _ _ _ z => regDests (2 ^ z.toNat) d.toNat ++ [a.toNat]
  | .stx _ d a _ _ _ _ => [d.toNat, a.toNat]
  | .gst _ d a _ _ z => regDests (2 ^ z.toNat) d.toNat ++ regDests 2 (2 * a.toNat)
  | .atom _ d a t o p _ =>
    regDests (atomRegs t.toNat * (if o = 10 then 2 else 1)) d.toNat ++ wideRegs (p == 1) a.toNat
  | .tld _ _ y z | .tldt _ _ y z | .zld _ _ y z | .zst _ _ _ y z | .tst _ _ y z | .chtest _ _ y z | .feset _ y z _ _ => [y.toNat, z.toNat]
  | .tldm _ _ y | .mgemm _ y | .cpart _ y | .cpmx _ y | .gather _ y | .scatter _ y | .cred _ y | .chreset _ y | .launch _ _ y
  | .relreq _ _ y => [y.toNat]
  | .bind _ _ _ y z | .wemit _ _ y z => y.toNat :: regDests 2 (2 * z.toNat)
  | .tlbinvPage _ y => regDests 2 (2 * y.toNat)
  | .tlbinvRange _ y z | .cwb _ _ _ y z => regDests 2 (2 * y.toNat) ++ [z.toNat]
  | _ => []

/-- The flag and the lookahead of a long-latency word that names a flag (R55, R56). -/
def window : Instr → Option (Nat × Nat)
  | .ld _ _ _ f l _ _ | .lda _ _ _ f l _ _ | .ldx _ _ _ f l _ _ | .st _ _ _ f l _ _ | .strel _ _ _ f l _ _ =>
    if f = 15 then none else some (f.toNat, l.toNat)
  | .ldw _ _ _ f l _ _ | .ldt _ _ _ f l _ _ | .stf _ _ _ f l _ _ | .stx _ _ _ f l _ _ =>
    if f = 15 then none else some (f.toNat, l.toNat)
  | .gst _ _ _ f l _ => if f = 15 then none else some (f.toNat, l.toNat)
  | .atom _ _ _ _ _ _ f => if f = 15 then none else some (f.toNat, 15)
  | _ => none

/-- The words that raise PRV when unprivileged code issues them (R33, R142). -/
def needsPriv : Instr → Bool
  | .rte | .tlbinvPage _ _ | .tlbinvRange _ _ _ | .tlbinvCtx _ | .tlbinvAll _ | .cwb _ _ _ _ _ | .evict _ => true
  | .rds _ _ sr | .wrs _ _ sr => decide (0x100 ≤ sr.toNat)
  | .wrsSliceStatus _ _ | .wrsPerfSel _ _ _ | .wrsTrapQ _ _ | .wrsDbgCtl _ _ => true
  | .injectZFlipMma _ _ | .injectZFlipZst _ _ | .injectZUe _ _ | .injectSlotUe _ _ | .injectFatal _ _ => true
  | _ => false

/-! ## The checks of R59 -/

/-- A word of a packet as fetched. -/
structure Fetched where
  word : Word
  dec  : Except Reject Instr
  deriving Repr

def fetched (w : Word) : Fetched := { word := w, dec := decodeWord w }

/-- The major of a word (R36). -/
def majorOf (w : Word) : Nat := w.toNat / 16777216 % 128

/-- Whether a word shares a pipe with the earlier words of its chain (R41). -/
def pipeClash (earlier : List Fetched) (f : Fetched) : Bool :=
  let p := pipeOf (majorOf f.word)
  let n := (earlier.filter fun e => pipeOf (majorOf e.word) == p).length
  match p with
  | .none => false
  | .fp => decide (2 ≤ n)
  | _ => decide (1 ≤ n)

/-- The destinations of a fetched word. -/
def Fetched.dests (f : Fetched) : List Nat :=
  match f.dec with
  | .ok i => Machine.dests i
  | .error _ => []

/-- The registers a fetched word reads. -/
def Fetched.sources (f : Fetched) : List Nat :=
  match f.dec with
  | .ok i => Machine.sources i
  | .error _ => []

/-- The vector registers that a fetched word writes, if it is a fixed-latency word as asked (R57). -/
def Fetched.results (fixed : Bool) (f : Fetched) : List Nat :=
  let major := majorOf f.word
  if (decide (major ≤ 0x5D) || major == 0x69) == fixed then f.dests.filter (decide <| · < 64) else []

/-- Whether a word writes what an earlier word of its chain writes (R40). -/
def destClash (earlier : List Fetched) (f : Fetched) : Bool :=
  f.dests.any fun d => earlier.any fun e => e.dests.contains d

/-- The number of words that follow in the chain a word stands in. -/
def wordsAfter : Fetched → List Fetched → Nat
  | f, t =>
    if chained f.word then
      match t with
      | [] => 0
      | x :: t' => 1 + wordsAfter x t'
    else 0

/-- The fault of one word: 1 ILL, 2 PRV, 0 none (R59). `earlier` are the words before it in its chain,
`rest` the words after it in the packet. -/
def wordFault (priv : Bool) (earlier rest : List Fetched) (f : Fetched) : Nat :=
  match f.dec with
  | .error _ => 1
  | .ok i =>
    let short : Bool :=
      match window i with
      | none => false
      | some (_, look) => decide (look < wordsAfter f rest)
    if pipeClash earlier f || destClash earlier f || short || (rest.isEmpty && chained f.word) then 1
    else if needsPriv i && !priv then 2
    else 0

/-- The first faulting word from word j on: its index and its CODE (R59). -/
def packetFault (priv : Bool) : Nat → List Fetched → List Fetched → Option (Nat × Nat)
  | _, _, [] => none
  | j, earlier, f :: t =>
    let c := wordFault priv earlier t f
    if c ≠ 0 then some (j, c)
    else packetFault priv (j + 1) (if chained f.word then earlier ++ [f] else []) t

/-- The words of the chain that begins a list of words (R40). -/
def chainOf : List Fetched → List Fetched
  | [] => []
  | f :: t => if chained f.word then f :: chainOf t else [f]

/-! ## Fetching -/

/-- The physical address of a byte of code, or the INFO of its fetch fault (R345, R347). -/
def State.codeAt (s : State) (ctx va : Nat) : Except Nat Xlat := s.translate ctx va .fetch

/-- The physical places of the twelve bytes of a packet: those on its first page and those on the next
(R37). -/
def packetPlaces (x y : Xlat) : List Nat :=
  (upto 12).map fun k => if x.off + k < x.size then x.phys + k else y.phys + k - 11

/-- The twelve bytes of a packet, each under the key of its page (R347). -/
def State.packetBytes (s : State) (x y : Xlat) : List Byte :=
  (upto 12).map fun k => if x.off + k < x.size then s.seenGet x.key (x.phys + k) else s.seenGet y.key (y.phys + k - 11)

/-- A packet fetched: its three words, or the INFO of the fault, 3 for an abort completion (R37, R3, R32). Both pages
of a packet that straddles two are translated, and their translations enter the caches (R352). -/
def State.fetch (s : State) (va : Nat) : Except Nat (State × List Fetched) :=
  let ctx := (s.task s.g.task).ctx
  match s.codeAt ctx va with
  | .error e => .error e
  | .ok x =>
    match (if x.off + 12 ≤ x.size then .ok x else s.codeAt ctx (va + 11)) with
    | .error e => .error e
    | .ok y =>
      if (packetPlaces x y).any fun p => !s.reachable p || s.lineBad (p / 128) then .error 3 else
      let bytes := s.packetBytes x y
      let word (j : Nat) : Word := BitVec.ofNat 32 (leNat ((bytes.drop (4 * j)).take 4))
      let s := s.cache ctx va x
      let s := if x.off + 12 ≤ x.size then s else s.cache ctx (va + 11) y
      .ok (s, [fetched (word 0), fetched (word 1), fetched (word 2)])

/-- CODE and INFO of the stop for an access whose translation fails with an INFO of XLT, or meets an abort completion
(3): ABRT with its own INFO (R314; DEDUCED, log 36). -/
def xlatStop (info e : Nat) : Nat × Nat := if e = 3 then (7, info) else (6, e)

/-- The places at which a packet's fetch meets a lost or uncorrectable line, of code or of the tables (R32). -/
def State.fetchErrors (s : State) (va : Nat) : List Nat :=
  let ctx := (s.task s.g.task).ctx
  let bad (a : Nat) : Bool := s.reachable a && s.lineBad (a / 128)
  let one (k : Nat) : List Nat :=
    match s.codeAt ctx (va + k) with
    | .ok x => if bad x.phys then [x.phys / 128 * 128] else []
    | .error _ => if (s.ctx ctx).valid then (walkBad s.mem bad (va + k) 3 (s.ctx ctx).root).toList else []
  (one 0 ++ one 11).eraseDups

/-! ## Comparators (R324) -/

/-- Whether comparator n matches a word of the focused gang at a word address (R324). -/
def State.comparator (s : State) (pc : DWord) (n : Nat) : Bool :=
  let c := Store.get 0 s.c.dbgPc n
  let m := nth {} (s.task s.g.task).members s.g.id
  s.c.dbgCtl.getLsbD n && c.extractLsb' 0 48 == pc.extractLsb' 0 48
    && c.getLsbD (48 + s.b.prio)
    && (!s.c.dbgCtl.getLsbD (8 + n)
        || (upto 4).any fun k => m.valid.testBit k && nth 0 m.grp k == (c.extractLsb' 56 8).toNat)

/-- The lowest matching comparator and the word it matches, among the words of a chain. -/
def State.debugMatch (s : State) (pcs : List DWord) : Option (Nat × DWord) :=
  if s.priv || s.group.all s.g.exempt.getLsbD then none
  else
    (upto 8).foldl (fun found n =>
      match found with
      | some r => some r
      | none => (pcs.find? fun pc => s.comparator pc n).map fun pc => (n, pc)) none

/-! ## The beginning and the end of a chain -/

/-- The gang as a chain reads it: a uniform destination that a long-latency word has written while its flag is
pending is read, in each lane independently, as it was or as it is (R58; DESIGN CHOICE, log 7). -/
def Gang.mixed (g : Gang) (ctr : Nat) : Gang :=
  let lanes := laneMask ((upto 32).filter fun L => !Config.windowNew ctr L)
  (g.flights.filter Flight.half).foldl (fun g f => (upto f.op.regs).foldl (fun g j => g.readOld (f.op.reg + j) lanes) g) g

/-- The group chosen for issue taken up: its gang, block and core in focus, its state before the chain
kept (R40), its first word at hand. -/
def State.begin (s : State) (gang : Nat) (pc : DWord) (chain : List Fetched) : State :=
  let s := s.focus gang
  let len := max 1 chain.length
  { s with
    snap := some (s.g.mixed s.ctr)
    iss := { wpc := pc, last := pc + BitVec.ofNat 64 (len - 1), len := len, word := (chain.head?.map Fetched.word).getD 0
             reads := chain.flatMap Fetched.sources, writes := chain.flatMap (Fetched.results true)
             drops := chain.flatMap (Fetched.results false) } }

/-- The program counter of the group chosen for issue: that of its slices, which stand together (R24). -/
def State.groupPc (s : State) : DWord := (s.g.slice (s.group.headD 0)).pc

/-- Word j of the chain at hand. -/
def State.atWord (s : State) (j : Nat) : State :=
  { s with iss := { s.iss with wpc := s.iss.last - BitVec.ofNat 64 (s.iss.len - 1) + BitVec.ofNat 64 j, idx := j } }

/-- Whether a window admits no more words of the next chain, so that the chain waits for its flag (R58). -/
def State.windowShut (s : State) (len : Nat) : Bool :=
  s.group.any fun i => (s.src.slice i).flags.any fun f => decide (f.win < len)

/-- No chain is at hand. -/
def State.idleIssue (s : State) : State := { s with sel := none, snap := none, iss := {} }

end Sys2Proof.Machine
end

