-- ==== Sys2Proof/Machine/Link.lean ====
section
/-! DEFINITION. Machine/Link.lean: link flits and their way over the links of the package (R361 to R364, R366), and the
tokens of a line as they are held and carried (R368). -/

namespace Sys2Proof.Machine

open Sys2Proof

/-! ## Flits (R361) -/

/-- One bit step of CRC-32C in its usual reflected form (R361; PRESUMED, log 20). -/
def crc32Step (c : Word) : Word := if c.getLsbD 0 then (c >>> 1) ^^^ 0x82F63B78#32 else c >>> 1

/-- CRC-32C of some bytes (R361). -/
def crc32c (l : List Byte) : Word :=
  ~~~(l.foldl (fun c b => (upto 8).foldl (fun c _ => crc32Step c) (c ^^^ b.setWidth 32)) 0xFFFFFFFF#32)

/-- The header fields of a link flit that a sender fills (R361). -/
structure LinkHead where
  ver : Nat := 1
  cls : Nat
  srcn : Nat
  dstn : Nat
  srcp : Nat := 0
  dstp : Nat := 0
  tenant : Nat := 0
  tok : Nat := 0
  lf : Nat := 0
  tag : Nat := 0
  addr : Nat := 0
  deriving DecidableEq, Repr

/-- The 160 bytes of a link flit (R361). -/
def linkFlit (h : LinkHead) (payload : List Byte) : List Byte :=
  let pay := (payload ++ leBytes 128 0).take 128
  let head := leBytes 1 h.ver ++ leBytes 1 h.cls ++ leBytes 1 h.srcn ++ leBytes 1 h.dstn ++ leBytes 2 h.srcp ++ leBytes 2 h.dstp
    ++ leBytes 2 h.tenant ++ leBytes 1 h.tok ++ leBytes 1 h.lf ++ leBytes 4 h.tag ++ leBytes 8 h.addr ++ leBytes 4 (crc32c pay).toNat
  head ++ leBytes 4 (crc32c head).toNat ++ pay

/-- Whether both checks of a received flit hold, and its version is the link's (R362). -/
def flitGood (version : Nat) (raw : List Byte) : Bool :=
  raw.length == 160 && fieldAt raw 0 1 == version
    && fieldAt raw 24 4 == (crc32c (raw.drop 32)).toNat && fieldAt raw 28 4 == (crc32c (raw.take 28)).toNat

/-- A flit with a byte of its header changed, and the header's check made again (R361). -/
def reHead (raw : List Byte) (i : Nat) (f : Byte → Byte) : List Byte :=
  let head := modAt f (raw.take 28) i
  head ++ leBytes 4 (crc32c head).toNat ++ raw.drop 32

/-- The flit with LF.DOWN set, and cleared (R364). -/
def setDown (raw : List Byte) : List Byte := reHead raw 11 (· ||| 4)
def clearDown (raw : List Byte) : List Byte := if (fieldAt raw 11 1).testBit 2 then reHead raw 11 (· &&& 0xFB) else raw

/-- The flit with a count of package hops in LF (R361). -/
def setHops (raw : List Byte) (hops : Nat) : List Byte := reHead raw 11 fun b => (b &&& 15) ||| BitVec.ofNat 8 (16 * hops)

/-! ## Tokens (R368) -/

/-- The line of a physical address (R368). -/
def lineOf (p : Nat) : Nat := p / 128

/-- The home as a holder of tokens (R368). -/
def homeHolder : Nat := 4

def State.line (s : State) (n : Nat) : Line := Store.get {} s.fab.lines n

def State.putLine (s : State) (n : Nat) (l : Line) : State := { s with fab := { s.fab with lines := Store.put s.fab.lines n l } }

/-- What a holder holds of a line. -/
def Line.of (l : Line) (h : Nat) : Holding := Store.get {} l.hold h

def Line.set (l : Line) (h : Nat) (x : Holding) : Line := { l with hold := Store.put l.hold h x }

/-- The node at which the tokens of a line are at home (R18, R368). -/
def homeNode (n : Nat) : Nat := 4 + homeDie (128 * n)

/-- The node of a holder of a line. -/
def holderNode (h n : Nat) : Nat := if h = homeHolder then homeNode n else h

/-- Tokens as a flit carries them (R361): how many, and whether the owner token, dirty data and data go with
them. -/
structure Carried where
  tokens : Nat
  owner : Bool
  dirty : Bool
  data : Bool
  deriving DecidableEq, Repr

/-- A holder with some tokens that have arrived (R368). -/
def Holding.more (x : Holding) (c : Carried) : Holding :=
  { tokens := x.tokens + c.tokens, owner := x.owner || c.owner, dirty := x.dirty || c.dirty, valid := x.valid || c.data }

/-! ## Links (R361, R362) -/

/-- An arriving message: a step that takes place once for each time it has been sent. -/
def State.arrives (s : State) (i : Instr) : State := { s with agenda := s.agenda ++ [i] }

/-- The far end of a link, seen from a side. -/
def Link.far (l : Link) (side : Nat) : Nat := if side = 0 then l.nodeB else l.nodeA
def Link.near (l : Link) (side : Nat) : Nat := if side = 0 then l.nodeA else l.nodeB
def Link.nearPort (l : Link) (side : Nat) : Nat := if side = 0 then l.portA else l.portB

/-- The replay buffer of a side's sender, its next sequence number, and the one its receiver takes next. -/
def Link.buf (l : Link) (side : Nat) : List LinkFlit := if side = 0 then l.buf0 else l.buf1
def Link.setBuf (l : Link) (side : Nat) (b : List LinkFlit) : Link := if side = 0 then { l with buf0 := b } else { l with buf1 := b }
def Link.nextSeq (l : Link) (side : Nat) : Nat := if side = 0 then l.next0 else l.next1
def Link.rx (l : Link) (side : Nat) : Nat := if side = 0 then l.rx0 else l.rx1

/-- The flits of a side that its far end has not taken. -/
def Link.waiting (l : Link) (side : Nat) : List LinkFlit := (l.buf side).filter fun x => decide (l.rx side ≤ x.seqno)

/-- The link at a port of a node: its place in the list and the side the node is on. -/
def Fabric.linkAt (f : Fabric) (node port : Nat) : Option (Nat × Nat) :=
  f.links.zipIdx.findSome? fun (x : Link × Nat) =>
    if x.1.nodeA = node ∧ x.1.portA = port then some (x.2, 0)
    else if x.1.nodeB = node ∧ x.1.portB = port then some (x.2, 1)
    else none

def State.modLink (s : State) (i : Nat) (f : Link → Link) : State := { s with fab := { s.fab with links := modAt f s.fab.links i } }

/-- The step at which the far end receives a flit of a link. -/
def LinkFlit.event (x : LinkFlit) (i side : Nat) : Instr := .linkFlitReceive i side x.seqno x.raw

/-- A flit with the protocol version of the link it goes over (R365). -/
def Link.stamp (l : Link) (raw : List Byte) : List Byte :=
  if fieldAt raw 0 1 = l.version then raw else reHead raw 0 fun _ => BitVec.ofNat 8 l.version

/-- A flit kept in a link's replay buffer until it is acknowledged; 64 of them are on their way (R362). -/
def State.enqueue (s : State) (i side dstn : Nat) (raw : List Byte) (deliver : Instr) : State :=
  match s.fab.links[i]? with
  | none => s
  | some l =>
    let x : LinkFlit := { seqno := l.nextSeq side, dstn := dstn, raw := l.stamp raw, deliver := deliver }
    let put (l : Link) : Link :=
      let l := l.setBuf side (l.buf side ++ [x])
      if side = 0 then { l with next0 := l.next0 + 1 } else { l with next1 := l.next1 + 1 }
    let s := s.modLink i put
    if l.state == .live && decide ((l.buf side).length < 64) then s.later (x.event i side) else s

/-! ## Hops (R363, R364) -/

def Fabric.node (f : Fabric) (n : Nat) : Node := Store.get {} f.nodes n

/-- The order of nodes for up and down hops (R363). -/
def Fabric.key (f : Fabric) (n : Nat) : Nat := 16 * (f.node n).level + n

/-- The destination of a flit for another package: LD, by the entry of its own (R364). -/
def awayNode : Nat := 14

/-- The entry of a route table that a flit takes: that of its destination and its DOWN bit; the entry toward LD for other
packages has one phase, and after a down hop the flit takes LD's own (R364; DESIGN CHOICE, log 31). -/
def routeEntry (dstn : Nat) (down : Bool) : Nat := if dstn = awayNode ∧ down then 27 else 2 * dstn + down.toNat

/-- A probe no longer outstanding; when none is, the routes are computed (R363). -/
def State.probeDone (s : State) (node port : Nat) : State :=
  let s := { s with fab := { s.fab with probed := s.fab.probed.filter (· != (node, port)) } }
  if s.fab.probed.isEmpty then s.later .routeRecompute else s

/-- What becomes of a flit that cannot go on from a node (R364): its request is not sent, and is completed by R362. The
tokens it carried are missing: they count as those of the failed die that it is at or that it is for, for the recount
(R372), and else stay with its sender. A message is settled as at its destination; a probe is not answered (DESIGN CHOICE,
log 31). -/
def State.unsent (s : State) (node : Nat) (deliver : Instr) : State :=
  match deliver with
  | .tokensArrive h src n tokens owner dirty data =>
    let gone (d : Nat) : Bool := decide (d < 4) && (s.fab.node d).excluded
    let who := if gone node then node else if gone h then h else src
    let l := s.line n
    let l := if h = homeHolder then { l with coming := l.coming - 1 } else l
    s.putLine n (l.set who ((l.of who).more { tokens := tokens, owner := owner, dirty := dirty, data := data }))
  | .flitPlacement _ => s.arrives deliver
  | .probe n p | .probeReply n p => s.probeDone n p
  | _ => s

/-- A flit sent on by a node toward its destination, by the entry for its DOWN bit, which a down hop sets (R364). At its
destination it brings about its step; one that has no route is not sent. Before the tables are published every flit
arrives (R366). -/
def State.hop (s : State) (node dstn : Nat) (raw : List Byte) (deliver : Instr) : State :=
  let down := (fieldAt raw 11 1).testBit 2
  let port := Store.find (s.fab.node node).routes (routeEntry dstn down)
  if node = dstn ∨ (dstn = awayNode ∧ node = 13) then s.arrives deliver
  else match port.bind (s.fab.linkAt node) with
    | none => if s.fab.gen = 0 then s.arrives deliver else s.unsent node deliver
    | some (i, side) =>
      let v := ((s.fab.links[i]?).map fun l => l.far side).getD dstn
      s.enqueue i side dstn (if s.fab.key node < s.fab.key v then setDown raw else raw) deliver

/-- A flit that enters the fabric at a node; while the tables change it waits there (R366). -/
def State.enter (s : State) (src dst : Nat) (raw : List Byte) (deliver : Instr) : State :=
  if s.fab.paused && src != dst then
    { s with fab := { s.fab with held := s.fab.held ++ [{ src := src, dst := dst, raw := raw, deliver := deliver }] } }
  else s.hop src dst raw deliver

/-- A flit sent from one node of the package to another (R361). -/
def State.sendNode (s : State) (h : LinkHead) (payload : List Byte) (deliver : Instr) : State :=
  s.enter h.srcn h.dstn (linkFlit { h with srcp := s.fab.pkg, dstp := s.fab.pkg } payload) deliver

end Sys2Proof.Machine
end

