-- ==== Sys2Proof/Machine/Life.lean ====
section
/-! DEFINITION. Machine/Life.lean: flits and their allowance units (R268 to R271), barriers (R301 to R303,
R340), killed lanes (R180), and the end of slices, gangs and blocks (R25, R29, R162). -/

namespace Sys2Proof.Machine

open Sys2Proof

/-! ## Flits -/

/-- A send's allowance unit returns to its counter (R270). -/
def State.returnUnit (s : State) (f : Flit) : State :=
  match f.sender, f.window with
  | some g, _ => s.modGang g fun g => { g with allow := Store.put g.allow f.cap (Store.get 0 g.allow f.cap + 1) }
  | none, some w =>
    let win := Store.get {} s.windows w
    { s with windows := Store.put s.windows w { win with left := win.left + 1 } }
  | none, none => s

/-- What the end of a flit's way does to an operation of its sender: the flit's own completes, and a CHCLOSE
completes after the last flit it waits for (R198, R287). -/
def KOp.afterFlit (f : Flit) (k : KOp) : KOp :=
  if some k.id = f.kid then { k with done := true }
  else match k.work with
    | .chclose l => { k with work := .chclose (l.filter (· != f.id)), done := k.done || (l.filter (· != f.id)).isEmpty }
    | _ => k

/-- The k4 operation of a flit completes (R198). -/
def State.flitDone (s : State) (f : Flit) : State :=
  match f.sender with
  | some g => s.modGang g fun g => { g with kops := retireOps [] (g.kops.map (KOp.afterFlit f)) }
  | none => s

/-- Occurrences attributed to a gang (R419). -/
def State.countGang (s : State) (gang event n : Nat) : State :=
  match s.findGang gang with
  | none => s
  | some g =>
    match s.findBlock g.block with
    | none => s
    | some b => s.modCore b.die b.core fun c => c.count event n (some (g.sched, b.prio))

/-- A flit leaves those on their way. -/
def State.dropFlit (s : State) (id : Nat) : State := { s with flits := s.flits.filter fun f => f.id != id }

/-- The block a queue endpoint names, where it is resident. -/
def State.destBlock (s : State) (task num : Nat) : Option Block :=
  s.allBlocks.find? fun b => b.task == task && b.num == num && b.replay.isNone

/-- Whether an endpoint is gone for good: its block has retired, its task has ended, it names no block or
queue of the task, or its window is not bound (R271, R343). -/
def State.endpointGone (s : State) : Endpoint → Bool
  | .queue task num q =>
    match s.tasks.find? fun t => t.id == task with
    | none => true
    | some t => decide (t.record.gangs / t.record.home ≤ num) || decide (t.record.rq ≤ q) || t.retired.contains num
  | .window w => !(Store.get {} s.windows w).bound
  | .dispatch _ => false

/-- Places left at an endpoint beyond those reserved; 0 for a block that is not resident (R269, R271, R273). -/
def State.roomAt (s : State) (dst : Endpoint) : Nat :=
  let held (l : List Flit) : Nat := 64 - l.length - (s.flits.filter fun f => f.reserved && f.dst == dst).length
  match dst with
  | .queue task num q =>
    match s.destBlock task num with
    | none => 0
    | some b => held (Store.get [] b.queues q)
  | .window w => held (Store.get {} s.windows w).recv
  | .dispatch _ => 0

/-- A flit of those on their way changed. -/
def State.modFlit (s : State) (id : Nat) (h : Flit → Flit) : State :=
  { s with flits := s.flits.map fun f => if f.id = id then h f else f }

/-- The recorded refusals looked at in the order in which they were recorded: those that there is now room
for have it reserved, and their senders are told to send again (R271). -/
def State.signalAll (s : State) : State :=
  (s.flits.filter fun f => f.refused.isSome && !f.reserved).foldl (fun s f =>
    if s.endpointGone f.dst then s.later (.flitResend f.id)
    else if s.roomAt f.dst = 0 then s
    else (s.modFlit f.id fun f => { f with reserved := true }).later (.flitResend f.id)) s

/-- The node a message comes from: the die of its gang, LD for a host window, and KD for what the device itself sends
(DESIGN CHOICE, log 20). -/
def State.messageFrom (s : State) (f : Flit) : Nat :=
  match f.sender, f.window with
  | some g, _ => ((s.findGang g).bind fun g => (s.findBlock g.block).map Block.die).getD 12
  | none, some _ => 13
  | none, none => 12

/-- The node a message is for: the die on which its block is resident, LD for a host window. One whose block is not
resident is settled where it comes from (R271). -/
def State.messageTo (s : State) (f : Flit) : Nat :=
  match f.dst with
  | .queue task num _ => ((s.destBlock task num).map Block.die).getD (s.messageFrom f)
  | .window _ => 13
  | .dispatch _ => s.messageFrom f

/-- A message on its way over the fabric (R361). -/
def State.carry (s : State) (f : Flit) : State :=
  s.sendNode { cls := 6, srcn := s.messageFrom f, dstn := s.messageTo f, tenant := f.tenant, tag := f.id } f.payload (.flitPlacement f.id)

/-- A flit on its way to its endpoint (R271). -/
def State.sendFlit (s : State) (f : Flit) : State := ({ s with flits := s.flits ++ [f] }).carry f

/-- A flit that the device itself sends to an endpoint (R279). -/
def State.deviceFlit (s : State) (tenant : Nat) (dst : Endpoint) (payload : List Byte) : State :=
  (s.sendFlit { id := s.next, payload := payload, tenant := tenant, task := 0, sender := none, window := none, cap := 0,
                chan := 0, seqno := 0, dst := dst, reply := none, kid := none }).fresh

/-! ## Words outstanding (R190, R311) -/

/-- The words that wait in a gang's trap frame to be replayed. -/
def Gang.entries (g : Gang) : List Flight :=
  match g.frame with
  | some fr => fr.entries
  | none => []

/-- The words of a gang that are outstanding: in flight or waiting to be replayed. -/
def Gang.outstanding (g : Gang) : List Flight := g.flights ++ g.hlist ++ g.entries

/-- Whether a gang has a word outstanding. -/
def Gang.holds (g : Gang) (id : Nat) : Bool := g.outstanding.any fun f => f.id == id

/-- Whether a word is outstanding; posted lanes count for their word. -/
def State.isOut (s : State) (id : Nat) : Bool :=
  s.g.holds id || (s.gangs ++ s.images.flatMap Image.gangs).any (fun g => g.holds id) || s.posted.any fun p => p.word == id

/-- Whether an access of a word is a covered access (R194). -/
def MemOp.covered (o : MemOp) : Bool :=
  match o.kind with
  | .gst => false
  | .atom => o.ret
  | _ => true

/-- Every gang changed, those of evicted blocks among them. -/
def State.mapEvery (s : State) (f : Gang → Gang) : State :=
  let s := s.mapGangs f
  { s with images := s.images.map fun im => { im with gangs := im.gangs.map f } }

/-! ## Groups and barriers -/

/-- The group that a membership slot of a gang names (R147). -/
def State.groupOf (s : State) (g : Gang) (slot : Nat) : Option Nat :=
  let m := nth {} (s.task g.task).members g.id
  if m.valid.testBit slot then some (nth 0 m.grp slot) else none

/-- The barrier of a group of a task. -/
def Task.barrier (t : Task) (num : Nat) : Barrier :=
  (t.barriers.find? fun b => b.num == num).getD { num := num, scope0 := 0, size := 0, expected := 0 }

def State.barrier (s : State) (task num : Nat) : Barrier := (s.task task).barrier num

def State.putBarrier (s : State) (task : Nat) (b : Barrier) : State :=
  s.modTask task fun t => { t with barriers := t.barriers.map fun x => if x.num = b.num then b else x }

/-- The gangs of a task that name a group: their ids. -/
def Task.membersOf (t : Task) (num : Nat) : List Nat :=
  (upto t.members.length).filter fun i =>
    let m := nth {} t.members i
    (upto 4).any fun k => m.valid.testBit k && nth 0 m.grp k == num

/-- The place of a block of a task that has not retired: where it is resident, or was when evicted (R340). -/
def State.placeOf (s : State) (task num : Nat) : Option (Nat × Nat) :=
  match s.allBlocks.find? fun b => b.task == task && b.num == num && b.replay.isNone with
  | some b => some (b.die, b.core)
  | none => (s.images.find? fun im => im.block.task == task && im.block.num == num).map fun im => (im.block.die, im.block.core)

/-- Whether a member gang of a task has retired. -/
def State.memberLeft (s : State) (t : Task) (id : Nat) : Bool :=
  let here (g : Gang) : Bool :=
    match s.findBlock g.block with
    | some b => !b.gone && b.replay.isNone && b.attempt == t.attempt
    | none => false
  t.retired.contains (id / t.record.home)
    || (s.allGangs ++ s.images.flatMap Image.gangs).any fun g => g.task == t.id && g.id == id && g.live == 0 && here g

/-- The placement scope of a group: that of its members that have not retired (R340). -/
def State.placementScope (s : State) (task num : Nat) : Nat :=
  let t := s.task task
  let blocks := (((t.membersOf num).filter fun i => !s.memberLeft t i).map fun i => i / t.record.home).eraseDups
  let places := blocks.filterMap fun b => s.placeOf task b
  match places with
  | [] => 1
  | (d, c) :: rest =>
    if blocks.length ≤ 1 then 1
    else if rest.all fun p => p.1 == d && p.2 / 8 == c / 8 then 2
    else if rest.all fun p => p.1 == d then 3
    else 4

/-- The scope of a group's phase, taken anew between phases (R340). -/
def State.rescope (s : State) (task num : Nat) : State :=
  let b := s.barrier task num
  s.putBarrier task { b with scope := max b.scope0 (s.placementScope task num) }

/-- The scopes of a task's groups taken anew, where no phase is under way (R340). -/
def State.rescopeAll (s : State) (task : Nat) : State :=
  (s.task task).barriers.foldl (fun s b => if b.arrived.isEmpty then s.rescope task b.num else s) s

/-- Every covered access of a gang still outstanding. -/
def Gang.covered (g : Gang) : List Nat := (g.outstanding.filter fun f => f.op.covered).map (·.id)

/-- A phase completes when every gang expected has arrived (R302); what the members issue from then on is
performed, within the group's scope, after what each issued before its BAR (R200). -/
def State.tryPhase (s : State) (task num : Nat) : State :=
  let b := s.barrier task num
  if b.broken || (!b.wide && (b.expected = 0 || b.arrived.length < b.expected)) || (b.wide && b.arrived.isEmpty) then s
  else
    let all := b.owed.filter s.isOut
    let order : FenceRec := { at_ := s.next, waits := all, writesOnly := false, scope := b.scope }
    let fence (g : Gang) : Gang :=
      if g.task = task ∧ ((upto 4).any fun k => s.groupOf g k == some num) ∧ !all.isEmpty then { g with fences := g.fences ++ [order] }
      else g
    let s := { s with next := s.next + 1 }.mapEvery fence
    let s := s.putBarrier task { b with phase := b.phase + 1, arrived := [], owed := [] }
    s.rescope task num

/-- A gang's arrival on a slot for the barrier's current phase, if one is outstanding (R302). -/
def State.arrival (s : State) (g : Gang) (slot : Nat) : Arrival :=
  match s.groupOf g slot with
  | none => {}
  | some num =>
    let b := s.barrier g.task num
    let a := Store.get {} g.arrivals slot
    if a.slices != 0 && a.phase == b.phase then a else { phase := b.phase }

/-- The gang in focus arrives as a whole once each of its live slices has (R302). -/
def State.tryArrive (s : State) (slot : Nat) : State :=
  match s.groupOf s.g slot with
  | none => s
  | some num =>
    let a := s.arrival s.g slot
    let b := s.barrier s.g.task num
    if a.slices != 0 && !a.arrived && (s.g.live &&& ~~~a.slices) == 0 && s.g.live != 0 && !b.broken then
      let s := { s with g := { s.g with arrivals := Store.put s.g.arrivals slot { a with arrived := true } } }
      (s.putBarrier s.g.task { b with arrived := b.arrived ++ [s.g.uid], owed := b.owed ++ s.g.covered }).tryPhase s.g.task num
    else s

/-- A slice that a broken group lets go (R303). -/
def Slice.broken (sl : Slice) : Slice :=
  { sl with wait := .none, pc := nextWord sl.pc, brk := true, cause := 0x10FE }

/-- A gang's slices that wait in BAR on a broken group resume (R303). -/
def State.resumeBroken (s : State) (g : Gang) : Gang :=
  let free (sl : Slice) : Slice :=
    match sl.wait with
    | .bar slot _ =>
      match s.groupOf g slot with
      | some num => if (s.barrier g.task num).broken then sl.broken else sl
      | none => sl
    | _ => sl
  { g with slices := g.slices.map free }

/-- A group breaks: its waiters resume, and the task is marked failed (R303). -/
def State.breakGroup (s : State) (task num : Nat) : State :=
  let b := s.barrier task num
  if b.broken then s
  else
    let s := s.putBarrier task { b with broken := true }
    let s := s.modTask task fun t => { t with brokenAt := some (t.brokenAt.getD s.ns) }
    let s := s.mapGangs fun g => if g.task = task then s.resumeBroken g else g
    s.later (.brokenTaskTimeout task)

/-! ## Rejoining (R160, R161) -/

/-- The mask and the word of a slice that waits at a REGANG. -/
def Slice.regangAt (sl : Slice) : Option (BitVec 8 × DWord) :=
  match sl.wait with
  | .regang m w => some (m, w)
  | _ => none

/-- The named set of a waiting slice: the live slices of its mask, and itself (R160). -/
def Gang.named (g : Gang) (i : Nat) : List Nat :=
  match (g.slice i).regangAt with
  | none => []
  | some (m, _) => (upto 8).filter fun j => j == i || (m.getLsbD j && g.live.getLsbD j)

/-- Whether the named set of a slice waits whole at its word with its mask (R160). -/
def Gang.whole (g : Gang) (i : Nat) : Bool :=
  let ns := g.named i
  !ns.isEmpty && g.live.getLsbD i && ns.all fun j => (g.slice j).regangAt == (g.slice i).regangAt

/-- The slices that form one group with slice i, whose named set waits whole: named sets that share a slice complete
together (R160; DEDUCED, log 21). -/
def Gang.rejoining (g : Gang) (i : Nat) : List Nat :=
  match (g.slice i).regangAt with
  | none => []
  | some (m, _) =>
    if m &&& g.live = 0 then [i]
    else (upto 8).filter fun j => g.whole j && (g.slice j).regangAt == (g.slice i).regangAt

/-- Merging: every named set that waits whole at one word with one mask becomes one issue group at the
following word (R160). `l` are the slices still to be looked at, `g` the gang as it was before any merged, `x` as it
stands. -/
def Gang.mergeFrom (g : Gang) (fresh : Nat) : List Nat → Gang → Gang
  | [], x => x
  | i :: t, x =>
    if g.whole i && (x.slice i).regangAt.isSome then
      let ns := g.rejoining i
      let waits := (g.outstanding.filter fun f => (f.slices &&& sliceMask ns) != 0 && f.op.covered).map (·.id)
      let x := x.modSlices ns fun _ sl => { sl with wait := .none, pc := nextWord sl.pc, grp := ns.headD i }
      Gang.mergeFrom g fresh t
        (if waits.isEmpty then x else { x with fences := x.fences ++ [{ at_ := fresh, waits := waits, writesOnly := false }] })
    else Gang.mergeFrom g fresh t x

/-- The waiting slices whose named set waits at REGANGs that do not match (R161): the lowest such set. -/
def Gang.mismatch (g : Gang) : Option (List Nat) :=
  ((upto 8).filter g.live.getLsbD).findSome? fun i =>
    let ns := g.named i
    if !ns.isEmpty && (ns.all fun j => (g.slice j).regangAt.isSome)
        && (ns.any fun j => (g.slice j).regangAt != (g.slice i).regangAt) then some ns else none

/-- The waits at REGANG looked at anew: sets that match merge, sets that mismatch raise SYNC (R160, R161). -/
def State.regangs (s : State) : State :=
  let s := { s with g := s.g.mergeFrom s.next ((upto 8).filter s.g.live.getLsbD) s.g, next := s.next + 1 }
  match s.g.mismatch with
  | none => s
  | some ns =>
    let i := ns.headD 0
    s.raise { code := 5, info := 0, pc := (s.g.slice i).pc, addr := 0, slice := i, group := sliceMask (s.g.group (s.g.slice i).grp) }

/-! ## Ends -/

/-- Lanes killed by a scratchpad violation (R180), in the slices and in a saved frame. The slices that
lose their last lane end after the chain. -/
def Gang.kill (g : Gang) (lanes : List Nat) (cause : Nat) : Gang :=
  let m := laneMask lanes
  let off (i : Nat) (sl : Slice) : Slice :=
    let keep : BitVec 4 := ~~~(m.extractLsb' (4 * i) 4)
    { sl with active := sl.active &&& keep, stack := sl.stack.map (· &&& keep) }
  let all (l : List Slice) : List Slice := (upto 8).foldl (fun l i => modAt (off i) l i) l
  { g with
    slices := all g.slices
    killed := g.killed ||| m
    killCause := if g.killed = 0 then BitVec.ofNat 3 cause else g.killCause
    frame := g.frame.map fun fr => { fr with slices := all fr.slices } }

/-- A posted abort of a gang that retires, or has retired: it is reported in the task's exit record and marks its
operator (R210, R279). -/
def State.reportAbort (s : State) (task : Nat) (a : DWord) : State :=
  let s := match s.operOf task with
    | none => s
    | some o => s.modOper o.id fun o => { o with ue := some (o.ue.getD 4) }
  s.modTask task fun t => if t.pabort = 0 then { t with pabort := a } else t

/-- What a gang reports when it retires (R279, R390): its killed lanes, a posted abort still recorded, and
whether a slice was not closed. -/
def State.reportGang (s : State) (g : Gang) : State :=
  let open_ := (upto (g.width / 4)).any fun i => !(g.slice i).closed
  let oper := s.operOf g.task
  let s := match oper with
    | none => s
    | some o => s.modOper o.id fun o => { o with noclose := o.noclose || open_ }
  let s := match g.abort with
    | some a => s.reportAbort g.task a
    | none => s
  s.modTask g.task fun t =>
    let blk := g.id / t.record.home
    if g.killed = 0 then t else
      let first := t.kblocks.isEmpty || decide (g.id < t.kgang)
      { t with
        kblocks := insertNat t.kblocks blk
        kgang := if first then g.id else t.kgang
        kmask := if first then g.killed else t.kmask
        kcause := if first then g.killCause.toNat else t.kcause }

/-- Save images of a task thrown away: their gangs have ended, and report what they are to (R279), and the flits in their
queues are discarded (R269, R270). -/
def State.dropImages (s : State) (task : Nat) : State :=
  let gone := s.images.filter fun im => im.block.task == task
  let s := (gone.flatMap fun im => im.gangs.filter fun g => g.live != 0).foldl State.reportGang s
  let flits := gone.flatMap fun im => im.block.queues.flatMap (·.2)
  flits.foldl (fun s f => s.returnUnit f) { s with images := s.images.filter fun im => im.block.task != task }

/-- The gang in focus retires (R25): its bindings are released, its groups expect it no longer (R302), and their scopes
may narrow (R340). -/
def State.retireGang (s : State) : State :=
  let g := s.g
  let replay := s.b.replay.isSome
  let s := if replay then s else s.reportGang g
  let s := { s with g := { g with binds := [], frame := none, hlist := [], stop := none, live := 0 } }
  let s := (upto 4).foldl (fun s k =>
    match s.groupOf g k with
    | none => s
    | some num =>
      let b := s.barrier g.task num
      let s := s.putBarrier g.task { b with expected := b.expected - 1, arrived := b.arrived.filter (· != g.uid) }
      (s.tryPhase g.task num)) s
  if replay then s else s.rescopeAll g.task

/-- The compute dies that are present and not excluded from the package (R404). -/
def State.presentDies (s : State) : List Nat :=
  (upto 4).filter fun d => s.fab.answers d && !(Store.get {} s.fab.nodes d).excluded

/-- Whether a task fails or is being ended: no more of its blocks are admitted. -/
def Task.failing (t : Task) : Bool := t.failed.isSome || t.brokenAt.isSome || t.ending

/-- A block of a task to be replayed (R389, R397), its original having run on a die. Its operator, if it has one, waits for
the replay. -/
def State.replayBlock (s : State) (task block orig : Nat) (screen : Bool) : State :=
  let oper := ((s.operOf task).map Oper.id).getD 0
  let r : Replay := { id := s.next, oper := oper, task := task, block := block, screen := screen, orig := orig, src := s.task task }
  let s := { s with ck := { s.ck with replays := s.ck.replays ++ [r] }, next := s.next + 1 }
  let s := s.modOper oper fun o => { o with screening := o.screening ++ [r.id], replayed := insertNat o.replayed block }
  s.later (.replayStart r.id)

/-- The screening choice for a block of a task that has retired (R397; DESIGN CHOICE, log 13): a chosen block that no compute
die is left for is skipped, and counted. -/
def State.screenChoice (s : State) (b : Block) : State :=
  let t := s.task b.task
  if !t.record.replay || Config.secret (64 * s.ctr + 48 + b.num % 16) % 2 ^ s.ck.q ≠ 0 then s
  else if (s.presentDies.filter fun d => d != b.die && !t.excluded.getLsbD d).isEmpty then s.pcount 12 18 0 1
  else s.replayBlock b.task b.num b.die true

/-- The block in focus retires (R29): its queues are emptied (R269), its core is free. The checker may
choose it for screening (R397). -/
def State.retireBlock (s : State) : State :=
  let b := s.b
  let dropped := b.queues.flatMap (·.2)
  let s := dropped.foldl (fun s f => s.returnUnit f) s
  let s := { s with b := { b with gone := true, queues := [], evicting := false } }
  let s := s.later .blockAdmission
  match b.replay with
  | some r => s.later (.replayEnd r)
  | none =>
    let s := (s.modTask b.task fun t => { t with retired := insertNat t.retired b.num }).signalAll
    match s.operOf b.task with
    | none => s.screenChoice b
    | some o => (s.modOper o.id fun o => { o with sigs := Store.put o.sigs b.num b.sig }).screenChoice b

/-- Slices of the gang in focus end (R25, R162): their bits in GANG.LIVE clear, windows and waits are
discarded, and what waited for them is looked at anew. -/
def State.endSlices (s : State) (l : List Nat) : State :=
  let l := l.filter s.g.live.getLsbD
  if l.isEmpty then s
  else
    let g := s.g.modSlices l fun _ sl => { sl with flags := [], wait := .none, sync := [], backs := [] }
    let s := { s with g := { g with live := g.live &&& ~~~(sliceMask l) } }
    if s.g.live = 0 then
      let s := s.retireGang
      if s.allGangs.all fun g => g.block != s.b.uid || g.live == 0 then s.retireBlock else s
    else
      ((upto 4).foldl (fun s k => s.tryArrive k) s).regangs

/-- The live slices all of whose lanes have been killed: they end (R25). -/
def Gang.dying (g : Gang) : List Nat :=
  if g.killed = 0 then [] else (upto 8).filter fun i => g.live.getLsbD i && g.killed.extractLsb' (4 * i) 4 == 15#4

/-- Every gang of a set of blocks ends at a precise stop, as though by EXIT (R303, R391). -/
def State.endGangs (s : State) (pick : Gang → Bool) : State :=
  let ids := (s.allGangs.filter fun g => g.live != 0 && pick g).map (·.uid)
  ids.foldl (fun s id => (s.focus id).endSlices (upto 8)) s

end Sys2Proof.Machine
end

