-- ==== Sys2Proof/Machine/Checker.lean ====
section
/-! DEFINITION. Machine/Checker.lean: the checker's verdicts (R390 to R396, R400): discard and taint,
re-dispatch, release, receipts and tags; the fault record (R401 to R403); and the end of tasks (R30, R279,
R393). -/

namespace Sys2Proof.Machine

open Sys2Proof

/-! ## The fault record -/

/-- The core a unit of a compute die lies in, and how many units of its kind a core has (R401). -/
def unitsPerCore (kind : Nat) : Option Nat :=
  match kind with
  | 1 => some 64
  | 2 => some 32
  | 3 => some 16
  | 4 => some 8
  | 5 => some 1
  | _ => none
def unitCore (kind index : Nat) : Option Nat := (unitsPerCore kind).map fun n => index / n

/-- The places of the cores of a die that are in use, in order: the place of core c is the c-th of them (R17). -/
def Checker.places (k : Checker) (die : Nat) : List Nat := (upto 112).filter fun p => !k.off.contains (die, p)

/-- The place of a core, and the number of the core at a place (R17). -/
def Checker.placeOf (k : Checker) (die core : Nat) : Nat := if k.off.isEmpty then core else nth core (k.places die) core
def Checker.coreNumber (k : Checker) (die place : Nat) : Option Nat :=
  if k.off.isEmpty then some place
  else if k.off.contains (die, place) then none
  else some ((k.places die).filter (decide <| · < place)).length

/-- The clusters of a die that hold a core in use: the highest core numbers are those missing (R17, R363). -/
def Checker.clusters (k : Checker) (die : Nat) : Nat := ((k.places die).length + 7) / 8

/-- A unit of a core by the core's place, from its index by the core's number (R401, R402; DESIGN CHOICE, log 25). -/
def Checker.unitPlace (k : Checker) (node kind index : Nat) : Nat :=
  match unitsPerCore kind with
  | some n => if node < 4 then n * k.placeOf node (index / n) + index % n else index
  | none => index

/-- A unit's counted entries within the window (R402, R421). -/
def Checker.windowCount (k : Checker) (now node kind index : Nat) : Nat :=
  match k.units.find? fun u => u.node == node && u.kind == kind && u.index == index with
  | none => 0
  | some u => (u.times.filter fun t => decide (now < t + k.w * 1000000000)).length

/-- An error entered in the fault record (R401): counted unless its class is 5, its kind 0, or it is entered
uncounted; a unit taken above the threshold is lasting and retires at its boundary (R402, R403). -/
def State.recordFault (s : State) (cls node kind index addr opid : Nat) (counted : Bool) : State :=
  let k := s.ck
  let counted := counted && cls != 5 && kind != 0
  let unit := k.unitPlace node kind index
  let same (u : UnitErr) : Bool := u.node == node && u.kind == kind && u.index == unit
  let u := (k.units.find? same).getD { node := node, kind := kind, index := unit, times := [] }
  let u := if counted then { u with times := (s.ns :: u.times).take 255 } else u
  let k := if counted then { k with units := u :: k.units.filter fun x => !same x } else k
  let n := k.windowCount s.ns node kind unit
  let lasting := counted && decide (k.t < n) && !k.retired.contains (node, kind, unit)
  let outcome := if cls = 4 ∨ (cls = 5 ∧ kind = 0) then 3 else if !counted then 4
    else if k.retired.contains (node, kind, unit) then 2 else if lasting then 1 else 0
  let e : FaultRec := { ns := s.ns, cls := cls, node := node, kind := kind, index := index, addr := addr, opid := opid,
                        count := min n 255, outcome := outcome }
  let full := decide (4096 ≤ k.faults.length)
  let k := { k with
    faults := (if full then k.faults.drop 1 else k.faults) ++ [e]
    units := k.units.map fun x => if same x && lasting then { x with lasting := true } else x }
  let s := { s with ck := k }
  let s := if full then s.pcount 12 15 0 1 else s
  let s := if counted then s.later (.errorCountAgeing node kind unit) else s
  if lasting then s.later (.unitRetirement node kind unit) else s

/-- An uncorrectable error reported at once (R32): it enters the fault record, and the operator concerned,
if there is one, has its sticky flag set (R390). -/
def State.reportUE (s : State) (node kind index addr task : Nat) : State :=
  let s := s.recordFault 0 node kind index addr (s.task task).record.opid true
  let s := { s with plat := { s.plat with errors := (node, kind, index, addr) :: s.plat.errors } }
  match s.operOf task with
  | none => s
  | some o => s.modOper o.id fun o => { o with ue := some (o.ue.getD node) }

/-! ## Exit records -/

/-- The exit record of a task (R279). -/
def exitBytes (t : Task) (status reason : Nat) : List Byte :=
  leBytes 4 (if status = 1 then 0 else t.id) ++ leBytes 4 t.record.opid ++ leBytes 1 status ++ leBytes 1 reason
    ++ leBytes 1 1 ++ leBytes 1 0 ++ leBytes 4 t.kblocks.length ++ leBytes 4 t.kgang ++ leBytes 4 t.kmask.toNat
    ++ leBytes 1 t.kcause ++ leBytes 7 0 ++ leBytes 8 t.pabort.toNat ++ leBytes 4 t.attempt
    ++ leBytes 1 t.excluded.toNat ++ leBytes 83 0

/-- The exit record sent to the reply endpoint, if there is one (R279). -/
def State.exitRecord (s : State) (t : Task) (status reason : Nat) : State :=
  match t.reply with
  | none => s
  | some ep => s.deviceFlit t.tenant ep (exitBytes t status reason)

/-- A task has ended: its exit record is sent and it is no longer live (R30, R279). -/
def State.endTask (s : State) (id status reason : Nat) : State :=
  let t := s.task id
  let s := s.exitRecord t status reason
  { s with
    tasks := s.tasks.filter fun x => x.id != id
    levels := s.levels.map fun (l : Nat × List QEntry) => (l.1, l.2.filter fun q => q != QEntry.task id) }.signalAll.later .blockAdmission

/-! ## Discard and taint (R391) -/

/-- A page without a pending frame any more: only the operators that have read it, and may yet be replayed, stay with it
(R397). -/
def Checker.settledPage (k : Checker) (leaf : Nat) : Checker :=
  let live (o : Nat) : Bool := k.opers.any fun x => x.id == o
  let bare (p : Page) : Page := if p.leaf = leaf then { leaf := leaf, size := p.size, readers := p.readers.filter live } else p
  { k with pages := (k.pages.map bare).filter fun p => p.leaf != leaf || !p.readers.isEmpty }

/-- The pending frame of a page discarded: PEND is cleared in its leaf, and no cached copy of the entry
stays (R348, R349). -/
def State.dropPending (s : State) (p : Page) : State :=
  let s := s.uncache p.leaf
  let w0 := BitVec.ofNat 64 (memNat s.mem p.leaf 8)
  let w1 := BitVec.ofNat 64 (memNat s.mem (p.leaf + 8) 8)
  let entries := if w0.getLsbD 5 then (upto 16).map fun i => p.leaf + 16 * i else [p.leaf]
  let s := s.setWord1 entries (w1 &&& ~~~1#64)
  { s with ck := s.ck.settledPage p.leaf }

/-- Whether an operator is tainted by discarded operators and tasks (R391). -/
def Oper.taintedBy (o : Oper) (gone : List Oper) (plain : List Nat) (pages : List Page) : Bool :=
  o.state != .released && o.state != .discarded
    && (gone.any (fun d => d.tenant == o.tenant && o.parents.contains d.opid)
        || gone.any (fun d => o.deps.contains d.id)
        || plain.any o.plainDeps.contains
        || pages.any fun p => p.writers.contains o.id)

/-- The state of an operator as it becomes DISCARDED. -/
def Oper.discarded (cause : Nat) (o : Oper) : Oper := { o with state := .discarded, cause := cause, screening := [] }

/-- Operators become DISCARDED, with what they wrote, and taint others, until none is left to taint. The
gangs of a RUNNING one are ended first (R378), but for those of a task that a fatal error fails, which
run on (R404). -/
def State.discardLoop : Nat → State → List Nat → List Nat → Nat → State
  | 0, s, _, _, _ => s
  | fuel + 1, s, ids, plain, cause =>
    if ids.isEmpty && plain.isEmpty then s
    else
      let mine (g : Gang) : Bool :=
        match s.operOf g.task with
        | some o => cause != 13 && ids.contains o.id
        | none => false
      let s := s.endGangs mine
      let gone := s.ck.opers.filter fun o => ids.contains o.id
      let pages := s.ck.pages.filter fun p => p.writers.any ids.contains || p.plain.any plain.contains
      let s := pages.foldl (fun s p => s.dropPending p) s
      let opers := s.ck.opers.map fun o => if ids.contains o.id then o.discarded cause else o
      let s := { s with ck := { s.ck with opers := opers } }
      let next := (s.ck.opers.filter fun o => o.taintedBy gone plain pages).map (·.id)
      State.discardLoop fuel s next [] 11

/-! ## Receipts (R394) -/

/-- The signature of an operator: the sum of its blocks' (R379). -/
def Oper.signature (o : Oper) : DWord := o.sigs.foldl (fun x p => x + p.2) 0

/-- A 66-byte big-endian number. -/
def be66 (n : Nat) : List Byte := (leBytes 66 n).reverse

/-- The first 64 bytes of a receipt. -/
def receiptHead (o : Oper) (verdict pages ns : Nat) : List Byte :=
  leBytes 4 o.opid ++ leBytes 4 o.task ++ leBytes 2 o.tenant ++ leBytes 1 o.cls ++ leBytes 1 verdict
    ++ leBytes 1 (if verdict = 0 then 0 else o.cause) ++ leBytes 1 o.attempt ++ leBytes 2 (if verdict = 0 then o.rtag else 0)
    ++ leBytes 8 ns ++ leBytes 8 o.signature.toNat ++ leBytes 4 pages ++ leBytes 4 o.replayed.length ++ leBytes 24 0

/-- A receipt appended to the log in host complex memory. -/
def State.receipt (s : State) (o : Oper) (verdict pages : Nat) : State :=
  let head := receiptHead o verdict pages s.ns
  let sig := Config.attest (Config.sha512 head)
  let r := head ++ be66 sig.1 ++ be66 sig.2 ++ leBytes 60 0
  { s with
    ck := { s.ck with receipts := s.ck.receipts ++ [r] }
    plat := { s.plat with hostWrites := (Config.receiptAddr + 256 * s.ck.receipts.length, r) :: s.plat.hostWrites } }

/-- The entry of an operator ends, and its final state enters the history (R377). -/
def State.endEntry (s : State) (o : Oper) (released : Bool) : State :=
  let same (h : OpHist) : Bool := h.tenant == o.tenant && h.opid == o.opid
  let h : OpHist := { tenant := o.tenant, opid := o.opid, released := released, rtag := if released then o.rtag else 0, attempt := o.attempt }
  let hist := (s.ck.hist.filter fun x => !same x) ++ [h]
  { s with ck := { s.ck with
      opers := s.ck.opers.filter fun x => x.id != o.id
      hist := if 16384 < hist.length then hist.drop 1 else hist } }.later .blockAdmission

/-! ## Re-dispatch (R400) -/

/-- A task's barriers as at launch. -/
def Task.freshBarriers (t : Task) : List Barrier :=
  t.barriers.map fun b => { b with phase := 0, expected := b.size, arrived := [], broken := false }

/-- A task dispatched again from its first block, at the head of its level (R400). -/
def State.redispatch (s : State) (id : Nat) : State :=
  let s := s.modTask id fun t =>
    { t with attempt := t.attempt + 1, nextBlock := 0, retired := [], ran := [], failed := none, brokenAt := none,
             ending := false, barriers := t.freshBarriers }
  let p := (s.task id).record.prio
  { s with levels := Store.put s.levels p (.task id :: (Store.get [] s.levels p).filter (· != QEntry.task id)) }.later .blockAdmission

/-- Whether a task may be dispatched again (R400). -/
def Task.mayRestart (t : Task) : Bool := t.record.restart && decide (t.attempt < 4)

/-- A failed task is dispatched again, or ends FAILED with a reason; EXCLUDED when no present compute die is
left to it (R400, R404). -/
def State.failTask (s : State) (id reason : Nat) : State :=
  let t := s.task id
  let left := s.presentDies.filter fun d => !t.excluded.getLsbD d
  if left.isEmpty then s.endTask id 2 18
  else if t.mayRestart then s.redispatch id
  else s.endTask id 2 reason

/-- The compute dies blamed for a discard (R400). -/
def Oper.blamed (o : Oper) (t : Task) : List Nat :=
  let ran := (t.ran.map fun r => r.2.1).eraseDups
  if o.cause = 1 then (match o.ue with
    | some n => if n < 4 then [n] else []
    | none => [])
  else if o.cause = 10 ∨ o.cause = 13 then o.blame.toList
  else if o.cause = 8 ∨ o.cause = 9 then ran
  else []

/-- The blame of a verdict in the fault record (R400, R401): a core if a single core ran the failing blocks, counted; else
the die. The failing blocks are those of the attempt, or, where replays have shown one block to fail, that block. -/
def State.recordBlame (s : State) (o : Oper) (t : Task) (die : Nat) : State :=
  let ran := match o.badBlock with
    | some n => t.ran.filter fun (r : Nat × Nat × Nat) => r.1 == n
    | none => t.ran
  let places := (ran.map fun (r : Nat × Nat × Nat) => r.2).eraseDups
  let cores := if places.length = 1 then places.map Prod.snd else []
  let cls := if o.cause = 10 then 3 else 2
  if o.cause = 1 ∨ o.cause = 13 then s
  else match cores with
    | [c] => s.recordFault cls die 5 c 0 o.opid true
    | _ => s.recordFault cls die 0 0 0 o.opid false

/-- The reason a discarded task fails with (R393). -/
def discardReason (cause : Nat) : Nat := if cause = 12 then 19 else if cause = 13 then 17 else 16

/-- What follows a discard: the blame, and re-dispatch or the end of the task (R400). -/
def State.afterDiscard (s : State) (o : Oper) : State :=
  let t := s.task o.task
  let dies := o.blamed t
  let s := dies.foldl (fun s d => s.recordBlame o t d) s
  let s := s.modTask o.task fun t => { t with excluded := dies.foldl (fun x d => x ||| (1#4 <<< d)) t.excluded }
  let s := s.dropImages o.task
  let s := { s with ck := { s.ck with replays := s.ck.replays.filter fun r => r.oper != o.id } }
  if o.cause = 12 then (s.endEntry o false).endTask o.task 2 19
  else
    let t := s.task o.task
    let left := s.presentDies.filter fun d => !t.excluded.getLsbD d
    if !left.isEmpty && t.mayRestart then
      let s := s.modOper o.id fun o =>
        { id := o.id, tenant := o.tenant, opid := o.opid, task := o.task, cls := o.cls, parents := o.parents,
          attempt := o.attempt + 1, seed := Config.witnessSeed s.ctr }
      s.redispatch o.task
    else (s.endEntry o false).endTask o.task 2 (if left.isEmpty then 18 else discardReason o.cause)

/-- Whether every block of a task has retired (R30); of a failing task, whether every admitted one has. -/
def State.allRetired (s : State) (t : Task) : Bool :=
  if t.failing then
    s.allBlocks.all (fun b => b.task != t.id || b.replay.isSome) && s.images.all fun im => im.block.task != t.id
  else decide (t.record.gangs / t.record.home ≤ t.retired.length)

/-- Operators discarded for a cause, with everything they taint: each has its receipt, and what follows is
put off while gangs of a task that a fatal error failed run on (R391, R394, R400, R404). -/
def State.discard (s : State) (ids plain : List Nat) (cause : Nat) : State :=
  let before := (s.ck.opers.filter fun o => o.state == .discarded).map (·.id)
  let s := State.discardLoop (s.ck.opers.length + 2) s ids plain cause
  let gone := s.ck.opers.filter fun o => o.state == .discarded && !before.contains o.id
  gone.foldl (fun s o =>
    let s := s.receipt o 1 0
    if o.cause = 13 && !s.allRetired (s.task o.task) then s else s.afterDiscard o) s

/-! ## Release (R390, R395) -/

/-- Whether an operator's own conditions for release hold: its parents and what it depends on are
released or unknown, and its replays have ended (R390, R397). -/
def Checker.ownConditions (k : Checker) (o : Oper) : Bool :=
  o.state == .passed && o.screening.isEmpty
    && o.parents.all (fun p => p == 0 || (k.opers.all fun x => !(x.tenant == o.tenant && x.opid == p) || x.state == .released))
    && o.deps.all (fun d => k.opers.all fun x => x.id != d || x.state == .released)
    && (k.opers.all fun x => x.screening.isEmpty || !(k.pages.any fun p => p.readers.contains x.id && p.writers.contains o.id))

/-- The operators that share a page with one of a set, added to it. -/
def Checker.sharing (k : Checker) : Nat → List Nat → List Nat
  | 0, l => l
  | n + 1, l => k.sharing n ((k.pages.filter fun p => p.writers.any l.contains).foldl (fun l p => p.writers.foldl insertNat l) l)

/-- The operators released together with one, if every one of them may be (R390). -/
def Checker.releaseSet (k : Checker) (o : Oper) : Option (List Oper) :=
  let ids := k.sharing k.opers.length [o.id]
  let set := k.opers.filter fun x => ids.contains x.id
  let plain := k.pages.any fun p => p.writers.any ids.contains && !p.plain.isEmpty
  if !plain && set.all k.ownConditions && set.length == ids.length then some set else none

/-- The next free tag, searched for in increasing order, wrapping (R395). -/
def Checker.freeTag (k : Checker) : Nat → Nat → Option Nat
  | 0, _ => none
  | n + 1, t =>
    let t := if t = 0 ∨ 65535 < t then 1 else t
    if k.tags.any fun x => x.num == t then k.freeTag n (t + 1) else some t

/-- A tag for each of some tenants, in order: tenant and tag. -/
def Checker.mint : Checker → List Nat → Option (Checker × List (Nat × Nat))
  | k, [] => some (k, [])
  | k, t :: ts =>
    match k.freeTag 65535 k.nextTag with
    | none => none
    | some n =>
      let k := { k with nextTag := n % 65535 + 1, tags := { num := n, tenant := t, opers := [], frames := [] } :: k.tags }
      match Checker.mint k ts with
      | none => none
      | some (k, l) => some (k, (t, n) :: l)

/-- A frame stops carrying its tag; a tag no frame carries is free (R395). -/
def Checker.untag (k : Checker) (leaf : Nat) : Checker :=
  { k with tags := (k.tags.map fun t => { t with frames := t.frames.filter (· != leaf) }) }

/-- The released frame of a page takes the place of the old one: PA and STAGE change places, RTAG is
written, PEND is cleared (R348, R390). -/
def State.promote (s : State) (p : Page) (tags : List (Nat × Nat)) : State :=
  let s := s.uncache p.leaf
  let tenants := ((s.ck.opers.filter fun o => p.writers.contains o.id).map (·.tenant)).eraseDups
  let rtag := match tenants with
    | [t] => ((tags.find? fun x => x.1 == t).map (·.2)).getD 0
    | _ => 0
  let w0 := BitVec.ofNat 64 (memNat s.mem p.leaf 8)
  let w1 := BitVec.ofNat 64 (memNat s.mem (p.leaf + 8) 8)
  let pa : DWord := (w0.extractLsb' 20 36).setWidth 64 <<< 20
  let stage : DWord := (w1.extractLsb' 20 36).setWidth 64 <<< 20
  let mask : DWord := ((BitVec.allOnes 36).setWidth 64) <<< 20
  let v0 := (w0 &&& ~~~mask) ||| stage
  let v1 := pa ||| (BitVec.ofNat 64 rtag <<< 4)
  let entries := if w0.getLsbD 5 then (upto 16).map fun i => p.leaf + 16 * i else [p.leaf]
  let s := { s with mem := entries.foldl (fun m a => memWriteNat m a 8 v0.toNat) s.mem }
  let s := s.setWord1 entries v1
  let k := s.ck.untag p.leaf
  let carry (t : Tag) : Tag := if t.num = rtag then { t with frames := p.leaf :: t.frames } else t
  { s with ck := { k.settledPage p.leaf with tags := k.tags.map carry } }

/-- The release of operators that may be released together (R390, R393 to R395). -/
def State.releaseOpers (s : State) (set : List Oper) : State :=
  match s.ck.mint (set.map (·.tenant)).eraseDups with
  | none =>
    let mark (o : Oper) : Oper := if set.any fun x => x.id == o.id then { o with waited := true } else o
    let s := if set.any fun o => o.waited then s else s.pcount 12 14 0 1
    { s with ck := { s.ck with opers := s.ck.opers.map mark } }
  | some (k, tags) =>
    let ids := set.map (·.id)
    let pages := k.pages.filter fun p => p.writers.any ids.contains
    let s := pages.foldl (fun s p => s.promote p tags) { s with ck := k }
    let s := set.foldl (fun s o =>
      let tag := ((tags.find? fun x => x.1 == o.tenant).map (·.2)).getD 0
      let o := { o with state := .released, rtag := tag }
      let s := s.receipt o 0 (pages.filter fun p => p.writers.contains o.id).length
      let mark (t : Tag) : Tag := if t.num = tag then { t with opers := o.opid :: t.opers } else t
      let s := { s with ck := { s.ck with tags := s.ck.tags.map mark } }
      (s.endEntry o true).endTask o.task 0 0) s
    { s with ck := { s.ck with tags := s.ck.tags.filter fun t => !t.frames.isEmpty } }

/-- Every operator that has passed is looked at again (R390). -/
def State.tryReleases (s : State) : State :=
  (s.ck.opers.filter fun o => o.state == .passed).foldl (fun s o => s.later (.operatorRelease o.id)) s

/-- Tags that no frame carries any more are free, and releases that wait are tried again (R395). -/
def State.freeTags (s : State) : State :=
  { s with ck := { s.ck with tags := s.ck.tags.filter fun t => !t.frames.isEmpty } }.tryReleases

/-! ## The end of a task -/

/-- The blocks of a task (R27). -/
def Task.blocks (t : Task) : Nat := t.record.gangs / t.record.home

/-- A task with every block retired completes or fails (R30, R303, R404): a task of class NONE loses the
pending frames it wrote; an operator is CLOSED and is tested. -/
def State.settleTask (s : State) (id : Nat) : State :=
  match s.tasks.find? fun t => t.id == id with
  | none => s
  | some t =>
    if !s.allRetired t then s
    else match s.operOf id with
      | some o =>
        if o.state == .discarded then s.afterDiscard o
        else if t.ending && o.state != .released then s.discard [o.id] [] 12
        else if o.state != .running then s
        else if t.failed.isSome || t.brokenAt.isSome then s.discard [o.id] [] 13
        else (s.modOper o.id fun o => { o with state := .closed }).later (.witnessTest o.id)
      | none =>
        let s := s.discard [] [id] 11
        if t.ending then s.endTask id 2 19
        else if t.failed.isSome || t.brokenAt.isSome then s.failTask id 17
        else s.endTask id 0 0

/-- The task of the block in focus looked at after slices have ended. -/
def State.settle (s : State) : State := s.settleTask s.b.task

end Sys2Proof.Machine
end

