-- ==== Sys2Proof/Machine/Sample.lean ====
section
/-! DEFINITION. Machine/Sample.lean: tagged sampling (R326). -/

namespace Sys2Proof.Machine

open Sys2Proof

/-- The guard of a word; a word without one acts in every active lane (R47). -/
def guardOf : Instr → BitVec 4
  | .mov _ _ _ q | .laneid _ _ _ q | .unif _ _ _ q | .voteBallot _ _ _ q | .frcp _ _ _ q | .frsq _ _ _ q
  | .fexp2 _ _ _ q | .flog2 _ _ _ q | .fsin _ _ _ q | .fcos _ _ _ q => q
  | .sel _ _ _ _ _ q | .shfl _ _ _ _ _ q | .plog _ _ _ _ _ q | .iadd _ _ _ _ _ q | .isub _ _ _ _ _ q
  | .imul _ _ _ _ _ q | .imulhs _ _ _ _ _ q | .imulhn _ _ _ _ _ q | .imin _ _ _ _ _ q | .imax _ _ _ _ _ q
  | .idiv _ _ _ _ _ q | .irem _ _ _ _ _ q | .addr _ _ _ _ _ q | .and _ _ _ _ _ q | .or _ _ _ _ _ q | .xor _ _ _ _ _ q
  | .andn _ _ _ _ _ q | .shl _ _ _ _ _ q | .shr _ _ _ _ _ q | .sar _ _ _ _ _ q | .fadd _ _ _ _ _ q
  | .fsub _ _ _ _ _ q | .fmul _ _ _ _ _ q | .fmin _ _ _ _ _ q | .fmax _ _ _ _ _ q | .fsgn _ _ _ _ _ q
  | .frnd _ _ _ _ _ q | .fdiv _ _ _ _ _ q | .cvtp _ _ _ _ _ q | .fscale _ _ _ _ _ q => q
  | .bcast _ _ _ _ q | .voteAnyAll _ _ _ _ q | .iabs _ _ _ _ q | .ineg _ _ _ _ q | .iaccw _ _ _ _ q | .not _ _ _ _ q
  | .bitop _ _ _ _ q | .scan _ _ _ _ q | .ired _ _ _ _ q | .fclass _ _ _ _ q | .fsqrt _ _ _ _ q | .qenc _ _ _ _ q
  | .qdec _ _ _ _ q | .fsum _ _ _ _ q | .fscan _ _ _ _ q => q
  | .p2v _ _ q | .v2p _ _ q => q
  | .cvt _ _ _ _ _ _ q => q
  | .bra q _ _ | .call q _ _ => q
  | .jmp _ q | .calli _ q => q
  | _ => 7

/-- The space of a two-bit code (R54). -/
def spaceOf (s : BitVec 2) : Space := if s = 0 then .l else if s = 1 then .s else if s = 2 then .c else .d

/-- The space of LDW, LDT, STF and FESET: S or D (R183, R187). -/
def spaceSD (s : BitVec 1) : Space := if s = 0 then .s else .d

/-- The levels that an access to a space may reach: the core whose member of C it is is not told apart (R326). -/
def spaceLevels : Space → List Nat
  | .l | .s => [1]
  | .c => [1, 2]
  | .d => [3]
  | .g => [4, 5, 6]

/-- The levels that a word may reach (R326): 0 for one that reaches no memory. Which level a cache or a copy reaches is a
free one of those its endpoints admit (DESIGN CHOICE, log 16). -/
def levelsOf : Instr → List Nat
  | .ld _ _ _ _ _ s _ | .lda _ _ _ _ _ s _ | .ldx _ _ _ _ _ s _ | .st _ _ _ _ _ s _ | .strel _ _ _ _ _ s _
  | .stx _ _ _ _ _ s _ => spaceLevels (spaceOf s)
  | .ldw _ _ _ _ _ s _ | .ldt _ _ _ _ _ s _ | .stf _ _ _ _ _ s _ | .feset _ _ _ s _ => spaceLevels (spaceSD s)
  | .gst _ _ _ _ _ _ | .mgemm _ _ | .cwb _ _ _ _ _ => spaceLevels .g
  | .atom _ _ _ _ _ p _ => if p = 1 then [5, 6] else [1]
  | .tld _ _ _ _ | .tldt _ _ _ _ | .tldm _ _ _ | .zld _ _ _ _ | .zst _ _ _ _ _ | .tst _ _ _ _ | .chtest _ _ _ _
  | .chreset _ _ | .launch _ _ _ | .wemit _ _ _ _ => [1]
  | .cpart _ _ | .cpmx _ _ | .gather _ _ | .scatter _ _ | .cred _ _ => [1, 3, 4, 5, 6, 7]
  | _ => [0]

/-- The sampling of a scheduler of the core in focus. -/
def State.sampler (s : State) (sched : Nat) : Sampler := Store.get {} s.c.samplers sched

def State.putSampler (s : State) (sched : Nat) (x : Sampler) : State :=
  { s with c := { s.c with samplers := Store.put s.c.samplers sched x } }

/-- The interval to the next choice: from PERIOD / 2 to 3 × PERIOD / 2 − 1 chains, freely chosen (R326;
DESIGN CHOICE, log 16). -/
def drawInterval (ctr period : Nat) : Nat := max 1 (period / 2 + Config.sampleInterval ctr % period)

/-- What a sampling record says of the chain at hand before it is written (R326). -/
def State.sampleBytes (s : State) : List Byte :=
  let first := s.iss.last - BitVec.ofNat 64 (s.iss.len - 1)
  let q := match decodeWord s.iss.word with
    | .ok i => guardOf i
    | .error _ => 7
  leBytes 4 s.src.task ++ leBytes 4 s.src.id ++ leBytes 8 first.toNat ++ leBytes 4 (laneMask (s.exec q)).toNat
    ++ leBytes 1 s.src.sched ++ leBytes 1 (s.group.headD 0)

/-- A chain that has issued, as the sampling of its scheduler sees it: the chain the interval ends at is
chosen (R326). -/
def State.sample (s : State) : State :=
  let k := s.src.sched
  let period := s.c.sampPeriod.toNat
  if !s.c.dbgCtl.getLsbD 17 || period = 0 then s
  else
    let x := s.sampler k
    let left := if x.left = 0 then drawInterval s.ctr period else x.left
    if left = 1 then
      let bytes := s.sampleBytes ++ leBytes 8 s.c.cycle ++ leBytes 4 s.iss.word.toNat
      (s.putSampler k { x with left := 0, chosen := some bytes }).soon (.samplingChoice s.c.die s.c.idx k)
    else s.putSampler k { x with left := left - 1 }

/-- SAMPLING_CHOICE (R326): a chain chosen while a record is being built is skipped. -/
def execSamplingChoice (die core sched : Nat) (s : State) : Res :=
  let s := s.focusCore die core
  let x := s.sampler sched
  .next (
    match x.chosen with
    | none => s
    | some b =>
      if x.building.isSome then
        let s := s.putSampler sched { x with chosen := none }
        { s with c := s.c.count 0x01F 1 none }
      else (s.putSampler sched { x with chosen := none, building := some b }).later (.samplingRecord die core sched))

/-- The level a word has reached, none where no lane executed it. -/
def levelReached (choice : Nat) (word : Word) (lanes : Nat) : Nat :=
  let l := match decodeWord word with
    | .ok i => levelsOf i
    | .error _ => [0]
  if lanes = 0 then 0 else nth 0 l (choice % l.length)

/-- The 64 bytes of a sampling record: what was known at issue, the level reached, and the five cycle counts,
which are times (R326; DESIGN CHOICE, log 2). -/
def sampleRecord (ctr : Nat) (b : List Byte) : List Byte :=
  let field (i : Nat) : List Byte := leBytes 4 (Config.sampleField (8 * ctr + i)).toNat
  b.take 22 ++ leBytes 1 (levelReached (Config.sampleField (8 * ctr)).toNat (BitVec.ofNat 32 (fieldAt b 30 4)) (fieldAt b 16 4)) ++ leBytes 1 0
    ++ field 1 ++ field 2 ++ field 3 ++ field 4 ++ field 5 ++ b.drop 22 ++ leBytes 8 0

/-- SAMPLING_RECORD (R326): the record goes to the trace buffer in D, and NEXT goes on. -/
def execSamplingRecord (die core sched : Nat) (s : State) : Res :=
  let s := s.focusCore die core
  let x := s.sampler sched
  .next (
    match x.building with
    | none => s
    | some b =>
      let s := s.putSampler sched { x with building := none }
      let base := (s.c.sampRec.extractLsb' 0 32).toNat
      let count := (s.c.sampRec.extractLsb' 32 16).toNat
      let next := (s.c.sampRec.extractLsb' 48 16).toNat
      let off := base + 64 * next
      if count = 0 then s
      else
        let mem := if off + 64 ≤ 33554432 then memWrite s.mem (atD die off) (sampleRecord s.ctr b) else s.mem
        let reg : DWord := (s.c.sampRec.extractLsb' 0 48).setWidth 64 ||| (BitVec.ofNat 64 ((next + 1) % count) <<< 48)
        { s with mem := mem, c := { s.c with sampRec := reg }.count 0x01E 1 none })

end Sys2Proof.Machine
end

