-- ==== Sys2Proof/Machine/Chain.lean ====
section
/-! DEFINITION. Machine/Chain.lean: the end of a chain: the slices go on, groups part, a stop that follows
the chain is taken (R24, R40, R43, R319, R323). -/

namespace Sys2Proof.Machine

open Sys2Proof

/-- The words that take effect after the other words of their chain although they need not stand last (R287). -/
def lateWord : Instr → Bool
  | .chopen _ _ _ | .chclose _ _ | .chsel _ _ => true
  | _ => false

/-- The words of a chain in the order in which they take effect (R287). -/
def effectOrder (ws : List (Nat × Instr)) : List (Nat × Instr) :=
  ws.filter (fun w => !lateWord w.2) ++ ws.filter fun w => lateWord w.2

/-- A slice that steps (R323). -/
def Slice.steps (sl : Slice) : Bool := sl.step && !sl.priv

/-- The stop that follows a chain: the one its TRAP, BRK or FENCE asked for, else that of a stepping slice
(R319, R323). `st` is the gang before the chain. -/
def State.stopOfChain (s : State) : Option Stop :=
  let first := s.iss.last - BitVec.ofNat 64 (s.iss.len - 1)
  let lives := s.group.filter s.g.live.getLsbD
  match s.iss.after with
  | some st => some st
  | none =>
    if s.group.any (fun i => (s.src.slice i).steps) && !lives.isEmpty then
      some { code := 18, info := 0, pc := first, addr := 0, slice := s.group.headD 0, group := 0 }
    else none

/-- The trapping group of a stop after the chain: the issue group that holds its slice (R313). -/
def Gang.trapGroup (g : Gang) (st : Stop) : Stop := { st with group := sliceMask (g.group (g.slice st.slice).grp) }

/-- Whether a word of the chain has itself stopped the gang, or has ended it (R319, R161, R25). -/
def State.stoppedByWord (s : State) : Bool :=
  s.g.uid != s.src.uid || s.g.mode != s.src.mode || s.g.stop.isSome

/-- The chain has issued (R20): its slices go on, and a stop after the chain is taken; slices that have lost
their last lane end (R25). -/
def State.finishChain (s : State) : State :=
  let s := ((if s.iss.ended then s else s.endChain).focus s.src.uid).sample
  if s.stoppedByWord then s.idleIssue
  else
    let s :=
      match s.stopOfChain with
      | none => s
      | some st => s.raise (s.g.trapGroup st)
    let dying := s.g.dying
    let s := if dying.isEmpty then s else (s.endSlices dying).settle
    s.idleIssue

/-- What is left of an issue: nothing has happened if a word held the chain back (R40); a fault before
the chain has been taken (R44); else the chain has issued. -/
def State.finish (before s : State) : State :=
  if s.iss.held then ({ before with g := { before.g with yielded := some before.grp } }).idleIssue
  else if s.iss.trapped then s.idleIssue
  else s.finishChain

/-- A fault met before the chain, at word address pc (R44, R59). -/
def State.faultAt (s : State) (pc : DWord) (code info : Nat) (addr : DWord) : State :=
  { s with iss := { s.iss with wpc := pc } }.fault code info addr

end Sys2Proof.Machine
end

