-- ==== Sys2Proof/Machine/Ctl.lean ====
section
/-! DEFINITION. Machine/Ctl.lean: control flow: transfers (R154 to R158), the mask stack (R159), REGANG,
EXIT, YIELD, SLEEP (R160 to R164), WAITF and WAITC (R202, R203), TRAP, BRK and RTE (R318 to R320). -/

namespace Sys2Proof.Machine

open Sys2Proof

/-! ## Transfers -/

/-- The active lanes of slice i that hold a guard (R154). -/
def Gang.guardLanes (g : Gang) (q : BitVec 4) (i : Nat) : List Nat :=
  (upto 4).filter fun k => (g.slice i).active.getLsbD k && g.guardAt q (4 * i + k)

/-- The active lanes of slice i. -/
def Gang.activeLanes (g : Gang) (i : Nat) : List Nat := (upto 4).filter (g.slice i).active.getLsbD

/-- Whether a slice takes a transfer (R154). -/
def Gang.takes (g : Gang) (q : BitVec 4) (any : Bool) (i : Nat) : Bool :=
  if any then !(g.guardLanes q i).isEmpty else (g.guardLanes q i) == g.activeLanes i

/-- Slices sent to targets, with their link where the word is a call (R156, R157). -/
def State.transfer (s : State) (call : Bool) (l : List Nat) (target : Nat → DWord) : State :=
  let ret := packetOf s.iss.wpc + 12
  let go (i : Nat) (sl : Slice) : Slice := { sl with pc := target i, link := if call then ret else sl.link }
  { s with g := s.g.modSlices l go, iss := { s.iss with moved := s.iss.moved ||| sliceMask l } }

/-- A B-format transfer (R38, R156). A target beyond the 48-bit addresses is taken as it is computed, modulo 2^64, and
fails at its fetch (DESIGN CHOICE, log 37). -/
def State.branch (s : State) (call : Bool) (q : BitVec 4) (any : Bool) (disp : BitVec 19) : State :=
  let target := packetOf s.iss.wpc + disp.signExtend 64 * 12
  s.transfer call (s.group.filter (s.src.takes q any)) fun _ => target

/-- Whether a register or link value is a legal target (R38, R157). -/
def targetOk (t : DWord) : Bool := t.toNat % 12 == 0 && t.extractLsb' 48 16 == 0

/-- A transfer to register or link values: the first illegal target in slice order raises ILL (R157, R158). -/
def State.jump (s : State) (call : Bool) (l : List Nat) (target : Nat → DWord) : State :=
  match l.find? fun i => !targetOk (target i) with
  | some i => s.fault 1 0 (target i)
  | none => s.transfer call l target

/-- The target of a slice of JMP or CALLI: the pair in the lowest lane of its active mask, or in its first
lane (R157). -/
def Gang.pairTarget (g : Gang) (r i : Nat) : DWord := g.val64 r (4 * i + (g.activeLanes i).headD 0)

/-- BRA (R156). -/
def execBra (q : BitVec 4) (n : BitVec 1) (i : BitVec 19) (s : State) : Res := .next (s.branch false q (n == 1) i)

/-- CALL (R156). -/
def execCall (q : BitVec 4) (n : BitVec 1) (i : BitVec 19) (s : State) : Res := .next (s.branch true q (n == 1) i)

/-- JMP (R157). -/
def execJmp (a : BitVec 5) (q : BitVec 4) (s : State) : Res :=
  let a := 2 * a.toNat
  .next (s.withRegs [(2, a)] fun s => s.jump false (s.group.filter (s.src.takes q false)) (s.src.pairTarget a))

/-- CALLI (R157). -/
def execCalli (a : BitVec 5) (q : BitVec 4) (s : State) : Res :=
  let a := 2 * a.toNat
  .next (s.withRegs [(2, a)] fun s => s.jump true (s.group.filter (s.src.takes q false)) (s.src.pairTarget a))

/-- RET (R158). -/
def execRet (s : State) : Res := .next (s.jump false s.group fun i => (s.src.slice i).link)

/-! ## The mask stack -/

/-- MKPUSH (R159). A lane that an earlier word of the chain has killed stays off (R180). -/
def execMkpush (q : BitVec 4) (s : State) : Res :=
  .next (
    if s.group.any fun i => decide (4 ≤ (s.src.slice i).stack.length) then s.fault 4 0 0
    else
      let push (i : Nat) (sl : Slice) : Slice :=
        { sl with stack := sl.stack ++ [sl.active], active := laneBits (s.src.guardLanes q i) &&& sl.active }
      { s with g := s.g.modSlices s.group push })
where
  /-- Lanes of a slice as a mask. -/
  laneBits (l : List Nat) : BitVec 4 := l.foldl (fun m k => m ||| (1#4 <<< k)) 0

/-- MKCTL (R159). A lane that an earlier word of the chain has killed is off in every entry (R180). -/
def execMkctl (o : BitVec 1) (s : State) : Res :=
  .next (
    if s.group.any fun i => (s.src.slice i).stack.isEmpty then s.fault 4 0 0
    else
      let ctl (_ : Nat) (sl : Slice) : Slice :=
        let top := sl.stack.getLastD 0
        if o = 0 then { sl with active := top &&& ~~~sl.active }
        else { sl with active := top, stack := sl.stack.dropLast }
      { s with g := s.g.modSlices s.group ctl })

/-! ## Waiting -/

/-- Slices that wait at this word (R202, R203, R300). -/
def State.waitHere (s : State) (l : List Nat) (w : Nat → Wait) : State :=
  let stay (i : Nat) (sl : Slice) : Slice := { sl with pc := s.iss.wpc, wait := w i }
  { s with g := s.g.modSlices l stay, iss := { s.iss with moved := s.iss.moved ||| sliceMask l } }

/-- Slices that wait after their chain. -/
def State.waitAfter (s : State) (l : List Nat) (w : Wait) : State :=
  { s with g := s.g.modSlices l fun _ sl => { sl with wait := w } }

/-- Slices that issue nothing after their chain until some words have completed (R56). -/
def State.awaitWords (s : State) (l : List Nat) (ids : List Nat) : State :=
  { s with g := s.g.modSlices l fun _ sl => { sl with sync := sl.sync ++ ids } }

/-- WAITF (R202). -/
def execWaitf (m : BitVec 12) (s : State) : Res := .next (s.waitHere s.group fun _ => .waitf m)

/-- The operations of a class that WAITC awaits: all but the n youngest (R203). -/
def Gang.awaited (g : Gang) (cls n : Nat) : List Nat :=
  let l := (g.kops.filter fun k => k.cls == cls).map (·.id)
  l.take (l.length - n)

/-- WAITC (R203). Words before it in its chain are before it (R190), so their operations are awaited. -/
def execWaitc (k : BitVec 3) (n : BitVec 6) (s : State) : Res :=
  .next (s.waitHere s.group fun _ => .waitc k.toNat n.toNat (s.g.awaited k.toNat n.toNat))

/-- REGANG (R160, R161). -/
def execRegang (m : BitVec 8) (s : State) : Res :=
  .next ((s.waitHere s.group fun _ => .regang m s.iss.wpc).endChain.regangs)

/-- EXIT (R162); in a handler it ends every slice of the gang (R322). -/
def execExit (s : State) : Res :=
  let handler := s.g.frame.isSome && s.priv
  let l := if handler then upto 8 else s.group
  .next ((s.endChain.endSlices (l ++ s.g.dying)).settle)

/-- YIELD (R163). -/
def execYield (s : State) : Res :=
  .next { s with g := { s.g with key := s.next, waits := 0, yielded := some s.grp }, next := s.next + 1 }

/-- SLEEP (R164). -/
def execSleep (n : BitVec 16) (s : State) : Res :=
  let s' := s.waitAfter s.group (.sleep n.toNat n.toNat (s.c.cycle + 16 * n.toNat + 1))
  .next (s.group.foldl (fun s i => s.later (.sleepExpiry s.g.uid i)) s')

/-- SLEEP_EXPIRY (R164): the slice's sleep ends once its cycles have passed. -/
def execSleepExpiry (gang slice : Nat) (s : State) : Res :=
  let s := s.focus gang
  .next (
    match (s.g.slice slice).wait with
    | .sleep _ _ u =>
      if s.g.mode == .halted || s.g.uid != gang then s
      else if s.g.frame.isSome && !s.g.hslices.getLsbD slice then s.later (.sleepExpiry gang slice)
      else if s.c.cycle < u || s.c.dbgCtl.getLsbD 16 then s.later (.sleepExpiry gang slice)
      else { s with g := s.g.modSlice slice fun sl => { sl with wait := .none } }
    | _ => s)

/-! ## TRAP, BRK and RTE -/

/-- TRAP (R319). -/
def execTrap (k : BitVec 8) (s : State) : Res := .next (s.stopAfter 16 k.toNat 0)

/-- BRK (R319). -/
def execBrk (k : BitVec 8) (s : State) : Res := .next (s.stopAfter 17 k.toNat 0)

/-- The step that goes on with an outstanding memory word. -/
def Flight.event (f : Flight) (gang : Nat) : Instr :=
  if !f.walked then .walkEnd gang f.id
  else match f.op.kind with
    | .ld | .ldw | .ldt | .lda | .ldx => .scratchpadLoadComplete gang f.id
    | .st | .stf | .strel | .stx => .scratchpadStoreComplete gang f.id
    | .gst => .gstComplete gang f.id
    | .atom => .atomComplete gang f.id

/-- RTE (R320): the entries are put back in flight before any slice issues. -/
def execRte (s : State) : Res :=
  .next (s.privileged fun s =>
    if s.rteHold then s.hold else
    let s := s.returnFromTrap
    let s := s.g.flights.foldl (fun s f => s.later (f.event s.g.uid)) s
    let s := (upto 8).foldl (fun s i => match (s.g.slice i).wait with
      | .sleep _ _ _ => s.later (.sleepExpiry s.g.uid i)
      | _ => s) s
    s.regangs)

end Sys2Proof.Machine
end

