-- ==== Sys2Proof/Machine/Flit.lean ====
section
/-! DEFINITION. Machine/Flit.lean: the Carriage's way out (R373, R374) and the Shutter's test of a source line (R396). -/

namespace Sys2Proof.Machine

open Sys2Proof

/-- The port by which the Carriage sends to a package: the primary, or the alternate when the primary is dead or
quiesced (R374). -/
def Carriage.portFor (c : Carriage) (pkg : Nat) : Option Nat :=
  let shut (p : Nat) : Bool := c.quiesced.contains p || c.dead.contains p
  match Store.find c.fwd pkg with
  | none => none
  | some (p, a) => if shut p then (if shut a then none else some a) else some p

/-- A flit sent out of the package (R374). One that has no port is not sent. -/
def State.carSend (s : State) (pkg : Nat) (raw : List Byte) : State :=
  match s.fab.car.portFor pkg with
  | none => s
  | some p => { s with fab := { s.fab with car := { s.fab.car with sent := (p, raw) :: s.fab.car.sent } } }

/-- Whether the Shutter passes a line of the PA frame of a translated page for a tenant: the page is versioned, and the
frame carries a live tag of the tenant (R396). -/
def State.shutterPasses (s : State) (tenant : Nat) (x : Xlat) : Bool :=
  x.ver && x.rtag != 0 && s.ck.tags.any fun t => t.num == x.rtag && t.tenant == tenant

end Sys2Proof.Machine
end

