-- ==== Sys2Proof/Machine/Gmem.lean ====
section
/-! DEFINITION. Machine/Gmem.lean: accesses to G: the tokens of a line (R368 to R370), lines that hold an
uncorrectable error or are lost (R181, R372), writes with their pending frames, lineage and signature terms
(R182, R348, R379). -/

namespace Sys2Proof.Machine

open Sys2Proof

/-! ## Tokens -/

/-- Whether a holder holds what a read, or a write or an atomic, needs (R368). -/
def Line.enough (l : Line) (h : Nat) (own : Bool) : Bool :=
  let x := l.of h
  if own then x.tokens == 64 else decide (0 < x.tokens) && x.valid

/-- A token-protocol flit without tokens, from a holder to the home of a line. Its tag is the line's number. -/
def State.askHome (s : State) (h n cls : Nat) (i : Instr) : State :=
  s.sendNode { cls := cls, srcn := holderNode h n, dstn := homeNode n, tag := n, addr := 128 * n } [] i

/-- The step at which a holder's request for a line times out (R362): requests for lines are numbered beyond those to other
packages. -/
def lineTimeout (h n : Nat) : Instr := .requestTimeout (2 ^ 64 + 8 * n + h)

/-- The time at which a holder has sent its request for a line, from which it times out (R362). -/
def State.noteAsked (s : State) (h n : Nat) : State :=
  (s.putLine n { s.line n with asked := Store.put (s.line n).asked h s.ns }).later (lineTimeout h n)

/-- A transient request sent to the home (R369). -/
def State.sendRequest (s : State) (h n : Nat) (own : Bool) : State :=
  let s := s.noteAsked h n
  if own then s.askHome h n 1 (.ownRequest h n) else s.askHome h n 0 (.readRequest h n)

/-- A holder asks for a line, unless its request for it is already outstanding (R369). While the fabric is
paused nothing is asked for (R366). -/
def State.wantLine (s : State) (h n : Nat) (own : Bool) : State :=
  let l := s.line n
  if s.fab.paused then s
  else match Store.find l.wants h with
  | some w => if w || !own then s
    else (s.putLine n { l with wants := Store.put l.wants h true }).sendRequest h n true
  | none =>
    let s := s.putLine n { l with wants := Store.put l.wants h own, tries := Store.put l.tries h 1 }
    (s.sendRequest h n own).later (.transientRetryTimeout h n)

/-- An access to a line has been performed by a holder: its request is satisfied, a write leaves the line
dirty, and an active persistent entry of the holder is given up (R368, R370). -/
def State.usedLine (s : State) (h n : Nat) (wrote : Bool) : State :=
  let l := s.line n
  let x := l.of h
  let l := if wrote then l.set h { x with dirty := true, valid := true } else l
  let mine := match l.active with
    | some (r, _) => r == h
    | none => false
  let l := { l with wants := l.wants.filter fun p => p.1 != h, tries := l.tries.filter fun p => p.1 != h
                    waiting := l.waiting.filter fun p => p.1 != h, asked := l.asked.filter fun p => p.1 != h }
  let s := ((s.putLine n l).notLater (.transientRetryTimeout h n)).notLater (lineTimeout h n)
  if mine then s.askHome h n 4 (.persistentDeactivate h n) else s

/-- A holder's request for a line that is not answered in time completes with an abort completion (R362): the holder asks
for the line no longer, and the access that it was for finds it `over`. -/
def State.giveUp (s : State) (h n : Nat) : State :=
  let s := s.usedLine h n false
  s.putLine n { s.line n with gaveUp := insertNat (s.line n).gaveUp h, late := insertNat (s.line n).late h }

/-- Whether a holder's request for a line has timed out, so that the access it was for meets an abort completion. -/
def State.noReply (s : State) (h n : Nat) : Bool := (s.line n).gaveUp.contains h

/-- Accesses of a holder to some lines have ended with the abort completion. -/
def State.gaveUp (s : State) (h : Nat) (lines : List Nat) : State :=
  (lines.filter (s.noReply h)).foldl (fun s n => s.putLine n { s.line n with gaveUp := (s.line n).gaveUp.filter (· != h) }) s

/-- Whether a holder may access some lines; the lines it may not are asked for. -/
def State.readyLines (s : State) (h : Nat) (own : Bool) (lines : List Nat) : Bool × State :=
  let missing := lines.filter fun n => !(s.line n).enough h own
  (missing.isEmpty, missing.foldl (fun s n => s.wantLine h n own) s)

/-! ## Errors -/

/-- A line written whole: its errors are gone (R181). -/
def State.healLine (s : State) (n : Nat) : State :=
  { s with fab := { s.fab with lost := s.fab.lost.filter (· != n) }, ue := s.ue.filter fun w => w / 32 != n }

/-- The blocks admitted to a block's core before it. -/
def State.before (s : State) (b : Block) : List Block :=
  s.allBlocks.filter fun x => x.die == b.die && x.core == b.core && decide (x.admitted < b.admitted)

/-- The index on the die of a block's z tile and of its physical slot. -/
def State.zUnit (s : State) (b : Block) (tile : Nat) : Nat :=
  16 * b.core + ((s.before b).foldl (fun n x => n + x.zt) 0 + tile) % 16
def State.slotUnit (s : State) (b : Block) (phys : Nat) : Nat :=
  32 * b.core + ((s.before b).foldl (fun n x => n + x.slots) 0 + phys) % 32

/-- The index on the die of the 64 KiB segment that holds a byte of a block's S: the segments of a core are given out in
the order of admission (R401; DEDUCED, log 27). -/
def State.segUnit (s : State) (b : Block) (off : Nat) : Nat :=
  8 * b.core + ((s.before b).foldl (fun n x => n + x.sbytes) 0 + off) / 65536 % 8

/-- The node, the unit kind, the index and the address at which an error in a memory word is entered, by the place of
the word: a pseudo-channel of a memory die, where the stored line is uncorrectable; a memory die whole, where the line is
lost; a die scratchpad; the S segment, z tile or operand slot of a block (R401). The L lanes of a gang are entered
against the first S segment of its core (DEDUCED, log 27). -/
def State.unitAt (s : State) (place : Nat) : Nat × Nat × Nat × Nat :=
  if place < atD 0 0 then
    if s.fab.lost.contains (place / 128) then (4 + homeDie place, 0, 0, place)
    else (4 + homeDie place, 7, Config.pseudoChannel (place / 128) % 160, place)
  else if place < atS 0 0 then ((place - atD 0 0) / 2 ^ 25, 0, 0, place % 2 ^ 25)
  else
    let off := place % 2 ^ 20
    let b (base : Nat) : Block := (s.findBlock ((place - base) / 2 ^ 20)).getD s.b
    if place < atZ 0 0 0 then ((b (atS 0 0)).die, 4, s.segUnit (b (atS 0 0)) off, off)
    else if place < atSlot 0 0 0 then ((b (atZ 0 0 0)).die, 3, s.zUnit (b (atZ 0 0 0)) (off / 2 ^ 14), 0)
    else if place < atL 0 0 0 then ((b (atSlot 0 0 0)).die, 2, s.slotUnit (b (atSlot 0 0 0)) (off / 2 ^ 14), 0)
    else (s.b.die, 4, 8 * s.b.core, place % 1024)

/-- An uncorrectable error at a place, reported at once for a task to the checker and to the host complex (R32). -/
def State.reportAt (s : State) (place task : Nat) : State :=
  let u := s.unitAt place
  s.reportUE u.1 u.2.1 u.2.2.1 u.2.2.2 task

/-- The marked words of a scratchpad that some ranges touch, each given once by its place (R181). -/
def State.markedIn (s : State) (l : List (Nat × Nat)) : List Nat :=
  (s.ue.filter fun w => l.any fun (r : Nat × Nat) => decide (r.1 / 4 ≤ w) && decide (4 * w < r.1 + r.2)).map fun w => 4 * w

/-- The uncorrectable or lost lines among some lines of memory dies that answer, each given once by its place (R181,
R372). An absent die holds no data, so that an access to it is no error of a memory. -/
def State.badLines (s : State) (lines : List Nat) : List Nat :=
  (lines.eraseDups.filter fun n => s.reachable (128 * n) && s.lineBad n).map fun n => 128 * n

/-- Some errors reported for a task. -/
def State.reportAll (s : State) (places : List Nat) (task : Nat) : State :=
  places.foldl (fun s p => s.reportAt p task) s

/-- The place of the error at which the walk for an address ends. -/
def State.walkPlaces (s : State) (ctx va : Nat) : List Nat :=
  let bad (a : Nat) : Bool := s.reachable a && s.lineBad (a / 128)
  (walkBad s.mem bad va 3 (s.ctx ctx).root).toList

/-- The error at which the walk for an address ends, reported for a task (R32). -/
def State.reportWalk (s : State) (ctx va task : Nat) : State := s.reportAll (s.walkPlaces ctx va) task

/-! ## Signatures (R379) -/

def crcStep (c : DWord) : DWord := if c.getLsbD 63 then (c <<< 1) ^^^ 0x42F0E1EBA9EA3693#64 else c <<< 1

def crcByte (c : DWord) (b : Byte) : DWord :=
  (upto 8).foldl (fun c _ => crcStep c) (c ^^^ (b.setWidth 64 <<< 56))

/-- CRC-64/ECMA-182 (R379). -/
def crc64 (l : List Byte) : DWord := l.foldl crcByte 0

/-- The term of one write of n bytes at a virtual address: its kind, type, data and second operand. -/
def sigTerm (va n kind ty data nv : Nat) : DWord :=
  let o := va % 16
  let mask := (2 ^ n - 1) * 2 ^ o
  crc64 (leBytes 8 (va - o) ++ leBytes 2 mask ++ leBytes 1 kind ++ leBytes 1 ty ++ leBytes 4 0
    ++ leBytes 16 (data * 2 ^ (8 * o)) ++ leBytes 16 (nv * 2 ^ (8 * o)))

/-- A term added to the signature of a block, also to that of one that has retired. -/
def State.addTerm (s : State) (block : Nat) (t : DWord) : State :=
  match s.findBlock block with
  | none => s
  | some b =>
    let s := s.modBlock block fun b => { b with sig := b.sig + t }
    if b.gone && b.replay.isNone then
      match s.operOf b.task with
      | none => s
      | some o =>
        if o.attempt != b.attempt then s
        else s.modOper o.id fun o => { o with sigs := Store.put o.sigs b.num (Store.get 0 o.sigs b.num + t) }
    else s

/-! ## Reads and writes -/

/-- Whether a block runs as a replay of the checker, whose G writes are discarded (R398). -/
def State.isReplay (s : State) (block : Nat) : Bool :=
  match s.findBlock block with
  | some b => b.replay.isSome
  | none => false

/-- A G write by a slice that has closed its witness (R410). -/
def State.noteLate (s : State) (task : Nat) (late : Bool) : State :=
  if !late then s
  else match s.operOf task with
    | none => s
    | some o => s.modOper o.id fun o => { o with late := true }

/-- Bytes written to a translated place for a task: into the pending frame of a versioned page, which the
first write makes (R182, R348), with the writer recorded. -/
def State.gWrite (s : State) (block task : Nat) (x : Xlat) (late : Bool) (bytes : List Byte) : State :=
  if s.isReplay block then s
  else
    let s := s.makePending x
    let s := s.putG x.key x.writePhys bytes
    (s.noteWrite task x).noteLate task late

/-- The physical place where a write through a translation is performed. -/
def State.writeAt (s : State) (block : Nat) (x : Xlat) : Nat := if s.isReplay block then x.phys else x.writePhys

/-- The context of a block's task. -/
def State.ctxOf (s : State) (b : Block) : Nat := (s.task b.task).ctx

end Sys2Proof.Machine
end

