-- ==== Sys2Proof/Machine/Parts.lean ====
section
/-! DEFINITION. Machine/Parts.lean: what a part descriptor says (R247, R248, R260, R261), the stream of a
collective and its chunks, and the destination bytes a running collective has not yet landed (R179, R255). -/

namespace Sys2Proof.Machine

open Sys2Proof

/-- A part descriptor (R247). -/
structure Desc where
  src : Nat
  dst : Nat
  ssp : Nat
  dsp : Nat
  dcap : Nat
  esize : Nat
  ndim : Nat
  flags : Nat
  dslot : Nat
  redop : Nat
  sizes : List Nat
  sstr : List Int
  dstr : List Int
  chobj : Nat
  gen : Nat
  follow : Nat
  index : Nat
  resv : List Byte
  deriving DecidableEq, Repr

/-- A signed 32-bit field. -/
def intAt (b : List Byte) (off : Nat) : Int := (BitVec.ofNat 32 (fieldAt b off 4)).toInt

/-- The fields of a descriptor's 128 bytes. -/
def parseDesc (b : List Byte) : Desc where
  src := fieldAt b 0 8
  dst := fieldAt b 8 8
  ssp := fieldAt b 16 1
  dsp := fieldAt b 17 1
  dcap := fieldAt b 18 1
  esize := fieldAt b 19 1
  ndim := fieldAt b 20 1
  flags := fieldAt b 21 1
  dslot := fieldAt b 22 1
  redop := fieldAt b 23 1
  sizes := (upto 6).map fun i => fieldAt b (24 + 4 * i) 4
  sstr := (upto 6).map fun i => intAt b (48 + 4 * i)
  dstr := (upto 6).map fun i => intAt b (72 + 4 * i)
  chobj := fieldAt b 96 4
  gen := fieldAt b 100 4
  follow := fieldAt b 104 4
  index := fieldAt b 108 4
  resv := (b.drop 112).take 16

/-- The full-empty option. -/
def Desc.fe (d : Desc) : Bool := d.flags.testBit 0

/-- The number of elements a part moves (R248). -/
def Desc.count (d : Desc) : Nat := (d.sizes.take d.ndim).foldl (· * ·) 1

/-- Bytes of a source element. -/
def Desc.ssz (d : Desc) : Nat := 2 ^ d.esize

/-- Bytes of a destination element: those of the destination type for CRED (minor 4), else the element's
(R261). -/
def Desc.dsz (d : Desc) (minor : Nat) : Nat := if minor = 4 then (if d.redop.testBit 3 then 2 else 4) else 2 ^ d.esize

/-- The indices of element k, innermost first (R248). -/
def digits : List Nat → Nat → List Nat
  | [], _ => []
  | n :: t, k => k % n :: digits t (k / n)

/-- The offset that some indices give with some strides. -/
def dotInt : List Nat → List Int → Int
  | i :: is, x :: xs => (i : Int) * x + dotInt is xs
  | _, _ => 0

/-- Where element k of a part is read (R248, R260). -/
def Desc.srcOf (d : Desc) (minor : Nat) (idx : List Int) (k : Nat) : Int :=
  let i := digits (d.sizes.take d.ndim) k
  if minor = 2 then d.src + nth 0 idx (nth 0 i 1) * nth 0 d.sstr 1 + nth 0 i 0 * nth 0 d.sstr 0
  else d.src + dotInt i d.sstr

/-- Where element k of a part is written (R248, R260). -/
def Desc.dstOf (d : Desc) (minor : Nat) (idx : List Int) (k : Nat) : Int :=
  let i := digits (d.sizes.take d.ndim) k
  if minor = 3 then d.dst + nth 0 idx (nth 0 i 1) * nth 0 d.dstr 1 + nth 0 i 0 * nth 0 d.dstr 0
  else d.dst + dotInt i d.dstr

/-- The descriptor of a part that is not empty. -/
def Part.parsed (p : Part) : Option Desc := p.desc.map parseDesc

/-- The index list of a part, kept after its descriptor once it has been read (R260). -/
def wordsOf : List Byte → List Int
  | a :: b :: c :: d :: t => (BitVec.ofNat 32 (leNat [a, b, c, d])).toInt :: wordsOf t
  | _ => []

def Part.index (p : Part) : List Int := wordsOf ((p.desc.getD []).drop 128)

/-- The parts that carry a descriptor, in rank order. -/
def streamParts (ps : List Part) : List (Part × Desc) := ps.filterMap fun p => p.parsed.map fun d => (p, d)

/-- The stream bytes of a part (R248). -/
def partBytes (x : Part × Desc) : Nat := x.2.count * x.2.dsz x.1.minor

/-- The stream bytes of a collective. -/
def streamBytes (l : List (Part × Desc)) : Nat := l.foldl (fun n x => n + partBytes x) 0

/-- The part that holds a stream byte, and the byte's place in the part. -/
def locate : List (Part × Desc) → Nat → Option (Part × Desc × Nat)
  | [], _ => none
  | x :: t, k => if k < partBytes x then some (x.1, x.2, k) else locate t (k - partBytes x)

/-- The stream bytes of a chunk. -/
def chunkBytes (total c : Nat) : List Nat := (upto (min 512 (total - 512 * c))).map (512 * c + ·)

/-- The number of chunks of a collective. -/
def Coll.chunks (c : Coll) : Nat := (streamBytes (streamParts c.parts) + 511) / 512

/-- The destination of stream byte k: its part's descriptor and its address. -/
def destOf (l : List (Part × Desc)) (k : Nat) : Option (Desc × Int) :=
  match locate l k with
  | none => none
  | some (p, d, j) =>
    let z := d.dsz p.minor
    some (d, d.dstOf p.minor p.index (j / z) + (j % z : Nat))

/-- The flat address of a destination byte in S or D. -/
def flatDest (b : Block) (d : Desc) (a : Int) : Option Nat :=
  if d.dsp = 1 ∧ 0 ≤ a ∧ a < 1048576 then some (atS b.uid a.toNat)
  else if d.dsp = 2 ∧ 0 ≤ a ∧ a < 33554432 then some (atD b.die a.toNat)
  else none

/-- Whether chunk c's bit is set in the chunk object of a collective that started with the object's present
generation (R179, R251). -/
def State.chunkBit (s : State) (b : Block) (c : Coll) (n : Nat) : Bool :=
  memNat s.mem (atS b.uid (c.obj + 36)) 4 == c.gen.toNat
    && (memGet s.mem (atS b.uid (c.obj + n / 8))).getLsbD (n % 8)

/-- The unlanded destination bytes of a collective among n bytes at a flat address: for each whether its
copy uses the full-empty option. -/
def State.unlandedIn (s : State) (b : Block) (c : Coll) (a n : Nat) : List Bool :=
  let l := streamParts c.parts
  let total := streamBytes l
  ((upto c.chunks).filter fun k => !s.chunkBit b c k).flatMap fun k =>
    (chunkBytes total k).filterMap fun j =>
      match destOf l j with
      | none => none
      | some (d, x) =>
        match flatDest b d x with
        | none => none
        | some p => if a ≤ p ∧ p < a + n then some d.fe else none

/-- Whether n bytes at a flat address fail the third check of R179. A waiting load may stand on bytes whose
copies all use the full-empty option. -/
def State.activeCopy (s : State) (a n : Nat) (waits : Bool) : Bool :=
  ((s.b :: s.blocks).filter fun b => b.uid != 0).any fun b => b.colls.any fun c =>
    !c.kill && (s.unlandedIn b c a n).any fun fe => !(waits && fe)

end Sys2Proof.Machine
end

