-- ==== Sys2Proof/Machine/Lsu.lean ====
section
/-! DEFINITION. Machine/Lsu.lean: loads, stores and GST (R167 to R188): their checks at issue, lane kills,
the order of their accesses (R193 to R197), granules and parked words, and their completion. -/

namespace Sys2Proof.Machine

open Sys2Proof

/-! ## What a word's fields name -/

/-- Registers of an operand of a size code (R54). -/
def sizeRegs (z : BitVec 2) : Nat := 2 ^ z.toNat

/-- The scope of the acquire or release of a word by its space (R184, R191). -/
def Space.scope : Space → Nat
  | .l => 0
  | .s => 1
  | .c => 2
  | .d => 3
  | .g => 4

/-- Whether a word waits for full granules (R177). -/
def MemKind.waits : MemKind → Bool
  | .ldw | .ldt => true
  | _ => false

/-- Whether a word writes memory. -/
def MemKind.writes : MemKind → Bool
  | .st | .stf | .strel | .stx | .gst | .atom => true
  | _ => false

/-! ## Holding back (R40, R56, R177, R311) -/

/-- Whether flag f is pending in a slice of the issuing group (R56). -/
def State.flagHold (s : State) (f : Nat) : Bool :=
  decide (f < 12) && s.group.any fun i => (s.src.slice i).flags.any fun r => r.flag == f

/-- Whether the gang already holds sixteen outstanding words (R311). -/
def State.fullFlights (s : State) : Bool := decide (16 ≤ s.src.flights.length)

/-- Whether a class counter stands at 63, so that no further operation of it issues (R198). -/
def State.kHold (s : State) (cls : Nat) : Bool := decide (63 ≤ s.src.kcount cls)

/-- Words parked in the granule wait table of the core in focus (R177). -/
def State.parkedHere (s : State) : Nat :=
  (s.allGangs.filter fun g => match s.findBlock g.block with
    | some b => b.die == s.c.die && b.core == s.c.idx
    | none => false).foldl (fun n g => n + (g.flights.filter fun f => f.parked.isSome).length) 0

/-! ## Checks at issue -/

/-- The cause for which lane L fails the checks of R179: 0 none, 1 out of range, 2 misaligned, 3 destination
of an active copy. -/
def State.laneFault (s : State) (sp : Space) (perm : Nat) (waits : Bool) (L a size : Nat) : Nat :=
  match s.spadAt s.g s.b sp perm L a size with
  | none => 1
  | some p => if a % size ≠ 0 then 2 else if sp != .l && s.activeCopy p size waits then 3 else 0

/-- Lanes killed at issue (R180). -/
def State.killLanes (s : State) (lanes : List Nat) (cause : Nat) : State :=
  if lanes.isEmpty then s else ({ s with g := s.g.kill lanes cause }).count 0x01C lanes.length

/-- The flag of a word set pending in every slice of the issuing group, with its window; or the group made
to wait for a synchronous word (R56, R58). -/
def State.openFlag (s : State) (flag look id : Nat) : State :=
  if flag < 12 then
    let set (_ : Nat) (sl : Slice) : Slice :=
      { sl with flags := sl.flags ++ [{ flag := flag, op := id, win := look + s.iss.idx + 1 }] }
    { s with g := s.g.modSlices s.group set }
  else s.awaitWords s.group [id]

/-- Whether a slice of the issuing group has closed its witness, in an earlier chain or by an earlier word of this one (R190,
R410). -/
def State.closedIssue (s : State) : Bool := s.group.any fun i => (s.g.slice i).closed

/-- A long-latency word in flight, with the next identity. -/
def State.launchFlight (s : State) (f : Flight) : State :=
  ({ s with g := { s.g with flights := s.g.flights ++ [f] }, next := s.next + 1 }).later (f.event s.g.uid)

/-- A word of a set of lanes captured at issue (R190, R317). -/
def State.newFlight (s : State) (op : MemOp) (word : Word) (flag : Nat) (exec : List Nat) : Flight :=
  { id := s.next, op := op, word := word, pc := s.iss.wpc, slice := s.group.headD 0, slices := sliceMask s.group
    flag := flag, exec := laneMask exec, remain := laneMask exec, addr := [], data := [], casv := []
    late := s.closedIssue }

/-! ## Scratchpad words at issue (R184, R185) -/

/-- Whether lane L of a waiting load would wait: it passes its checks and its granule is empty (R177, R179). -/
def State.wouldWait (s : State) (op : MemOp) (a L : Nat) : Bool :=
  let off := (s.src.val a L).toNat
  s.laneFault op.space 2 true L off op.size == 0
    && match s.spadAt s.g s.b op.space 2 L off op.size with
      | some p => !granFull s.empty p
      | none => false

/-- Whether a word is held back: its flag, the sixteen words, or a granule it would wait for while the wait
table is full. -/
def State.spadHold (s : State) (op : MemOp) (a flag : Nat) : Bool :=
  s.flagHold flag || s.fullFlights || (op.kind.waits && decide (32 ≤ s.parkedHere) && s.lanes.any (s.wouldWait op a))

/-- A scratchpad word once its operands are known to be good. -/
def State.issueSpad (s : State) (op : MemOp) (word : Word) (d nd a flag look : Nat) : State :=
  let addr (L : Nat) : Nat := (s.src.val a L).toNat
  let perm := if op.kind.writes then 3 else 2
  let cause (L : Nat) : Nat := s.laneFault op.space perm op.kind.waits L (addr L) op.size
  let bad := s.lanes.filter fun L => cause L != 0
  let exec := s.lanes.filter fun L => cause L == 0
  let place (L : Nat) : Nat := (s.spadAt s.g s.b op.space perm L (addr L) op.size).getD 0
  let wait := op.kind.waits && exec.any fun L => !granFull s.empty (place L)
  let f := s.newFlight op word flag exec
  let f := { f with
    addr := exec.map fun L => (L, BitVec.ofNat 64 (addr L))
    place := exec.map fun L => (L, place L)
    data := if op.kind.writes then exec.map fun L => (L, s.src.valN nd d L) else []
    parked := if wait then some s.next else none }
  let s := s.killLanes bad (cause (bad.headD 0))
  let s := if wait then s.count 0x009 1 else s
  let s := s.openFlag flag look f.id
  let s := if op.kind == .lda then { s with g := { s.g with fences := s.g.fences ++ [{ at_ := f.id, waits := [f.id], writesOnly := false, scope := op.space.scope }] } } else s
  s.launchFlight f

/-- A scratchpad load (R184). -/
def State.load (s : State) (op : MemOp) (word : Word) (nd a flag look : Nat) : State :=
  if s.spadHold op a flag then s.hold
  else s.withDest (nd, op.reg) [(1, a)] fun s => s.issueSpad op word op.reg nd a flag look

/-- A scratchpad store (R185). -/
def State.store (s : State) (op : MemOp) (word : Word) (nd a flag look : Nat) : State :=
  if s.spadHold op a flag then s.hold
  else s.withRegs [(nd, op.reg), (1, a)] fun s => s.issueSpad op word op.reg nd a flag look

/-- The word of an instruction, as TRAP.Q shows it (R316). Its chain bit is set but in the last word of the
chain (R40). -/
def wordOf (s : State) (i : Instr) : Word :=
  let chain : Word := if s.iss.idx + 1 < s.iss.len then 0x80000000 else 0
  ((encode i).getD 0) ||| chain

/-- LD (R184). -/
def execLd (d a : BitVec 6) (f l : BitVec 4) (sp z : BitVec 2) (s : State) : Res :=
  .next (s.load { kind := .ld, space := spaceOf sp, size := 4 * sizeRegs z, reg := d.toNat } (wordOf s (.ld false d a f l sp z))
    (sizeRegs z) a.toNat f.toNat l.toNat)

/-- LDW (R177, R184). -/
def execLdw (d a : BitVec 6) (f l : BitVec 4) (sp : BitVec 1) (z : BitVec 2) (s : State) : Res :=
  .next (s.load { kind := .ldw, space := spaceSD sp, size := 4 * sizeRegs z, reg := d.toNat } (wordOf s (.ldw false d a f l sp z))
    (sizeRegs z) a.toNat f.toNat l.toNat)

/-- LDT (R177, R184). -/
def execLdt (d a : BitVec 6) (f l : BitVec 4) (sp : BitVec 1) (z : BitVec 2) (s : State) : Res :=
  .next (s.load { kind := .ldt, space := spaceSD sp, size := 4 * sizeRegs z, reg := d.toNat } (wordOf s (.ldt false d a f l sp z))
    (sizeRegs z) a.toNat f.toNat l.toNat)

/-- LDA (R184). -/
def execLda (d a : BitVec 6) (f l : BitVec 4) (sp z : BitVec 2) (s : State) : Res :=
  .next (s.load { kind := .lda, space := spaceOf sp, size := 4 * sizeRegs z, reg := d.toNat } (wordOf s (.lda false d a f l sp z))
    (sizeRegs z) a.toNat f.toNat l.toNat)

/-- LDX (R184): types s8, n8, s16, n16. -/
def execLdx (d a : BitVec 6) (f l : BitVec 4) (sp z : BitVec 2) (s : State) : Res :=
  .next (s.load { kind := .ldx, space := spaceOf sp, size := if z.getLsbD 1 then 2 else 1, signed := !z.getLsbD 0, reg := d.toNat }
    (wordOf s (.ldx false d a f l sp z)) 1 a.toNat f.toNat l.toNat)

/-- ST (R185). -/
def execSt (d a : BitVec 6) (f l : BitVec 4) (sp z : BitVec 2) (s : State) : Res :=
  .next (s.store { kind := .st, space := spaceOf sp, size := 4 * sizeRegs z, reg := d.toNat } (wordOf s (.st false d a f l sp z))
    (sizeRegs z) a.toNat f.toNat l.toNat)

/-- STF (R185). -/
def execStf (d a : BitVec 6) (f l : BitVec 4) (sp : BitVec 1) (z : BitVec 2) (s : State) : Res :=
  .next (s.store { kind := .stf, space := spaceSD sp, size := 4 * sizeRegs z, reg := d.toNat } (wordOf s (.stf false d a f l sp z))
    (sizeRegs z) a.toNat f.toNat l.toNat)

/-- STREL (R185). -/
def execStrel (d a : BitVec 6) (f l : BitVec 4) (sp z : BitVec 2) (s : State) : Res :=
  .next (s.store { kind := .strel, space := spaceOf sp, size := 4 * sizeRegs z, reg := d.toNat } (wordOf s (.strel false d a f l sp z))
    (sizeRegs z) a.toNat f.toNat l.toNat)

/-- STX (R185): sizes b8, b16. -/
def execStx (d a : BitVec 6) (f l : BitVec 4) (sp : BitVec 2) (z : BitVec 1) (s : State) : Res :=
  .next (s.store { kind := .stx, space := spaceOf sp, size := if z = 1 then 2 else 1, reg := d.toNat } (wordOf s (.stx false d a f l sp z))
    1 a.toNat f.toNat l.toNat)

/-! ## GST at issue (R186) -/

/-- The lowest lane whose G address is not canonical or not a multiple of the size (R186, R207). -/
def State.badVa (s : State) (a size : Nat) : Option Nat :=
  s.lanes.find? fun L => (s.src.val64 a L).extractLsb' 48 16 != 0 || (s.src.val64 a L).toNat % size != 0

/-- The place by which accesses of a gang to G are kept in order: their virtual address. -/
def atVa (va : Nat) : Nat := 2 ^ 110 + va

/-- Whether GST is held back. -/
def State.gstHold (s : State) (flag : Nat) : Bool := s.flagHold flag || s.fullFlights || s.kHold 1

/-- GST (R186). -/
def execGst (d : BitVec 6) (a : BitVec 5) (f l : BitVec 4) (z : BitVec 2) (s : State) : Res :=
  let n := sizeRegs z
  let a' := 2 * a.toNat
  .next (
    if s.gstHold f.toNat then s.hold
    else s.withRegs [(n, d.toNat), (2, a')] fun s =>
      match s.badVa a' (4 * n) with
      | some L => s.fault 6 0 (s.src.val64 a' L)
      | none =>
        let exec := s.lanes
        let kid := s.next
        let s := s.addK 1 .plain
        let fl := s.newFlight { kind := .gst, space := .g, size := 4 * n, reg := d.toNat } (wordOf s (.gst false d a f l z)) f.toNat exec
        let fl := { fl with
          addr := exec.map fun L => (L, s.src.val64 a' L)
          place := exec.map fun L => (L, atVa (s.src.val64 a' L).toNat)
          data := exec.map fun L => (L, s.src.valN n d.toNat L)
          kid := some kid, walked := exec.isEmpty }
        (s.openFlag f.toNat l.toNat fl.id).launchFlight fl)

/-! ## The order of accesses (R193, R194) -/

/-- Whether a later access of the gang in focus awaits a word: not what stands in its own trap frame, which is performed
after its handler (R320). -/
def State.awaits (s : State) (id : Nat) : Bool := s.isOut id && !s.g.entries.any fun f => f.id == id

/-- Whether the gang in focus is the only agent within a scope of it (R191). -/
def State.aloneIn (s : State) (scope : Nat) : Bool :=
  match scope with
  | 0 => true
  | 1 => s.allGangs.all fun x => x.uid == s.g.uid || x.live == 0 || x.block != s.g.block
  | 2 =>
    let near (b : Block) : Bool := b.die == s.b.die && b.core / 8 == s.b.core / 8
    let blocks := (s.allBlocks.filter near).map Block.uid
    s.allGangs.all fun x => x.uid == s.g.uid || x.live == 0 || !blocks.contains x.block
  | _ => false

/-- Whether a write may be overtaken although an order of a scope stands before the later access: the gang cannot see it,
and no other agent is within the scope (R191; DESIGN CHOICE, log 10). -/
def State.unseen (s : State) (scope : Nat) (x : Flight) : Bool :=
  x.op.kind.writes && x.op.kind != .atom && s.aloneIn scope && Config.outOfScope s.ctr

/-- Whether the fences before a word let it perform its accesses (R194, R200, R204); STREL waits for every
covered access before it (R185). -/
def State.mayPerform (s : State) (f : Flight) : Bool :=
  let free (scope w : Nat) : Bool := s.g.flights.any fun x => x.id == w && s.unseen scope x
  (s.g.fences.all fun r =>
      !(decide (r.at_ < f.id) && (!r.writesOnly || f.op.kind.writes)) || r.waits.all fun w => !s.awaits w || free r.scope w)
    && (f.op.kind != .strel || s.g.flights.all fun x => !(decide (x.id < f.id) && x.op.covered) || s.unseen f.op.space.scope x)

/-- Whether an earlier word of the gang still has an access to a byte of lane L's (R193). -/
def Gang.blockedLane (g : Gang) (f : Flight) (L : Nat) : Bool :=
  let p := Store.get 0 f.place L
  g.flights.any fun x => decide (x.id < f.id) && (maskLanes x.remain).any fun K =>
    let q := Store.get 0 x.place K
    decide (q < p + f.op.size) && decide (p < q + x.op.size)

/-- The word with an identity among those in flight. -/
def Gang.flight (g : Gang) (id : Nat) : Option Flight := g.flights.find? fun f => f.id == id

def Gang.setFlight (g : Gang) (f : Flight) : Gang := { g with flights := g.flights.map fun x => if x.id = f.id then f else x }

/-! ## The end of a word -/

/-- Orders with nothing left to wait for go, but for those of a draining FENCE that has an abort to raise. -/
def State.settleOrders (s : State) : State :=
  let due (r : FenceRec) : Bool := (r.drain.map Drain.hit).getD false
  { s with g := { s.g with fences := s.g.fences.filter fun r => r.waits.any s.isOut || due r } }

/-- A word has completed: its flag clears in each slice whose pending flag belongs to it (R56, R320), a slice that awaits
it synchronously goes on, its operation is done, and orders with nothing left to wait for go. -/
def State.endFlight (s : State) (f : Flight) : State :=
  let clear (sl : Slice) : Slice :=
    { sl with flags := sl.flags.filter fun r => r.op != f.id, sync := sl.sync.filter fun o => o != f.id }
  let s := { s with g := { s.g with
    flights := s.g.flights.filter fun x => x.id != f.id
    slices := s.g.slices.map clear } }
  let s := s.settleOrders
  match f.kid with
  | some k => s.doneK s.g.uid k
  | none => s

/-- A word faults after issue (R181, R186, R310): it keeps its cause, and the gang stops. A gang that has
retired meanwhile only loses the word. -/
def State.faultWord (s : State) (f : Flight) (code info : Nat) (addr : DWord) : State :=
  if s.g.live = 0 then s.endFlight f
  else
    let s := { s with g := s.g.setFlight { f with cause := code, info := info, faddr := addr } }
    let i := if s.g.live.getLsbD f.slice then f.slice else ((upto 8).filter s.g.live.getLsbD).headD 0
    s.raise { code := code, info := info, pc := f.pc, addr := addr, slice := f.slice
              group := sliceMask (s.g.group (s.g.slice i).grp), opid := some f.id }

/-- A long-latency word's destination is held no longer in the register cache (R79). -/
def State.dropCached (s : State) (n : Nat) (f : Flight) : State :=
  { s with g := (regDests n f.op.reg).foldl (Gang.uncacheReg f.slices) s.g }

/-- A load's destination written for the lanes that have their values (R184, R71, R76). While the window of
the word is open, a general destination may be written lane by lane (R58); the word completes once every
lane has been. A uniform destination is written once, and while the flag is pending a word may still read the value
before it (R58, R77); the flag clears at a step after that. -/
def State.deliver (s : State) (n : Nat) (f : Flight) : State :=
  let lanes := maskLanes f.exec
  let val (L : Nat) : BitVec 128 := Store.get 0 f.got L
  let opened := s.g.stop.isNone && s.g.slices.any fun sl => sl.flags.any fun r => r.op == f.id && decide (0 < r.win)
  let s := s.dropCached n f
  match s.g.shape f.op.reg with
  | .general =>
    let chosen := (f.got : Store (BitVec 128)).filter fun (p : Nat × BitVec 128) => !opened || Config.windowNew s.ctr p.1
    let now := if chosen.isEmpty then f.got else chosen
    let s := { s with g := s.g.writeN n f.op.reg (now.map Prod.fst) val }
    let f := { f with got := f.got.filter fun p => !now.contains p }
    if f.got.isEmpty then s.endFlight f else ({ s with g := s.g.setFlight f }).later (f.event s.g.uid)
  | .uniform _ =>
    if f.half || (Store.find f.got (leader lanes)).isNone then s.endFlight f
    else
      let g := ((regDests n f.op.reg).foldl Gang.keepOld s.g).writeN n f.op.reg lanes val
      ({ s with g := g.setFlight { f with half := true } }).later (f.event s.g.uid)
  | _ => s.endFlight f

/-! ## Conflicts (R174) -/

/-- The bank of a 4-byte word, numbered with its slice in D and with the core in C (R169 to R172). -/
def bankOf (sp : Space) (L off : Nat) : Nat :=
  match sp with
  | .l => (L + off / 4) % 32
  | .c => 32 * (off / 4096 % 8) + off / 4 % 32
  | .d => 32 * (off / 512 % 16) + off / 4 % 32
  | _ => off / 4 % 32

/-- The 4-byte words a lane touches: each with its bank and an identity. -/
def wordsTouched (sp : Space) (L off place size : Nat) : List (Nat × Nat) :=
  (upto ((off + size + 3) / 4 - off / 4)).map fun i => (bankOf sp L (4 * (off / 4 + i)), place / 4 + i)

/-- The largest number of distinct words in one bank. -/
def worstBank (ws : List (Nat × Nat)) : Nat :=
  let d := ws.eraseDups
  d.foldl (fun m w => max m (d.filter fun x => x.1 == w.1).length) 0

/-- The conflict cost K of a word's lanes (R174). -/
def conflictCost (f : Flight) (lanes : List Nat) : Nat :=
  let per := if f.op.size = 16 then 8 else if f.op.size = 8 then 16 else 32
  (upto (32 / per)).foldl (fun k ph =>
    let ls := lanes.filter fun L => L / per == ph
    k + (worstBank (ls.flatMap fun L => wordsTouched f.op.space L (Store.get 0 f.addr L).toNat (Store.get 0 f.place L) f.op.size) - 1)) 0

/-! ## Uncorrectable data in a scratchpad (R181) -/

/-- The lanes whose access meets an uncorrectable error, reported: they are withheld. -/
def State.ueLanes (s : State) (f : Flight) (lanes : List Nat) : List Nat :=
  lanes.filter fun L =>
    let p := Store.get 0 f.place L
    if f.op.kind.writes && f.op.kind != .atom then partUE s.ue p f.op.size else hasUE s.ue p f.op.size

/-- The report of the errors that some lanes met (R32). -/
def State.reportLanes (s : State) (f : Flight) (lanes : List Nat) : State :=
  s.reportAll (s.markedIn (lanes.map fun L => (Store.get 0 f.place L, f.op.size))) s.g.task

/-! ## Completion of scratchpad words -/

/-- The value a load reads in a lane: sign-extended for a signed LDX (R184). -/
def State.loadValue (s : State) (f : Flight) (L : Nat) : BitVec 128 :=
  let n := memNat s.mem (Store.get 0 f.place L) f.op.size
  if f.op.signed then
    ((if f.op.size = 1 then (BitVec.ofNat 8 n).signExtend 32 else (BitVec.ofNat 16 n).signExtend 32) : Word).setWidth 128
  else BitVec.ofNat 128 n

/-- Whether another parked word that parked earlier waits on a granule (R177). -/
def State.olderWaiter (s : State) (f : Flight) (gr : Nat) : Bool :=
  s.allGangs.any fun g => g.flights.any fun x =>
    x.id != f.id && x.op.kind.waits
      && (match x.parked, f.parked with
          | some k, some m => decide (k < m)
          | some _, none => true
          | none, _ => false)
      && (maskLanes x.remain).any fun K => Store.get 0 x.place K / 16 == gr

/-- The lanes of an LDW or LDT that are served now: those on one granule together (R177). -/
def State.servedNow (s : State) (f : Flight) : List Nat :=
  let left := maskLanes f.remain
  let gran (L : Nat) : Nat := Store.get 0 f.place L / 16
  left.filter fun L =>
    granFull s.empty (Store.get 0 f.place L) && !s.olderWaiter f (gran L)
      && left.all fun K => gran K != gran L || !s.g.blockedLane f K

/-- Lanes of a load read: their values are kept with the word, and LDT empties their granules (R178). -/
def State.readLanes (s : State) (f : Flight) (lanes : List Nat) : State × Flight :=
  let got := lanes.foldl (fun g L => Store.put g L (s.loadValue f L)) f.got
  let f := { f with got := got, remain := f.remain &&& ~~~(laneMask lanes) }
  let empty := if f.op.kind == .ldt then lanes.foldl (fun e L => setEmpty e (Store.get 0 f.place L) f.op.size) s.empty else s.empty
  ({ s with empty := empty }, f)

/-- A word that cannot go on now is looked at again. -/
def State.again (s : State) (f : Flight) : State := s.later (f.event s.g.uid)

/-- A waiting load that has lanes left takes an entry of the wait table, if one is free (R177). Where none is, it waits
without an entry (DESIGN CHOICE, log 38). -/
def State.park (s : State) (f : Flight) : State :=
  if f.parked.isSome || 32 ≤ s.parkedHere then ({ s with g := s.g.setFlight f }).again f
  else
    let f := { f with parked := some s.next }
    (({ s with g := s.g.setFlight f, next := s.next + 1 }).count 0x009 1).again f

/-- What a parked word does when one of its granules has become full: the lanes on it are served (R177). The word completes
at its own step. -/
def State.serveWord (s : State) (id : Nat) : State :=
  match s.g.flight id with
  | none => s
  | some f =>
    let lanes := if s.mayPerform f then s.servedNow f else []
    let bad := s.ueLanes f lanes
    if lanes.isEmpty || f.cause != 0 || s.g.mode == .halted then s
    else
      let (s', f') := s.readLanes f (lanes.filter fun L => !bad.contains L)
      let f' := if f'.remain = 0 then { f' with parked := none } else f'
      let s' := ({ s' with g := s'.g.setFlight f' }).count 0x007 (conflictCost f lanes)
      if bad.isEmpty then s' else (s'.reportLanes f bad).faultWord f' 7 0 (Store.get 0 f.addr (bad.headD 0))

/-- The parked words with a lane on one of some granules, in the order in which they parked: gang and word. -/
def State.waiters (s : State) (grans : List Nat) : List (Nat × Nat) :=
  let at_ (f : Flight) : Bool := (maskLanes f.remain).any fun L => grans.contains (Store.get 0 f.place L / 16)
  let all : Store (Nat × Nat) := s.allGangs.foldl (fun m g =>
    g.flights.foldl (fun m f =>
      match f.parked with
      | some k => if at_ f then Store.put m k (g.uid, f.id) else m
      | none => m) m) []
  all.map Prod.snd

/-- Granules have become full: the parked words waiting on them are served, in the order in which they parked (R177,
R178). -/
def State.serveGrans (s : State) (grans : List Nat) : State :=
  let l := s.waiters grans
  if l.isEmpty then s else (l.foldl (fun s w => (s.focus w.1).serveWord w.2) s).focusAs s

/-- What a scratchpad load does when its event comes (R175, R177, R181, R184). -/
def State.stepLoad (s : State) (f : Flight) : State :=
  let left := maskLanes f.remain
  if left.isEmpty then s.deliver f.op.regs f
  else if !s.mayPerform f then s.again f
  else
    let free := left.filter fun L => !s.g.blockedLane f L
    let lanes := if f.op.kind.waits then s.servedNow f else if free.length = left.length then left else []
    let bad := s.ueLanes f lanes
    if !bad.isEmpty then
      let good := lanes.filter fun L => !bad.contains L
      let (s', f') := if f.op.kind.waits then s.readLanes f good else (s, f)
      ((s'.reportLanes f bad).faultWord f' 7 0 (Store.get 0 f.addr (bad.headD 0)))
    else
      let (s', f') := s.readLanes f lanes
      let s' := if lanes.isEmpty then s' else s'.count 0x007 (conflictCost f lanes)
      if f'.remain = 0 then ({ s' with g := s'.g.setFlight { f' with parked := none } }).deliver f.op.regs { f' with parked := none }
      else if f.op.kind.waits then s'.park f' else s'.again f'

/-- SCRATCHPAD_LOAD_COMPLETE (R184). -/
def execScratchpadLoadComplete (gang op : Nat) (s : State) : Res :=
  let s := s.focus gang
  .next (
    match s.g.flight op with
    | none => s
    | some f => if f.cause != 0 || s.g.uid != gang then s else s.stepLoad f)

/-- Lanes of a store written, the highest lane's byte last (R174); STF sets the granules full (R176). -/
def State.writeLanes (s : State) (f : Flight) (lanes : List Nat) : State :=
  lanes.foldl (fun s L =>
    let p := Store.get 0 f.place L
    { s with
      mem := memWriteNat s.mem p f.op.size (Store.get 0 f.data L).toNat
      ue := clearUE s.ue p f.op.size
      empty := if f.op.kind == .stf then setFull s.empty p f.op.size else s.empty }) s

/-- What a scratchpad store does when its event comes (R175, R181, R185). An error in a word that it
overwrites whole is still counted against the unit. -/
def State.stepStore (s : State) (f : Flight) : State :=
  let left := maskLanes f.remain
  if left.isEmpty then s.endFlight f
  else if !s.mayPerform f || left.any fun L => s.g.blockedLane f L then s.again f
  else
    let bad := s.ueLanes f left
    let good := left.filter fun L => !bad.contains L
    let whole := s.markedIn (good.map fun L => (Store.get 0 f.place L, f.op.size))
    let s := whole.foldl (fun s p =>
      let u := s.unitAt p
      s.recordFault 0 u.1 u.2.1 u.2.2.1 u.2.2.2 (s.task s.g.task).record.opid true) s
    let s := (s.writeLanes f good).count 0x007 (conflictCost f left)
    let s := if f.op.kind == .stf then s.serveGrans (good.map fun L => Store.get 0 f.place L / 16) else s
    let f := { f with remain := laneMask bad }
    if bad.isEmpty then s.endFlight f
    else (s.reportLanes f bad).faultWord f 7 0 (Store.get 0 f.addr (bad.headD 0))

/-- SCRATCHPAD_STORE_COMPLETE (R185). -/
def execScratchpadStoreComplete (gang op : Nat) (s : State) : Res :=
  let s := s.focus gang
  .next (
    match s.g.flight op with
    | none => s
    | some f => if f.cause != 0 || s.g.uid != gang then s else s.stepStore f)

/-! ## G stores -/

/-- The translation of a lane's address (R347): once some lanes of a GST have been performed, the one it had then is
used where the page translates no longer (R186, R354). -/
def State.laneXlat (s : State) (need : Need) (f : Flight) (L : Nat) : Except Nat Xlat :=
  match s.translate (s.ctxOf s.b) (Store.get 0 f.addr L).toNat need with
  | .ok x => .ok x
  | .error e => match Store.find f.held L with
    | some x => .ok x
    | none => .error e

/-- The lowest lane whose page does not translate, with the INFO of the fault, 3 for an abort completion. -/
def State.xlatFault (s : State) (need : Need) (f : Flight) : Option (Nat × Nat) :=
  (maskLanes f.remain).findSome? fun L =>
    match s.laneXlat need f L with
    | .error e => some (L, e)
    | .ok _ => none

/-- The stop of a word whose translation fails in lane L with an INFO of XLT, or meets an abort completion (3), which is
reported where an error is its cause (R32, R186, R210). -/
def State.failXlat (s : State) (f : Flight) (L e : Nat) : State :=
  let a := Store.get 0 f.addr L
  let info := if f.op.kind == .atom then (if f.op.ret then 1 else 2) else 0
  let s := if e = 3 then s.reportWalk (s.ctxOf s.b) a.toNat s.g.task else s
  s.faultWord f (xlatStop info e).1 (xlatStop info e).2 a

/-- Good translations enter the caches (R352). -/
def State.cacheLanes (s : State) (need : Need) (f : Flight) : State :=
  (maskLanes f.remain).foldl (fun s L =>
    match s.laneXlat need f L with
    | .ok x => s.cache (s.ctxOf s.b) (Store.get 0 f.addr L).toNat x
    | .error _ => s) s

/-- The physical address at which a lane writes. -/
def State.lanePhys (s : State) (need : Need) (f : Flight) (L : Nat) : Nat :=
  match s.laneXlat need f L with
  | .ok x => s.writeAt s.b.uid x
  | .error _ => 0

/-- One lane of a GST performed (R186, R182, R379). -/
def State.gstLane (s : State) (f : Flight) (L : Nat) : State :=
  match s.laneXlat .write f L with
  | .error _ => s
  | .ok x =>
    let data := (Store.get 0 f.data L).toNat % 2 ^ (8 * f.op.size)
    let line := lineOf (s.writeAt s.b.uid x)
    let s := s.gWrite s.b.uid s.g.task x f.late (leBytes f.op.size data)
    let s := s.addTerm s.b.uid (sigTerm (Store.get 0 f.addr L).toNat f.op.size 0 0 data 0)
    if s.isReplay s.b.uid then s else s.usedLine s.b.die line true

/-- The translations that a GST holds on to while it is performed. -/
def State.holdXlats (s : State) (f : Flight) : Store Xlat :=
  (maskLanes f.remain).foldl (fun m L =>
    match s.laneXlat .write f L with
    | .ok x => Store.put m L x
    | .error _ => m) f.held

/-- Whether some lanes of a GST, each at a physical address, together cover a whole line (R181). -/
def coversLine (size : Nat) (phys : Nat → Nat) (lanes : List Nat) (n : Nat) : Bool :=
  ((lanes.filter fun L => lineOf (phys L) == n).map phys).eraseDups.length * size == 128

/-- What a GST does once its pages translate: the lanes whose lines the die cache owns are performed (R186, R368); lanes
that cover a bad line whole make it good; an abort completion raises ABRT (R181). -/
def State.storeLanes (s : State) (f : Flight) (left : List Nat) : State :=
  let phys (L : Nat) : Nat := s.lanePhys .write f L
  let free := left.filter fun L => !s.g.blockedLane f L
  let mended (n : Nat) : Bool := s.reachable (128 * n) && s.lineBad n && coversLine f.op.size phys free n
  let bad := left.filter fun L => !s.reachable (phys L) || s.noReply s.b.die (lineOf (phys L)) || (s.lineBad (lineOf (phys L)) && !mended (lineOf (phys L)))
  let good := free.filter fun L => !bad.contains L
  let lines := (good.map fun L => lineOf (phys L)).eraseDups
  let ready := if s.b.replay.isSome then lines else lines.filter fun n => (s.line n).enough s.b.die true
  let now := good.filter fun L => ready.contains (lineOf (phys L))
  if s.fab.bufUe.contains s.b.die && !now.isEmpty then
    let s := { s with fab := { s.fab with bufUe := s.fab.bufUe.filter (· != s.b.die) } }
    let s := s.reportUE s.b.die 0 0 0 s.g.task
    s.faultWord f 7 0 (Store.get 0 f.addr (now.headD 0))
  else
    let s' := now.foldl (fun s L => s.gstLane f L) s
    let s' := (ready.filter mended).foldl (fun s n => s.healLine n) s'
    let s' := (lines.filter fun n => !ready.contains n).foldl (fun s n => s.wantLine s.b.die n true) s'
    let f := { f with remain := f.remain &&& ~~~(laneMask now), held := s.holdXlats f }
    if f.remain = 0 then s'.endFlight f
    else if bad.length = (maskLanes f.remain).length then
      let s' := (s'.reportAll (s'.badLines (bad.map fun L => lineOf (phys L))) s'.g.task).gaveUp s'.b.die (bad.map fun L => lineOf (phys L))
      s'.faultWord f 7 0 (Store.get 0 f.addr (bad.headD 0))
    else ({ s' with g := s'.g.setFlight f }).again f

/-- What a GST does when its event comes. -/
def State.stepGst (s : State) (f : Flight) : State :=
  let left := maskLanes f.remain
  if left.isEmpty then s.endFlight f
  else match s.xlatFault .write f with
    | some (L, e) => s.failXlat f L e
    | none => s.storeLanes f left

/-- GST_COMPLETE (R186). -/
def execGstComplete (gang op : Nat) (s : State) : Res :=
  let s := s.focus gang
  .next (
    match s.g.flight op with
    | none => s
    | some f => if f.cause != 0 || s.g.uid != gang then s else s.stepGst f)

/-! ## FESET (R187) -/

/-- FESET (R187). -/
def execFeset (x y : BitVec 6) (sp v : BitVec 1) (s : State) : Res :=
  .next (
    if !s.lanes.isEmpty && s.kHold 0 then s.hold
    else s.withRegs [(1, x.toNat), (1, y.toNat)] fun s =>
      match s.lanes with
      | [] => s
      | L :: _ =>
        let start := (s.src.val x.toNat L).toNat
        let len := (s.src.val y.toNat L).toNat
        if start % 16 ≠ 0 ∨ len % 16 ≠ 0 ∨ len = 0 ∨ 1048576 < len then s.fault 3 0 0
        else match s.spadAt s.g s.b (spaceSD sp) 3 L start len with
          | none => s.fault 3 0 0
          | some base => (s.addK 0 (.feset base len (v == 1) false)).later (.fesetEffect s.g.uid s.next))

/-- Whether no older operation of a class is still to complete (R187, R264). -/
def Gang.oldestOf (g : Gang) (cls id : Nat) : Bool := g.kops.all fun k => !(k.cls == cls && decide (k.id < id)) || k.done

/-- FESET_EFFECT (R187): the bits change once every earlier k0 operation has completed; data stay. -/
def execFesetEffect (gang op : Nat) (s : State) : Res :=
  .next (
    match s.findGang gang with
    | none => s
    | some g =>
      match (g.kop op).map KOp.work with
      | some (.feset base len full false) =>
        if !g.oldestOf 0 op then s.later (.fesetEffect gang op)
        else
          let s := { s with empty := if full then setFull s.empty base len else setEmpty s.empty base len }
          let s := if full then (granules base len).foldl (fun s gr => s.serveGrans [gr]) s else s
          let s := s.modGang gang fun g =>
            { g with kops := g.kops.map fun k => if k.id = op then { k with work := .feset base len full true } else k }
          s.later (.fesetComplete gang op)
      | _ => s)

/-- FESET_COMPLETE (R265). -/
def execFesetComplete (gang op : Nat) (s : State) : Res := .next (s.doneK gang op)

end Sys2Proof.Machine
end

