-- ==== Sys2Proof/Machine/Order.lean ====
section
/-! DEFINITION. Machine/Order.lean: FENCE (R204), ATOM (R205 to R210), posted atomics and the end of walks
(R353). -/

namespace Sys2Proof.Machine

open Sys2Proof

/-! ## FENCE -/

/-- The words before a FENCE that it orders: covered ones; for acq those that read (R204). -/
def Gang.fenced (g : Gang) (acq : Bool) : List Nat :=
  (g.outstanding.filter fun f => f.op.covered && (!acq || !f.op.kind.writes || f.op.kind == .atom)).map (·.id)

/-- The posted ATOM words of the gang in focus not yet performed (R210). -/
def State.postedWords (s : State) : List Nat :=
  let waiting := (s.g.outstanding.filter fun f => f.op.kind == .atom && !f.op.ret).map (·.id)
  let sent := ((s.posted.filter fun p => p.gang == s.g.uid).map (·.word)).eraseDups
  waiting ++ sent

/-- FENCE (R204), within its scope (R191). With .drain, an abort recorded with the gang raises ABRT once every posted
ATOM before it has been performed or has met its abort (R210). -/
def execFence (r : BitVec 1) (k : BitVec 2) (sc : BitVec 3) (s : State) : Res :=
  let order : FenceRec := { at_ := s.next, waits := s.g.fenced (k == 1), writesOnly := k == 2, scope := sc.toNat }
  let posted := s.postedWords
  let drain : FenceRec :=
    { at_ := s.next, waits := posted, writesOnly := false, scope := sc.toNat
      drain := some { pc := s.iss.wpc, slice := s.group.headD 0, group := sliceMask s.group, priv := s.priv, hit := s.g.abort.isSome } }
  let s := { s with g := { s.g with fences := s.g.fences ++ order :: (if r = 1 then [drain] else []) }, next := s.next + 1 }
  .next (
    match s.g.abort with
    | some a => if r = 1 && posted.isEmpty then { s with g := { s.g with abort := none } }.stopAfter 7 2 a else s
    | none => s)

/-! ## What an ATOM computes (R207) -/

/-- An operation on each element of two values: k elements of w bits. -/
def mapElems (w k : Nat) (f : Nat → Nat → Nat) (a b : Nat) : Nat :=
  (upto k).foldl (fun v j => v + f (a / 2 ^ (w * j) % 2 ^ w) (b / 2 ^ (w * j) % 2 ^ w) % 2 ^ w * 2 ^ (w * j)) 0

/-- The format, element width and number of elements of a floating-point type (R206). -/
def atomFmt (ty : Nat) : Fmt × Nat × Nat :=
  if ty = 2 then (f32, 32, 1) else if ty = 3 then (f64, 64, 1) else if ty = 4 then (bf16, 16, 2) else (f32, 32, 2)

/-- The new value of an ATOM of w bits. -/
def atomNew (aop ty w old x nv : Nat) : Nat :=
  let sx (v : Nat) : Int := (BitVec.ofNat w v).toInt
  let fm := atomFmt ty
  if aop = 0 then (old + x) % 2 ^ w
  else if aop = 1 then (old + 2 ^ w - x % 2 ^ w) % 2 ^ w
  else if aop = 2 then (if sx x < sx old then x else old)
  else if aop = 3 then (if sx old < sx x then x else old)
  else if aop = 4 then min old x
  else if aop = 5 then max old x
  else if aop = 6 then old &&& x
  else if aop = 7 then old ||| x
  else if aop = 8 then old ^^^ x
  else if aop = 9 then x
  else if aop = 10 then (if old = x then nv else old)
  else if aop = 11 then mapElems fm.2.1 fm.2.2 (fun a b => (fadd fm.1 a b).bits) old x
  else if aop = 12 then mapElems fm.2.1 fm.2.2 (fun a b => (fminmax fm.1 false a b).bits) old x
  else mapElems fm.2.1 fm.2.2 (fun a b => (fminmax fm.1 true a b).bits) old x

/-- The new value for an operation of a word: its operands are as wide as its access. -/
def MemOp.atomValue (o : MemOp) (old x nv : Nat) : Nat :=
  let w := 8 * o.size
  atomNew o.aop o.aty w old (x % 2 ^ w) (nv % 2 ^ w)

/-! ## ATOM at issue -/

/-- Entries held in a core's posted-atomic buffer, and in a die's overflow area (R210). -/
def State.postedIn (s : State) (die core : Nat) : Nat :=
  (s.posted.filter fun p => p.die == die && p.core == core && p.slot.isNone).length
def State.spilledIn (s : State) (die : Nat) : Nat := (s.posted.filter fun p => p.die == die && p.slot.isSome).length

/-- Free entries for the core in focus, buffer and overflow area together (R210). -/
def State.postedRoom (s : State) : Nat := (4096 - s.postedIn s.b.die s.b.core) + (524288 - s.spilledIn s.b.die)

/-- One entry spilled into its die's overflow area, at the first place that none holds: 32 bytes of D are written, in a
form that no rule states (R189, R210; DESIGN CHOICE, log 15). -/
def State.spillOne (s : State) (p : Posted) : State :=
  let held := s.posted.filterMap fun q => if q.die = p.die then q.slot else none
  let slot := ((upto (held.length + 1)).find? fun k => !held.contains k).getD 0
  { s with
    posted := s.posted.map fun q => if q.id = p.id then { q with slot := some slot } else q
    mem := memWrite s.mem (atD p.die (Config.overflowArea p.die % 4097 * 4096 + 32 * slot))
      ((upto 32).map fun i => Config.spillByte (32 * p.id + i)) }

/-- The oldest entries of a full buffer spill into the die's overflow area (R210). -/
def State.spill (s : State) : State :=
  let excess := s.postedIn s.b.die s.b.core - 4096
  if excess = 0 then s
  else
    let oldest := (s.posted.filter fun p => p.die == s.b.die && p.core == s.b.core && p.slot.isNone).take excess
    let s := oldest.foldl State.spillOne s
    { s with c := s.c.count 0x00E excess none }

/-- Lanes of a no-return ATOM enter the posted-atomic buffer (R210). `xl` gives the physical place and the
leaf of each. -/
def State.post (s : State) (f : Flight) (xl : Nat → Nat × Nat) : State :=
  let ctx := s.ctxOf s.b
  let s := (maskLanes f.remain).foldl (fun s L =>
    let x := xl L
    let p : Posted :=
      { id := s.next, word := f.id, lane := L, gang := s.g.uid, block := s.b.uid, die := s.b.die, core := s.b.core, op := f.op
        addr := Store.get 0 f.addr L, phys := x.1, leaf := x.2, data := Store.get 0 f.data L, ctx := ctx, task := s.g.task, late := f.late }
    ({ s with posted := s.posted ++ [p], next := s.next + 1 }).later (.postedAtomicPerform s.next)) s
  s.spill

/-- Whether an ATOM is held back: a returning one by its flag, the sixteen words or k2, a no-return one by
the sixteen words or for want of posted entries. -/
def State.atomHold (s : State) (flag : Nat) : Bool :=
  s.fullFlights || (if flag = 15 then decide (s.postedRoom < s.lanes.length) else s.flagHold flag || s.kHold 2)

/-- An ATOM once its operands and, for G, its addresses are known to be good. -/
def State.issueAtom (s : State) (op : MemOp) (word : Word) (n d a flag : Nat) : State :=
  let g := op.space == .g
  let va (L : Nat) : DWord := if g then s.src.val64 a L else (s.src.val a L).setWidth 64
  let cause (L : Nat) : Nat := if g then 0 else s.laneFault .s 3 false L (va L).toNat op.size
  let bad := s.lanes.filter fun L => cause L != 0
  let exec := s.lanes.filter fun L => cause L == 0
  let f := s.newFlight op word flag exec
  let f := { f with
    addr := exec.map fun L => (L, va L)
    place := exec.map fun L => (L, if g then atVa (va L).toNat else (s.spadAt s.g s.b .s 3 L (va L).toNat op.size).getD 0)
    data := exec.map fun L => (L, s.src.valN n d L)
    casv := if op.aop = 10 then exec.map fun L => (L, s.src.valN n (d + n) L) else []
    walked := !g || exec.isEmpty }
  let s := s.killLanes bad (cause (bad.headD 0))
  if op.ret then
    let f := { f with id := s.next + 1, kid := some s.next }
    let s := s.addK 2 .plain
    (s.openFlag flag 15 f.id).launchFlight f
  else if g then (if exec.isEmpty then s else s.launchFlight f)
  else { s with next := s.next + 1 }.post f fun L => (Store.get 0 f.place L, 0)

/-- ATOM (R207). -/
def execAtom (d a : BitVec 6) (t : BitVec 3) (o : BitVec 4) (p : BitVec 1) (f : BitVec 4) (s : State) : Res :=
  let n := atomRegs t.toNat
  let ret := f != 15
  let addr := if p = 1 then 2 else 1
  let regs := (addr, a.toNat) :: (if o = 10 then [(n, d.toNat + n)] else [])
  let op : MemOp := { kind := .atom, space := if p = 1 then .g else .s, size := 4 * n, reg := d.toNat, aop := o.toNat, aty := t.toNat, ret := ret }
  let go (s : State) : State :=
    match (if p = 1 then s.badVa a.toNat (4 * n) else none) with
    | some L => s.fault 6 0 (s.src.val64 a.toNat L)
    | none => s.issueAtom op (wordOf s (.atom false d a t o p f)) n d.toNat a.toNat f.toNat
  .next (
    if s.atomHold f.toNat then s.hold
    else if ret then s.withDest (n, d.toNat) regs go
    else s.withRegs ((n, d.toNat) :: regs) go)

/-! ## Misses and the ends of walks (R353) -/

/-- Whether a miss is one of a die for a page of a context. -/
def Miss.of (m : Miss) (die ctx page : Nat) : Bool := m.die == die && m.ctx == ctx && m.page == page

/-- Whether a word, by its gang and identity, has merged into a miss. -/
def Miss.has (m : Miss) (gang op : Nat) : Bool := m.who.contains (gang, op)

/-- The pages of a word that no cache it reaches translates. -/
def State.missing (s : State) (f : Flight) : List Nat :=
  let pages := ((maskLanes f.remain).map fun L => (Store.get 0 f.addr L).toNat / 4096).eraseDups
  pages.filter fun p => (s.useCached s.coreCaches (s.ctxOf s.b) (4096 * p)).isNone

/-- A miss of the gang in focus for a page enters the table of its die's walker, or merges into the entry that is there;
it waits at its core while the table is full. -/
def State.enterMiss (s : State) (op page : Nat) : State :=
  let ctx := s.ctxOf s.b
  if s.misses.any fun m => m.of s.b.die ctx page then
    let join (m : Miss) : Miss := if m.of s.b.die ctx page && !m.has s.g.uid op then { m with who := m.who ++ [(s.g.uid, op)] } else m
    { s with misses := s.misses.map join }
  else if 4096 ≤ (s.misses.filter fun m => m.die == s.b.die).length then s
  else { s with misses := s.misses ++ [{ die := s.b.die, ctx := ctx, page := page, who := [(s.g.uid, op)] }] }

/-- What a word's access needs of its pages (R346). -/
def MemKind.need : MemKind → Need
  | .atom => .atom
  | _ => .write

/-- What a word in flight does when its translation returns: it faults, waits for its lines, or is posted
(R186, R210). -/
def State.stepWalk (s : State) (f : Flight) : State :=
  let need := f.op.kind.need
  match s.xlatFault need f with
  | some (L, e) => s.failXlat f L e
  | none =>
    let s := s.cacheLanes need f
    let f := { f with walked := true }
    if f.op.kind == .atom && !f.op.ret then
      if s.postedRoom < (maskLanes f.remain).length then s.later (.walkEnd s.g.uid f.id)
      else
        let place (L : Nat) : Nat × Nat :=
          match s.laneXlat .atom f L with
          | .ok x => (s.writeAt s.b.uid x, x.leaf)
          | .error _ => (0, 0)
        let s := { s with g := { s.g with flights := s.g.flights.filter fun x => x.id != f.id } }
        s.post f place
    else ({ s with g := s.g.setFlight f }).again f

/-- A word that had merged into a walk is served if it waits for no other, or at once if the walk has failed. -/
def State.serveMiss (failed : Bool) (s : State) (who : Nat × Nat) : State :=
  let s := s.focus who.1
  match s.g.flight who.2 with
  | none => s
  | some f =>
    if s.g.uid != who.1 || f.walked || f.cause != 0 then s
    else if failed || !(s.misses.any fun m => m.has who.1 who.2) then s.stepWalk f
    else s

/-- The walk of a miss ends: its translation enters the caches, and every word that has merged into it is served or
faulted. -/
def State.endMiss (s : State) (m : Miss) : State :=
  let back := s.g.uid
  let s := { s with misses := s.misses.filter fun x => x != m }
  let r := s.walk (some m.die) m.ctx (4096 * m.page)
  let s := match r with
    | .ok (tables, x) => (s.cachePointers m.die m.ctx (4096 * m.page) 3 tables).cacheBy [512 + m.die] m.ctx (4096 * m.page) x
    | .error _ => s
  (m.who.foldl (State.serveMiss r.toBool.not) s).focus back

/-- Whether a word that has merged into a miss still awaits it. -/
def State.awaited (s : State) (m : Miss) : Bool :=
  m.who.any fun w =>
    match (s.findGang w.1).bind fun g => g.flight w.2 with
    | some f => !f.walked
    | none => false

/-- What a word that awaits its translation does: its misses reach the walker, whose first 48 are walked; the first of
its own that is walked ends. -/
def State.stepMiss (s : State) (f : Flight) : State :=
  let s := { s with misses := s.misses.filter s.awaited }
  match s.misses.filter fun m => m.has s.g.uid f.id with
  | [] =>
    match s.missing f with
    | [] => s.stepWalk f
    | ps => (ps.foldl (fun s p => s.enterMiss f.id p) s).again f
  | mine =>
    let walked := (s.misses.filter fun m => m.die == s.b.die).take 48
    match mine.find? walked.contains with
    | some m => (s.again f).endMiss m
    | none => s.again f

/-- WALK_END (R353). -/
def execWalkEnd (gang op : Nat) (s : State) : Res :=
  let s := s.focus gang
  .next (
    match s.g.flight op with
    | none => s
    | some f => if f.cause != 0 || f.walked || s.g.uid != gang then s else s.stepMiss f)

/-! ## Performing an ATOM (R207, R208) -/

/-- One lane performed in a scratchpad: the new value is written and the old one is kept. -/
def State.atomSpad (s : State) (f : Flight) (L : Nat) : State × Flight :=
  let p := Store.get 0 f.place L
  let old := memNat s.mem p f.op.size
  let new := f.op.atomValue old (Store.get 0 f.data L).toNat (Store.get 0 f.casv L).toNat
  ({ s with mem := memWriteNat s.mem p f.op.size new }, { f with got := Store.put f.got L (BitVec.ofNat 128 old) })

/-- An ATOM of G at a translated place for a task: the value before it, and the state after (R182, R207,
R379). -/
def State.atomG (s : State) (block task : Nat) (x : Xlat) (late : Bool) (op : MemOp) (va data nv : Nat) : Nat × State :=
  let w := 8 * op.size
  let old := leNat (s.seen x op.size)
  let new := op.atomValue old data nv
  let s := s.noteRead task x
  let s := s.gWrite block task x late (leBytes op.size new)
  (old, s.addTerm block (sigTerm va op.size (1 + op.aop) op.aty (data % 2 ^ w) (nv % 2 ^ w)))

/-- One lane performed at the home of its line. -/
def State.atomLaneG (s : State) (f : Flight) (L : Nat) : State × Flight :=
  match s.laneXlat .atom f L with
  | .error _ => (s, f)
  | .ok x =>
    let line := lineOf (s.writeAt s.b.uid x)
    let r := s.atomG s.b.uid s.g.task x f.late f.op (Store.get 0 f.addr L).toNat (Store.get 0 f.data L).toNat (Store.get 0 f.casv L).toNat
    (if s.b.replay.isSome then r.2 else r.2.usedLine homeHolder line true,
     { f with got := Store.put f.got L (BitVec.ofNat 128 r.1) })

/-- Every lane performed in increasing order (R208). -/
def State.atomAll (s : State) (f : Flight) (one : State → Flight → Nat → State × Flight) : State :=
  let (s', f') := (maskLanes f.remain).foldl (fun (p : State × Flight) L => one p.1 p.2 L) (s, f)
  let f' := { f' with remain := 0 }
  ({ s' with g := s'.g.setFlight f' }).deliver f'.op.regs f'

/-- What a returning ATOM does when its event comes. A faulted one has performed no lane (R209). -/
def State.stepAtom (s : State) (f : Flight) : State :=
  let left := maskLanes f.remain
  if left.isEmpty then s.deliver f.op.regs f
  else if !s.mayPerform f || left.any fun L => s.g.blockedLane f L then s.again f
  else if f.op.space != .g then
    let bad := s.ueLanes f left
    if bad.isEmpty then (s.count 0x007 (conflictCost f left)).atomAll f State.atomSpad
    else (s.reportLanes f bad).faultWord f 7 1 (Store.get 0 f.addr (bad.headD 0))
  else match s.xlatFault .atom f with
    | some (L, e) => s.failXlat f L e
    | none =>
      let phys (L : Nat) : Nat := s.lanePhys .atom f L
      let bad := left.filter fun L => !s.reachable (phys L) || s.noReply homeHolder (lineOf (phys L)) || s.lineBad (lineOf (phys L))
      if !bad.isEmpty then
        let s := s.gaveUp homeHolder (bad.map fun L => lineOf (phys L))
        let s := s.reportAll (s.badLines (bad.map fun L => lineOf (phys L))) s.g.task
        s.faultWord f 7 1 (Store.get 0 f.addr (bad.headD 0))
      else
        let r := if s.b.replay.isSome then (true, s) else s.readyLines homeHolder true ((left.map fun L => lineOf (phys L)).eraseDups)
        if r.1 then r.2.atomAll f State.atomLaneG else r.2.again f

/-- ATOM_COMPLETE (R207). -/
def execAtomComplete (gang op : Nat) (s : State) : Res :=
  let s := s.focus gang
  .next (
    match s.g.flight op with
    | none => s
    | some f => if f.cause != 0 || s.g.uid != gang then s else s.stepAtom f)

/-! ## Posted atomics (R210) -/

/-- A frame that is not versioned, at a physical address. -/
def plainXlat (phys : Nat) : Xlat :=
  { w0 := BitVec.ofNat 64 (phys / 4096) <<< 20, w1 := 0, leaf := 0, size := 4096, off := phys % 4096 }

/-- Where a posted operation of G goes: its page as it stands now, or the place found when it was posted. -/
def State.postedXlat (s : State) (p : Posted) : Xlat :=
  match s.translate p.ctx p.addr.toNat .atom with
  | .ok x => x
  | .error _ => plainXlat p.phys

/-- A draining FENCE that has a word to wait for learns of the word's abort. -/
def FenceRec.struck (word : Nat) (r : FenceRec) : FenceRec :=
  if r.waits.contains word then { r with drain := r.drain.map fun d => { d with hit := true } } else r

/-- A posted operation is not performed: the error is reported, and the abort is recorded with the gang, the first one
met (DESIGN CHOICE, log 35), or, if the gang has retired, with its task (R210). -/
def State.abortPosted (s : State) (p : Posted) (places : List Nat) : State :=
  let s := s.reportAll places p.task
  let gone := (s.allGangs ++ s.images.flatMap Image.gangs).all fun g => g.uid != p.gang || g.live == 0
  if gone then (if s.isReplay p.block then s else s.reportAbort p.task p.addr)
  else s.modGang p.gang fun g => { g with abort := some (g.abort.getD p.addr), fences := g.fences.map (FenceRec.struck p.word) }

/-- A draining FENCE of the gang in focus that has nothing left to wait for and an abort to raise: not while the gang is
stopped, nor, for a FENCE issued before a handler was entered, in the handler (R204, R210; DEDUCED, log 35). -/
def State.dueDrain (s : State) : Option FenceRec :=
  let may (d : Drain) : Bool := d.hit && s.g.stop.isNone && s.g.live != 0 && !s.b.evicting
    && (s.g.mode == .running || (d.priv && s.g.mode != .halted))
  s.g.fences.find? fun r => (r.drain.map may).getD false && r.waits.all fun w => !s.isOut w

/-- The gang in focus raises a recorded abort for a draining FENCE, which is complete (R204, R210). An abort that an
earlier FENCE has raised is raised no more. -/
def State.raiseDrained (s : State) : State :=
  match s.dueDrain with
  | none => s
  | some r =>
    let s := { s with g := { s.g with fences := s.g.fences.erase r } }
    match s.g.abort, r.drain with
    | some a, some d =>
      let i := ((bitsOf 8 d.group.toNat).find? s.g.live.getLsbD).getD d.slice
      ({ s with g := { s.g with abort := none } }).raise
        { code := 7, info := 2, pc := d.pc, addr := a, slice := d.slice, group := sliceMask (s.g.group (s.g.slice i).grp) }
    | _, _ => s

/-- A posted operation has ended, performed or not: a FENCE that drained its word may be complete (R204, R210). -/
def State.postedEnd (s : State) (p : Posted) : State :=
  let s := { s with posted := s.posted.filter fun q => q.id != p.id }.focus p.gang
  if s.g.uid == p.gang then s.raiseDrained else s

/-- POSTED_ATOMIC_PERFORM (R210). Lanes of one word that share a target keep their order (R208). -/
def execPostedAtomicPerform (op : Nat) (s : State) : Res :=
  .next (
    match s.posted.find? fun p => p.id == op with
    | none => s
    | some p =>
      let gone (s : State) : State := s.postedEnd p
      if s.posted.any fun q => q.word == p.word && q.addr == p.addr && decide (q.lane < p.lane) then s.later (.postedAtomicPerform op)
      else if p.op.space != .g then
        if hasUE s.ue p.phys p.op.size then gone (s.abortPosted p (s.markedIn [(p.phys, p.op.size)]))
        else
          let old := memNat s.mem p.phys p.op.size
          gone { s with mem := memWriteNat s.mem p.phys p.op.size (p.op.atomValue old p.data.toNat 0) }
      else
        let x := s.postedXlat p
        let phys := s.writeAt p.block x
        if !s.reachable phys || s.noReply homeHolder (lineOf phys) || s.lineBad (lineOf phys) then
          gone ((s.gaveUp homeHolder [lineOf phys]).abortPosted p (s.badLines [lineOf phys]))
        else if s.isReplay p.block then gone (s.atomG p.block p.task x p.late p.op p.addr.toNat p.data.toNat 0).2
        else
          let r := s.readyLines homeHolder true [lineOf phys]
          if r.1 then
            gone ((r.2.atomG p.block p.task x p.late p.op p.addr.toNat p.data.toNat 0).2.usedLine homeHolder (lineOf phys) true)
          else r.2.later (.postedAtomicPerform op))

end Sys2Proof.Machine
end

