-- ==== Sys2Proof/Machine/Matrix.lean ====
section
/-! DEFINITION. Machine/Matrix.lean: operand slots and accumulators as bytes (R213 to R217), what a matrix
command reads with uncorrectable elements replaced by zero (R235), and the values of the multiply-accumulate
words (R229 to R232). -/

namespace Sys2Proof.Machine

open Sys2Proof

/-! ## Slot types (R214) -/

/-- Rows and row bytes of the S image of a slot type; Q4N is one superblock. -/
def slotGeom (ty : Nat) : Nat × Nat :=
  if ty ≤ 3 then (64, 128)
  else if ty = 4 then (128, 64)
  else if ty = 5 then (1, 8452)
  else if ty = 6 then (32, 256)
  else if ty = 7 then (64, 64)
  else (64, 32)

/-- Bytes of an element. -/
def slotElem (ty : Nat) : Nat :=
  if ty ≤ 2 ∨ ty = 7 then 2 else if ty = 6 then 8 else 1

/-- Rows and row bytes of the image that TLDT reads (R224). -/
def transGeom (ty : Nat) : Nat × Nat :=
  let z := slotElem ty
  ((slotGeom ty).2 / z, (slotGeom ty).1 * z)

/-- The sparse types. -/
def isSparse (ty : Nat) : Bool := ty == 7 || ty == 8

/-! ## Reading slots, sidecars and z tiles -/

/-- The little-endian value of n bytes, zero where a protected word holds an uncorrectable error (R235). -/
def State.elem (s : State) (a n : Nat) : Nat := if hasUE s.ue a n then 0 else memNat s.mem a n

/-- A byte or field of a physical slot and of its sidecar. -/
def State.slotAt (s : State) (blk phys off n : Nat) : Nat := s.elem (atSlot blk phys off) n
def State.sideAt (s : State) (blk phys off n : Nat) : Nat := s.elem (atSide blk phys off) n

/-- Word w of a z tile (R217). -/
def State.zWord (s : State) (blk tile w : Nat) : Nat := s.elem (atZ blk tile (4 * w)) 4

/-- The nibble of group g of row i of a sparse slot: positions p0 and p1 (R216). -/
def State.nibble (s : State) (blk phys i g : Nat) : Nat × Nat :=
  let v := s.sideAt blk phys (8 * i + g / 2) 1 / 16 ^ (g % 2) % 16
  (v % 4, v / 4)

/-- The stored element that column k of row i of the expansion holds, if any (R216). -/
def State.kept (s : State) (blk phys i k : Nat) : Option Nat :=
  let p := s.nibble blk phys i (k / 4)
  if p.1 < p.2 then
    if k % 4 = p.1 then some (2 * (k / 4)) else if k % 4 = p.2 then some (2 * (k / 4) + 1) else none
  else none

/-- The bits of element (i, k) of an A slot of a type. -/
def State.elemA (s : State) (blk phys ty i k : Nat) : Nat :=
  let z := slotElem ty
  if isSparse ty then
    match s.kept blk phys i k with
    | some e => s.slotAt blk phys (i * (slotGeom ty).2 + e * z) z
    | none => 0
  else s.slotAt blk phys (i * (slotGeom ty).2 + k * z) z

/-- The bits of element (k, j) of a B slot of a type other than Q4N. -/
def State.elemB (s : State) (blk phys ty k j : Nat) : Nat :=
  let z := slotElem ty
  s.slotAt blk phys (k * (slotGeom ty).2 + j * z) z

/-- The code of element e of block b of a Q4N slot (R118). -/
def State.q4code (s : State) (blk phys b e : Nat) : Nat := s.slotAt blk phys (32 * b + e / 2) 1 / 16 ^ (e % 2) % 16

/-- The value of element e of block b of a Q4N slot: zero where its code lies in a marked word (R117, R235). -/
def State.q4elem (s : State) (blk phys b e : Nat) : FVal :=
  if hasUE s.ue (atSlot blk phys (32 * b + e / 2)) 1 then .ofInt 0 else q4val (s.q4code blk phys b e)

/-- The elements, by row and column in the tile, that the marked word at byte o of the S image of a slot type holds: for
Q4N the code bytes hold two each, a block scale is entered at the first element of its block, and the superblock scale
at element (0, 0) (R215, R237; DEDUCED, log 27). -/
def wordElems (ty o : Nat) : List (Nat × Nat) :=
  if ty = 5 then
    if o < 8192 then (upto 8).map fun e => (64 * (o / 32 % 2) + 2 * (o % 32) + e, o / 64)
    else if o < 8448 then (upto 4).map fun e => (64 * ((o - 8192 + e) % 2), (o - 8192 + e) / 2)
    else [(0, 0)]
  else
    let z := slotElem ty
    let g := slotGeom ty
    (upto (max 1 (4 / z))).map fun e => ((o + e * z) / g.2, (o + e * z) % g.2 / z)

/-- A number of n bits read as signed. -/
def signed (n v : Nat) : Int := (BitVec.ofNat n v).toInt

/-! ## The multiply-accumulate words -/

/-- The eight MMA kinds in the order of their minors; `half` selects the rows of MMASI8 (R229). -/
structure Mma where
  kind : Nat
  half : Nat := 0
  deriving DecidableEq, Repr

/-- Types of A and B that a kind admits (R229). -/
def Mma.types (m : Mma) : Nat × Nat :=
  match m.kind with
  | 0 => (0, 0)
  | 1 => (1, 1)
  | 2 => (3, 4)
  | 3 => (2, 2)
  | 4 => (6, 6)
  | 5 => (3, 5)
  | 6 => (7, 0)
  | _ => (8, 4)

/-- Rows and columns of the output. -/
def Mma.shape (m : Mma) : Nat × Nat :=
  match m.kind with
  | 4 => (32, 32)
  | 5 => (64, 128)
  | _ => (64, 64)

/-- Whether the result is a pair of z tiles. -/
def Mma.pair (m : Mma) : Bool := m.kind == 3 || m.kind == 5

/-- The z tile and the words of output element (i, j) of a command on tile zn, lowest first (R217). -/
def Mma.place (m : Mma) (zn i j : Nat) : List (Nat × Nat) :=
  match m.kind with
  | 3 => [(zn, 64 * i + j), (zn + 1, 64 * i + j)]
  | 4 => [(zn, 64 * i + 2 * j), (zn, 64 * i + 2 * j + 1)]
  | 5 => if j < 64 then [(zn, 64 * i + j)] else [(zn + 1, 64 * i + (j - 64))]
  | _ => [(zn, 64 * i + j)]

/-- The exact integer sum of some products. -/
def dotInts (n : Nat) (a b : Nat → Int) : Int := (upto n).foldl (fun v k => v + a k * b k) 0

/-- The accumulator of MMABF, MMAH and MMASBF: four blocks of 16, each rounded and added (R230). A block whose number
is in `bad` counts as zero (R235). -/
def mmaFloat (bad : List Nat) (f : Fmt) (a b : Nat → Nat) (acc : Nat) : Nat :=
  (upto 4).foldl (fun acc blk =>
    let s := if bad.contains blk then 0
      else (fdot f32 ((upto 16).map fun e => (f.val (a (16 * blk + e)), f.val (b (16 * blk + e)))) []).bits
    (fadd f32 acc s).bits) acc

/-- The accumulator of MMAF64 (R230). The product of a step in `bad` counts as zero (R235). -/
def mmaDouble (bad : List Nat) (a b : Nat → Nat) (acc : Nat) : Nat :=
  (upto 32).foldl (fun acc k => if bad.contains k then (fadd f64 0 acc).bits else (ffma f64 (a k) (b k) acc).bits) acc

/-- The accumulator of MMAQ4: for each of the two blocks of the column, its scale s and its elements (R231). The sum of
a block in `bad` counts as zero (R235). -/
def mmaQ4 (bad : List Nat) (a : Nat → Int) (v : Nat → Nat → FVal) (scale : Nat → Nat) (big : Nat) (acc : Nat) : Nat :=
  (upto 2).foldl (fun acc kb =>
    let e := if bad.contains kb then .ofInt 0
      else (fsumEx ((upto 64).map fun i => (fmulEx (FVal.ofInt (a (64 * kb + i))) (v kb i)).1)).1
    let p := (roundF f32 .rn (fmulEx (FVal.ofInt (scale kb : Nat)) e).1).bits
    (fadd f32 acc (fmul f32 p big).bits).bits) acc

/-- The new bits of output element (i, j) for operands in physical slots pa and pb, the accumulator being
`acc` (R230 to R232); `bad` are the partial results in which the array has detected an error (R235). -/
def State.mmaValue (s : State) (m : Mma) (blk pa pb i j acc : Nat) (bad : List Nat := []) : Nat :=
  let ty := m.types
  let ra (k : Nat) : Nat := s.elemA blk pa ty.1 i k
  let rb (k : Nat) : Nat := s.elemB blk pb ty.2 k j
  match m.kind with
  | 0 | 6 => mmaFloat bad bf16 ra rb acc
  | 1 => mmaFloat bad f16 ra rb acc
  | 2 => if !bad.isEmpty then acc else ((acc : Int) + dotInts 128 (fun k => signed 8 (ra k)) fun k => signed 8 (rb k)) % 2 ^ 32 |>.toNat
  | 3 => if !bad.isEmpty then acc else ((acc : Int) + dotInts 64 (fun k => signed 16 (ra k)) fun k => signed 16 (rb k)) % 2 ^ 64 |>.toNat
  | 4 => mmaDouble bad ra rb acc
  | 5 =>
    mmaQ4 bad (fun k => signed 8 (ra k)) (fun kb e => s.q4elem blk pb (2 * j + kb) e) (fun kb => s.sideAt blk pb (2 * j + kb) 1)
      (s.sideAt blk pb 260 4) acc
  | _ =>
    if !bad.isEmpty then acc else ((acc : Int) + dotInts 64 (fun k => signed 8 (ra k)) fun k => signed 8 (s.elemB blk pb ty.2 (64 * m.half + k) j)) % 2 ^ 32 |>.toNat

/-- Rows and columns of micro-tile t (R233). -/
def Mma.tile (m : Mma) (t : Nat) : List (Nat × Nat) :=
  let r := m.shape.1 / 4
  let c := m.shape.2 / 4
  (upto r).flatMap fun i => (upto c).map fun j => (t / 4 * r + i, t % 4 * c + j)

/-- A command's element as it stands in the accumulator, zero if one of its words holds an uncorrectable error (R235). -/
def State.accOf (s : State) (m : Mma) (blk zn i j : Nat) : Nat :=
  let ws := m.place zn i j
  if ws.any fun p => hasUE s.ue (atZ blk p.1 (4 * p.2)) 4 then 0 else ws.foldr (fun p v => s.zWord blk p.1 p.2 + 2 ^ 32 * v) 0

/-- The words of an element written to the accumulator; they get new check bits. -/
def State.putAcc (s : State) (m : Mma) (blk zn i j v : Nat) : State :=
  ((m.place zn i j).foldl (fun (p : State × Nat) w =>
    let a := atZ blk w.1 (4 * w.2)
    ({ p.1 with mem := memWriteNat p.1.mem a 4 (p.2 % 2 ^ 32), ue := clearUE p.1.ue a 4 }, p.2 / 2 ^ 32)) (s, v)).1

/-! ## Substituted elements (R235 to R237) -/

/-- A substitution found by a command: 1 slot, 2 array, 3 accumulator, 4 S read; the unit; row and column; and the
place of the marked word, none for the array. -/
structure Subst where
  kind : Nat
  unit_ : Nat
  row : Nat
  col : Nat
  place : Option Nat
  deriving DecidableEq, Repr

/-- MX.UE and MX.UELOC after a substitution (R236, R237). -/
def Gang.substitute (g : Gang) (x : Subst) : Gang :=
  let loc : BitVec 23 :=
    if g.mxUe.getLsbD 0 then g.mxUeLoc ||| (1#23 <<< 22)
    else BitVec.ofNat 23 (x.unit_ + 32 * x.kind + 256 * x.row + 32768 * x.col)
  { g with mxUe := g.mxUe ||| 1#5 ||| (1#5 <<< x.kind), mxUeLoc := loc }

/-- A substitution recorded for a gang (R235). -/
def State.substituted (s : State) (gang : Nat) (x : Subst) : State :=
  let s := s.modGang gang fun g => g.substitute x
  { s with c := match s.findGang gang with
    | some g => s.c.count 0x014 1 (some (g.sched, s.b.prio))
    | none => s.c.count 0x014 1 none }

/-- The substitutions of a command, each element once; the marked words and the errors of the array are reported, the
latter against the die (R32, R235, R401). -/
def State.substAll (s : State) (gang task : Nat) (l : List Subst) : State :=
  let elems := (l.map fun x => { x with place := none }).eraseDups
  let s := (elems.foldl (fun s x => s.substituted gang x) s).reportAll (l.filterMap fun x => x.place).eraseDups task
  (elems.filter fun x => x.kind == 2).foldl (fun s _ => s.reportUE s.b.die 0 0 0 task) s

/-- The marked words of a range: their places relative to its start. -/
def State.marks (s : State) (a n : Nat) : List Nat :=
  (s.ue.filter fun w => decide (a / 4 ≤ w) && decide (4 * w < a + n)).map fun w => 4 * w - a

/-- The elements of an A slot that lie in marked words and that a micro-tile reads. -/
def State.substA (s : State) (m : Mma) (blk pa name t : Nat) : List Subst :=
  let g := slotGeom m.types.1
  let lo := t / 4 * (m.shape.1 / 4)
  (s.marks (atSlot blk pa 0) (g.1 * g.2)).flatMap fun o => (wordElems m.types.1 o).filterMap fun (p : Nat × Nat) =>
    if lo ≤ p.1 ∧ p.1 < lo + m.shape.1 / 4 then some { kind := 1, unit_ := name, row := p.1, col := p.2, place := some (atSlot blk pa o) } else none

/-- Whether a micro-tile reads an element of its B slot: its column is one of the tile's, and for MMASI8 its row lies in
the selected half. -/
def Mma.readsB (m : Mma) (t : Nat) (p : Nat × Nat) : Bool :=
  let lo := t % 4 * (m.shape.2 / 4)
  decide (lo ≤ p.2) && decide (p.2 < lo + m.shape.2 / 4) && (m.kind != 7 || p.1 / 64 == m.half)

/-- The same for a B slot and its columns. -/
def State.substB (s : State) (m : Mma) (blk pb name t : Nat) : List Subst :=
  (s.marks (atSlot blk pb 0) 8192).flatMap fun o => (wordElems m.types.2 o).filterMap fun (p : Nat × Nat) =>
    if m.readsB t p then some { kind := 1, unit_ := name, row := p.1, col := p.2, place := some (atSlot blk pb o) } else none

/-- The marked words of the sidecars that a micro-tile reads: the selectors of its rows; the scales of its columns and
F. F is entered at element (0, 0) (DEDUCED, log 27). -/
def State.substSide (s : State) (m : Mma) (blk pa pb na nb t : Nat) : List Subst :=
  let lo := t / 4 * (m.shape.1 / 4)
  let a := if isSparse m.types.1 then (s.marks (atSide blk pa 0) 512).filterMap fun o =>
      if lo ≤ o / 8 ∧ o / 8 < lo + m.shape.1 / 4 then some { kind := 1, unit_ := na, row := o / 8, col := o % 8 * 8, place := some (atSide blk pa o) } else none
    else []
  let scales := (s.marks (atSide blk pb 0) 256).flatMap fun o => ((wordElems 5 (8192 + o)).filter (m.readsB t)).map fun p => (o, p)
  let f := (s.marks (atSide blk pb 260) 4).map fun _ => (260, ((0, 0) : Nat × Nat))
  let b := if m.kind = 5 then (scales ++ f).map fun (x : Nat × Nat × Nat) =>
      ({ kind := 1, unit_ := nb, row := x.2.1, col := x.2.2, place := some (atSide blk pb x.1) } : Subst)
    else []
  a ++ b

/-- The partial results of an output element in which the array detects an error. -/
def Core.struck (c : Core) (p : Nat × Nat) : List Nat := (c.arrayUe.filter fun x => x.1 == p.1 && x.2.1 == p.2).map fun x => x.2.2

/-- The elements of a micro-tile in which the array detects an error (R235). -/
def State.substArray (s : State) (m : Mma) (t : Nat) : List Subst :=
  ((m.tile t).filter fun p => !(s.c.struck p).isEmpty).map fun p => { kind := 2, unit_ := 0, row := p.1, col := p.2, place := none }

/-- The marked accumulator words of a micro-tile's elements. -/
def State.substAcc (s : State) (m : Mma) (blk zn t : Nat) : List Subst :=
  if s.ue.isEmpty then []
  else (m.tile t).flatMap fun (p : Nat × Nat) => ((m.place zn p.1 p.2).filter fun w => hasUE s.ue (atZ blk w.1 (4 * w.2)) 4).map fun w =>
    { kind := 3, unit_ := w.1, row := p.1, col := p.2, place := some (atZ blk w.1 (4 * w.2)) }

/-! ## Injections (R406) -/

/-- The fields of ERR.INJ (R406). -/
def injKind (w : Word) : Nat := (w.extractLsb' 0 4).toNat
def injBit (w : Word) : Nat := (w.extractLsb' 4 5).toNat
def injWord (w : Word) : Nat := (w.extractLsb' 9 12).toNat
def injUnit (w : Word) : Nat := (w.extractLsb' 21 5).toNat

/-- The armed injection of the core in focus, if it is of a kind and for a tile of the block in focus. -/
def State.armed (s : State) (kind tile : Nat) : Bool :=
  s.c.errInj.getLsbD 31 && injKind s.c.errInj == kind && s.c.injBlock == s.b.uid && s.c.injPhys == tile

/-- An injection fires: ARM clears, and it is entered with CLASS 5, never counted (R406). -/
def State.fireInj (s : State) (kind index : Nat) : State :=
  { s with c := { s.c with errInj := s.c.errInj &&& 0x7FFFFFFF } }.recordFault 5 s.b.die kind index 0 0 false

/-- A micro-tile of a command performed: its elements are written, what was substituted is recorded, and an
injection that waits for one of its words flips its bit silently (R233, R235, R406). -/
def State.microTile (s : State) (m : Mma) (gang task zn pa pb na nb t : Nat) : State :=
  let blk := s.b.uid
  let subs := s.substA m blk pa na t ++ s.substB m blk pb nb t ++ s.substSide m blk pa pb na nb t ++ s.substAcc m blk zn t
    ++ s.substArray m t
  let vals := (m.tile t).map fun (p : Nat × Nat) => (p, s.mmaValue m blk pa pb p.1 p.2 (s.accOf m blk zn p.1 p.2) (s.c.struck p))
  let s := s.substAll gang task subs
  let s := { s with c := { s.c with arrayUe := s.c.arrayUe.filter fun x => !(m.tile t).contains (x.1, x.2.1) } }
  let s := vals.foldl (fun s (x : (Nat × Nat) × Nat) => s.putAcc m blk zn x.1.1 x.1.2 x.2) s
  let w := injWord s.c.errInj
  let hit := (if m.pair then [zn, zn + 1] else [zn]).find? fun z =>
    s.armed 1 z && (m.tile t).any fun (p : Nat × Nat) => (m.place zn p.1 p.2).contains (z, w)
  match hit with
  | none => s
  | some z =>
    let a := atZ blk z (4 * w)
    let s := { s with mem := memWriteNat s.mem a 4 (memNat s.mem a 4 ^^^ 2 ^ injBit s.c.errInj) }
    s.fireInj 3 (s.zUnit s.b z)

end Sys2Proof.Machine
end

