-- ==== Sys2Proof/Machine/Engine.lean ====
section
/-! DEFINITION. Machine/Engine.lean: the engines' accesses to G and S: ranges cut at pages, the lines they
need, uncorrectable data, signatures (R181, R182, R248, R256, R379). -/

namespace Sys2Proof.Machine

open Sys2Proof

/-- A range of G within one page: its translation, virtual address and length. -/
structure Seg where
  x : Xlat
  va : Nat
  len : Nat
  deriving DecidableEq, Repr

/-- Why an engine's access fails: a translation, permission or range failure, an abort completion, or the
Shutter, with the address (R253); an abort completion with the places of the errors it met (R32). -/
inductive EngineFail where
  | range (a : Nat)
  | abort (a : Nat) (places : List Nat)
  | shutter (a : Nat)
  deriving DecidableEq, Repr

/-- The address a failure names. -/
def EngineFail.addr : EngineFail → Nat
  | .range a | .abort a _ | .shutter a => a

/-- The status of a copy that ends with a failure (R250, R253). -/
def EngineFail.status : EngineFail → Nat
  | .range _ => 3
  | .abort _ _ => 4
  | .shutter _ => 5

/-- The more pressing of two failures found together: UE, then FAULT, then SHUTTER (R253). -/
def EngineFail.first : List EngineFail → Option EngineFail
  | [] => none
  | f :: t =>
    match EngineFail.first t with
    | none => some f
    | some g =>
      match f, g with
      | .abort _ _, _ => some f
      | _, .abort _ _ => some g
      | .range _, _ => some f
      | _, .range _ => some g
      | _, _ => some f

/-- The pages of n bytes at a virtual address, by some translation of addresses, `bad` being the places of
the errors that a walk meets; `fuel` bounds the number of pages. -/
def segsBy (tr : Nat → Except Nat Xlat) (bad : Nat → List Nat) : Nat → Nat → Nat → Except EngineFail (List Seg)
  | 0, _, _ => .ok []
  | fuel + 1, va, n =>
    if n = 0 then .ok []
    else
      let va := va % 2 ^ 48
      match tr va with
      | .error 3 => .error (.abort va (bad va))
      | .error _ => .error (.range va)
      | .ok x =>
        let len := min n (x.size - x.off)
        match segsBy tr bad fuel (va + len) (n - len) with
        | .error e => .error e
        | .ok t => .ok ({ x := x, va := va, len := len } :: t)

/-- The pages of n bytes at a virtual address of a context, for an engine of the core in focus. -/
def State.segs (s : State) (ctx : Nat) (need : Need) (fuel va n : Nat) : Except EngineFail (List Seg) :=
  segsBy (fun va => s.translate ctx va need) (s.walkPlaces ctx) fuel va n

/-- The same for the dispatcher and the checker, which hold no translations. -/
def State.segsRaw (s : State) (ctx : Nat) (need : Need) (fuel va n : Nat) : Except EngineFail (List Seg) :=
  segsBy (fun va => s.translateRaw ctx va need) (s.walkPlaces ctx) fuel va n

/-- The lines of a range of physical addresses. -/
def linesOf (p n : Nat) : List Nat := if n = 0 then [] else (upto ((p + n - 1) / 128 - p / 128 + 1)).map (p / 128 + ·)

/-- Where an engine writes and reads a page. -/
def State.segPhys (s : State) (write : Bool) (g : Seg) : Nat := if write then s.writeAt s.b.uid g.x else g.x.phys

/-- The lines a segment touches. -/
def State.segLines (s : State) (write : Bool) (g : Seg) : List Nat := linesOf (s.segPhys write g) g.len

/-- The first address of a segment at which an access meets an abort completion: an absent memory die, a line for which a
holder's request has timed out, or a bad line; a write of a whole line makes new check bits (R181, R253, R362). -/
def State.segAbortBy (s : State) (holder : Option Nat) (write : Bool) (g : Seg) : Option Nat :=
  let p := s.segPhys write g
  ((s.segLines write g).find? fun n =>
    !s.reachable (128 * n) || holder.any (s.noReply · n) || (s.lineBad n && !(write && decide (p ≤ 128 * n) && decide (128 * n + 128 ≤ p + g.len)))).map
    fun n => g.va + (128 * n - p)

/-- The same of an access that needs no tokens, and of one by the engines of the die in focus. -/
def State.segAbort (s : State) (write : Bool) (g : Seg) : Option Nat := s.segAbortBy none write g
def State.segFails (s : State) (write : Bool) (g : Seg) : Option Nat := s.segAbortBy (some s.b.die) write g

/-- A translation as it stands after the writes of its own step: once one of them has made the page's pending frame, the
others use that frame (R182, R348). -/
def State.withPend (s : State) (x : Xlat) : Xlat :=
  if x.ver && !x.pend then { x with w1 := x.w1 ||| (BitVec.ofNat 64 (memNat s.mem (x.leaf + 8) 8) &&& 1) } else x

/-- The places of the errors a list of segments meets. -/
def State.segErrors (s : State) (write : Bool) (l : List Seg) : List Nat := s.badLines (l.flatMap (s.segLines write))

/-- An abort completion reported, if an uncorrectable error was its cause (R32). -/
def State.reportFail (s : State) (f : EngineFail) : State :=
  match f with
  | .abort _ places => s.reportAll places s.b.task
  | _ => s

/-- The bytes a list of segments holds, each read noted with the operator (R182). -/
def State.readSegs (s : State) (l : List Seg) : List Byte × State :=
  (l.flatMap fun g => s.seen g.x g.len, l.foldl (fun s g => s.noteRead s.b.task g.x) s)

/-- The signature terms of bytes written from a virtual address, one for each aligned 16-byte granule. -/
def granuleTerms : Nat → Nat → List Byte → DWord
  | 0, _, _ => 0
  | fuel + 1, va, l =>
    if l.isEmpty then 0
    else
      let n := 16 - va % 16
      let h := l.take n
      sigTerm va h.length 0 0 (leNat h) 0 + granuleTerms fuel (va + h.length) (l.drop n)

/-- Bytes written to segments of G for the block in focus (R182), the lines left dirty. -/
def State.writeSegs (s : State) (late : Bool) : List Seg → List Byte → State
  | [], _ => s
  | g :: t, bytes =>
    let lines := s.segLines true g
    let whole := lines.filter fun n => decide (s.segPhys true g ≤ 128 * n) && decide (128 * n + 128 ≤ s.segPhys true g + g.len)
    let replay := s.b.replay.isSome
    let s := s.gWrite s.b.uid s.b.task (s.withPend g.x) late (bytes.take g.len)
    let s := if replay then s else (whole.foldl (fun s n => s.healLine n) (lines.foldl (fun s n => s.usedLine s.b.die n true) s))
    State.writeSegs s late t (bytes.drop g.len)

/-! ## S -/

/-- The bytes of S that a matrix command reads, elements of z bytes that lie in marked words zero, and the marked
words (R235). -/
def State.readS (s : State) (off n z : Nat) : List Byte × List Nat :=
  let a := atS s.b.uid off
  let bad := s.marks a n
  let hit (i : Nat) : Bool := bad.any fun m => decide (m < i / z * z + z) && decide (i / z * z < m + 4)
  let byte (i : Nat) : Byte := if hit i then 0 else memGet s.mem (a + i)
  (if bad.isEmpty then memBytes s.mem a n else (upto n).map byte, bad)

/-- An engine's write to S: new check bits, every granule it touches full, and the parked words that wait on them
served (R176, R177, R220). -/
def State.writeS (s : State) (off : Nat) (bytes : List Byte) : State :=
  let a := atS s.b.uid off
  State.serveGrans { s with mem := memWrite s.mem a bytes, ue := clearUE s.ue a bytes.length, empty := setFull s.empty a bytes.length }
    (granules a bytes.length)

/-- A word that reads n bytes of S when it issues: data withheld for an uncorrectable error gives an abort completion, and
the word ABRT (R32; DEDUCED, log 36). -/
def State.withRead (s : State) (off n : Nat) (go : State → State) : State :=
  match s.markedIn [(atS s.b.uid off, n)] with
  | [] => go s
  | bad => (s.reportAll bad s.b.task).fault 7 0 (BitVec.ofNat 64 off)

/-- Whether an access to S that the gang in focus issued earlier, and that writes any of n bytes, is still
to be performed (R220, R238, R245). -/
def State.storesPending (s : State) (off n : Nat) : Bool :=
  let a := atS s.b.uid off
  s.g.flights.any fun f => f.op.kind.writes && (maskLanes f.remain).any fun L =>
    let p := Store.get 0 f.place L
    decide (p < a + n) && decide (a < p + f.op.size)

/-- Whether a word in flight is still to be performed. A word that a stop has made a replay entry is not awaited: a trap
does not stop accepted commands (R233; DEDUCED, log 30). -/
def State.unperformed (s : State) (id : Nat) : Bool :=
  (s.allGangs ++ s.images.flatMap Image.gangs).any fun g => g.flights.any fun f => f.id == id

end Sys2Proof.Machine
end

