-- ==== Sys2Proof/Machine/Mx.lean ====
section
/-! DEFINITION. Machine/Mx.lean: the commands of the matrix unit (R218 to R233, R241): issue, order and
locks, their effects, micro-tiles. -/

namespace Sys2Proof.Machine

open Sys2Proof

/-! ## Issue -/

/-- The binding of a slot name (R213). -/
def Block.bound (b : Block) (n : Nat) : Option SlotBind := Store.find b.slotTab n

/-- Whether a matrix word is held back: k3 at 63, or its core's queue full (R198, R218). -/
def State.mxHold (s : State) : Bool := !s.lanes.isEmpty && (s.kHold 3 || decide (32 ≤ s.c.mxq.length))

/-- Whether two commands of one block use a common slot or z tile that one of them writes (R219). -/
def MxCmd.conflicts (x y : MxCmd) : Bool :=
  let meet (a b : List Nat) : Bool := a.any b.contains
  x.block == y.block
    && (meet x.slotsW y.slotsW || meet x.slotsW y.slotsR || meet x.slotsR y.slotsW
        || meet x.zW y.zW || meet x.zW y.zR || meet x.zR y.zW)

/-- The commands accepted before one. -/
def acceptedBefore (q : List MxCmd) (id : Nat) : List MxCmd := q.takeWhile fun c => c.id != id

/-- Whether a command waits for an earlier one (R219). An MMA both reads and writes its tile. -/
def mxWaits (q : List MxCmd) (c : MxCmd) : Bool := (acceptedBefore q c.id).any fun x => x.conflicts c

/-- The commands of the queue of the core in focus that have become ready take note of when (R241). -/
def State.noteReady (s : State) : State :=
  let q := s.c.mxq
  let note (c : MxCmd) : MxCmd := if c.readyAt.isNone && c.ready && !mxWaits q c then { c with readyAt := some s.ctr } else c
  { s with c := { s.c with mxq := q.map note } }

/-- A command with the next identities accepted into the core's queue, counted in k3 (R218). -/
def State.accept (s : State) (c : MxCmd) : State :=
  let s := s.addK 3 .plain
  let id := s.next
  let c := { c with id := id, gang := s.g.uid, kid := id - 1, block := s.b.uid, late := s.closedIssue
                    after := (s.g.flights.filter fun f => f.op.kind.writes).map (·.id) }
  ({ s with c := { s.c with mxq := s.c.mxq ++ [c] }, next := s.next + 1 }).noteReady.later (.mxCommandStart id)

/-- A command without operands. -/
def mxCmd (word : Instr) (y z : Word) (slotsR slotsW zR zW tys : List Nat) : MxCmd :=
  { id := 0, gang := 0, kid := 0, block := 0, word := word, y := y, z := z, slotsR := slotsR, slotsW := slotsW, zR := zR, zW := zW, tys := tys }

/-- The MXF fault of a word (R222). -/
def State.mxf (s : State) (addr : Nat) : State := s.fault 10 0 (BitVec.ofNat 64 addr)

/-- Bytes that some rows span. -/
def extent (rows rowbytes pitch : Nat) : Nat := if rows = 0 then 0 else (rows - 1) * pitch + rowbytes

/-- The checks of R222 on an S image: the range, the start offset, the pitch. The fault's address, if one fails: that of
the range where several fail (DESIGN CHOICE, log 30). -/
def State.imageFault (s : State) (base rows rowbytes pitch : Nat) : Option Nat :=
  let p := if pitch = 0 then rowbytes else pitch
  if s.b.sbytes < base + extent rows rowbytes p then some base
  else if base % 16 ≠ 0 ∨ pitch % 16 ≠ 0 ∨ (pitch ≠ 0 ∧ pitch < rowbytes) then some 0
  else none

/-- A matrix word: held back, nothing without an executing lane, its register fields checked, then issued
with the leader's values (R218). -/
def State.mxWord (s : State) (regs : List (BitVec 6)) (go : Word → Word → State → State) : State :=
  if s.mxHold then s.hold
  else s.withRegs (regs.map fun r => (1, r.toNat)) fun s =>
    match s.lanes with
    | [] => s
    | L :: _ =>
      let v (i : Nat) : Word := match regs[i]? with
        | some r => s.src.val r.toNat L
        | none => 0
      go (v 0) (v 1) s

/-- A word that needs its slot name bound (R222). -/
def State.withSlot (s : State) (n : Nat) (go : SlotBind → State) : State :=
  match s.b.bound n with
  | none => s.mxf 0
  | some b => go b

/-- The physical slots of a block that no name is bound to, those no queued command uses first. -/
def State.freeSlots (s : State) : List Nat :=
  let taken := s.b.slotTab.map fun (p : Nat × SlotBind) => p.2.phys
  let free := (upto s.b.slots).filter fun p => !taken.contains p
  let busy (p : Nat) : Bool := s.c.mxq.any fun c => c.block == s.b.uid && (c.slotsR.contains p || c.slotsW.contains p)
  (free.filter fun p => !busy p) ++ free.filter busy

/-- CLAIM (R223). -/
def execClaim (n : BitVec 5) (t : BitVec 4) (s : State) : Res :=
  .next (s.mxWord [] fun _ _ s =>
    if (s.b.bound n.toNat).isSome then s.mxf 0
    else match s.freeSlots with
      | [] => s.mxf 0
      | p :: _ =>
        let s := { s with b := { s.b with slotTab := Store.put s.b.slotTab n.toNat { phys := p, ty := t.toNat } } }
        s.accept (mxCmd (.claim false n t) 0 0 [] [p] [] [] [t.toNat]))

/-- FREE (R223): the name is unbound at acceptance. -/
def execFree (n : BitVec 5) (s : State) : Res :=
  .next (s.mxWord [] fun _ _ s => s.withSlot n.toNat fun _ =>
    let s := { s with b := { s.b with slotTab := Store.del s.b.slotTab n.toNat } }
    s.accept (mxCmd (.free false n) 0 0 [] [] [] [] []))

/-- TLD (R224). -/
def execTld (n : BitVec 5) (y z : BitVec 6) (s : State) : Res :=
  .next (s.mxWord [y, z] fun vy vz s => s.withSlot n.toNat fun b =>
    let g := slotGeom b.ty
    let pitch := vz.toNat % 65536
    if b.ty = 5 ∧ pitch ≠ 0 then s.mxf 0
    else match s.imageFault vy.toNat g.1 g.2 pitch with
      | some a => s.mxf a
      | none => s.accept (mxCmd (.tld false n y z) vy vz [] [b.phys] [] [] [b.ty]))

/-- TLDT (R224). -/
def execTldt (n : BitVec 5) (y z : BitVec 6) (s : State) : Res :=
  .next (s.mxWord [y, z] fun vy vz s => s.withSlot n.toNat fun b =>
    let g := transGeom b.ty
    if b.ty = 5 || isSparse b.ty then s.mxf 0
    else match s.imageFault vy.toNat g.1 g.2 (vz.toNat % 65536) with
      | some a => s.mxf a
      | none => s.accept (mxCmd (.tldt false n y z) vy vz [] [b.phys] [] [] [b.ty]))

/-- TLDM (R225). -/
def execTldm (n : BitVec 5) (y : BitVec 6) (s : State) : Res :=
  .next (s.mxWord [y] fun vy _ s => s.withSlot n.toNat fun b =>
    if !isSparse b.ty then s.mxf 0
    else match s.imageFault vy.toNat 1 512 0 with
      | some a => s.mxf a
      | none => s.accept (mxCmd (.tldm false n y) vy 0 [] [b.phys] [] [] [b.ty]))

/-- ZCLR (R226). -/
def execZclr (n : BitVec 4) (s : State) : Res :=
  .next (s.mxWord [] fun _ _ s =>
    if s.b.zt ≤ n.toNat then s.mxf 0 else s.accept (mxCmd (.zclr false n) 0 0 [] [] [] [n.toNat] []))

/-- ZLD (R226). -/
def execZld (n : BitVec 4) (y z : BitVec 6) (s : State) : Res :=
  .next (s.mxWord [y, z] fun vy vz s =>
    if s.b.zt ≤ n.toNat then s.mxf 0
    else match s.imageFault vy.toNat 64 256 (vz.toNat % 65536) with
      | some a => s.mxf a
      | none => s.accept (mxCmd (.zld false n y z) vy vz [] [] [] [n.toNat] []))

/-- Rows and row bytes of a ZST mode (R227). -/
def zstGeom (mode : Nat) : Nat × Nat := if mode = 2 then (64, 128) else if mode = 3 then (32, 256) else (64, 256)

/-- ZST (R227). -/
def execZst (m : BitVec 2) (n : BitVec 4) (y z : BitVec 6) (s : State) : Res :=
  let g := zstGeom m.toNat
  .next (s.mxWord [y, z] fun vy vz s =>
    let scale := vz.toNat / 65536 * 16
    if s.b.zt ≤ n.toNat then s.mxf 0
    else match s.imageFault vy.toNat g.1 g.2 (vz.toNat % 65536) with
      | some a => s.mxf a
      | none =>
        if m = 1 ∧ s.b.sbytes < scale + 256 then s.mxf scale
        else s.accept (mxCmd (.zst false m n y z) vy vz [] [] [n.toNat] [] []))

/-- TST (R228). -/
def execTst (n : BitVec 5) (y z : BitVec 6) (s : State) : Res :=
  .next (s.mxWord [y, z] fun vy vz s => s.withSlot n.toNat fun b =>
    let g := slotGeom b.ty
    let pitch := vz.toNat % 65536
    if b.ty = 5 ∧ pitch ≠ 0 then s.mxf 0
    else match s.imageFault vy.toNat g.1 g.2 pitch with
      | some a => s.mxf a
      | none => s.accept (mxCmd (.tst false n y z) vy vz [b.phys] [] [] [] [b.ty]))

/-- The z tiles of an MMA. -/
def Mma.tiles (m : Mma) (zn : Nat) : List Nat := if m.pair then [zn, zn + 1] else [zn]

/-- The checks of an MMA on its slots and tiles, and its physical slots if they hold (R222, R229). -/
def State.mmaSlots (s : State) (m : Mma) (zn a b : Nat) : Option (Nat × Nat) :=
  match s.b.bound a, s.b.bound b with
  | some x, some y =>
    if x.ty == m.types.1 && y.ty == m.types.2 && (m.tiles zn).all fun z => decide (z < s.b.zt) then some (x.phys, y.phys) else none
  | _, _ => none

/-- An MMA word (R229). -/
def State.mma (s : State) (m : Mma) (word : Instr) (zn a b : Nat) : State :=
  s.mxWord [] fun _ _ s =>
    match s.mmaSlots m zn a b with
    | none => s.mxf 0
    | some (pa, pb) => s.accept (mxCmd word 0 0 [pa, pb] [] [] (m.tiles zn) [a, b])

/-- MMABF (R230). -/
def execMmabf (n : BitVec 4) (a b : BitVec 5) (s : State) : Res := .next (s.mma { kind := 0 } (.mmabf false n a b) n.toNat a.toNat b.toNat)
/-- MMAH (R230). -/
def execMmah (n : BitVec 4) (a b : BitVec 5) (s : State) : Res := .next (s.mma { kind := 1 } (.mmah false n a b) n.toNat a.toNat b.toNat)
/-- MMAI8 (R230). -/
def execMmai8 (n : BitVec 4) (a b : BitVec 5) (s : State) : Res := .next (s.mma { kind := 2 } (.mmai8 false n a b) n.toNat a.toNat b.toNat)
/-- MMAI16 (R230): the field holds half the even z number. -/
def execMmai16 (n : BitVec 3) (a b : BitVec 5) (s : State) : Res :=
  .next (s.mma { kind := 3 } (.mmai16 false n a b) (2 * n.toNat) a.toNat b.toNat)
/-- MMAF64 (R230). -/
def execMmaf64 (n : BitVec 4) (a b : BitVec 5) (s : State) : Res := .next (s.mma { kind := 4 } (.mmaf64 false n a b) n.toNat a.toNat b.toNat)
/-- MMAQ4 (R231). -/
def execMmaq4 (n : BitVec 3) (a b : BitVec 5) (s : State) : Res :=
  .next (s.mma { kind := 5 } (.mmaq4 false n a b) (2 * n.toNat) a.toNat b.toNat)
/-- MMASBF (R232). -/
def execMmasbf (n : BitVec 4) (a b : BitVec 5) (s : State) : Res := .next (s.mma { kind := 6 } (.mmasbf false n a b) n.toNat a.toNat b.toNat)
/-- MMASI8 (R232). -/
def execMmasi8 (h : BitVec 1) (n : BitVec 4) (a b : BitVec 5) (s : State) : Res :=
  .next (s.mma { kind := 7, half := h.toNat } (.mmasi8 false h n a b) n.toNat a.toNat b.toNat)

/-- What an MMA word names: its kind, z tile and slot names. -/
def mmaOf : Instr → Option (Mma × Nat × Nat × Nat)
  | .mmabf _ n a b => some ({ kind := 0 }, n.toNat, a.toNat, b.toNat)
  | .mmah _ n a b => some ({ kind := 1 }, n.toNat, a.toNat, b.toNat)
  | .mmai8 _ n a b => some ({ kind := 2 }, n.toNat, a.toNat, b.toNat)
  | .mmai16 _ n a b => some ({ kind := 3 }, 2 * n.toNat, a.toNat, b.toNat)
  | .mmaf64 _ n a b => some ({ kind := 4 }, n.toNat, a.toNat, b.toNat)
  | .mmaq4 _ n a b => some ({ kind := 5 }, 2 * n.toNat, a.toNat, b.toNat)
  | .mmasbf _ n a b => some ({ kind := 6 }, n.toNat, a.toNat, b.toNat)
  | .mmasi8 _ h n a b => some ({ kind := 7, half := h.toNat }, n.toNat, a.toNat, b.toNat)
  | _ => none

/-! ## The parts of the unit (R241) -/

/-- Whether a command is an MMA, an MGEMM, a FREE. -/
def MxCmd.isMma (c : MxCmd) : Bool := (mmaOf c.word).isSome
def MxCmd.isGemm (c : MxCmd) : Bool :=
  match c.word with
  | .mgemm _ _ => true
  | _ => false
def MxCmd.isFree (c : MxCmd) : Bool :=
  match c.word with
  | .free _ _ => true
  | _ => false

/-- The core whose queue holds a command brought into focus, with the command's block. -/
def State.focusCmd (s : State) (id : Nat) : Option (MxCmd × State) :=
  let has (c : Core) : Bool := c.mxq.any fun x => x.id == id
  match ((s.c :: s.cores).find? has) with
  | none => none
  | some c =>
    let s := s.focusCore c.die c.idx
    match c.mxq.find? fun x => x.id == id with
    | none => none
    | some x => some (x, s.focusBlock x.block)

def State.modCmd (s : State) (id : Nat) (f : MxCmd → MxCmd) : State :=
  { s with c := { s.c with mxq := s.c.mxq.map fun x => if x.id = id then f x else x } }

/-- The k3 operations of a collective's parts complete (R246). -/
def State.doneParts3 (s : State) (ps : List Part) : State :=
  ps.foldl (fun s p => match p.kid3 with
    | some k => s.doneK p.gang k
    | none => s) s

/-- A command leaves the queue, and its k3 operation completes (R218); for the follow-on of a CPMX, that of
every part (R246). -/
def State.endCmd (s : State) (c : MxCmd) : State :=
  let s := { s with c := { s.c with mxq := s.c.mxq.filter fun x => x.id != c.id } }.noteReady
  match c.coll with
  | none => s.doneK c.gang c.kid
  | some n =>
    match s.b.colls.find? fun k => k.num == n with
    | none => s
    | some k => { s with b := { s.b with colls := s.b.colls.filter fun x => !(x.num == n && x.kill) } }.doneParts3 k.parts

/-! ## Effects -/

/-- What a command's reads of S replaced by zero, recorded (R235): elements by row and column, each with the place of its
marked word. -/
def State.spadSubst (s : State) (c : MxCmd) (bad : List ((Nat × Nat) × Nat)) : State :=
  let one (x : (Nat × Nat) × Nat) : Subst := { kind := 4, unit_ := 0, row := x.1.1 % 128, col := x.1.2 % 128, place := some (atS s.b.uid x.2) }
  s.substAll c.gang s.b.task (bad.map one)

/-- Bytes written into a slot or its sidecar. -/
def State.putSlot (s : State) (phys off : Nat) (bytes : List Byte) : State :=
  let a := atSlot s.b.uid phys off
  { s with mem := memWrite s.mem a bytes, ue := clearUE s.ue a bytes.length }

/-- The rows of an image in S, one after another, and the marked words among them: row, byte and offset in S. -/
def State.imageRows (s : State) (base rows rowbytes pitch z : Nat) : List Byte × List (Nat × Nat × Nat) :=
  let p := if pitch = 0 then rowbytes else pitch
  let got := (upto rows).map fun r => (r, s.readS (base + r * p) rowbytes z)
  (got.flatMap fun (x : Nat × List Byte × List Nat) => x.2.1,
   got.flatMap fun (x : Nat × List Byte × List Nat) => x.2.2.map fun o => (x.1, o, base + x.1 * p + o))

/-- The elements of z bytes in the marked words of an image, by row and column. For TLDT the slot's rows are the image's
columns (R237). -/
def badElems (z : Nat) (trans : Bool) (bad : List (Nat × Nat × Nat)) : List ((Nat × Nat) × Nat) :=
  bad.flatMap fun m => (upto (max 1 (4 / z))).map fun e =>
    let k := m.2.1 / z + e
    (if trans then (k, m.1) else (m.1, k), m.2.2)

/-- F of a Q4N slot: RN32(S / 255) of the scale in its sidecar (R215). -/
def State.formF (s : State) (phys : Nat) : State :=
  let big := memNat s.mem (atSide s.b.uid phys 256) 4
  s.putSlot phys (8192 + 260) (leBytes 4 (fdiv f32 big 0x437F0000).bits)

/-- TLD's effect (R224). -/
def State.doTld (s : State) (c : MxCmd) (phys ty base pitch : Nat) : State :=
  let g := slotGeom ty
  let r := s.imageRows base g.1 g.2 pitch (slotElem ty)
  let s := s.spadSubst c (if ty = 5 then r.2.flatMap fun m => (wordElems 5 m.2.1).map fun p => (p, m.2.2) else badElems (slotElem ty) false r.2)
  if ty = 5 then
    let s := s.putSlot phys 0 (r.1.take 8192)
    (s.putSlot phys 8192 (r.1.drop 8192 ++ leBytes 252 0)).formF phys
  else if isSparse ty then s.putSlot phys 0 (r.1 ++ leBytes (8192 - r.1.length) 0)
  else s.putSlot phys 0 (r.1 ++ leBytes 512 0)

/-- TLDT's effect: slot element (r, c) is image element (c, r) (R224). The sidecar stays as it was (R243). -/
def State.doTldt (s : State) (c : MxCmd) (phys ty base pitch : Nat) : State :=
  let g := slotGeom ty
  let t := transGeom ty
  let z := slotElem ty
  let r := s.imageRows base t.1 t.2 pitch z
  let s := s.spadSubst c (badElems z true r.2)
  let img := r.1.toArray
  let bytes := (upto g.1).flatMap fun i => (upto (g.2 / z)).flatMap fun j => (upto z).map fun k => img.getD (j * t.2 + i * z + k) 0
  s.putSlot phys 0 bytes

/-- ZLD's effect (R226). -/
def State.doZld (s : State) (c : MxCmd) (tile base pitch : Nat) : State :=
  let r := s.imageRows base 64 256 pitch 4
  let s := s.spadSubst c (badElems 4 false r.2)
  let a := atZ s.b.uid tile 0
  { s with mem := memWrite s.mem a r.1, ue := clearUE s.ue a 16384 }

/-- ZCLR's effect (R226). -/
def State.doZclr (s : State) (tile : Nat) : State :=
  let a := atZ s.b.uid tile 0
  { s with mem := memZero s.mem a 16384, ue := clearUE s.ue a 16384 }

/-- One row as a ZST mode writes it (R227). -/
def zstRow (mode : Nat) (scale : Nat) (ws : List Nat) : List Byte :=
  ws.flatMap fun w =>
    if mode = 1 then leBytes 4 (fmul f32 w scale).bits
    else if mode = 2 then leBytes 2 (roundF bf16 .rn (f32.val w)).bits
    else leBytes 4 w

/-- ZST's effect (R227), with an injection that waits for it (R406). -/
def State.doZst (s : State) (c : MxCmd) (mode tile base pitch scale : Nat) : State :=
  let g := zstGeom mode
  let p := if pitch = 0 then g.2 else pitch
  let vec := if mode = 1 then s.readS scale 256 4 else ([], [])
  let hit := s.armed 2 tile
  let flip (w : Nat) : Nat := if hit && w == injWord s.c.errInj then s.zWord s.b.uid tile w ^^^ 2 ^ injBit s.c.errInj else s.zWord s.b.uid tile w
  let subs := (s.marks (atZ s.b.uid tile 0) (256 * g.1)).map fun o => ({ kind := 3, unit_ := tile, row := o / 256, col := o % 256 / 4, place := some (atZ s.b.uid tile o) } : Subst)
  let rows := (upto g.1).map fun r => (r, zstRow mode (fieldAt vec.1 (4 * r) 4) ((upto 64).map fun j => flip (64 * r + j)))
  let s := rows.foldl (fun s (x : Nat × List Byte) => s.writeS (base + x.1 * p) x.2) s
  let s := (s.spadSubst c (vec.2.map fun o => ((o / 4, 0), scale + o))).substAll c.gang s.b.task subs
  if hit then s.fireInj 3 (s.zUnit s.b tile) else s

/-- TST's effect (R228): zero for an element that lies in a marked word (R235). -/
def State.doTst (s : State) (c : MxCmd) (name phys ty base pitch : Nat) : State :=
  let g := slotGeom ty
  let p := if pitch = 0 then g.2 else pitch
  let z := slotElem ty
  let row (r : Nat) : List Byte := (upto (g.2 / z)).flatMap fun k => leBytes z (s.slotAt s.b.uid phys (r * g.2 + k * z) z)
  let elems (o : Nat) : List Subst := (wordElems ty o).map fun p =>
    { kind := 1, unit_ := name, row := p.1 % 128, col := p.2 % 128, place := some (atSlot s.b.uid phys o) }
  let subs := (s.marks (atSlot s.b.uid phys 0) (g.1 * g.2)).flatMap elems
  let s := (upto g.1).foldl (fun s' r => s'.writeS (base + r * p) (row r)) s
  s.substAll c.gang s.b.task subs

/-- The effect of a command of the load and store path. -/
def State.mxEffect (s : State) (c : MxCmd) : State :=
  let y := c.y.toNat
  let pitch := c.z.toNat % 65536
  let ty := c.tys.headD 0
  let phys := (c.slotsW ++ c.slotsR).headD 0
  match c.word with
  | .claim _ _ _ => s.putSlot phys 0 (leBytes 8704 0)
  | .tld _ _ _ _ => s.doTld c phys ty y pitch
  | .tldt _ _ _ _ => s.doTldt c phys ty y pitch
  | .tldm _ _ _ =>
    let r := s.readS y 512 1
    (s.spadSubst c (badElems 1 false (r.2.map fun o => (o / 8, o % 8, y + o)))).putSlot phys 8192 r.1
  | .zclr _ n => s.doZclr n.toNat
  | .zld _ n _ _ => s.doZld c n.toNat y pitch
  | .zst _ m n _ _ => s.doZst c m.toNat n.toNat y pitch (c.z.toNat / 65536 * 16)
  | .tst _ n _ _ => s.doTst c n.toNat phys ty y pitch
  | _ => s

/-- MX_COMMAND_COMPLETE (R241): its S reads follow the gang's earlier stores (R220). -/
def execMxCommandComplete (cmd : Nat) (s : State) : Res :=
  .next (
    match s.focusCmd cmd with
    | none => s
    | some (c, s) =>
      if !c.started || (c.isMma && decide (c.tiles < 16)) then s
      else if c.after.any s.unperformed then s.later (.mxCommandComplete cmd)
      else (s.mxEffect c).endCmd c)

/-- The operands of an MMA command of the queue: its kind, z tile, physical slots and slot names. -/
def MxCmd.operands (c : MxCmd) : Option (Mma × Nat × Nat × Nat × Nat × Nat) :=
  match mmaOf c.word with
  | none => none
  | some (m, zn, a, b) => some (m, zn, nth 0 c.slotsR 0, nth 0 c.slotsR 1, a, b)

/-- What a micro-tile counts (R419). -/
def State.countTile (s : State) (gang : Nat) : State :=
  match s.findGang gang with
  | some g => { s with c := s.c.count 0x013 1 (some (g.sched, s.b.prio)) }
  | none => { s with c := s.c.count 0x013 1 none }

end Sys2Proof.Machine
end

