-- ==== Sys2Proof/Machine/Mgemm.lean ====
section
/-! DEFINITION. Machine/Mgemm.lean: the start of matrix commands, micro-tiles and the macro-op sequencer
(R233, R238 to R241). -/

namespace Sys2Proof.Machine

open Sys2Proof

/-! ## The parameter block (R238) -/

/-- The fields of an MGEMM parameter block. -/
structure Gemm where
  a : Nat
  b : Nat
  c : Nat
  mt : Nat
  nt : Nat
  kt : Nat
  kind : Nat
  mode : Nat
  lda : Nat
  ldb : Nat
  ldc : Nat
  flags : Nat
  slotb : Nat
  zb : Nat
  resv : Nat
  stage : Nat
  scale : Nat
  deriving DecidableEq, Repr

/-- The fields of bytes 0 to 55. -/
def parseGemm (l : List Byte) : Gemm where
  a := fieldAt l 0 8
  b := fieldAt l 8 8
  c := fieldAt l 16 8
  mt := fieldAt l 24 2
  nt := fieldAt l 26 2
  kt := fieldAt l 28 2
  kind := fieldAt l 30 1
  mode := fieldAt l 31 1
  lda := fieldAt l 32 4
  ldb := fieldAt l 36 4
  ldc := fieldAt l 40 4
  flags := fieldAt l 44 1
  slotb := fieldAt l 45 1
  zb := fieldAt l 46 1
  resv := fieldAt l 47 1
  stage := fieldAt l 48 4
  scale := fieldAt l 52 4

/-- C is loaded and accumulated. -/
def Gemm.acc (p : Gemm) : Bool := p.flags.testBit 0

/-- The number of z tiles of the result (R239). -/
def Gemm.np (p : Gemm) : Nat := if p.kind = 3 ∨ p.kind = 5 then 2 else 1

/-- The MMA kind of a KIND. -/
def Gemm.mma (p : Gemm) : Mma := { kind := if p.kind ≤ 5 then p.kind else 0 }

/-- Rows, depth and columns of a tile (R229). -/
def Gemm.dims (p : Gemm) : Nat × Nat × Nat :=
  if p.kind = 2 then (64, 128, 64) else if p.kind = 4 then (32, 32, 32) else if p.kind = 5 then (64, 128, 128) else (64, 64, 64)

/-- Steps of one C tile (R239). -/
def Gemm.tileSteps (p : Gemm) : Nat := (if p.acc then 2 * p.np else p.np) + 5 * p.kt + 2 * p.np

/-- Bytes of a C element as its mode writes it (R238). -/
def Gemm.celem (p : Gemm) : Nat := if p.mode = 2 then 2 else if p.mode = 3 then 8 else 4

/-- WC: bytes of a tile's row in C, over all parts (R238). -/
def Gemm.wc (p : Gemm) : Nat := if p.np = 2 then 128 * p.celem else p.dims.2.2 * p.celem

/-- Bytes of a row of one part. -/
def Gemm.partRow (p : Gemm) : Nat := if p.np = 2 then 64 * p.celem else p.wc

/-- Address of part q of C tile (m, n). -/
def Gemm.cAt (p : Gemm) (m n q : Nat) : Nat := p.c + m * p.dims.1 * p.ldc + n * p.wc + 64 * q * p.celem

/-- Address, rows, row bytes and pitch of A tile (m, k) and of B tile (k, n). -/
def Gemm.aTile (p : Gemm) (m k : Nat) : Nat × Nat × Nat × Nat :=
  let z := slotElem p.mma.types.1
  (p.a + m * p.dims.1 * p.lda + k * p.dims.2.1 * z, p.dims.1, p.dims.2.1 * z, p.lda)
def Gemm.bTile (p : Gemm) (k n : Nat) : Nat × Nat × Nat × Nat :=
  let z := slotElem p.mma.types.2
  if p.kind = 5 then (p.b + (k * p.nt + n) * 8452, 1, 8452, 0)
  else (p.b + k * p.dims.2.1 * p.ldb + n * p.dims.2.2 * z, p.dims.2.1, p.dims.2.2 * z, p.ldb)

/-- One step of an MGEMM (R239). -/
inductive GemmStep where
  | loadC (m n q : Nat)
  | zld (q : Nat)
  | zclr (q : Nat)
  | copyA (m k st : Nat)
  | copyB (k n st : Nat)
  | tldA (st : Nat)
  | tldB (st : Nat)
  | mma (st : Nat)
  | zst (q : Nat)
  | storeC (m n q : Nat)
  deriving DecidableEq, Repr

/-- Step i of the command (R239). -/
def Gemm.stepAt (p : Gemm) (i : Nat) : GemmStep :=
  let t := i / p.tileSteps
  let r := i % p.tileSteps
  let m := t / p.nt
  let n := t % p.nt
  let pre := if p.acc then 2 * p.np else p.np
  if r < pre then
    if p.acc then (if r % 2 = 0 then .loadC m n (r / 2) else .zld (r / 2)) else .zclr r
  else if r - pre < 5 * p.kt then
    let k := (r - pre) / 5
    let st := k % 2
    match (r - pre) % 5 with
    | 0 => .copyA m k st
    | 1 => .copyB k n st
    | 2 => .tldA st
    | 3 => .tldB st
    | _ => .mma st
  else
    let u := r - pre - 5 * p.kt
    if u % 2 = 0 then .zst (u / 2) else .storeC m n (u / 2)

/-- The number of steps of the command. -/
def Gemm.steps (p : Gemm) : Nat := p.mt * p.nt * p.tileSteps

/-- S offsets of the stages (R238). -/
def Gemm.stageA (p : Gemm) (st : Nat) : Nat := p.stage + 20480 * st
def Gemm.stageB (p : Gemm) (st : Nat) : Nat := p.stage + 20480 * st + 8192
def Gemm.stageC (p : Gemm) (q : Nat) : Nat := p.stage + 40960 + 16384 * q

/-- Whether an MGEMM is malformed at its start (R240). -/
def State.gemmBad (s : State) (p : Gemm) : Bool :=
  p.resv != 0 || decide (1 < p.flags) || decide (5 < p.kind) || p.mt == 0 || p.nt == 0 || p.kt == 0
    || decide (65535 < p.steps) || (p.acc && p.mode != 0 && p.mode != 3) || (p.kind == 3 && p.mode != 0) || decide (3 < p.mode)
    || ((upto 4).any fun i => (s.b.bound (p.slotb + i)).isNone)
    || decide (s.b.zt < p.zb + p.np) || (p.np == 2 && p.zb % 2 == 1)
    || decide (s.b.sbytes < p.stage + 73728) || p.stage % 16 != 0 || (p.mode == 1 && decide (s.b.sbytes < p.scale + 256))

/-! ## Issue -/

/-- MGEMM (R238): bytes 0 to 55 are read at issue, after the gang's earlier stores to them. -/
def execMgemm (y : BitVec 6) (s : State) : Res :=
  let base (s : State) : Nat := (s.src.val y.toNat (leader s.lanes)).toNat
  .next (
    if !s.lanes.isEmpty && s.storesPending (base s) 56 then s.hold
    else s.mxWord [y] fun vy _ s =>
      let off := vy.toNat
      if off % 64 ≠ 0 then s.mxf 0
      else if s.b.sbytes < off + 64 then s.mxf off
      else
        let bytes := memBytes s.mem (atS s.b.uid off) 56
        let p := parseGemm bytes
        let phys := (upto 4).filterMap fun i => (s.b.bound (p.slotb + i)).map (·.phys)
        let tiles := ((upto p.np).map fun q => p.zb + q).filter fun z => decide (z < s.b.zt)
        s.accept { mxCmd (.mgemm false y) vy 0 phys phys tiles tiles [] with params := bytes })

/-! ## Start -/

/-- The physical slots an MGEMM holds from its acceptance; where a name was unbound then, those bound now (R238). -/
def State.gemmSlots (s : State) (c : MxCmd) (p : Gemm) : List Nat :=
  if c.slotsW.length = 4 then c.slotsW else (upto 4).filterMap fun i => (s.b.bound (p.slotb + i)).map (·.phys)

/-- The slots of a starting MGEMM take the types of its kind (R238). -/
def State.retype (s : State) (p : Gemm) (slots : List Nat) : State :=
  (upto 4).foldl (fun s i =>
    match s.b.bound (p.slotb + i), slots[i]? with
    | some b, some phys =>
      let ty := if i % 2 = 0 then p.mma.types.1 else p.mma.types.2
      if b.phys ≠ phys then s else { s with b := { s.b with slotTab := Store.put s.b.slotTab (p.slotb + i) { b with ty := ty } } }
    | _, _ => s) s

/-- The MMA that an MGEMM stands at, with its operands. -/
def MxCmd.gemmMma (c : MxCmd) : Option (Mma × Nat × Nat × Nat × Nat × Nat) :=
  let p := parseGemm c.params
  match p.stepAt c.step with
  | .mma st =>
    let a := p.slotb + 2 * st
    some (p.mma, p.zb, nth 0 c.slotsW (2 * st), nth 0 c.slotsW (2 * st + 1), a, a + 1)
  | _ => none

/-- Whether a step runs on the load and store path (R241). -/
def GemmStep.onPath : GemmStep → Bool
  | .zld _ | .zclr _ | .tldA _ | .tldB _ | .zst _ => true
  | _ => false

/-- The part of the unit that a command needs next: 0 the array, 1 the load and store path, 2 neither (R241). -/
def MxCmd.lane (c : MxCmd) : Nat :=
  if c.isGemm then
    let p := parseGemm c.params
    if !c.started || p.steps ≤ c.step then 2
    else match p.stepAt c.step with
      | .mma _ => 0
      | st => if st.onPath then 1 else 2
  else if c.isMma then 0 else if c.isFree then 2 else 1

/-- Whether a command has the part of the unit that it needs. -/
def MxCmd.holdsLane (c : MxCmd) : Bool := c.started && (if c.isGemm then c.lane == 0 && decide (0 < c.tiles) && decide (c.tiles < 16) else true)

/-- Whether a command may take its part of the unit: nothing has it, and of those that are ready for it this one became
ready first, or was accepted first among those that did (R241). -/
def mxTurn (q : List MxCmd) (c : MxCmd) : Bool :=
  let rival (x : MxCmd) : Bool :=
    match x.readyAt, c.readyAt with
    | some a, some b => decide (a < b) || (a == b && (acceptedBefore q c.id).any fun y => y.id == x.id)
    | some _, none => true
    | none, _ => false
  c.lane == 2 || q.all fun x => x.id == c.id || x.lane != c.lane || !(x.holdsLane || rival x)

/-- A command starts: it is on its way through the array, the sequencer or the load and store path. A command saved with
its micro-tiles or its steps all done only ends. -/
def State.startCmd (s : State) (c : MxCmd) : State :=
  let s := s.modCmd c.id fun c => { c with started := true }
  if c.isGemm then
    let p := parseGemm c.params
    let fresh := c.step = 0 && c.tiles = 0 && c.status = 0
    if fresh && s.gemmBad p then (s.modCmd c.id fun c => { c with status := 3 }).later (.mgemmEnd c.id)
    else if fresh then
      let slots := s.gemmSlots c p
      ((s.retype p slots).modCmd c.id fun c => { c with slotsR := slots, slotsW := slots, readyAt := some s.ctr }).later (.mgemmStepComplete c.id)
    else if c.status ≠ 0 || p.steps ≤ c.step then s.later (.mgemmEnd c.id)
    else (s.modCmd c.id fun c => { c with readyAt := some s.ctr }).later (.mgemmStepComplete c.id)
  else if c.isMma then
    s.later (if 16 ≤ c.tiles then .mxCommandComplete c.id else .microTileComplete c.id)
  else s.later (.mxCommandComplete c.id)

/-- MX_COMMAND_START (R241): a command starts once it is ready and its part of the unit is its to take, an MGEMM once
none accepted before it is left (R238); none starts in a block being evicted but what a started collective waits for
(R283). -/
def execMxCommandStart (cmd : Nat) (s : State) : Res :=
  .next (
    match s.focusCmd cmd with
    | none => s
    | some (c, s) =>
      let later := c.isGemm && (acceptedBefore s.c.mxq c.id).any MxCmd.isGemm
      if c.started then s
      else if !c.ready || later || (s.b.evicting && s.b.colls.isEmpty) || mxWaits s.c.mxq c || !mxTurn s.c.mxq c then
        s.later (.mxCommandStart cmd)
      else s.startCmd c)

/-! ## Micro-tiles (R233) -/

/-- MICRO_TILE_COMPLETE (R233): the tiles complete in increasing order. -/
def execMicroTileComplete (cmd : Nat) (s : State) : Res :=
  .next (
    match s.focusCmd cmd with
    | none => s
    | some (c, s) =>
      match (if c.isGemm then c.gemmMma else c.operands) with
      | none => s
      | some (m, zn, pa, pb, na, nb) =>
        if !c.started || 16 ≤ c.tiles then s
        else if c.isGemm && c.tiles = 0 && !mxTurn s.c.mxq c then s.later (.microTileComplete cmd)
        else
          let s := (s.microTile m c.gang s.b.task zn pa pb na nb c.tiles).countTile c.gang
          let s := s.modCmd cmd fun c => { c with tiles := c.tiles + 1 }
          if c.tiles + 1 < 16 then s.later (.microTileComplete cmd)
          else if c.isGemm then s.later (.mgemmStepComplete cmd)
          else s.later (.mxCommandComplete cmd))

/-! ## Steps (R239) -/

/-- A copy of rows between G and the stage: the pages of each row, or the failure. -/
def State.rowSegs (s : State) (need : Need) (t : Nat × Nat × Nat × Nat) : Except EngineFail (List Seg) :=
  (upto t.2.1).foldl (fun acc r =>
    match acc with
    | .error e => .error e
    | .ok l =>
      match s.segs (s.ctxOf s.b) need (t.2.2.1 / 4096 + 2) (t.1 + r * t.2.2.2) t.2.2.1 with
      | .error e => .error e
      | .ok x => .ok (l ++ x)) (.ok [])

/-- How a copy step went: it waits for lines, it failed, or it is done. -/
inductive CopyStep where
  | waits (s : State)
  | failed (e : EngineFail) (s : State)
  | done (s : State)

/-- A copy of rows from G into the stage, row r at `dst + r × pitch` (R239). -/
def State.gemmIn (s : State) (t : Nat × Nat × Nat × Nat) (dst pitch : Nat) : CopyStep :=
  match s.rowSegs .read t with
  | .error e => .failed e s
  | .ok l =>
    match l.findSome? (s.segFails false) with
    | some a => .failed (.abort a (s.segErrors false l)) (s.gaveUp s.b.die (l.flatMap (s.segLines false)))
    | none =>
      let r := s.readyLines s.b.die false ((l.flatMap (s.segLines false)).eraseDups)
      if !r.1 then .waits r.2
      else
        let got := r.2.readSegs l
        let s := (l.flatMap (s.segLines false)).foldl (fun s n => s.usedLine s.b.die n false) got.2
        .done ((upto t.2.1).foldl (fun s i => s.writeS (dst + i * pitch) ((got.1.drop (i * t.2.2.1)).take t.2.2.1)) s)

/-- A copy of rows from the stage out to G. -/
def State.gemmOut (s : State) (c : MxCmd) (t : Nat × Nat × Nat × Nat) (src pitch : Nat) : CopyStep :=
  match s.rowSegs .write t with
  | .error e => .failed e s
  | .ok l =>
    match l.findSome? (s.segFails true) with
    | some a => .failed (.abort a (s.segErrors true l)) (s.gaveUp s.b.die (l.flatMap (s.segLines true)))
    | none =>
      let r := if s.b.replay.isSome then (true, s) else s.readyLines s.b.die true ((l.flatMap (s.segLines true)).eraseDups)
      if !r.1 then .waits r.2
      else
        let row (i : Nat) : List Byte := memBytes s.mem (atS s.b.uid (src + i * pitch)) t.2.2.1
        let marked := r.2.markedIn ((upto t.2.1).map fun i => (atS s.b.uid (src + i * pitch), t.2.2.1))
        if !marked.isEmpty then .failed (.abort 0 marked) r.2 else
        let s := r.2.writeSegs c.late l ((upto t.2.1).flatMap row)
        .done ((upto t.2.1).foldl (fun s i => s.addTerm s.b.uid (granuleTerms (t.2.2.1 + 1) ((t.1 + i * t.2.2.2) % 2 ^ 48) (row i))) s)

/-- The effect of a step other than an MMA. -/
def State.gemmStep (s : State) (c : MxCmd) (p : Gemm) : CopyStep :=
  match p.stepAt c.step with
  | .loadC m n q => s.gemmIn (p.cAt m n q, p.dims.1, p.partRow, p.ldc) (p.stageC q) 256
  | .zld q => .done (s.doZld c (p.zb + q) (p.stageC q) 256)
  | .zclr q => .done (s.doZclr (p.zb + q))
  | .copyA m k st => s.gemmIn (p.aTile m k) (p.stageA st) (slotGeom p.mma.types.1).2
  | .copyB k n st => s.gemmIn (p.bTile k n) (p.stageB st) (slotGeom p.mma.types.2).2
  | .tldA st => .done (s.doTld c (nth 0 c.slotsW (2 * st)) p.mma.types.1 (p.stageA st) 0)
  | .tldB st => .done (s.doTld c (nth 0 c.slotsW (2 * st + 1)) p.mma.types.2 (p.stageB st) 0)
  | .mma _ => .done s
  | .zst q => .done (s.doZst c p.mode (p.zb + q) (p.stageC q) 256 p.scale)
  | .storeC m n q => s.gemmOut c (p.cAt m n q, p.dims.1, p.partRow, p.ldc) (p.stageC q) 256

/-- The next step of an MGEMM is at hand, or the command ends. -/
def State.gemmNext (s : State) (cmd : Nat) (p : Gemm) (i : Nat) : State :=
  let s := s.modCmd cmd fun c => { c with step := i, tiles := 0, readyAt := some s.ctr }
  s.later (if p.steps ≤ i then .mgemmEnd cmd else .mgemmStepComplete cmd)

/-- The FADDR of a failed copy of an MGEMM: an address only for a translation or permission fault (R238, R240). -/
def EngineFail.gemmAddr : EngineFail → DWord
  | .range a => BitVec.ofNat 64 a
  | _ => 0

/-- MGEMM_STEP_COMPLETE (R239). A step that reads S or G follows the gang's earlier stores (R220, R254), a step of the load
and store path takes its turn there (R241). A copy that fails ends the command after its step (R240). -/
def execMgemmStepComplete (cmd : Nat) (s : State) : Res :=
  .next (
    match s.focusCmd cmd with
    | none => s
    | some (c, s) =>
      let p := parseGemm c.params
      if !c.started || !c.isGemm then s
      else if c.gemmMma.isSome && c.tiles < 16 then s.later (.microTileComplete cmd)
      else if c.gemmMma.isNone && (c.after.any s.unperformed || !mxTurn s.c.mxq c) then s.later (.mgemmStepComplete cmd)
      else match s.gemmStep c p with
        | .waits s => s.later (.mgemmStepComplete cmd)
        | .done s => s.gemmNext cmd p (c.step + 1)
        | .failed e s =>
          ((s.reportFail e).modCmd cmd fun c => { c with status := e.status - 2, faddr := e.gemmAddr }).later (.mgemmEnd cmd))

/-- MGEMM_END (R240): STATUS and FADDR are written. -/
def execMgemmEnd (cmd : Nat) (s : State) : Res :=
  .next (
    match s.focusCmd cmd with
    | none => s
    | some (c, s) =>
      if !c.started || !c.isGemm then s
      else (s.writeS (c.y.toNat + 56) (leBytes 1 c.status ++ leBytes 1 0 ++ leBytes 6 c.faddr.toNat)).endCmd c)

end Sys2Proof.Machine
end

