-- ==== Sys2Proof/Machine/Copy.lean ====
section
/-! DEFINITION. Machine/Copy.lean: the copy engine (R244 to R266): collective words, the start, chunks,
failures and end of a collective, CHTEST and CHRESET. -/

namespace Sys2Proof.Machine

open Sys2Proof

/-! ## Collective words at issue -/

/-- The class in which a collective word counts (R246). -/
def copyClass (minor : Nat) : Nat := if minor ≤ 1 then 0 else if minor = 4 then 5 else 1

/-- The MMA word that FOLLOW holds, if it is one (R258). -/
def followOf (w : Nat) : Option Instr :=
  match decodeWord (BitVec.ofNat 32 w) with
  | .ok i => if (mmaOf i).isSome && !chained (BitVec.ofNat 32 w) then some i else none
  | .error _ => none

/-- Whether the queue already holds the entry of the focused block's collective n (R259). -/
def State.hasEntry (s : State) (n : Nat) : Bool := s.c.mxq.any fun c => c.block == s.b.uid && c.coll == some n

/-- Whether a collective word is held back: its class, k3 and the queue for a CPMX, and earlier stores to its
descriptor (R198, R218, R245). -/
def State.copyHold (s : State) (minor y : Nat) : Bool :=
  let off := (s.src.val y (leader s.lanes)).toNat
  s.kHold (copyClass minor) || (minor == 1 && (s.kHold 3 || (decide (32 ≤ s.c.mxq.length) && !s.hasEntry s.g.collN)))
    || (!s.lanes.isEmpty && s.storesPending off 128)

/-- The entry of a CPMX in the matrix queue: its place for the slot write and the follow-on (R218, R259). -/
def State.enterCpmx (s : State) (n : Nat) (d : Desc) (follow : Instr) : State :=
  if s.hasEntry n then s
  else match mmaOf follow, s.b.bound d.dslot with
    | some (m, zn, a, b), some sl =>
      match s.mmaSlots m zn a b with
      | some (pa, pb) =>
        let c := mxCmd follow 0 0 [pa, pb] [sl.phys] [] (m.tiles zn) [a, b]
        let c := { c with id := s.next, gang := s.g.uid, block := s.b.uid, coll := some n, ready := false }
        ({ s with c := { s.c with mxq := s.c.mxq ++ [c] }, next := s.next + 1 }).later (.mxCommandStart s.next)
      | none => s
    | _, _ => s

/-- A part issued: it counts in its class, and for a CPMX in k3 (R244, R246). -/
def State.putPart (s : State) (minor : Nat) (desc : Option (List Byte)) : State :=
  let kid := s.next
  let s := s.addK (copyClass minor) .plain
  let kid3 := if minor = 1 then some s.next else none
  let s := if minor = 1 then s.addK 3 .plain else s
  let p : Part := { coll := s.g.collN, rank := s.g.rank0, gang := s.g.uid, minor := minor, desc := desc, kid := kid, kid3 := kid3
                    late := s.closedIssue, base := s.next }
  ({ s with b := { s.b with parts := s.b.parts ++ [p] }, g := { s.g with collN := s.g.collN + 1 } }).later (.collectiveStart s.b.uid)

/-- A collective word whose descriptor has been read: the checks of R258, then its part. -/
def State.issuePart (s : State) (minor off : Nat) : State :=
  let bytes := memBytes s.mem (atS s.b.uid off) 128
  let d := parseDesc bytes
  if d.chobj % 64 ≠ 0 ∨ s.b.sbytes < d.chobj + 64 then s.fault 11 0 (BitVec.ofNat 64 off)
  else if minor = 1 then
    match followOf d.follow with
    | none => s.fault 11 0 (BitVec.ofNat 64 off)
    | some i =>
      match mmaOf i, s.b.bound d.dslot with
      | some (m, zn, a, b), some _ =>
        if (s.mmaSlots m zn a b).isNone then s.mxf 0
        else (s.enterCpmx s.g.collN d i).putPart 1 (some bytes)
      | _, _ => s.mxf 0
  else s.putPart minor (some bytes)

/-- A collective word (R244, R245, R257, R258). -/
def State.collective (s : State) (minor : Nat) (y : BitVec 6) : State :=
  if s.copyHold minor y.toNat then s.hold
  else s.withRegs [(1, y.toNat)] fun s =>
    match s.lanes with
    | [] => s.putPart minor none
    | L :: _ =>
      let off := (s.src.val y.toNat L).toNat
      if off % 128 ≠ 0 ∨ s.b.sbytes < off + 128 then s.fault 11 0 (BitVec.ofNat 64 off)
      else s.withRead off 128 fun s => s.issuePart minor off

/-- CPART (R259). -/
def execCpart (y : BitVec 6) (s : State) : Res := .next (s.collective 0 y)
/-- CPMX (R259). -/
def execCpmx (y : BitVec 6) (s : State) : Res := .next (s.collective 1 y)
/-- GATHER (R260). -/
def execGather (y : BitVec 6) (s : State) : Res := .next (s.collective 2 y)
/-- SCATTER (R260). -/
def execScatter (y : BitVec 6) (s : State) : Res := .next (s.collective 3 y)
/-- CRED (R261). -/
def execCred (y : BitVec 6) (s : State) : Res := .next (s.collective 4 y)

/-! ## The start (R245, R249, R251) -/

/-- The lowest and the highest offset that a part's indices give with some strides. -/
def spanOf (base : Int) : List Nat → List Int → Int × Int
  | n :: ns, x :: xs =>
    let r := spanOf base ns xs
    let k : Int := (n - 1 : Nat) * x
    (r.1 + min 0 k, r.2 + max 0 k)
  | _, _ => (base, base)

/-- Bytes of a slot image's destination range: a Q4N image continues in the sidecar (R214, R259). -/
def imageSize (ty : Nat) : Nat := (slotGeom ty).1 * (slotGeom ty).2

/-- Whether the slots and z tiles of a follow-on pass the checks of R222 as they stand now (R259). -/
def State.followOk (s : State) (d : Desc) : Bool :=
  match (followOf d.follow).bind mmaOf with
  | some (m, zn, a, b) => (s.mmaSlots m zn a b).isSome
  | none => false

/-- Whether one descriptor is malformed for a word (R249, R260, R261). -/
def State.descBad (s : State) (minor : Nat) (d : Desc) : Bool :=
  let used := d.sizes.take d.ndim
  let plain (sp : Nat) (a : Nat) : Bool := if sp = 0 ∨ sp = 4 then decide (a < 2 ^ 48) else decide (a < 2 ^ 32)
  d.resv.any (· != 0) || decide (4 ≤ d.flags) || decide (16 ≤ d.redop)
    || decide (2 < d.ssp) || decide (4 < d.dsp) || decide (4 < d.esize) || d.ndim == 0 || decide (6 < d.ndim)
    || !plain d.ssp d.src || !plain d.dsp d.dst
    || (d.dsp != 4 && d.dcap != 0) || decide (63 < d.dcap) || (d.dsp != 3 && d.dslot != 0) || decide (31 < d.dslot)
    || (minor != 1 && d.follow != 0)
    || used.any (· == 0) || (d.sizes.drop d.ndim).any (· != 0) || (d.sstr.drop d.ndim).any (· != 0) || (d.dstr.drop d.ndim).any (· != 0)
    || d.sstr.any (fun x => x % (d.ssz : Int) != 0) || d.dstr.any (fun x => x % (d.ssz : Int) != 0)
    || ((d.ssp == 1 || d.ssp == 2) && d.src % d.ssz != 0) || ((d.dsp == 1 || d.dsp == 2) && d.dst % d.ssz != 0)
    || (d.dsp == 3) != (minor == 1) || (d.dsp == 4 && !(minor == 0 || minor == 4)) || (d.dsp == 4 && d.ssp != 0)
    || (d.fe && (d.dsp == 0 || d.dsp == 3 || d.dsp == 4))
    || (minor != 4 && d.redop != 0) || (minor == 4 && d.redop % 4 == 3)
    || (minor != 2 && minor != 3 && d.index != 0)
    || ((minor == 2 || minor == 3) && (d.ndim != 2 || d.index % 4 != 0 || decide (s.b.sbytes < d.index + 4 * nth 0 d.sizes 1)))
    || (minor == 4 && (!(d.dsp == 0 || d.dsp == 4) || d.esize != (if d.redop.testBit 2 then 1 else 2)))
    || (minor == 1 && !s.followOk d)
    || (minor == 1 && match s.b.bound d.dslot with
        | none => true
        | some sl =>
          let r := spanOf d.dst used (d.dstr.take d.ndim)
          decide (r.1 < 0) || decide ((imageSize sl.ty : Int) < r.2 + d.ssz))

/-- Whether a collective is malformed (R249). The parts agree on their minor, the empty ones too (R245). -/
def State.collBad (s : State) (ps : List Part) : Bool :=
  let l := streamParts ps
  match l with
  | [] => false
  | (p, d) :: _ =>
    l.any (fun x => s.descBad x.1.minor x.2) || decide (131072 < streamBytes l) || ps.any (fun x => x.minor != p.minor)
      || l.any fun x => x.2.chobj != d.chobj || x.2.gen != d.gen || x.2.dslot != d.dslot || x.2.follow != d.follow

/-- Whether every gang of the block in focus has issued its part of the next collective or has retired, and
some part is there (R244). -/
def State.partsIn (s : State) : Bool :=
  let ps := s.b.parts.filter fun p => p.coll == s.b.nextColl
  !ps.isEmpty && s.allGangs.all fun g => g.block != s.b.uid || g.live == 0 || ps.any fun p => p.gang == g.uid

/-- Parts in rank order. -/
def insertPart (p : Part) : List Part → List Part
  | [] => [p]
  | q :: t => if p.rank < q.rank then p :: q :: t else q :: insertPart p t

/-- The parts of a collective taken off the block: they complete in their classes (R246). -/
def State.doneParts (s : State) (ps : List Part) : State := ps.foldl (fun s p => s.doneK p.gang p.kid) s

/-- The entry of a collective in the matrix queue dropped: its follow-on is not issued (R259). -/
def State.dropEntry (s : State) (n : Nat) : State :=
  { s with c := { s.c with mxq := s.c.mxq.filter fun c => !(c.block == s.b.uid && c.coll == some n) } }

def State.modColl (s : State) (n : Nat) (f : Coll → Coll) : State :=
  { s with b := { s.b with colls := s.b.colls.map fun c => if c.num = n then f c else c } }

/-- An occurrence counted for the gang of part 0 (R419). -/
def State.countPart (s : State) (event : Nat) (ps : List Part) : State :=
  let who : Option (Nat × Nat) := match streamParts ps with
    | [] => none
    | (p, _) :: _ => (s.findGang p.gang).map fun g => (g.sched, s.b.prio)
  { s with c := s.c.count event 1 who }

/-- A chunk object's GEN (R250). -/
def State.objGen (s : State) (obj : Nat) : Word := BitVec.ofNat 32 (memNat s.mem (atS s.b.uid (obj + 36)) 4)

/-- The index list of a part read into it (R260). -/
def State.withIndex (s : State) (p : Part) : Part :=
  match p.parsed with
  | none => p
  | some d =>
    if p.minor = 2 ∨ p.minor = 3 then
      { p with desc := p.desc.map fun b => b.take 128 ++ memBytes s.mem (atS s.b.uid d.index) (4 * nth 0 d.sizes 1) }
    else p

/-- The flat addresses of the destination bytes of a stream, of parts with the full-empty option (R255). -/
def feDests (b : Block) (l : List (Part × Desc)) (ks : List Nat) : List Nat :=
  ks.filterMap fun k =>
    match destOf l k with
    | some (d, a) => if d.fe then flatDest b d a else none
    | none => none

/-! ## One element -/

/-- An element of a chunk: its part, its number, and which bytes of it belong to the chunk. -/
structure Elem where
  part : Part
  d : Desc
  k : Nat
  first : Nat
  last : Nat
  deriving DecidableEq, Repr

/-- The elements of some stream bytes, each once with the first and last of its bytes among them. -/
def elemsOf (l : List (Part × Desc)) : List Nat → List Elem
  | [] => []
  | j :: t =>
    match locate l j with
    | none => elemsOf l t
    | some (p, d, i) =>
      let z := d.dsz p.minor
      match elemsOf l t with
      | e :: es => if e.part.gang = p.gang ∧ e.k = i / z ∧ e.first = i % z + 1 then { e with first := i % z } :: es
                   else { part := p, d := d, k := i / z, first := i % z, last := i % z } :: e :: es
      | [] => [{ part := p, d := d, k := i / z, first := i % z, last := i % z }]

/-- A source or destination in a scratchpad: its flat address, or a range failure (R249, R253). -/
def State.spadEnd (s : State) (sp perm : Nat) (a : Int) (n : Nat) : Except EngineFail Nat :=
  let off := a.toNat
  if a < 0 then .error (.range 0)
  else match s.spadAt {} s.b (if sp = 1 then .s else .d) perm 0 off n with
    | some p => .ok p
    | none => .error (.range off)

/-- A G address of a copy, modulo 2^48 (R248). -/
def gAddr (a : Int) : Nat := (a % 2 ^ 48).toNat

/-- Where an element's source stands: a flat address of a scratchpad, or pages of G. -/
inductive Source where
  | flat (p : Nat)
  | pages (l : List Seg)

/-- The source of an element, or its failure (R253). -/
def State.elemSource (s : State) (e : Elem) : Except EngineFail Source :=
  let a := e.d.srcOf e.part.minor e.part.index e.k
  if e.d.ssp = 0 then
    match s.segs (s.ctxOf s.b) .read 3 (gAddr a) e.d.ssz with
    | .error x => .error x
    | .ok l =>
      match l.findSome? (s.segFails false) with
      | some x => .error (.abort x (s.segErrors false l))
      | none => if e.d.dsp = 4 && !(l.all fun g => !g.x.pend && s.shutterPasses (s.ctx (s.ctxOf s.b)).tenant g.x) then .error (.shutter (gAddr a)) else .ok (.pages l)
  else match s.spadEnd e.d.ssp 2 a e.d.ssz with
    | .error x => .error x
    | .ok p => if hasUE s.ue p e.d.ssz then .error (.abort a.toNat (s.markedIn [(p, e.d.ssz)])) else .ok (.flat p)

/-- The raw value of a source. -/
def State.sourceValue (s : State) (x : Source) : Nat :=
  match x with
  | .flat p => leNat (memBytes s.mem p 16)
  | .pages l => leNat (l.flatMap fun g => s.seen (s.withPend g.x) g.len)

/-! ## The start -/

/-- Whether the gang of a part still has an access to perform that it issued before the part (R254). -/
def State.earlierAccess (s : State) (p : Part) : Bool :=
  match s.findGang p.gang with
  | some g => g.flights.any fun f => f.remain != 0 && decide (f.id < p.base)
  | none => false

/-- The sources of a stream that are read at its start: those of gangs without an earlier access still outstanding, where
they can be read (R254; DESIGN CHOICE, log 14). -/
def State.sourcesNow (s : State) (l : List (Part × Desc)) (total : Nat) : List (Elem × Source) :=
  (elemsOf l (upto total)).filterMap fun e =>
    if s.earlierAccess e.part then none
    else match s.elemSource e with
      | .ok x => some (e, x)
      | .error _ => none

/-- The read of a source recorded with the operator (R182). -/
def State.noteSource (s : State) (x : Source) : State :=
  match x with
  | .pages l => l.foldl (fun s g => s.noteRead s.b.task (s.withPend g.x)) s
  | .flat _ => s

/-- Granules filled by the engine, and the parked words that wait on them served (R176, R177). -/
def State.fill (s : State) (grans : List Nat) : State :=
  State.serveGrans { s with empty := s.empty.filter fun g => !grans.contains g } grans

/-- A chunk fails: the first failure fixes the status of its collective (R253). An abort completion is reported
(R32). -/
def State.failChunk (s : State) (coll : Nat) (f : EngineFail) : State :=
  let fixed (c : Coll) : Coll := if c.fail.isSome then c else { c with fail := some (f.status, BitVec.ofNat 64 f.addr) }
  ((s.reportFail f).modColl coll fixed).later (.collectiveEnd s.b.uid coll)

/-- The failure of a collective whose index list cannot be read: the address that met the abort completion (R253,
R260). -/
def State.indexFail (s : State) (l : List (Part × Desc)) : Option EngineFail :=
  l.findSome? fun x =>
    let a := atS s.b.uid x.2.index
    if x.1.minor != 2 && x.1.minor != 3 then none
    else match s.markedIn [(a, 4 * nth 0 x.2.sizes 1)] with
      | [] => none
      | bad => some (.abort (x.2.index + (bad.foldl min (bad.headD a) - a)) bad)

/-- A collective with its parts all in (R244): discarded, malformed or running (R251). -/
def State.startColl (s : State) : State :=
  let n := s.b.nextColl
  let ps := (s.b.parts.filter fun p => p.coll == n).foldr insertPart []
  let s := { s with b := { s.b with nextColl := n + 1, parts := s.b.parts.filter fun p => p.coll != n } }
  match streamParts ps with
  | [] => ((s.doneParts ps).doneParts3 ps)
  | (p0, d0) :: _ =>
    let status := memNat s.mem (atS s.b.uid (d0.chobj + 32)) 1
    if status ≠ 0 ∨ (s.objGen d0.chobj).toNat ≠ d0.gen then
      (((s.countPart 0x016 ps).dropEntry n).doneParts ps).doneParts3 ps
    else if s.collBad ps then
      let bare := ps.map fun p => { p with desc := none }
      let c : Coll := { num := n, parts := bare, obj := d0.chobj, gen := s.objGen d0.chobj, expect := 0, landed := [], fail := some (6, 0) }
      ({ (s.countPart 0x015 ps) with b := { s.b with colls := s.b.colls ++ [c] } }).later (.collectiveEnd s.b.uid n)
    else
      let s := s.countPart 0x015 ps
      let ps := ps.map s.withIndex
      let l := streamParts ps
      let total := streamBytes l
      let got := s.sourcesNow l total
      let dty := match s.b.bound d0.dslot with
        | some sl => sl.ty
        | none => 0
      let c : Coll := { num := n, parts := ps, obj := d0.chobj, gen := s.objGen d0.chobj, expect := (total + 511) / 512, landed := [], fail := none
                        orig := got.map fun x => (x.1.part.rank, x.1.k, s.sourceValue x.2), dty := dty }
      let s := got.foldl (fun s x => s.noteSource x.2) s
      let s := s.writeS (d0.chobj + 32) (leBytes 1 1)
      let s := s.writeS (d0.chobj + 48) (leBytes 4 c.expect ++ leBytes 4 total)
      let fe := if p0.minor ≤ 3 then (feDests s.b l (upto total)).map (· / 16) else []
      let s := { s with b := { s.b with colls := s.b.colls ++ [c] }, empty := (fe.eraseDups).foldl insertNat s.empty }
      match s.indexFail l with
      | some f => s.failChunk n f
      | none =>
        if c.expect = 0 then s.later (.collectiveEnd s.b.uid n)
        else (upto c.expect).foldl (fun s k => s.later (.chunkLanded s.b.uid n k)) s

/-- Whether the next collective of the block in focus can start: its parts are in, and the index lists it reads follow
every access that their gangs issued before (R244, R260). -/
def State.canStart (s : State) : Bool :=
  s.partsIn && (s.b.parts.filter fun p => p.coll == s.b.nextColl).all fun p => !((p.minor == 2 || p.minor == 3) && s.earlierAccess p)

/-- When the next collective of the block in focus reached the engine: with its last part. -/
def State.reachedAt (s : State) : Nat :=
  ((s.b.parts.filter fun p => p.coll == s.b.nextColl).map fun p => p.base).foldl max 0

/-- Whether no other collective that could start reached the core's engine earlier (R21). -/
def State.servedFirst (s : State) : Bool :=
  s.allBlocks.all fun x => x.uid == s.b.uid || x.die != s.b.die || x.core != s.b.core
    || !(s.focusBlock x.uid).canStart || decide (s.reachedAt ≤ (s.focusBlock x.uid).reachedAt)

/-- COLLECTIVE_START (R251). The engine serves the collectives of a core in the order in which they reach it (R21). -/
def execCollectiveStart (block : Nat) (s : State) : Res :=
  let s := s.atBlock block
  .next (
    if s.b.uid != block || s.b.parts.isEmpty then s
    else if s.canStart && s.servedFirst then
      let s := s.startColl
      if s.b.parts.isEmpty then s else s.later (.collectiveStart block)
    else if s.allGangs.any (fun g => g.block == block) then s.later (.collectiveStart block)
    else s)

/-! ## The other end -/

/-- Where an element goes. -/
inductive Target where
  | flat (p : Nat)
  | pages (l : List Seg)
  | slot (phys off : Nat)
  | remote (pkg addr : Nat)

/-- Whether a capability admits a remote copy (R342, R343). -/
def Cap.admitsRemote (c : Cap) (minor : Nat) : Bool := c.kind == 5 && c.may (if minor = 4 then 4 else 3)

/-- The destination of an element, or its failure (R253, R256, R261). -/
def State.elemTarget (s : State) (n : Nat) (e : Elem) : Except EngineFail Target :=
  let minor := e.part.minor
  let a := e.d.dstOf minor e.part.index e.k
  let z := e.d.dsz minor
  if e.d.dsp = 0 then
    if minor = 4 && gAddr a % z != 0 then .error (.range (gAddr a))
    else match s.segs (s.ctxOf s.b) (if minor = 4 then .atom else .write) 3 (gAddr a) z with
      | .error x => .error x
      | .ok l => .ok (.pages l)
  else if e.d.dsp = 3 then
    match s.c.mxq.find? fun c => c.block == s.b.uid && c.coll == some n with
    | some c => .ok (.slot (c.slotsW.headD 0) a.toNat)
    | none => .error (.range a.toNat)
  else if e.d.dsp = 4 then
    let c := (s.task s.b.task).cap e.d.dcap
    if !c.admitsRemote minor || !(s.ctx (s.ctxOf s.b)).remote || a < 0 || (c.f24 : Int) < a + z || (minor == 4 && (c.f16 + a.toNat) % z != 0) then
      .error (.range a.toNat)
    else .ok (.remote c.f8 (c.f16 + a.toNat))
  else match s.spadEnd e.d.dsp 3 a z with
    | .error x => .error x
    | .ok p => .ok (.flat p)

/-- KEYSAME: the pages' key indices agree (R256). -/
def keysAgree (d : Desc) (src : Source) (dst : Target) : Bool :=
  match src, dst with
  | .pages l, .pages m => !d.flags.testBit 1 || l.all fun g => m.all fun h => g.x.key == h.x.key
  | _, _ => true

/-- The value an element stores or combines: the source bytes, or for CRED the number in the destination
type (R261). -/
def Desc.converted (d : Desc) (minor v : Nat) : Nat :=
  let v := v % 2 ^ (8 * d.ssz)
  if minor = 4 then
    let from_ := if d.redop.testBit 2 then bf16 else f32
    let to_ := if d.redop.testBit 3 then bf16 else f32
    if from_ == to_ then v else (roundF to_ .rn (from_.val v)).bits
  else v

/-- The combination of CRED: add, max, min (R261). -/
def Desc.combine (d : Desc) (old x : Nat) : Nat :=
  let f := if d.redop.testBit 3 then bf16 else f32
  if d.redop % 4 = 0 then (fadd f old x).bits else (fminmax f (d.redop % 4 == 1) old x).bits

/-! ## One chunk -/

/-- An element with both its ends. -/
structure Ready where
  e : Elem
  src : Source
  dst : Target

/-- An element's ends, or its failure. -/
def State.elemEnds (s : State) (n : Nat) (e : Elem) : Except EngineFail Ready :=
  match s.elemSource e, s.elemTarget n e with
  | .error x, .error y => .error ((EngineFail.first [x, y]).getD x)
  | .error x, _ => .error x
  | _, .error y => .error y
  | .ok a, .ok b => if keysAgree e.d a b then .ok { e := e, src := a, dst := b } else .error (.range (gAddr (e.d.dstOf e.part.minor e.part.index e.k)))

/-- The good elements of a chunk, and its failures. -/
def State.chunkEnds (s : State) (n : Nat) (es : List Elem) : List Ready × List EngineFail :=
  es.foldr (fun e acc =>
    match s.elemEnds n e with
    | .ok r => (r :: acc.1, acc.2)
    | .error x => (acc.1, x :: acc.2)) ([], [])

/-- The physical bytes a chunk writes in G. -/
def State.chunkWrites (s : State) (rs : List Ready) : List Nat :=
  rs.flatMap fun r =>
    match r.dst with
    | .pages l => (l.flatMap fun g => (upto g.len).map (s.segPhys true g + ·)).drop r.e.first |>.take (r.e.last + 1 - r.e.first)
    | _ => []

/-- The lines a chunk reads, and those it writes. -/
def State.chunkReadLines (s : State) (rs : List Ready) : List Nat :=
  (rs.flatMap fun r =>
    match r.src with
    | .pages l => l.flatMap (s.segLines false)
    | _ => []).eraseDups
def State.chunkWriteLines (s : State) (rs : List Ready) : List Nat := ((s.chunkWrites rs).map lineOf).eraseDups

/-- The first destination at which a write meets an abort completion: an absent memory die, a line whose request has timed
out, or a bad line that the chunk does not write whole (R181, R253, R362). -/
def State.chunkAbort (s : State) (rs : List Ready) : Option EngineFail :=
  let ws := s.chunkWrites rs
  let holder := if rs.any fun r => r.e.part.minor == 4 then homeHolder else s.b.die
  let bad (n : Nat) : Bool := !s.reachable (128 * n) || s.noReply holder n || (s.lineBad n && !((upto 128).all fun i => ws.contains (128 * n + i)))
  rs.findSome? fun r =>
    match r.dst with
    | .pages l => if (l.flatMap (s.segLines true)).any bad then
        some (.abort (gAddr (r.e.d.dstOf r.e.part.minor r.e.part.index r.e.k)) (s.badLines ((l.flatMap (s.segLines true)).filter bad)))
      else none
    | _ => none

/-- The bytes of an element that belong to the chunk, from a value. -/
def Elem.bytes (e : Elem) (v : Nat) : List Byte := ((leBytes (e.d.dsz e.part.minor) v).drop e.first).take (e.last + 1 - e.first)

/-- The part of some pages from byte i on, n bytes long. -/
def cutSegs : Nat → Nat → List Seg → List Seg
  | _, _, [] => []
  | i, n, g :: t =>
    if n = 0 then []
    else if g.len ≤ i then cutSegs (i - g.len) n t
    else
      let len := min n (g.len - i)
      { x := { g.x with off := g.x.off + i }, va := g.va + i, len := len } :: cutSegs 0 (n - len) t

/-- Bytes written to pages of G by the engine: pending frames, lineage, signature terms (R182, R379). -/
def State.storeSegs (s : State) (late : Bool) : List Seg → List Byte → State
  | [], _ => s
  | g :: t, bytes =>
    let now := bytes.take g.len
    let s := (s.gWrite s.b.uid s.b.task (s.withPend g.x) late now).addTerm s.b.uid (granuleTerms (g.len + 1) g.va now)
    State.storeSegs s late t (bytes.drop g.len)

/-- What the source of an element held when its collective started, if it was read then. -/
def Coll.origin (c : Coll) (e : Elem) : Option Nat :=
  (c.orig.find? fun x => x.1 == e.part.rank && x.2.1 == e.k).map fun x => x.2.2

/-- Two values of a source mixed freely, byte by byte. -/
def mixed (n a b : Nat) : Nat :=
  leNat ((upto 16).map fun j => if Config.copyNew (16 * n + j) then BitVec.ofNat 8 (a / 256 ^ j) else BitVec.ofNat 8 (b / 256 ^ j))

/-- Whether the source of an element overlaps a destination of its collective (R254). -/
def Elem.overlaps (l : List (Part × Desc)) (e : Elem) : Bool :=
  let place (g : Bool) (a : Int) : Int := if g then gAddr a else a
  let a := place (e.d.ssp == 0) (e.d.srcOf e.part.minor e.part.index e.k)
  l.any fun x => x.2.dsp == e.d.ssp && (upto x.2.count).any fun k =>
    let b := place (x.2.dsp == 0) (x.2.dstOf x.1.minor x.1.index k)
    decide (b < a + e.d.ssz) && decide (a < b + x.2.dsz x.1.minor)

/-- Whether only some bytes of an element belong to the chunk. -/
def Elem.split (e : Elem) : Bool := e.first != 0 || e.last + 1 != e.d.dsz e.part.minor

/-- What is copied from a source: each byte as it was at the start of the collective, before the chunk, or now; where the
collective writes its own source, the element as a whole as it was at one of these moments (R254; DESIGN CHOICE, log 14).
`before` is the state in which the chunk began, i the element's number in it. -/
def State.takenValue (s before : State) (c : Coll) (i : Nat) (r : Ready) : Nat :=
  let now := s.sourceValue r.src
  let was := before.sourceValue r.src
  let n := 4096 * s.ctr + 2 * i
  if r.e.overlaps (streamParts c.parts) then
    match c.origin r.e with
    | some x => if r.e.split then x else nth x [x, was, now] (Config.copyOrder n % 3)
    | none => if r.e.split then now else nth now [now, was] (Config.copyOrder n % 2)
  else
    let held := mixed n now was
    match c.origin r.e with
    | some x => mixed (n + 1) held x
    | none => held

/-- One element performed. -/
def State.performElem (s before : State) (c : Coll) (i : Nat) (r : Ready) : State :=
  let e := r.e
  let minor := e.part.minor
  let raw := s.takenValue before c i r
  let v := e.d.converted minor raw
  let s := s.noteSource r.src
  match r.dst with
  | .flat p =>
    { s with mem := memWrite s.mem (p + e.first) (e.bytes v), ue := clearUE s.ue (p + e.first) (e.last + 1 - e.first) }
  | .slot phys off => s.putSlot phys (off + e.first) (e.bytes v)
  | .remote _ _ => s
  | .pages l =>
    if minor = 4 then
      match l with
      | [] => s
      | g :: _ =>
        let z := e.d.dsz minor
        let x := s.withPend g.x
        let old := leNat (s.seen x z)
        let s := s.noteRead s.b.task x
        let s := s.gWrite s.b.uid s.b.task x e.part.late (leBytes z (e.d.combine old v))
        s.addTerm s.b.uid (sigTerm g.va z (16 + e.d.redop % 4) (if e.d.redop.testBit 3 then 1 else 0) v 0)
    else s.storeSegs e.part.late (cutSegs e.first (e.last + 1 - e.first) l) (e.bytes v)

/-- Elements in a free order; `fuel` is how many there are. -/
def inFreeOrder {α : Type} (ctr : Nat) : Nat → List α → List α
  | 0, _ => []
  | n + 1, l =>
    let i := Config.copyOrder (4096 * ctr + n) % l.length
    match l[i]? with
    | none => []
    | some x => x :: inFreeOrder ctr n (l.eraseIdx i)

/-- The elements of a chunk performed in a free order: of elements that write one byte any may come last (R254, R261;
DESIGN CHOICE, log 14). -/
def State.performElems (s : State) (c : Coll) (rs : List Ready) : State :=
  (inFreeOrder s.ctr rs.length rs.zipIdx).foldl (fun s' (x : Ready × Nat) => s'.performElem s c x.2 x.1) s

/-- Granules that have been written become full: with the full-empty option once no byte of them is still to be written,
by the chunks `ks` (R176, R255). Each byte written is given by its flat address and whether its part has the option. -/
def State.fillGranules (s : State) (c : Coll) (bytes : List (Nat × Bool)) (ks : List Nat) : State :=
  let l := streamParts c.parts
  let total := streamBytes l
  let gone (p : Nat) : Bool := bytes.any fun x => x.1 == p
  let wait := if bytes.any (·.2) then
      (ks.flatMap fun j => (feDests s.b l (chunkBytes total j)).filter fun p => !gone p).map (· / 16)
    else []
  s.fill ((bytes.map fun x => (x.1 / 16, x.2)).filter fun x => !(x.2 && wait.contains x.1)).unzip.1.eraseDups

/-- The bytes of S and D that a chunk writes. -/
def State.chunkFlat (s : State) (c : Coll) (k : Nat) : List (Nat × Bool) :=
  let l := streamParts c.parts
  (chunkBytes (streamBytes l) k).filterMap fun j => (destOf l j).bind fun x => (flatDest s.b x.1 x.2).map fun p => (p, x.1.fe)

/-- The bytes of S and D that some elements write. -/
def elemsFlat (rs : List Ready) : List (Nat × Bool) :=
  rs.flatMap fun r => match r.dst with
    | .flat p => (upto (r.e.last + 1 - r.e.first)).map fun i => (p + r.e.first + i, r.e.d.fe)
    | _ => []

/-- The chunks of a collective that have not landed, but for one. -/
def Coll.left (c : Coll) (k : Nat) : List Nat := (upto c.expect).filter fun j => j != k && !c.landed.contains j

/-- A chunk's bit set, while GEN holds (R251, R252). -/
def State.setBit (s : State) (c : Coll) (k : Nat) : State :=
  if s.objGen c.obj == c.gen then
    let a := atS s.b.uid (c.obj + k / 8)
    State.fill { (s.countPart 0x017 c.parts) with mem := memPut s.mem a (memGet s.mem a ||| (1#8 <<< (k % 8))) } [a / 16]
  else s

/-- The follow-on of a CPMX handed to the array once every chunk bit is set (R259): for a Q4N slot F is
written first; MX.UE is recorded for the gang of part 0. -/
def State.follow (s : State) (c : Coll) : State :=
  match s.c.mxq.find? fun x => x.block == s.b.uid && x.coll == some c.num with
  | none => s
  | some x =>
    if !((upto c.expect).all fun k => s.chunkBit s.b c k) then s
    else
      let phys := x.slotsW.headD 0
      let s := if c.dty = 5 then s.formF phys else s
      let gang := match streamParts c.parts with
        | [] => 0
        | (p, _) :: _ => p.gang
      ((s.modCmd x.id fun x => { x with ready := true, gang := gang }).modColl c.num fun c => { c with followed := true }).noteReady

/-- A chunk has landed: its bit is set, and after the last one the collective ends (R252). -/
def State.landed (s : State) (c : Coll) (k : Nat) : State :=
  let s := (s.fillGranules c (s.chunkFlat c k) (c.left k)).setBit c k
  let c := { c with landed := insertNat c.landed k }
  let s := s.modColl c.num fun _ => c
  if c.landed.length < c.expect then s else (s.follow c).later (.collectiveEnd s.b.uid c.num)

/-- Whether a chunk has to wait: for accesses its gangs issued before their parts (R254), for the commands
before its CPMX (R219), or for the chunk that holds the beginning of an element it combines (R261). -/
def State.chunkWaits (s : State) (c : Coll) (es : List Elem) (k : Nat) : Bool :=
  es.any (fun e => s.earlierAccess e.part)
  || (match s.c.mxq.find? fun x => x.block == s.b.uid && x.coll == some c.num with
      | some x => mxWaits s.c.mxq x
      | none => false)
  || (match es with
      | e :: _ => e.part.minor == 4 && e.first != 0 && !c.landed.contains (k - 1)
      | [] => false)

/-- Chunk k's elements; of a CRED, those that begin in it. -/
def Coll.elems (c : Coll) (k : Nat) : List Elem :=
  let l := streamParts c.parts
  let es := elemsOf l (chunkBytes (streamBytes l) k)
  es

/-- A reduction performs each element once, with the chunk that holds its first byte. -/
def wholeElems (es : List Elem) : List Elem :=
  (es.filter fun e => e.part.minor != 4 || e.first == 0).map fun e => if e.part.minor = 4 then { e with last := e.d.dsz 4 - 1 } else e

/-- The remote request of a collective's chunk that awaits its reply. -/
def State.request (s : State) (n k : Nat) : Option Request :=
  s.fab.requests.find? fun r => r.block == s.b.uid && r.coll == n && r.chunk == k && !r.expired

/-- Pieces of data for other packages, those joined that follow one another there: package, address and bytes. -/
def joinPieces : List (Nat × Nat × List Byte) → List (Nat × Nat × List Byte)
  | [] => []
  | x :: t =>
    match joinPieces t with
    | y :: ys => if x.1 = y.1 ∧ x.2.1 + x.2.2.length = y.2.1 then (x.1, x.2.1, x.2.2 ++ y.2.2) :: ys else x :: y :: ys
    | [] => [x]

/-- The data that a chunk's elements write in other packages, each at its own address (R248, R262). `before` is the state in
which the chunk began. -/
def State.remotePieces (s before : State) (c : Coll) (rs : List Ready) : List (Nat × Nat × List Byte) :=
  joinPieces (rs.zipIdx.filterMap fun (x : Ready × Nat) =>
    match x.1.dst with
    | .remote p a => some (p, a + x.1.e.first, x.1.e.bytes (x.1.e.d.converted x.1.e.part.minor (s.takenValue before c x.2 x.1)))
    | _ => none)

/-- A chunk's data sent to other packages, 128 bytes a flit at most, by way of LD, and the replies awaited (R262, R362,
R364). Every flit of a chunk carries the tag of its request. -/
def State.sendRemote (s before : State) (c : Coll) (k : Nat) (rs : List Ready) : State :=
  let id := s.next
  let n := c.num
  let cls := if rs.any fun r => r.e.part.minor == 4 then 8 else 7
  let flits (x : Nat × Nat × List Byte) : List (Nat × List Byte) := (upto ((x.2.2.length + 127) / 128)).map fun i =>
    (x.1, linkFlit { cls := cls, srcn := s.b.die, dstn := 13, srcp := s.fab.pkg, dstp := x.1, tenant := (s.ctx (s.ctxOf s.b)).tenant
                     lf := 2, tag := id, addr := x.2.1 + 128 * i } ((x.2.2.drop (128 * i)).take 128))
  let all := (s.remotePieces before c rs).flatMap flits
  let r : Request := { id := id, block := s.b.uid, coll := n, chunk := k, sentNs := s.ns, die := s.b.die, unsent := all.length, due := all.length }
  let s := { s with fab := { s.fab with requests := s.fab.requests ++ [r] }, next := id + 1 }
  let s := all.foldl (fun s x => s.enter s.b.die awayNode x.2 (.carriageTransitFlit x.1 0 x.2)) s
  let s := s.later (.requestTimeout id)
  if all.isEmpty then s.later (.chunkLanded s.b.uid n k) else s

/-- The failure of a chunk at the other package: the address, in the capability's window, of one of its elements there,
freely chosen (R250, R253; DESIGN CHOICE, log 14). -/
def State.farAbort (s : State) (c : Coll) (k : Nat) : EngineFail :=
  let es := (wholeElems (c.elems k)).filter fun e => e.d.dsp == 4
  .abort (match es[Config.copyOrder (4096 * s.ctr) % es.length]? with
    | some e => (e.d.dstOf e.part.minor e.part.index e.k).toNat
    | none => 0) []

/-- The request of a chunk is answered. -/
def State.answered (s : State) (n k : Nat) : State :=
  match s.request n k with
  | none => s
  | some r =>
    (({ s with fab := { s.fab with requests := s.fab.requests.filter fun x => x.id != r.id } }.notLater (.requestTimeout r.id)).notLater
      (.copyFailure s.b.uid n k)).notLater (.chunkLanded s.b.uid n k)

/-- What a chunk does when its event comes (R252, R253). A remote chunk is sent first, and has landed when
the other package acknowledges it (R261). -/
def State.stepChunk (s : State) (c : Coll) (k : Nat) : State :=
  let es := c.elems k
  if (s.request c.num k).isSome then ((s.answered c.num k).landed c k)
  else if s.chunkWaits c es k then s.later (.chunkLanded s.b.uid c.num k)
  else
    let es := wholeElems es
    let r := s.chunkEnds c.num es
    if !r.2.isEmpty || (s.chunkAbort r.1).isSome then s.soon (.copyFailure s.b.uid c.num k)
    else
      let remote := es.any fun e => e.d.dsp == 4
      let red := es.any fun e => e.part.minor == 4
      let holder := if red then homeHolder else s.b.die
      let writes := s.chunkWriteLines r.1
      let reads := (s.chunkReadLines r.1).filter fun n => red || !writes.contains n
      let w := if s.b.replay.isSome then (true, s) else s.readyLines holder true writes
      let d := w.2.readyLines s.b.die false (if red then reads.filter fun n => !writes.contains n else reads)
      if !(w.1 && d.1) then d.2.later (.chunkLanded s.b.uid c.num k)
      else
        let whole := writes.filter fun n => (upto 128).all fun i => (s.chunkWrites r.1).contains (128 * n + i)
        let s := d.2.performElems c r.1
        let s := writes.foldl (fun s n => if s.b.replay.isSome then s else s.usedLine holder n true) s
        let s := reads.foldl (fun s n => s.usedLine s.b.die n false) s
        let s := whole.foldl (fun s n => s.healLine n) s
        if remote && s.b.replay.isNone then s.sendRemote d.2 c k r.1 else s.landed c k

/-- A reply that comes after its request has been completed is discarded and counted: with the die, or with the
Carriage when the request was sent before a reset of the local side (R362, R374). -/
def State.lateReply (s : State) (r : Request) : State :=
  let s := { s with fab := { s.fab with requests := s.fab.requests.filter fun x => x.id != r.id } }
  if r.preReset then s.pcount 13 13 0 1 else s.pcount r.die 5 0 1

/-- A chunk of a collective that has failed: its data had been sent, and has been written at the other package, so that
its bit is set (R253). -/
def State.landedLate (s : State) (c : Coll) (k : Nat) : State :=
  if (s.request c.num k).isSome then
    ((s.answered c.num k).setBit c k).modColl c.num fun c => { c with landed := insertNat c.landed k }
  else s

/-- CHUNK_LANDED (R252). -/
def execChunkLanded (block coll chunk : Nat) (s : State) : Res :=
  .next (
    match s.fab.requests.find? fun r => r.block == block && r.coll == coll && r.chunk == chunk && r.expired with
    | some r => s.lateReply r
    | none =>
      let s := s.atBlock block
      match s.b.colls.find? fun c => c.num == coll with
      | none => s
      | some c =>
        if s.b.uid != block || c.kill || c.landed.contains chunk then s
        else if c.fail.isSome then s.landedLate c chunk
        else s.stepChunk c chunk)

/-- COPY_FAILURE (R253): the first failure fixes the status; what had been started may still be written. A
chunk whose request is outstanding failed at the other package. In a replay, copies end OK (R398). -/
def execCopyFailure (block coll chunk : Nat) (s : State) : Res :=
  let s := s.atBlock block
  .next (
    match s.b.colls.find? fun c => c.num == coll with
    | none => s
    | some c =>
      if s.b.uid != block || c.kill || c.landed.contains chunk then s
      else if (s.request coll chunk).isSome then (s.answered coll chunk).failChunk coll (s.farAbort c chunk)
      else if c.fail.isSome then s
      else
        let r := s.chunkEnds coll (wholeElems (c.elems chunk))
        let started := r.1.filter fun x => match x.dst with
          | .flat _ | .slot _ _ => true
          | _ => false
        match EngineFail.first (r.2 ++ (s.chunkAbort r.1).toList) with
        | none => s
        | some f =>
          let s := if Config.copyNew (s.ctr + 1) then
              (s.performElems c started).fillGranules c (elemsFlat started) (chunk :: c.left chunk)
            else s
          let lines := s.fab.lines.map Prod.fst
          ((s.gaveUp s.b.die lines).gaveUp homeHolder (s.chunkWriteLines r.1)).failChunk coll f)

/-- COLLECTIVE_END (R253): once what it sent to other packages has been answered, the final status, while GEN holds; the parts complete (R246), and k3 unless a
follow-on has been issued (R259). -/
def execCollectiveEnd (block coll : Nat) (s : State) : Res :=
  let s := s.atBlock block
  .next (
    match s.b.colls.find? fun c => c.num == coll with
    | none => s
    | some c =>
      if s.b.uid != block || c.kill then s
      else if s.fab.requests.any fun r => r.block == block && r.coll == coll && !r.expired then s.later (.collectiveEnd block coll)
      else
        let st := match c.fail with
          | some (k, a) => (k, a)
          | none => (2, 0)
        let s := if s.objGen c.obj == c.gen then
            (s.writeS (c.obj + 32) (leBytes 1 st.1)).writeS (c.obj + 40) (leBytes 8 st.2.toNat)
          else s
        let s := s.doneParts c.parts
        let s := (upto c.expect).foldl (fun s k => s.notLater (.chunkLanded block coll k)) s
        if c.followed && s.hasEntry coll then s.modColl coll fun c => { c with kill := true }
        else
          let s := if c.followed then s else (s.dropEntry coll).doneParts3 c.parts
          { s with b := { s.b with colls := s.b.colls.filter fun c => c.num != coll } })

/-! ## CHTEST and CHRESET -/

/-- CHTEST's value for a test register on a chunk object (R263). -/
def State.chValue (s : State) (obj : Nat) (z : Word) : Bool :=
  let c := (z.extractLsb' 0 8).toNat
  let n := (z.extractLsb' 8 8).toNat + 1
  let bit (k : Nat) : Bool := decide (k < 256) && (memGet s.mem (atS s.b.uid (obj + k / 8))).getLsbD (k % 8)
  let status := memNat s.mem (atS s.b.uid (obj + 32)) 1
  let m := (z.extractLsb' 16 2).toNat
  if m = 0 then (upto n).all fun i => bit (c + i)
  else if m = 1 then (upto n).any fun i => bit (c + i)
  else if m = 2 then decide (2 ≤ status ∧ status ≤ 6)
  else decide (3 ≤ status ∧ status ≤ 6)

/-- The offset of a chunk object good for CHTEST and CHRESET (R258). -/
def State.objOk (s : State) (off : Nat) : Bool := off % 64 == 0 && decide (off + 64 ≤ s.b.sbytes)

/-- CHTEST (R263). The object is read as the gang's earlier stores leave it. -/
def execChtest (p : BitVec 3) (y z : BitVec 6) (s : State) : Res :=
  let off := (s.src.val y.toNat (leader s.lanes)).toNat
  .next (
    if !s.lanes.isEmpty && s.storesPending off 64 then s.hold
    else s.withRegs [(1, y.toNat), (1, z.toNat)] fun s =>
      if s.lanes.isEmpty then s
      else if !s.objOk off then s.fault 11 0 (BitVec.ofNat 64 off)
      else s.withRead off 64 fun s => { s with g := s.g.setPred p.toNat s.lanes fun L => s.chValue off (s.src.val z.toNat L) })

/-- CHRESET (R264). -/
def execChreset (y : BitVec 6) (s : State) : Res :=
  .next (
    if !s.lanes.isEmpty && s.kHold 0 then s.hold
    else s.withRegs [(1, y.toNat)] fun s =>
      match s.lanes with
      | [] => s
      | L :: _ =>
        let off := (s.src.val y.toNat L).toNat
        if !s.objOk off then s.fault 11 0 (BitVec.ofNat 64 off)
        else (s.addK 0 (.chreset off)).later (.chresetEffect s.g.uid s.next))

/-- CHRESET_EFFECT (R264): once every earlier k0 operation has ended, the object is idle with the next
generation. -/
def execChresetEffect (gang op : Nat) (s : State) : Res :=
  .next (
    match s.findGang gang with
    | none => s
    | some g =>
      match (g.kop op).map KOp.work with
      | some (.chreset off) =>
        if !g.oldestOf 0 op then s.later (.chresetEffect gang op)
        else
          let s := s.atBlock g.block
          let gen := s.objGen off + 1
          (s.writeS off (leBytes 36 0 ++ leBytes 4 gen.toNat ++ leBytes 16 0)).doneK gang op
      | _ => s)

end Sys2Proof.Machine
end

