-- ==== Sys2Proof/Machine/Event.lean ====
section
/-! DEFINITION. Machine/Event.lean: bindings and their sources (R291 to R294, R297, R298), WAITANY (R299,
R300), BAR (R302), broken tasks (R303) and GINFO (R306). -/

namespace Sys2Proof.Machine

open Sys2Proof

/-! ## Sources -/

/-- STATUS of the chunk object at an S offset of a block. -/
def State.chunkStatus (s : State) (b : Block) (obj : Nat) : Nat := memNat s.mem (atS b.uid (obj + 32)) 1

/-- Whether a status is one of FAULT, UE, SHUTTER and MALFORMED (R253). -/
def badStatus (st : Nat) : Bool := decide (3 ≤ st ∧ st ≤ 6)

/-- Whether the group of a membership slot of a gang is broken (R303). -/
def State.slotBroken (s : State) (g : Gang) (slot : Nat) : Bool :=
  match s.groupOf g slot with
  | some num => (s.barrier g.task num).broken
  | none => false

/-- The flat address of a granule that a .gran binding names (R292). -/
def granPlace (b : Block) (arg : Word) : Nat :=
  let off := (arg.extractLsb' 0 25).toNat
  if arg.getLsbD 31 then atD b.die off else atS b.uid off

/-- Whether the source of a binding of a gang is satisfied (R292). -/
def State.satisfied (s : State) (g : Gang) (b : Block) (x : Binding) : Bool :=
  let arg := x.arg
  match x.kind with
  | 0 =>
    let slot := (arg.extractLsb' 0 2).toNat
    s.slotBroken g slot || (s.arrival g slot).slices == 0
  | 1 =>
    let obj := (arg.extractLsb' 0 19).toNat
    let c := (arg.extractLsb' 19 8).toNat
    let st := s.chunkStatus b obj
    if arg.getLsbD 31 then (memGet s.mem (atS b.uid (obj + c / 8))).getLsbD (c % 8) || badStatus st
    else decide (2 ≤ st ∧ st ≤ 6)
  | 2 => decide (g.kcount (arg.extractLsb' 0 3).toNat ≤ (arg.extractLsb' 8 6).toNat)
  | 3 => !(Store.get [] b.queues (arg.extractLsb' 0 2).toNat).isEmpty
  | 4 => decide (x.deadline ≤ s.ns)
  | _ => granFull s.empty (granPlace b arg)

/-- STATUS of R292 at resumption: 0 OK, 1 BROKEN, 2 FAULT. -/
def State.bindStatus (s : State) (x : Binding) : Nat :=
  match x.kind with
  | 0 => if s.slotBroken s.g (x.arg.extractLsb' 0 2).toNat then 1 else 0
  | 1 => if badStatus (s.chunkStatus s.b (x.arg.extractLsb' 0 19).toNat) then 2 else 0
  | _ => 0

/-- The armed bindings of a gang whose sources are satisfied: they become pending before anything else
happens (R293). -/
def State.latches (s : State) (g : Gang) : List Instr :=
  match s.findBlock g.block with
  | none => []
  | some b => (g.binds : Store Binding).filterMap fun (p : Nat × Binding) =>
      if !p.2.pending && s.satisfied g b p.2 then
        some (if p.2.kind = 4 then .timerBindingExpiry g.uid p.1 else .bindingPending g.uid p.1)
      else none

/-- The bindings of the package that become pending now (R293). -/
def State.latchable (s : State) : List Instr := s.allGangs.flatMap s.latches

/-! ## WAITANY -/

/-- Whether a waiting slice of the gang in focus may resume: not while its gang is stopped or being evicted or its core
is halted, nor while its gang's handler runs without it (R300, R313, R325). -/
def State.mayWake (s : State) (i : Nat) : Bool :=
  s.g.live.getLsbD i && s.g.mode != .halted && s.g.stop.isNone && (s.g.frame.isNone || s.g.hslices.getLsbD i)
    && !s.b.evicting && !s.c.dbgCtl.getLsbD 16

/-- A slice goes on at the next word with a value in EV.CAUSE (R299). -/
def Slice.fallThrough (sl : Slice) (cause : Word) : Slice := { sl with wait := .none, pc := nextWord sl.pc, cause := cause }

/-- EV.CAUSE for a binding consumed (R295). -/
def eventCause (i kind status : Nat) : Word := BitVec.ofNat 32 (i + 256 * kind + 4096 * status)

/-- One slice that waits in WAITANY looks at the bindings of its mask (R299). -/
def State.tryAny (s : State) (poll : Bool) (i : Nat) : State :=
  match (s.g.slice i).wait with
  | .waitany m =>
    let armed := (s.g.binds : Store Binding).filter fun (p : Nat × Binding) => decide (p.1 < 8) && m.getLsbD p.1
    if armed.isEmpty then { s with g := s.g.modSlice i fun sl => sl.fallThrough 0xFF }
    else match armed.find? fun (p : Nat × Binding) => p.2.pending with
      | some (j, x) =>
        let st := s.bindStatus x
        let resume (sl : Slice) : Slice :=
          { sl with wait := .none, pc := x.handler, cause := eventCause j x.kind st, brk := sl.brk || (x.kind == 0 && st == 1) }
        let g := s.g.modSlice i resume
        { s with g := { g with binds := Store.del g.binds j } }
      | none => if poll then { s with g := s.g.modSlice i fun sl => sl.fallThrough 0xFD } else s
  | _ => s

/-- The groups of a gang part where their slices have gone different ways (R24). -/
def Gang.partAll (g : Gang) : Gang := (upto 8).foldl (fun g k => g.part (g.group k)) g

/-- The waiting slices of the gang in focus look at its bindings, in increasing slice number (R300). -/
def State.wakeAny (s : State) : State :=
  let s := ((upto 8).filter s.mayWake).foldl (fun s i => s.tryAny false i) s
  { s with g := s.g.partAll }

/-- WAITANY (R299): it acts after the other words of its chain. -/
def execWaitany (p : BitVec 1) (m : BitVec 8) (s : State) : Res :=
  let l := s.group
  let s := (s.waitHere l fun _ => .waitany m).endChain
  let s := l.foldl (fun s i => s.tryAny (p == 1) i) s
  .next { s with g := s.g.partAll }

/-- A binding of a gang found satisfied becomes pending (R293), and a slice that waits for it resumes. -/
def State.latch (s : State) (gang bind : Nat) : State :=
  let s := s.focus gang
  match Store.find s.g.binds bind with
  | none => s
  | some x =>
    if s.g.uid = gang ∧ !x.pending ∧ s.satisfied s.g s.b x then
      ({ s with g := { s.g with binds := Store.put s.g.binds bind { x with pending := true } } }).wakeAny
    else s

/-- BINDING_PENDING (R293). -/
def execBindingPending (gang bind : Nat) (s : State) : Res := .next (s.latch gang bind)

/-- TIMER_BINDING_EXPIRY (R292). -/
def execTimerBindingExpiry (gang bind : Nat) (s : State) : Res := .next (s.latch gang bind)

/-! ## BIND and UNBIND -/

/-- The CODE of the fault of a binding's argument, 0 if it is good (R292, R297). -/
def State.argFault (s : State) (kind : Nat) (arg : Word) : Nat :=
  match kind with
  | 0 => if arg >>> 2 != 0 || (s.groupOf s.g (arg.extractLsb' 0 2).toNat).isNone then 3 else 0
  | 1 => if arg.extractLsb' 27 4 != 0 || !s.objOk (arg.extractLsb' 0 19).toNat then 3 else 0
  | 2 => if arg.extractLsb' 3 5 != 0 || arg >>> 14 != 0 || 5 < (arg.extractLsb' 0 3).toNat then 3 else 0
  | 3 => if arg >>> 2 != 0 then 3 else if s.b.rq ≤ arg.toNat then 8 else 0
  | 4 => 0
  | _ =>
    let off := (arg.extractLsb' 0 25).toNat
    let inRange := if arg.getLsbD 31 then s.dOk (s.task s.b.task) s.b.die 2 off 16 else decide (off + 16 ≤ s.b.sbytes)
    if arg.extractLsb' 25 6 != 0 || off % 16 != 0 || !inRange then 3 else 0

/-- BIND (R297). -/
def execBind (k n : BitVec 3) (y : BitVec 6) (z : BitVec 5) (s : State) : Res :=
  let z := 2 * z.toNat
  .next (s.withRegs [(1, y.toNat), (2, z)] fun s =>
    match s.lanes with
    | [] => s
    | L :: _ =>
      let arg := s.src.val y.toNat L
      let h := s.src.val64 z L
      if !targetOk h then s.fault 1 0 h
      else
        let code := s.argFault k.toNat arg
        if code ≠ 0 then s.fault code 0 0
        else
          let x : Binding := { kind := k.toNat, arg := arg, handler := h, deadline := s.ns + arg.toNat }
          let x := { x with pending := s.satisfied s.g s.b x }
          ({ s with g := { s.g with binds := Store.put s.g.binds n.toNat x } }).wakeAny)

/-- UNBIND (R298). -/
def execUnbind (n : BitVec 3) (s : State) : Res :=
  .next (
    if s.lanes.isEmpty then s
    else ({ s with g := { s.g with binds := Store.del s.g.binds n.toNat } }).wakeAny)

/-! ## Barriers -/

/-- Whether a BAR on a slot is held back: the gang's arrival there, or that of one of the issuing slices, is
still outstanding (R302; DEDUCED, log 21). -/
def State.barHold (s : State) (slot : Nat) : Bool :=
  let a := s.arrival s.g slot
  !s.slotBroken s.g slot && (a.arrived || (a.slices &&& sliceMask s.group) != 0)

/-- BAR (R302, R303). -/
def execBar (w : BitVec 1) (sl : BitVec 2) (s : State) : Res :=
  let slot := sl.toNat
  .next (
    match s.groupOf s.g slot with
    | none => s.fault 3 0 0
    | some num =>
      let l := s.group
      let b := s.barrier s.g.task num
      if b.broken then { s with g := s.g.modSlices l fun _ x => { x with brk := true, cause := 0x10FE } }
      else if s.barHold slot then s.hold
      else
        let a := s.arrival s.g slot
        let a := { a with slices := a.slices ||| sliceMask l, phase := b.phase }
        let s := { s with g := { s.g with arrivals := Store.put s.g.arrivals slot a } }
        let s := if w = 0 then s.waitHere l fun _ => .bar slot b.phase else s
        (s.endChain).tryArrive slot)

/-- Every gang of a task ends, wherever it is (R303, R447). -/
def State.endTaskGangs (s : State) (task : Nat) : State :=
  (s.dropImages task).endGangs fun g => g.task == task

/-- BROKEN_TASK_TIMEOUT (R303): 1,000,000 ns after the break the surviving gangs are ended. -/
def execBrokenTaskTimeout (task : Nat) (s : State) : Res :=
  .next (
    match (s.task task).brokenAt with
    | none => s
    | some t => if s.ns < t + 1000000 then s.later (.brokenTaskTimeout task) else (s.endTaskGangs task).settleTask task)

/-! ## GINFO -/

/-- An item of the group of a membership slot of the gang in focus (R306). -/
def State.groupItem (s : State) (slot item : Nat) : Word :=
  match s.groupOf s.g slot with
  | none => 0xFFFFFFFF
  | some num =>
    let b := s.barrier s.g.task num
    match item with
    | 0 => BitVec.ofNat 32 num
    | 1 => BitVec.ofNat 32 b.size
    | 2 => BitVec.ofNat 32 b.expected
    | 3 => BitVec.ofNat 32 (nth 0 (nth {} (s.task s.g.task).members s.g.id).rank slot)
    | 4 => b.phase
    | 5 => BitVec.ofNat 32 b.scope
    | _ => if b.broken then 1 else 0

/-- GINFO (R306). -/
def execGinfo (x : BitVec 6) (sl : BitVec 2) (i : BitVec 3) (s : State) : Res :=
  .next (s.withDest (1, x.toNat) [] fun s =>
    { s with g := s.g.write x.toNat s.lanes fun _ => s.groupItem sl.toNat i.toNat })

end Sys2Proof.Machine
end

