-- ==== Sys2Proof/Machine/Queue.lean ====
section
/-! DEFINITION. Machine/Queue.lean: sending and receiving flits (R268 to R272), channels (R274, R287),
LAUNCH (R286), and the placement of flits (R271). -/

namespace Sys2Proof.Machine

open Sys2Proof

/-! ## Capabilities in use (R342 to R344) -/

/-- The task a queue capability names. -/
def Cap.taskOf (c : Cap) (t : Task) : Nat := if c.f8 = 0 then t.id else c.f8

/-- Whether a capability of a task meets its tenant condition now (R343). -/
def State.tenantOk (s : State) (t : Task) (c : Cap) : Bool :=
  match c.kind with
  | 1 => s.tasks.all fun x => x.id != c.taskOf t || x.tenant == t.tenant
  | 2 =>
    let own := s.ctx t.ctx
    let called := s.ctx c.f8
    called.valid && (c.f8 == t.ctx || (own.launchx && called.tenant == own.tenant))
  | 3 =>
    let w := Store.get ({} : Window) s.windows c.f8
    w.bound && w.tenant == t.tenant
  | _ => true

/-- The endpoint a queue, dispatch or window capability names. -/
def Cap.endpoint (c : Cap) (t : Task) : Endpoint :=
  if c.kind = 1 then .queue (c.taskOf t) c.f12 c.f16 else if c.kind = 2 then .dispatch c.f8 else .window c.f8

/-- Where the replies to what is sent through a capability go (R342). -/
def Cap.replyTo (c : Cap) (t : Task) : Option Endpoint :=
  let r := t.cap c.reply
  if c.reply = 0xFF then none else if r.kind = 1 ∨ r.kind = 3 then some (r.endpoint t) else none

/-- Whether a capability admits a word that needs one of some kinds and a permission (R344). -/
def State.capOk (s : State) (t : Task) (c : Cap) (kinds : List Nat) (perm : Nat) : Bool :=
  kinds.contains c.kind && c.may perm && s.tenantOk t c

/-! ## Sending -/

/-- A channel of a gang. -/
def Gang.chan (g : Gang) (n : Nat) : Chan := Store.get {} g.chans n

/-- Units left of a capability's allowance (R270). -/
def Gang.allowance (g : Gang) (cap : Nat) : Nat := Store.get 0 g.allow cap

/-- A flit sent by the gang in focus through a capability: it takes a unit and counts in k4 (R270, R272). What
a replay sends is performed nowhere (R398). -/
def State.sendVia (s : State) (capNo chan : Nat) (payload : List Byte) : State :=
  let t := s.task s.g.task
  let c := t.cap capNo
  let f : Flit :=
    { id := s.next, payload := payload, tenant := t.tenant, task := t.id, sender := some s.g.uid, window := none, cap := capNo
      chan := chan, seqno := (s.g.chan chan).seqno, dst := c.endpoint t, reply := c.replyTo t, kid := some (s.next + 1) }
  let s := ({ s with next := s.next + 1 }.addK 4 .plain).count 0x018 1
  if s.b.replay.isSome then s.flitDone f
  else
    let g := { s.g with allow := Store.put s.g.allow capNo (s.g.allowance capNo - 1) }
    let g := if chan = 0 then g else { g with chans := Store.put g.chans chan { g.chan chan with seqno := ((g.chan chan).seqno + 1) % 65536 } }
    let s := { s with g := g }
    if c.kind = 2 then
      let r : Record := { id := s.next, bytes := payload, ctx := c.f8, flit := f }
      ({ s with records := s.records ++ [r] }.later (.taskRecordArrival s.next)).fresh
    else s.sendFlit f

/-- The capability that WRS MQ.SEND uses: that of the channel CH.CUR names, else that of MQ.DEST; or the CODE
of its fault (R272, R274). -/
def State.sendCap (s : State) : Except Nat (Nat × Nat) :=
  let t := s.task s.g.task
  let cur := s.src.chCur.toNat
  let ch := s.src.chan cur
  if cur = 0 then
    let n := s.src.mqDest.toNat
    if s.capOk t (t.cap n) [1, 2] 0 then .ok (n, 0) else .error 8
  else if !ch.opened then .error 9
  else if s.capOk t (t.cap ch.cap) [1, 3] 0 then .ok (ch.cap, cur)
  else .error 8

/-- Whether WRS MQ.SEND is held back (R198, R270). -/
def State.sendHold (s : State) : Bool :=
  match s.sendCap with
  | .ok (n, _) => s.kHold 4 || s.g.allowance n == 0
  | .error _ => false

/-- The payload made of one register: word L from each lane that executes (R153). -/
def State.payloadOf (s : State) (d : Nat) : List Byte :=
  (upto 32).flatMap fun L => leBytes 4 (if s.lanes.contains L then (s.src.val d L).toNat else 0)

/-- WRS MQ.SEND (R153, R272). -/
def execWrsMqSend (d : BitVec 6) (s : State) : Res :=
  .next (s.withRegs [(1, d.toNat)] fun s =>
    match s.sendCap with
    | .error c => s.fault c 0 0
    | .ok (n, ch) => if s.sendHold then s.hold else s.sendVia n ch (s.payloadOf d.toNat))

/-! ## Receiving -/

/-- The flits of a logical queue of the block in focus. -/
def State.queue (s : State) (n : Nat) : List Flit := Store.get [] s.b.queues n

/-- Whether RDS MQ.RECVn is held back: its queue is empty (R153). -/
def State.recvHold (s : State) (n : Nat) : Bool := decide (n < s.b.rq) && (s.queue n).isEmpty

/-- RDS MQ.RECVn (R153, R269). -/
def execRdsMqRecv (d : BitVec 6) (n : BitVec 2) (s : State) : Res :=
  let n := n.toNat
  .next (s.withDest (1, d.toNat) [] fun s =>
    if s.b.rq ≤ n then s.fault 8 0 0
    else match s.queue n with
      | [] => s.hold
      | f :: t =>
        let word (L : Nat) : Word := BitVec.ofNat 32 (fieldAt f.payload (4 * L) 4)
        let s := { s with g := s.g.write d.toNat s.lanes word, b := { s.b with queues := Store.put s.b.queues n t } }
        (s.returnUnit f).signalAll)

/-! ## LAUNCH -/

/-- The record offset of LAUNCH, and the CODE of its fault (R286). -/
def State.launchFault (s : State) (n y L : Nat) : Nat :=
  let off := (s.src.val y L).toNat
  let t := s.task s.g.task
  if off % 128 ≠ 0 ∨ s.b.sbytes < off + 128 then 3 else if s.capOk t (t.cap n) [2] 1 then 0 else 8

/-- Whether LAUNCH is held back: k4, stores to its record still to be performed (R220), no unit left. -/
def State.launchHold (s : State) (n y : Nat) : Bool :=
  match s.lanes with
  | [] => false
  | L :: _ => s.launchFault n y L == 0 && (s.kHold 4 || s.g.allowance n == 0 || s.storesPending (s.src.val y L).toNat 128)

/-- LAUNCH (R286). -/
def execLaunch (n y : BitVec 6) (s : State) : Res :=
  let n := n.toNat
  let y := y.toNat
  .next (s.withRegs [(1, y)] fun s =>
    match s.lanes with
    | [] => s
    | L :: _ =>
      let code := s.launchFault n y L
      if code ≠ 0 then s.fault code 0 0
      else if s.launchHold n y then s.hold
      else
        let off := (s.src.val y L).toNat
        s.withRead off 128 fun s => s.sendVia n 0 (memBytes s.mem (atS s.b.uid off) 128))

/-! ## Channels (R287) -/

/-- CHOPEN (R287). -/
def execChopen (n : BitVec 4) (m : BitVec 6) (s : State) : Res :=
  let t := s.task s.g.task
  .next (
    if (s.g.chan n.toNat).opened then s.fault 9 0 0
    else if !s.capOk t (t.cap m.toNat) [1, 3] 0 then s.fault 8 0 0
    else { s with g := { s.g with chans := Store.put s.g.chans n.toNat { opened := true, cap := m.toNat } } })

/-- CHCLOSE (R287). -/
def execChclose (n : BitVec 4) (s : State) : Res :=
  .next (
    if !(s.g.chan n.toNat).opened then s.fault 9 0 0
    else if s.kHold 4 then s.hold
    else
      let mine := (s.flits.filter fun f => f.sender == some s.g.uid && f.chan == n.toNat).map (·.id)
      let g := { s.g with
        chans := Store.put s.g.chans n.toNat { s.g.chan n.toNat with opened := false }
        chCur := if s.g.chCur = n then 0 else s.g.chCur }
      let op := s.next
      let s := { s with g := g }.addK 4 (.chclose mine)
      if mine.isEmpty then s.doneK s.g.uid op else s)

/-- CHSEL (R287). -/
def execChsel (n : BitVec 4) (s : State) : Res :=
  .next (
    if n ≠ 0 ∧ !(s.g.chan n.toNat).opened then s.fault 9 0 0
    else { s with g := { s.g with chCur := n } })

/-! ## Placement (R271) -/

/-- A flit reaches its endpoint: its operation completes. -/
def State.placeFlit (s : State) (f : Flit) : State :=
  let f' := { f with refused := none, reserved := false }
  let s := s.dropFlit f.id
  let s :=
    match f.dst with
    | .queue task num q =>
      match s.destBlock task num with
      | none => s
      | some b => s.modBlock b.uid fun b => { b with queues := Store.put b.queues q (Store.get [] b.queues q ++ [f']) }
    | .window w =>
      let win := Store.get ({} : Window) s.windows w
      { s with windows := Store.put s.windows w { win with recv := win.recv ++ [f'] } }
    | .dispatch _ => s
  s.flitDone f

/-- A flit is discarded: its unit returns and its operation completes (R270, R271). -/
def State.discardFlit (s : State) (f : Flit) : State :=
  let s := match f.sender with
    | some g => s.countGang g 0x01A 1
    | none => s
  ((s.dropFlit f.id).returnUnit f).flitDone f

/-- A refusal recorded: the flit waits behind those refused before it. -/
def State.refuseFlit (s : State) (f : Flit) : State :=
  let s := match f.sender with
    | some g => s.countGang g 0x019 1
    | none => s
  { s.dropFlit f.id with
    flits := (s.flits.filter fun x => x.id != f.id) ++ [{ f with refused := some s.next, reserved := false }]
    next := s.next + 1 }

/-- Whether an earlier flit of its channel is still on its way (R274). -/
def State.channelBusy (s : State) (f : Flit) : Bool :=
  f.chan != 0 && s.flits.any fun x => x.sender == f.sender && x.chan == f.chan && x.cap == f.cap && decide (x.id < f.id)

/-- Whether a flit of the device fails the tenant condition of the entry it goes through (R343). -/
def State.replyBarred (s : State) (f : Flit) : Bool :=
  f.sender.isNone && f.window.isNone &&
    match f.dst with
    | .queue task _ _ => s.tasks.any fun t => t.id == task && t.tenant != f.tenant
    | .window w => (Store.get ({} : Window) s.windows w).tenant != f.tenant
    | .dispatch _ => false

/-- FLIT_PLACEMENT (R271). A flit sent again has its own place reserved. -/
def execFlitPlacement (flit : Nat) (s : State) : Res :=
  .next (
    match s.flits.find? fun f => f.id == flit with
    | none => s
    | some f =>
      let room := (s.modFlit flit fun f => { f with reserved := false }).roomAt f.dst
      if f.refused.isSome then s
      else if s.channelBusy f then s.later (.flitPlacement flit)
      else if s.endpointGone f.dst || s.replyBarred f then s.discardFlit f
      else if room = 0 then s.refuseFlit f
      else s.placeFlit f)

/-- FLIT_RESEND (R271): the sending core sends a refused flit again, to the room reserved for it. -/
def execFlitResend (flit : Nat) (s : State) : Res :=
  .next (
    match s.flits.find? fun f => f.id == flit with
    | none => s
    | some f =>
      let f' := { f with reserved := false }
      let s' := s.modFlit flit fun _ => f'
      if f.refused.isNone then s
      else if s.endpointGone f.dst then s'.discardFlit f'
      else if s'.roomAt f.dst = 0 then s'
      else if f.reserved then (s.modFlit flit fun f => { f with refused := none }).carry { f with refused := none }
      else s)

end Sys2Proof.Machine
end

