-- ==== Sys2Proof/Machine/Sreg.lean ====
section
/-! DEFINITION. Machine/Sreg.lean: RDS and WRS of every special register (R142 to R153), frame words
(R315 to R317), performance selects (R417, R418) and ERR.INJ (R406). -/

namespace Sys2Proof.Machine

open Sys2Proof

/-! ## Words made of state -/

/-- SLICE.STATUS of slice i (R145). -/
def Slice.status (sl : Slice) (i : Nat) : Word :=
  BitVec.ofNat 32 (sl.active.toNat + 16 * sl.stack.length + 256 * sl.priv.toNat + 512 * sl.step.toNat + 1024 * sl.brk.toNat + 65536 * i)

/-- SLICE.MSTK (R152). -/
def Slice.mstk (sl : Slice) : Word := BitVec.ofNat 32 (leNat16 sl.stack)
where
  /-- Entries of four bits, entry 0 lowest. -/
  leNat16 : List (BitVec 4) → Nat
    | [] => 0
    | x :: t => x.toNat + 16 * leNat16 t

/-- Words E0 to E3 of a replay entry (R316, R317). -/
def Flight.entryWord (f : Flight) : Nat → Word
  | 0 => f.word
  | 1 => f.pc.setWidth 32
  | 2 => BitVec.ofNat 32 ((f.pc.toNat / 2 ^ 32) % 65536 + 65536 * f.slice + 1048576 * f.cause + 16777216 * f.flag)
  | _ => f.remain

/-- Frame word `sel` of some saved slices and entries; what is not there reads zero (R316). -/
def frameWord (slices : List Slice) (entries : List Flight) (sel : Nat) : Word :=
  if sel < 24 then
    let i := if sel < 8 then sel else (sel - 8) / 2
    if slices.length ≤ i then 0
    else
      let sl := nth {} slices i
      if sel < 8 then sl.status i else if sel % 2 = 0 then sl.pc.setWidth 32 else (sl.pc >>> 32).setWidth 32
  else if sel < 32 then (if slices.length ≤ sel - 24 then 0 else (nth {} slices (sel - 24)).mstk)
  else if 96 ≤ sel then 0
  else match entries[(sel - 32) / 4]? with
    | some f => f.entryWord (sel % 4)
    | none => 0

/-- GANG.GROUPS (R147). -/
def groupsWord (m : Member) (rank0 : Nat) : DWord :=
  let slot (k : Nat) : Nat := if m.valid.testBit k then nth 0 m.grp k % 256 * 2 ^ (8 * k) else 0
  BitVec.ofNat 64 (slot 0 + slot 1 + slot 2 + slot 3 + 2 ^ 32 * (m.valid % 16) + 2 ^ 40 * rank0)

/-- Bits i of the bindings that satisfy a test. -/
def bindBits (b : Store Binding) (p : Binding → Bool) : Word :=
  b.foldl (fun w (x : Nat × Binding) => if p x.2 then w ||| (1#32 <<< x.1) else w) 0

/-- MQ.STAT (R269). -/
def Block.mqStat (b : Block) : Word :=
  BitVec.ofNat 32 (((upto 4).filter (· < b.rq)).foldl (fun n q => n + (Store.get [] b.queues q).length * 256 ^ q) 0)

/-- Whether a command is that of a k3 operation of the gang in focus: its own, or the follow-on of a collective of which
the gang has a part (R234, R246). -/
def State.cmdOf (s : State) (kid : Nat) (c : MxCmd) : Bool :=
  match c.coll with
  | none => c.kid == kid
  | some n => s.b.colls.any fun x => x.num == n && c.block == s.b.uid && x.parts.any fun p => p.kid3 == some kid

/-- MX.DONE (R234): the oldest operation of k3, its command, and the micro-tiles of it that are complete. -/
def State.mxDone (s : State) : Word :=
  match s.g.kops.find? fun k => k.cls == 3 with
  | none => 0
  | some k =>
    match s.c.mxq.find? (s.cmdOf k.id) with
    | none => 0x10000
    | some c =>
      let mask := if c.isMma || c.isGemm then 2 ^ min 16 c.tiles - 1 else 0
      BitVec.ofNat 32 (mask + 65536 + 131072 * c.isGemm.toNat)

/-- CORE.CAP (R151): what is enabled and not retired (R403). -/
def Core.cap (c : Core) : DWord :=
  BitVec.ofNat 64 (0x10 + 2 ^ 16 * (32 - c.lostSlots) + 2 ^ 22 * (16 - c.lostZt) + 2 ^ 32 * (2048 - 128 * c.lostSegs)
    + 2 ^ 48 * (512 - 64 * c.lostS))

/-- TASK.ID as a gang reads it: a replay reads that of the task it replays (R149, R398). -/
def State.taskId (s : State) : Nat :=
  match s.b.replay with
  | none => s.g.task
  | some r => ((s.ck.replays.find? fun x => x.id == r).map Replay.task).getD s.g.task

/-! ## RDS -/

/-- The value of special register n for slice i (R143, R144). Gang and slice registers are read as they were
before the chain (R40). -/
def State.sreg (s : State) (n i : Nat) : DWord :=
  let g := s.src
  let sl := g.slice i
  let rec32 (w : Word) : DWord := w.setWidth 64
  let r := (s.task g.task).record
  match n with
  | 0x000 => rec32 (sl.status i)
  | 0x001 => s.iss.wpc
  | 0x002 => sl.link
  | 0x010 => BitVec.ofNat 64 g.id
  | 0x011 => BitVec.ofNat 64 g.width
  | 0x012 => g.live.setWidth 64
  | 0x013 => groupsWord (nth {} (s.task g.task).members g.id) g.rank0
  | 0x014 => g.killCause.setWidth 64 <<< 32 ||| g.killed.setWidth 64
  | 0x020 => BitVec.ofNat 64 s.taskId
  | 0x021 => BitVec.ofNat 64 (r.param % 2 ^ 48)
  | 0x022 => BitVec.ofNat 64 r.prio
  | 0x023 => BitVec.ofNat 64 r.opid
  | 0x030 => rec32 (bindBits g.binds fun b => b.pending)
  | 0x031 => rec32 sl.cause
  | 0x032 => rec32 (bindBits g.binds fun _ => true)
  | 0x041 => g.mqDest.setWidth 64
  | 0x046 => rec32 s.b.mqStat
  | 0x050 => rec32 s.mxDone
  | 0x051 => g.mxUe.setWidth 64
  | 0x052 => g.mxUeLoc.setWidth 64
  | 0x058 => g.chCur.setWidth 64
  | 0x060 => BitVec.ofNat 64 s.c.cycle
  | 0x061 => BitVec.ofNat 64 s.ns
  | 0x100 => s.c.cap
  | 0x101 => BitVec.ofNat 64 (s.c.idx + 256 * s.c.die + 1024 * g.sched)
  | 0x102 => s.c.saveBase
  | 0x103 => rec32 sl.mstk
  | 0x110 => rec32 g.trapCause
  | 0x111 => g.trapPc
  | 0x112 => g.trapAddr
  | 0x113 => BitVec.ofNat 64 ((g.frame.map fun f => f.entries.length).getD 0 + 256 * g.trapSel.toNat)
  | 0x114 =>
    match g.frame with
    | none => rec32 (frameWord g.past [] g.trapSel.toNat)
    | some f => rec32 (frameWord f.slices f.entries g.trapSel.toNat)
  | 0x138 => s.c.dbgCtl.setWidth 64
  | 0x140 => s.c.sampPeriod.setWidth 64
  | 0x141 => s.c.sampRec
  | 0x148 => rec32 s.c.errInj
  | n =>
    if 0x088 ≤ n ∧ n ≤ 0x08F then Store.get 0 s.c.perfCnt (n - 0x088)
    else if 0x130 ≤ n ∧ n ≤ 0x137 then Store.get 0 s.c.dbgPc (n - 0x130)
    else if 0x150 ≤ n ∧ n ≤ 0x157 then rec32 (Store.get 0 s.c.perfSel (n - 0x150))
    else 0

/-- An access to special register n under the privilege rule of R142. -/
def State.sregAccess (s : State) (n : Nat) (f : State → State) : State := if n < 0x100 then f s else s.privileged f

/-- RDS (R153). -/
def execRds (d : BitVec 6) (sr : BitVec 10) (s : State) : Res :=
  let n := sr.toNat
  let val (s : State) (L : Nat) : DWord := s.sreg n (L / 4)
  .next (s.sregAccess n fun s =>
    if sregWide n then s.withDest (2, d.toNat) [] fun s => { s with g := s.g.write64 d.toNat s.lanes (val s) }
    else s.withDest (1, d.toNat) [] fun s => { s with g := s.g.write d.toNat s.lanes fun L => (val s L).setWidth 32 })

/-- RDS GANG.FPSTAT (R113, R114): every earlier word has merged its flags. -/
def execRdsGangFpstat (d : BitVec 6) (s : State) : Res :=
  .next (s.withDest (1, d.toNat) [] fun s => { s with g := s.g.write d.toNat s.lanes fun _ => s.src.fpstat.setWidth 32 })

/-! ## ERR.INJ (R406, R435) -/

/-- ARM cleared with nothing done. -/
def State.disarm (s : State) : State := { s with c := { s.c with errInj := s.c.errInj &&& 0x7FFFFFFF } }

/-- An injection armed by the value just written to ERR.INJ: its unit is resolved, and kinds 3
and 4 fire; kind 5 fires at the fatal error, a step later (R435). A kind-4 WORD beyond the 2,048 words of a slot counts on into
its sidecar (DESIGN CHOICE, log 32). -/
def State.arm (s : State) (v : Word) : State :=
  let k := injKind v
  let u := injUnit v
  let aim (s : State) (p : Nat) : State := { s with c := { s.c with injPhys := p, injBlock := s.b.uid } }
  let mark (s : State) (a : Nat) : State := { s with ue := insertNat s.ue (a / 4) }
  if k = 1 ∨ k = 2 ∨ k = 3 then
    if s.b.zt ≤ u then s.disarm
    else if k = 3 then ((mark (aim s u) (atZ s.b.uid u (4 * injWord v))).fireInj 3 (s.zUnit s.b u))
    else aim s u
  else if k = 4 then
    match s.b.bound u with
    | none => s.disarm
    | some x => (mark (aim s x.phys) (atSlot s.b.uid x.phys (4 * injWord v))).fireInj 2 (s.slotUnit s.b x.phys)
  else if k = 5 then (aim s 0).soon (.dieFatalError s.c.die)
  else s

/-- ERR.INJ written; a locked register ignores the write (R406). -/
def State.writeInj (s : State) (v : Word) : State :=
  if s.ck.injLock then s
  else
    let s := { s with c := { s.c with errInj := v &&& 0x83FFFFFF } }
    if v.getLsbD 31 then s.arm v else s

/-- An INJECT step: ERR.INJ written from the leader with a kind. -/
def State.inject (s : State) (kind : Nat) (d : BitVec 6) : State :=
  s.privileged fun s => s.withRegs [(1, d.toNat)] fun s =>
    match s.lanes with
    | [] => s
    | L :: _ => s.writeInj (((s.src.val d.toNat L) &&& 0xFFFFFFF0) ||| BitVec.ofNat 32 kind)

/-- INJECT_Z_FLIP_MMA (R406). -/
def execInjectZFlipMma (d : BitVec 6) (s : State) : Res := .next (s.inject 1 d)

/-- INJECT_Z_FLIP_ZST (R406). -/
def execInjectZFlipZst (d : BitVec 6) (s : State) : Res := .next (s.inject 2 d)

/-- INJECT_Z_UE (R406). -/
def execInjectZUe (d : BitVec 6) (s : State) : Res := .next (s.inject 3 d)

/-- INJECT_SLOT_UE (R406). -/
def execInjectSlotUe (d : BitVec 6) (s : State) : Res := .next (s.inject 4 d)

/-- INJECT_FATAL (R435). -/
def execInjectFatal (d : BitVec 6) (s : State) : Res := .next (s.inject 5 d)

/-! ## WRS -/

/-- A slice register written in each slice of the issuing group from its lowest executing lane (R153). -/
def State.writeSlices (s : State) (f : Nat → Slice → Slice) : State :=
  let lanes := s.lanes
  let one (g : Gang) (i : Nat) : Gang :=
    match lanes.find? fun L => L / 4 == i with
    | none => g
    | some L => g.modSlice i (f L)
  { s with g := s.group.foldl one s.g }

/-- Special register n of the gang or the core written with a value; RO fields keep theirs (R153). A channel
that a word of the chain has closed does not stay in CH.CUR (R287). -/
def State.writeSreg (s : State) (n : Nat) (v : DWord) : State :=
  let w : Word := v.setWidth 32
  match n with
  | 0x041 => { s with g := { s.g with mqDest := v.setWidth 6 } }
  | 0x058 => { s with g := { s.g with chCur := v.setWidth 4 } }
  | 0x102 => { s with c := { s.c with saveBase := v &&& 0xFF00FFFFFFFFFFFF } }
  | 0x110 => { s with g := { s.g with trapCause := w &&& 0x0107FFFF } }
  | 0x111 => { s with g := { s.g with trapPc := v &&& 0xFFFFFFFFFFFF } }
  | 0x112 => { s with g := { s.g with trapAddr := v } }
  | 0x113 => { s with g := { s.g with trapSel := (w >>> 8).setWidth 7 } }
  | 0x140 => { s with c := { s.c with sampPeriod := v.setWidth 20 } }
  | 0x141 => { s with c := { s.c with sampRec := (v &&& 0x0000FFFFFFFFFFFF) ||| (s.c.sampRec &&& 0xFFFF000000000000) } }
  | 0x148 => s.writeInj w
  | n => if 0x130 ≤ n ∧ n ≤ 0x137 then { s with c := { s.c with dbgPc := Store.put s.c.dbgPc (n - 0x130) v } } else s

/-- The leader's value written by a word that does so (R153). -/
def State.wrs (s : State) (wide : Bool) (d : BitVec 6) (f : State → DWord → State) : State :=
  s.withRegs [(if wide then 2 else 1, d.toNat)] fun s =>
    match s.lanes with
    | [] => s
    | L :: _ => f s (if wide then s.src.val64 d.toNat L else (s.src.val d.toNat L).setWidth 64)

/-- WRS (R153). -/
def execWrs (d : BitVec 6) (sr : BitVec 10) (s : State) : Res :=
  let n := sr.toNat
  .next (s.sregAccess n fun s =>
    if n = 0x002 then
      s.withRegs [(2, d.toNat)] fun s => s.writeSlices fun L sl => { sl with link := s.src.val64 d.toNat L }
    else s.wrs (sregWide n) d fun s v => s.writeSreg n v)

/-- WRS GANG.FPSTAT (R113, R114). -/
def execWrsGangFpstat (d : BitVec 6) (s : State) : Res :=
  .next (s.wrs false d fun s v => s.writeFpstat (v.setWidth 32))

/-- WRS SLICE.STATUS (R145): STEP is written, BRK is cleared by 1. -/
def execWrsSliceStatus (d : BitVec 6) (s : State) : Res :=
  .next (s.privileged fun s => s.withRegs [(1, d.toNat)] fun s =>
    s.writeSlices fun L sl =>
      let v := s.src.val d.toNat L
      { sl with step := v.getLsbD 9, brk := sl.brk && !v.getLsbD 10 })

/-- WRS MX.UE (R236, R237): bits are cleared by 1, and UELOC with UE. -/
def execWrsMxUe (d : BitVec 6) (s : State) : Res :=
  .next (s.wrs false d fun s v =>
    { s with g := { s.g with
      mxUe := s.g.mxUe &&& ~~~(v.setWidth 5)
      mxUeLoc := if v.getLsbD 0 then 0 else s.g.mxUeLoc } })

/-- WRS PERF.SELn (R417, R418): the counter is set to zero. -/
def execWrsPerfSel (d : BitVec 6) (n : BitVec 3) (s : State) : Res :=
  .next (s.privileged fun s => s.wrs false d fun s v =>
    { s with
      c := { s.c with
        perfSel := Store.put s.c.perfSel n.toNat ((v.setWidth 32) &&& 0x801FFFFF)
        perfCnt := Store.put s.c.perfCnt n.toNat 0 }
      iss := { s.iss with zeroed := s.iss.zeroed ||| (1#8 <<< n.toNat) } })

/-- A gang's slices changed if the gang is resident on the core in focus. -/
def State.mapResident (s : State) (f : Slice → Slice) : State :=
  let here := ((s.b :: s.blocks).filter fun b => b.die == s.c.die && b.core == s.c.idx).map Block.uid
  s.mapGangs fun g => if here.contains g.block then { g with slices := g.slices.map f } else g

/-- DBG.CTL of the core in focus takes a value. While HALT is set the sleeps of the core's slices stand still
(R164, R324, R325). -/
def State.setDbgCtl (s : State) (v : BitVec 18) : State :=
  let was := s.c.dbgCtl.getLsbD 16
  let s := { s with c := { s.c with dbgCtl := v } }
  if v.getLsbD 16 && !was then s.mapResident (Slice.stopped s.c.cycle)
  else if was && !v.getLsbD 16 then s.mapResident (Slice.resumed s.c.cycle)
  else s

/-- WRS DBG.CTL (R324, R325). -/
def execWrsDbgCtl (d : BitVec 6) (s : State) : Res :=
  .next (s.privileged fun s => s.wrs false d fun s v => s.setDbgCtl (v.setWidth 18))

/-- A saved program counter changed by a handler; the slice no longer waits where it did (DEDUCED, log 21). -/
def Slice.withPc (sl : Slice) (pc : DWord) : Slice :=
  if pc = sl.pc then sl else { sl with pc := pc, wait := .none }

/-- Frame word `sel` written: STEP and BRK of a saved status, a saved program counter, or lanes dropped from an
entry's REMAIN (R316). -/
def Frame.writeWord (f : Frame) (sel : Nat) (v : Word) : Frame :=
  if sel < 8 then { f with slices := modAt (fun sl => { sl with step := v.getLsbD 9, brk := v.getLsbD 10 }) f.slices sel }
  else if sel < 24 then
    let half (pc : DWord) : DWord :=
      if sel % 2 = 0 then (pc.extractLsb' 32 32) ++ v else v ++ (pc.extractLsb' 0 32)
    { f with slices := modAt (fun sl => sl.withPc (half sl.pc)) f.slices ((sel - 8) / 2) }
  else if 32 ≤ sel ∧ sel < 96 ∧ sel % 4 = 3 then
    { f with entries := modAt (fun x => { x with remain := x.remain &&& v }) f.entries ((sel - 32) / 4) }
  else f

/-- WRS TRAP.Q (R316): the frame's words, or those that the last RTE has left. -/
def execWrsTrapQ (d : BitVec 6) (s : State) : Res :=
  .next (s.privileged fun s => s.wrs false d fun s v =>
    let put (f : Frame) : Frame := f.writeWord s.g.trapSel.toNat (v.setWidth 32)
    { s with g := { s.g with
        frame := s.g.frame.map put
        past := if s.g.frame.isSome then s.g.past else (put { slices := s.g.past, entries := [] }).slices } })

end Sys2Proof.Machine
end

