-- ==== Sys2Proof/Machine/Token.lean ====
section
/-! DEFINITION. Machine/Token.lean: the token protocol between die caches and the homes of lines (R368 to
R371), and the recount after a die has failed (R372). -/

namespace Sys2Proof.Machine

open Sys2Proof

/-! ## Tokens on their way -/

/-- Everything a holder holds. -/
def Holding.all (x : Holding) : Carried := { tokens := x.tokens, owner := x.owner, dirty := x.dirty, data := x.valid }

/-- One token of a holder's, if it holds any: not the owner token while it has another (R369). -/
def Holding.one (x : Holding) : Carried :=
  if x.tokens ≤ 1 then x.all else { tokens := 1, owner := false, dirty := false, data := x.valid }

/-- A holder without some tokens; without any it has no valid copy (R368). -/
def Holding.less (x : Holding) (c : Carried) : Holding :=
  let left := x.tokens - c.tokens
  { tokens := left, owner := x.owner && !c.owner, dirty := x.dirty && !c.owner, valid := x.valid && decide (0 < left) }

/-- A die whose hint bit is set or cleared (R369). -/
def Line.setHint (l : Line) (die : Nat) (on : Bool) : Line :=
  if 4 ≤ die then l else { l with hint := if on then l.hint ||| (1#4 <<< die) else l.hint &&& ~~~(1#4 <<< die) }

/-- Tokens sent from one holder of a line to another. The home marks the die it sends to. -/
def State.sendTokens (s : State) (n src dst : Nat) (c : Carried) : State :=
  if c.tokens = 0 ∨ src = dst then s
  else
    let l := s.line n
    let l := l.set src ((l.of src).less c)
    let l := if src = homeHolder then l.setHint dst true else l
    let l := if dst = homeHolder then { l with coming := l.coming + 1 } else l
    let h : LinkHead := { cls := 2, srcn := holderNode src n, dstn := holderNode dst n, tok := c.tokens + 128 * c.owner.toNat
                          lf := c.dirty.toNat + 2 * c.data.toNat, tag := n, addr := 128 * n }
    (s.putLine n l).sendNode h (if c.data then memBytes s.mem (128 * n) 128 else [])
      (.tokensArrive dst src n c.tokens c.owner c.dirty c.data)

/-! ## Transient requests (R369) -/

/-- The wait list with a requester's entry, oldest first. -/
def Line.await (l : Line) (die : Nat) (own : Bool) : Line :=
  { l with waiting := if l.waiting.any (fun w => w.1 == die) then l.waiting else l.waiting ++ [(die, own)] }

/-- A request at the home (R369): the home's own tokens go to the requester, and what they do not satisfy is
forwarded to the dies of the hint and recorded. A request of the home's atomic unit is for the home. -/
def State.homeRequest (s : State) (die n : Nat) (own : Bool) : State :=
  let home := (s.line n).of homeHolder
  let c := if own then home.all else home.one
  let met := die != homeHolder && (if own then c.tokens == 64 else decide (0 < c.tokens) && c.data)
  let s := if die = homeHolder then s else s.sendTokens n homeHolder die c
  if met then s
  else
    let ask (s : State) (d : Nat) : State :=
      if d != die && (s.line n).hint.getLsbD d then
        s.sendNode { cls := if own then 1 else 0, srcn := homeNode n, dstn := d, tag := n, addr := 128 * n } []
          (.forwardedRequest d n die own)
      else s
    let s := (upto 4).foldl ask s
    s.putLine n ((s.line n).await die own)

/-- READ_REQUEST (R369). -/
def execReadRequest (die line : Nat) (s : State) : Res := .next (s.homeRequest die line false)

/-- OWN_REQUEST (R369). -/
def execOwnRequest (die line : Nat) (s : State) : Res := .next (s.homeRequest die line true)

/-- FORWARDED_REQUEST (R369, R371): a die that holds more than one token, or the owner token, answers a read;
it gives an own request all it holds. -/
def execForwardedRequest (die line req : Nat) (own : Bool) (s : State) : Res :=
  let x := (s.line line).of die
  .next (
    if own then s.sendTokens line die req x.all
    else if 1 < x.tokens ∨ x.owner then s.sendTokens line die req x.one
    else s)

/-- Whether a die has left the package graph (R366, R404). -/
def State.dieGone (s : State) (h : Nat) : Bool := decide (h < 4) && (Store.get ({} : Node) s.fab.nodes h).excluded

/-- The home with tokens that have reached it: what a CWB has sent for writes the line to its stack (R357). -/
def Line.homed (l : Line) (src : Nat) (c : Carried) : Line :=
  let l := (l.setHint src false).set homeHolder ((l.of homeHolder).more c)
  let l := if l.hbm then l.set homeHolder { l.of homeHolder with dirty := false } else l
  { l with coming := l.coming - 1, hbm := l.hbm && decide (1 < l.coming) }

/-- The requester to which a holder sends on what reaches it of a line: that of an active persistent entry, once the
holder has been told of it (R370). -/
def Line.sink (l : Line) (h : Nat) : Option Nat :=
  if h = homeHolder then l.active.map Prod.fst
  else (l.told.find? fun t => t.1 == h).map Prod.snd

/-- Tokens that have reached a holder (R369 to R371): while a persistent entry of another holder is active they
are sent on to it; at the home the oldest waiting requester is sent them; a die cache that holds none of the
line and waits for none returns them to the home, and counts them where they answer a request that has timed out (R362). -/
def State.tokensReach (s : State) (h src n : Nat) (c : Carried) : State :=
  let l := s.line n
  let idle := h != homeHolder && (l.of h).tokens == 0 && (Store.find l.wants h).isNone
  let s := if l.late.contains h && (Store.find l.wants h).isNone then s.pcount (holderNode h n) 5 0 1 else s
  let l := { l with late := l.late.filter (· != h) }
  let s := s.putLine n (if h = homeHolder then l.homed src c else l.set h ((l.of h).more c))
  let x := (s.line n).of h
  match l.sink h with
  | some r =>
    if r = h then s.later (.transientRetryTimeout h n) else s.sendTokens n h r x.all
  | none =>
    if h = homeHolder then
      match l.waiting with
      | [] => s
      | (r, own) :: t =>
        if r = homeHolder then s
        else
          let s := if own then s else s.putLine n { s.line n with waiting := t }
          s.sendTokens n homeHolder r x.all
    else if idle || s.dieGone h then s.sendTokens n h homeHolder x.all
    else s

/-- TOKENS_ARRIVE (R369, R371). -/
def execTokensArrive (holder origin line tokens : Nat) (owner dirty data : Bool) (s : State) : Res :=
  .next (s.tokensReach holder origin line { tokens := tokens, owner := owner, dirty := dirty, data := data })

/-- DIE_CACHE_EVICTION (R369): what the die cache holds of a line returns to the home. -/
def execDieCacheEviction (die line : Nat) (s : State) : Res :=
  .next (s.sendTokens line die homeHolder ((s.line line).of die).all)

/-! ## Persistent requests (R370) -/

/-- Entries of the persistent table of a memory die. -/
def State.persistentEntries (s : State) (home : Nat) : Nat :=
  (s.fab.lines.filter fun (p : Nat × Line) => homeNode p.1 == home && (p.2.active.isSome || !p.2.acks.isEmpty)).length

/-- The compute dies that take part in the protocol. -/
def State.tokenDies (s : State) : List Nat := (upto 4).filter fun d => s.fab.answers d && !s.dieGone d

/-- A broadcast of a home to the compute dies. -/
def State.tellDies (s : State) (n cls : Nat) (i : Nat → Instr) : State :=
  s.tokenDies.foldl (fun s d => s.sendNode { cls := cls, srcn := homeNode n, dstn := d, tag := n, addr := 128 * n } [] (i d)) s

/-- What a home tells compute die h of the entry of another one, as the steps of persistent requests name it (R370); a
die alone is a request or a deactivate of its own, for the home. -/
def forDie (h die : Nat) : Nat := 8 * (h + 1) + die
def toldDie (die : Nat) : Option (Nat × Nat) := if die < 8 then none else some (die / 8 - 1, die % 8)

/-- An entry made active: the home's own slice sends its tokens to the requester, and every compute die is told to. -/
def State.activateEntry (s : State) (n die : Nat) (own : Bool) : State :=
  let s := s.putLine n { s.line n with active := some (die, own) }
  let s := (s.pcount (homeNode n) 8 0 1).sendTokens n homeHolder die ((s.line n).of homeHolder).all
  let s := s.tellDies n 3 fun d => .persistentActivate (forDie d die) n own
  if (s.line n).enough die own then s.later (.transientRetryTimeout die n) else s

/-- The oldest persistent request that waits at a memory die for an entry it may have. -/
def State.nextPersistent (s : State) (home : Nat) : Option (Nat × Nat × Nat × Bool) :=
  s.fab.lines.foldl (fun (best : Option (Nat × Nat × Nat × Bool)) (p : Nat × Line) =>
    if homeNode p.1 == home && p.2.active.isNone && p.2.acks.isEmpty then
      match p.2.queue, best with
      | (k, d, o) :: _, none => some (k, p.1, d, o)
      | (k, d, o) :: _, some b => if k < b.1 then some (k, p.1, d, o) else some b
      | [], _ => best
    else best) none

/-- PERSISTENT_ACTIVATE (R370): a persistent request reaches the home, or an active entry a compute die, which sends
every token it holds to the requester. -/
def execPersistentActivate (die line : Nat) (own : Bool) (s : State) : Res :=
  let l := s.line line
  .next (
    match toldDie die with
    | some (h, r) =>
      let s := s.putLine line { l with told := (h, r) :: l.told.filter fun t => t.1 != h }
      s.sendTokens line h r (l.of h).all
    | none =>
      if (Store.find l.wants die).isNone then s
      else if l.active.isSome || !l.acks.isEmpty || 16 ≤ s.persistentEntries (homeNode line) then
        { s.putLine line { l with queue := l.queue ++ [(s.next, die, own)] } with next := s.next + 1 }
      else s.activateEntry line die own)

/-- The next waiting persistent requests of a memory die made active, while entries are free. -/
def State.startPersistent : Nat → State → Nat → State
  | 0, s, _ => s
  | k + 1, s, home =>
    match s.nextPersistent home with
    | none => s
    | some (_, n, die, own) =>
      if 16 ≤ s.persistentEntries home then s
      else
        let l := s.line n
        let s := s.putLine n { l with queue := l.queue.tail }
        let s := if (Store.find l.wants die).isSome then s.activateEntry n die own else s
        State.startPersistent k s home

/-- PERSISTENT_DEACTIVATE (R370): the home broadcasts it and waits for every die's acknowledgement; a compute die takes
note of it and acknowledges. -/
def execPersistentDeactivate (die line : Nat) (s : State) : Res :=
  let l := s.line line
  .next (
    match toldDie die, l.active with
    | some (h, _), _ =>
      (s.putLine line { l with told := l.told.filter fun t => t.1 != h }).askHome h line 5 (.deactivateAcknowledge h line)
    | none, none => s
    | none, some (r, _) =>
      if r ≠ die then s
      else
        let s := (s.putLine line { l with active := none, acks := s.tokenDies }).tellDies line 4 fun d =>
          .persistentDeactivate (forDie d die) line
        if s.tokenDies.isEmpty then s.startPersistent (s.persistentEntries (homeNode line) + 16) (homeNode line) else s)

/-- DEACTIVATE_ACKNOWLEDGE (R370): once every die has acknowledged, the entry is free. -/
def execDeactivateAcknowledge (die line : Nat) (s : State) : Res :=
  let l := s.line line
  let s := s.putLine line { l with acks := l.acks.filter (· != die) }
  .next (if (s.line line).acks.isEmpty then s.startPersistent (s.persistentEntries (homeNode line) + 16) (homeNode line) else s)

/-- Whether an access that a holder asked for a line for is still to be performed: by a word of a gang, a posted atomic,
or an engine of the die (R370). -/
def State.wanted (s : State) (h n : Nat) : Bool :=
  let on (b : Block) (need : Need) (va : Nat) : Bool :=
    match s.translateRaw (s.ctxOf b) va need with
    | .ok x => lineOf x.phys == n || lineOf x.writePhys == n
    | .error _ => false
  let word (b : Block) (f : Flight) : Bool :=
    f.op.space == .g && f.cause == 0
      && (if f.op.kind == .atom then h == homeHolder else h == b.die)
      && (maskLanes f.remain).any fun L => on b (if f.op.kind == .atom then .atom else .write) (Store.get 0 f.addr L).toNat
  (s.allGangs.any fun g =>
      match s.findBlock g.block with
      | some b => g.flights.any (word b)
      | none => false)
    || (h == homeHolder && s.posted.any fun p => p.op.space == .g && lineOf p.phys == n)
    || (s.allBlocks.any fun b => b.die == h && !b.colls.isEmpty)
    || (s.c :: s.cores).any fun c => c.die == h && !c.mxq.isEmpty

/-- TRANSIENT_RETRY_TIMEOUT (R370): a request not satisfied is sent again, three times; then the requester asks
for a persistent entry. A holder whose active entry has given it what it asked for keeps it until its access has been
performed, and gives it up where no access is left to perform. -/
def execTransientRetryTimeout (die line : Nat) (s : State) : Res :=
  let l := s.line line
  let mine := match l.active with
    | some (r, _) => r == die
    | none => false
  .next (
    match Store.find l.wants die with
    | none => if mine then s.askHome die line 4 (.persistentDeactivate die line) else s
    | some own =>
      if mine then
        if !l.enough die own then s
        else if s.wanted die line then s.later (.transientRetryTimeout die line)
        else
          let s := s.putLine line { l with wants := Store.del l.wants die, tries := Store.del l.tries die }
          s.askHome die line 4 (.persistentDeactivate die line)
      else if s.fab.paused then s.later (.transientRetryTimeout die line)
      else
        let k := Store.get 1 l.tries die
        let s := s.putLine line { l with tries := Store.put l.tries die (k + 1), waiting := l.waiting.filter fun w => w.1 != die }
        if k < 4 then (s.sendRequest die line own).later (.transientRetryTimeout die line)
        else if k = 4 then (s.noteAsked die line).askHome die line 3 (.persistentActivate die line own)
        else s)

/-! ## The recount (R372) -/

/-- The tokens a failed die held of a line are at home again; the line is lost if they were the owner token
with dirty data. -/
def State.recountLine (s : State) (die n : Nat) : State :=
  let l := s.line n
  let x := l.of die
  let lost := x.owner && x.dirty
  let c : Carried := { tokens := x.tokens, owner := x.owner, dirty := false, data := x.owner }
  let mine := match l.active with
    | some (r, _) => r == die
    | none => false
  let l := (l.set die {}).set homeHolder ((l.of homeHolder).more c)
  let l := { l.setHint die false with
    waiting := l.waiting.filter fun w => w.1 != die
    wants := Store.del l.wants die
    tries := Store.del l.tries die
    asked := Store.del l.asked die
    gaveUp := l.gaveUp.filter (· != die)
    late := l.late.filter (· != die)
    active := if mine then none else l.active
    told := l.told.filter fun t => t.1 != die && t.2 != die
    acks := l.acks.filter (· != die)
    queue := l.queue.filter fun q => q.2.1 != die }
  let s := s.putLine n l
  let s := if lost then { s with fab := { s.fab with lost := insertNat s.fab.lost n } } else s
  s.startPersistent 16 (homeNode n)

/-- Every home's recount after a die has failed (R372). -/
def State.recount (s : State) (die : Nat) : State :=
  s.fab.lines.foldl (fun s (p : Nat × Line) => s.recountLine die p.1) s

end Sys2Proof.Machine
end

