-- ==== Sys2Proof/Machine/Table.lean ====
section
/-! DEFINITION. Machine/Table.lean: TLBINV (R355, R356) and CWB (R355, R357). -/

namespace Sys2Proof.Machine

open Sys2Proof

/-! ## TLBINV -/

/-- Whether some accesses were translated by one of some entries. -/
def coversAny (es : List TlbEntry) (ctx : Nat) (vas : List Nat) : Bool :=
  es.any fun e => e.ctx == ctx && vas.any fun va => decide (e.va ≤ va) && decide (va < e.va + e.size)

/-- The words, among those in flight, that hold on to translations of some entries: GSTs of which some lanes have been
performed (R186). -/
def State.holding (s : State) (gone : List TlbEntry) : List Nat :=
  let held (ctx : Nat) (f : Flight) : Bool :=
    coversAny gone ctx (((maskLanes f.remain).filter fun L => (Store.find f.held L).isSome).map fun L => (Store.get 0 f.addr L).toNat)
  s.allGangs.flatMap fun g =>
    match s.findBlock g.block with
    | some b => (g.flights.filter (held (s.ctxOf b))).map (·.id)
    | none => []

/-- Cached entries dropped, of leaves and of pointers. The slice waits for the posted operations and the GSTs that a
dropped entry translated and that are still to be performed; every other access of this model is translated when it is
performed, and its walk reads the tables then (R356). -/
def State.invalidate (s : State) (drop : TlbEntry → Bool) (dropPtr : WalkEntry → Bool) : State :=
  let gone := s.tlb.filter drop
  let posted := (s.posted.filter fun p => p.op.space == .g && coversAny gone p.ctx [p.addr.toNat]).map Posted.word
  let waits := posted.eraseDups ++ s.holding gone
  { s with tlb := s.tlb.filter fun e => !drop e, walks := s.walks.filter fun w => !dropPtr w }.awaitWords s.group waits

/-- Whether an entry of a context overlaps n bytes from an address. -/
def TlbEntry.hits (e : TlbEntry) (ctx va n : Nat) : Bool := e.ctx == ctx && decide (e.va < va + n) && decide (va < e.va + e.size)

/-- Whether a pointer entry of a context leads to some of n bytes from an address. -/
def WalkEntry.hits (w : WalkEntry) (ctx va n : Nat) : Bool :=
  let size := 2 ^ (12 + 9 * w.lvl)
  w.ctx == ctx && decide (w.tag * size < va + n) && decide (va < (w.tag + 1) * size)

/-- TLBINV of n pages from the leader's address (R356). The cache of the apertures is not among those it clears (R350). -/
def State.tlbinv (s : State) (y n : Nat) (good : Bool) : State :=
  let va := (s.src.val64 y (leader s.lanes)).toNat
  if 2 ^ 48 ≤ va ∨ va % 4096 ≠ 0 ∨ !good then s.fault 3 0 0
  else s.invalidate (fun e => e.holder != apertureCache && e.hits (s.ctxOf s.b) va (4096 * n)) fun w => w.hits (s.ctxOf s.b) va (4096 * n)

/-- TLBINV.page (R356). -/
def execTlbinvPage (y : BitVec 5) (s : State) : Res :=
  .next (s.privileged fun s => s.withRegs [(2, 2 * y.toNat)] fun s =>
    if s.lanes.isEmpty then s else s.tlbinv (2 * y.toNat) 1 true)

/-- TLBINV.range (R356). -/
def execTlbinvRange (y : BitVec 5) (z : BitVec 6) (s : State) : Res :=
  .next (s.privileged fun s => s.withRegs [(2, 2 * y.toNat), (1, z.toNat)] fun s =>
    match s.lanes with
    | [] => s
    | L :: _ =>
      let n := (s.src.val z.toNat L).toNat
      s.tlbinv (2 * y.toNat) n (decide (0 < n ∧ n ≤ 1048576)))

/-- TLBINV.ctx (R356). -/
def execTlbinvCtx (s : State) : Res :=
  .next (s.privileged fun s => if s.lanes.isEmpty then s else s.invalidate (fun e => e.ctx == s.ctxOf s.b) fun w => w.ctx == s.ctxOf s.b)

/-- TLBINV.all (R356). -/
def execTlbinvAll (s : State) : Res :=
  .next (s.privileged fun s => if s.lanes.isEmpty then s else s.invalidate (fun _ => true) fun _ => true)

/-! ## CWB -/

/-- One line written back: dirty copies, or with .inv every token, go home; with .hbm the home's copy, and what is on its
way to it, goes to its stack (R357). -/
def State.writeBack (s : State) (inv hbm : Bool) (n : Nat) : State :=
  let back (s : State) (h : Nat) : State :=
    let x := (s.line n).of h
    if inv || x.dirty then s.sendTokens n h homeHolder x.all else s
  let s := (upto 4).foldl back s
  if hbm then
    let l := s.line n
    s.putLine n { l.set homeHolder { l.of homeHolder with dirty := false } with hbm := decide (0 < l.coming) }
  else s

/-- The lines of both frames of a versioned page, or of the frame of a plain one, at an address (R357). -/
def Xlat.bothLines (x : Xlat) : List Nat := lineOf (x.frame + x.off) :: (if x.ver then [lineOf (x.stage + x.off)] else [])

/-- The translation of an address for CWB, which needs R or W (R357). -/
def State.cwbXlat (s : State) (va : Nat) : Except Nat Xlat :=
  match s.translate (s.ctxOf s.b) va .read with
  | .ok x => .ok x
  | .error _ => s.translate (s.ctxOf s.b) va .write

/-- The slices of the issuing group await the write-backs of some lines (R355). -/
def State.awaitBacks (s : State) (lines : List Nat) : State :=
  { s with g := s.g.modSlices s.group fun _ sl => { sl with backs := sl.backs ++ lines } }

/-- The lines of a range in increasing address: the first that does not translate stops the word with XLT, and
those before it stay written back (R357). -/
def State.cwbLines (inv hbm : Bool) : Nat → Nat → State → State
  | 0, _, s => s
  | k + 1, va, s =>
    match s.cwbXlat va with
    | .error e =>
      let s := if e = 3 then s.reportWalk (s.ctxOf s.b) va s.g.task else s
      s.stopAfter (xlatStop 0 e).1 (xlatStop 0 e).2 (BitVec.ofNat 64 va)
    | .ok x =>
      let s := (s.cache (s.ctxOf s.b) va x)
      State.cwbLines inv hbm k (va + 128) ((x.bothLines.foldl (fun s n => s.writeBack inv hbm n) s).awaitBacks x.bothLines)

/-- CWB (R357). -/
def execCwb (h v : BitVec 1) (y : BitVec 5) (z : BitVec 6) (s : State) : Res :=
  .next (s.privileged fun s => s.withRegs [(2, 2 * y.toNat), (1, z.toNat)] fun s =>
    match s.lanes with
    | [] => s
    | L :: _ =>
      let va := (s.src.val64 (2 * y.toNat) L).toNat
      let n := (s.src.val z.toNat L).toNat
      if va % 128 ≠ 0 ∨ n % 128 ≠ 0 ∨ n = 0 ∨ 1048576 < n ∨ 2 ^ 48 ≤ va then s.fault 3 0 0
      else State.cwbLines (v == 1) (h == 1) (n / 128) va s)

end Sys2Proof.Machine
end

