-- ==== Sys2Proof/Machine/Witness.lean ====
section
/-! DEFINITION. Machine/Witness.lean: the witness words WSEED, WEMIT, WCLOSE, SIGRD and RELREQ (R407 to R413)
and the checker's answers to them. -/

namespace Sys2Proof.Machine

open Sys2Proof

/-- The lineage entry of the operator that the gang in focus works for; a replay works for that of the task it
replays (R377, R398). -/
def State.oper (s : State) : Option Oper := s.operOf s.taskId

/-- A gang, resident or saved. -/
def State.anyGang (s : State) (uid : Nat) : Option Gang :=
  (s.allGangs ++ s.images.flatMap fun im => im.gangs).find? fun g => g.uid == uid

/-! ## WSEED -/

/-- WSEED (R408). -/
def execWseed (x : BitVec 4) (s : State) : Res :=
  let d := 4 * x.toNat
  let seed := (s.oper.map fun o => o.seed).getD 0
  .next (s.withDest (4, d) [] fun s => { s with g := s.g.writeN 4 d s.lanes fun _ => seed })

/-! ## WEMIT -/

/-- Bytes of one element of an item (R380, R409). -/
def itemSize (item : Nat) : Nat := if item = 5 then 40 else if item = 0 then 64 else 8

/-- Whether WEMIT raises OPR for its operands (R409). -/
def State.emitBad (s : State) (item off first count : Nat) : Bool :=
  off % 16 != 0 || decide (s.b.sbytes < off + count * itemSize item) || count == 0 || decide (4096 < count)
    || (item == 0 && (first != 0 || count != 1))

/-- The elements sent to the checker as a k4 operation. -/
def State.emit (s : State) (item off first count : Nat) : State :=
  let size := itemSize item
  let bytes := memBytes s.mem (atS s.b.uid off) (count * size)
  (s.addK 4 (.wemit item first size bytes)).later (.witnessItemStore s.g.uid s.next)

/-- Whether WEMIT is held back: k4, or stores to what it reads (R198, R220). -/
def State.emitHold (s : State) (y item count : Nat) : Bool :=
  (s.task s.g.task).record.wclass != 0
    && (s.kHold 4 || s.storesPending (s.src.val y (leader s.lanes)).toNat (count * itemSize item))

/-- WEMIT (R409). -/
def execWemit (i : BitVec 4) (y : BitVec 6) (z : BitVec 5) (s : State) : Res :=
  let z := 2 * z.toNat
  .next (s.withRegs [(1, y.toNat), (2, z)] fun s =>
    match s.lanes with
    | [] => s
    | L :: _ =>
      let off := (s.src.val y.toNat L).toNat
      let first := (s.src.val z L).toNat
      let count := (s.src.val (z + 1) L).toNat
      if s.emitBad i.toNat off first count then s.fault 3 0 0
      else if (s.task s.g.task).record.wclass = 0 then s
      else if s.emitHold y.toNat i.toNat count then s.hold
      else s.withRead off (count * itemSize i.toNat) fun s => s.emit i.toNat off first count)

/-- An element stored with an operator; an index stored before is a duplicate (R382). -/
def Oper.store (o : Oper) (item index : Nat) (bytes : List Byte) : Oper :=
  if o.items.any fun x => x.1 == item && x.2.1 == index then { o with dups := o.dups ++ [(item, bytes)] }
  else { o with items := o.items ++ [(item, index, bytes)] }

/-- The elements of an emission, from an index on. -/
def Oper.storeAll (item size : Nat) : Nat → Nat → List Byte → Oper → Oper
  | 0, _, _, o => o
  | k + 1, index, bytes, o => Oper.storeAll item size k (index + 1) (bytes.drop size) (o.store item index (bytes.take size))

/-- WITNESS_ITEM_STORE (R409): items of an attempt that has ended, and of a replay, are not kept. -/
def execWitnessItemStore (gang op : Nat) (s : State) : Res :=
  .next (
    match s.anyGang gang with
    | none => s
    | some g =>
      match (g.kop op).map KOp.work with
      | some (.wemit item first size bytes) =>
        let attempt := match s.findBlock g.block with
          | some b => if b.replay.isSome then 0 else b.attempt
          | none => (s.task g.task).attempt
        let s := match s.operOf g.task with
          | some o =>
            if o.attempt = attempt then s.modOper o.id (Oper.storeAll item size (bytes.length / size) first bytes) else s
          | none => s
        s.doneK gang op
      | _ => s)

/-! ## WCLOSE -/

/-- The classes WCLOSE waits for (R410). -/
def closeClass (cls : Nat) : Bool := cls != 4

/-- WCLOSE (R410). Words before it in its chain are before it (R190), so their operations are awaited. -/
def execWclose (s : State) : Res :=
  let kids := (s.g.kops.filter fun k => closeClass k.cls).map KOp.id
  let posted := s.postedWords
  let close (_ : Nat) (sl : Slice) : Slice := { sl with closed := true, wait := .wclose (decide (s.iss.idx + 1 < s.iss.len)) kids posted }
  .next { s with g := s.g.modSlices s.group close }

/-! ## SIGRD and RELREQ -/

/-- A request to the checker whose reply the issuing group waits for. -/
def State.askChecker (s : State) (oper : Option Nat) (reg : Nat) : State :=
  let r : ReplyRec := { id := s.next, oper := oper, reg := reg, exec := laneMask s.lanes }
  let s := s.waitAfter s.group (.reply s.next)
  { s with g := { s.g with replies := s.g.replies ++ [r] }, next := s.next + 1 }

/-- SIGRD (R411). -/
def execSigrd (x : BitVec 5) (s : State) : Res :=
  let d := 2 * x.toNat
  .next (s.withDest (2, d) [] fun s =>
    if s.lanes.isEmpty then s else (s.askChecker none d).later (.sigrdReply s.g.uid s.next))

/-- RELREQ (R412). -/
def execRelreq (x y : BitVec 6) (s : State) : Res :=
  .next (s.withDest (1, x.toNat) [(1, y.toNat)] fun s =>
    match s.lanes with
    | [] => s
    | L :: _ => (s.askChecker (some (s.src.val y.toNat L).toNat) x.toNat).later (.relreqReply s.g.uid s.next))

/-- A slice that waited for a reply goes on. -/
def Slice.replied (id : Nat) (sl : Slice) : Slice := if sl.wait = .reply id then { sl with wait := .none } else sl

/-- A reply taken by the gang in focus: the slices that wait for it go on, also those in a saved frame. -/
def State.replied (s : State) (id : Nat) : State :=
  let frame := s.g.frame.map fun f => { f with slices := f.slices.map (Slice.replied id) }
  { s with g := { s.g with slices := s.g.slices.map (Slice.replied id), frame := frame, replies := s.g.replies.filter fun r => r.id != id } }

/-- The outstanding request of the gang in focus with an identity. -/
def State.reply (s : State) (id : Nat) : Option ReplyRec := s.g.replies.find? fun r => r.id == id

/-- SIGRD_REPLY (R411): the block's signature as the checker holds it now. -/
def execSigrdReply (gang op : Nat) (s : State) : Res :=
  let s := s.focus gang
  .next (
    match s.reply op with
    | none => s
    | some r => { s with g := s.g.write64 r.reg (maskLanes r.exec) fun _ => s.b.sig }.replied op)

/-- The answer to RELREQ about an operator of a tenant (R412). -/
def Checker.answer (k : Checker) (tenant opid : Nat) : Word :=
  match k.opers.find? fun o => o.tenant == tenant && o.opid == opid with
  | some o =>
    let code := match o.state with
      | .running | .closed | .passed => 0
      | .released => 1
      | .discarded => 2
    BitVec.ofNat 32 (code + 256 * (o.attempt % 256) + if o.state = .released then 65536 * o.rtag else 0)
  | none =>
    match k.hist.find? fun h => h.tenant == tenant && h.opid == opid with
    | some h => BitVec.ofNat 32 ((if h.released then 1 else 2) + 256 * (h.attempt % 256) + 65536 * (if h.released then h.rtag else 0))
    | none => 3

/-- RELREQ_REPLY (R412). -/
def execRelreqReply (gang op : Nat) (s : State) : Res :=
  let s := s.focus gang
  .next (
    match s.reply op with
    | none => s
    | some r =>
      let t := s.task s.g.task
      let id := r.oper.getD 0
      let v := s.ck.answer t.tenant (if id = 0 then t.record.opid else id)
      { s with g := s.g.write r.reg (maskLanes r.exec) fun _ => v }.replied op)

end Sys2Proof.Machine
end

