-- ==== Sys2Proof/Machine/WitnessTest.lean ====
section
/-! DEFINITION. Machine/WitnessTest.lean: the checker's tests of witnesses in exact arithmetic (R381 to R390). -/

namespace Sys2Proof.Machine

open Sys2Proof

/-! ## Exact numbers -/

/-- The scale of exact numbers: a value v is held as the integer v × 255 × 2^1074, so that every value of R103
to R118 that a test reads is an integer. -/
def exactScale : Nat := 255 * 2 ^ 1074

/-- An integer as an exact number. -/
def exactInt (n : Int) : Int := n * exactScale

/-- A floating-point value as an exact number; none for an infinity or a NaN. -/
def exactVal : FVal → Option Int
  | .fin neg m e =>
    let v : Int := (m : Int) * 255 * 2 ^ (e + 1074).toNat
    some (if neg then -v else v)
  | _ => none

/-- A sum of exact numbers, one of which may be missing. -/
def exactSum : List (Option Int) → Option Int
  | [] => some 0
  | x :: t =>
    match x, exactSum t with
    | some a, some b => some (a + b)
    | _, _ => none

def exactAbs (x : Option Int) : Option Int := x.map fun v => (v.natAbs : Int)

/-! ## Vectors of ±1 and the key hash (R383) -/

/-- Word k of the seed. -/
def seedWord (seed : BitVec 128) (k : Nat) : Word := (seed >>> (32 * k)).setWidth 32

/-- mix(j) (R383). -/
def mix (seed : BitVec 128) (j : Word) : Word :=
  let h := j * 0x9E3779B1#32 + seedWord seed 0
  let h := h ^^^ (h >>> 15)
  let h := h * (seedWord seed 1 ||| 1)
  let h := h ^^^ (h >>> 13)
  let h := h * (seedWord seed 2 ||| 1)
  h ^^^ (h >>> 16) ^^^ seedWord seed 3

/-- sel(j) (R383). -/
def sel (seed : BitVec 128) (j : Nat) : Int := if (mix seed (BitVec.ofNat 32 j)).getLsbD 31 then -1 else 1

/-- The hash g of a key (R383). -/
def keyHash (seed : BitVec 128) (e : DWord) : DWord :=
  let lo : Word := e.setWidth 32
  let hi : Word := (e >>> 32).setWidth 32
  ((mix seed (lo ^^^ mix seed hi)).setWidth 64 <<< 32) + (mix seed (hi ^^^ seedWord seed 3)).setWidth 64

/-! ## The descriptor (R381) -/

structure WDesc where
  cls : Nat
  ty : Nat
  out : Nat
  op : Nat
  m : Nat
  n : Nat
  k : Nat
  a : Nat
  b : Nat
  c : Nat
  lda : Nat
  ldb : Nat
  ldc : Nat
  zero : Nat
  tol : Nat
  deriving DecidableEq, Repr

def parseWDesc (l : List Byte) : WDesc where
  cls := fieldAt l 0 1
  ty := fieldAt l 1 1
  out := fieldAt l 2 1
  op := fieldAt l 3 1
  m := fieldAt l 4 4
  n := fieldAt l 8 4
  k := fieldAt l 12 4
  a := fieldAt l 16 8
  b := fieldAt l 24 8
  c := fieldAt l 32 8
  lda := fieldAt l 40 4
  ldb := fieldAt l 44 4
  ldc := fieldAt l 48 4
  zero := fieldAt l 52 4
  tol := fieldAt l 56 8

/-- Whether a PROJ descriptor is over integers. -/
def WDesc.ints (d : WDesc) : Bool := d.ty == 4 || d.ty == 5

/-- Whether a PROJ descriptor is over floating-point numbers. -/
def WDesc.floats (d : WDesc) : Bool := decide (d.ty ≤ 3) || d.ty == 6

/-- Whether a binary64 tolerance lies from 0 to 1 (R381). -/
def tolOk (t : Nat) : Bool :=
  match exactVal (f64.val t) with
  | some v => decide (0 ≤ v ∧ v ≤ exactInt 1)
  | none => false

/-- Whether a descriptor obeys R381 for its operator's class. -/
def WDesc.good (d : WDesc) (cls : Nat) : Bool :=
  d.cls == cls && d.zero == 0 &&
    match cls with
    | 1 =>
      decide (d.ty ≤ 6) && (if d.ints then d.out == 3 || d.out == 4 else d.out == 0 || d.out == 1 || d.out == 2 || d.out == 5)
        && d.op == 0 && d.tol == 0 && d.m != 0 && d.n != 0 && d.k != 0
        && (d.ty != 6 || (d.n % 128 == 0 && d.k % 128 == 0))
    | 2 =>
      decide (7 ≤ d.ty ∧ d.ty ≤ 10) && d.out == 0 && d.op == 0 && d.n == 0 && d.m != 0 && d.k != 0 && d.b == 0
        && d.lda == 0 && d.ldb == 0 && d.ldc == 0 && d.tol == 0
    | 3 =>
      (d.ty == 2 || d.ty == 3) && d.out == 0 && d.op == 0 && d.m != 0 && d.n == 0 && d.k == 0 && d.ldb == 0 && d.ldc == 0 && tolOk d.tol
    | 4 =>
      (d.ty == 7 || d.ty == 8) && d.out == 0 && decide (d.op ≤ 1) && d.n == 0 && d.m != 0 && d.k != 0 && d.b == 0
        && d.lda == 0 && d.ldb == 0 && d.ldc == 0 && d.tol == 0
    | _ =>
      d.ty == 0 && d.out == 0 && d.op == 0 && d.m == 0 && d.n == 0 && d.k == 0 && d.a == 0 && d.b == 0 && d.c == 0
        && d.lda == 0 && d.ldb == 0 && d.ldc == 0 && d.tol == 0

/-- Spans of L elements in M (R382). -/
def WDesc.spans (d : WDesc) : Nat := if d.k = 0 then 0 else (d.m + d.k - 1) / d.k

/-- The required items with how many elements each has (R382). -/
def WDesc.required (d : WDesc) (cls : Nat) : List (Nat × Nat) :=
  match cls with
  | 1 => [(1, d.m), (2, d.m), (4, d.k)] ++ (if d.floats then [(3, d.m)] else [])
  | 2 | 4 => [(5, d.spans)]
  | 3 => [(1, d.m), (2, d.m)]
  | _ => []

/-! ## Items -/

/-- The bytes of an item's element, if it has been emitted. -/
def Oper.item (o : Oper) (item index : Nat) : Option (List Byte) :=
  (o.items.find? fun x => x.1 == item && x.2.1 == index).map fun x => x.2.2

/-- Whether an element is a finite binary64 number. -/
def finite64 (l : List Byte) : Bool := (exactVal (f64.val (fieldAt l 0 8))).isSome

/-- An emitted element as an exact number: binary64, or s64 for integers (R380). -/
def Oper.value (o : Oper) (ints : Bool) (item index : Nat) : Option Int :=
  let l := (o.item item index).getD []
  if ints then some (exactInt (BitVec.ofNat 64 (fieldAt l 0 8)).toInt) else exactVal (f64.val (fieldAt l 0 8))

/-! ## Reading G (R381) -/

/-- Where the checker reads, and what it found: a read that fails is remembered by its cause, 7 for a failed
translation or permission, 1 for an abort completion, and the uncorrectable errors met by their places. -/
structure Reader where
  s : State
  ctx : Nat
  fail : Nat := 0
  places : List Nat := []

/-- The first failure stays, but for an abort completion, which comes first in R390. -/
def Reader.note (r : Reader) (c : Nat) : Reader := if r.fail = 0 ∨ c = 1 then { r with fail := c } else r

/-- The errors that a read at an address meets. -/
def Reader.errors (r : Reader) (va n : Nat) : List Nat :=
  match r.s.segsRaw r.ctx .read 4 va n with
  | .error _ => []
  | .ok l => r.s.segErrors false l

/-- A read's failure at an address: 0 if it is good. -/
def Reader.failure (r : Reader) (va n : Nat) : Nat :=
  match r.s.segsRaw r.ctx .read 4 va n with
  | .error _ => 7
  | .ok l => if (l.findSome? (r.s.segAbort false)).isSome then 1 else 0

/-- The little-endian number in n bytes at an address; pending frames are read where they exist. -/
def Reader.nat (r : Reader) (va n : Nat) : Nat :=
  match r.s.segsRaw r.ctx .read 4 va n with
  | .error _ => 0
  | .ok l => leNat (l.flatMap fun g => r.s.seen g.x g.len)

/-- The reads of a list of ranges noted. -/
def Reader.readAll (r : Reader) (l : List (Nat × Nat)) : Reader :=
  l.foldl (fun r x => let c := r.failure x.1 x.2; if c = 0 then r else { r.note c with places := (r.places ++ r.errors x.1 x.2).eraseDups }) r

/-- Bytes of an element of a TYPE or OUT code (R381). -/
def typeSize (ty : Nat) : Nat :=
  match ty with
  | 0 | 1 | 5 => 2
  | 2 | 7 | 9 => 4
  | 3 | 8 | 10 => 8
  | _ => 1
def outSize (out : Nat) : Nat := if out = 1 then 2 else if out = 2 ∨ out = 4 then 8 else 4

/-- The exact value of the bits of an element of an operand type. -/
def typeVal (ty v : Nat) : Option Int :=
  match ty with
  | 0 => exactVal (bf16.val v)
  | 1 => exactVal (f16.val v)
  | 2 => exactVal (f32.val v)
  | 3 => exactVal (f64.val v)
  | 5 => some (exactInt (BitVec.ofNat 16 v).toInt)
  | _ => some (exactInt (BitVec.ofNat 8 v).toInt)

def outVal (out v : Nat) : Option Int :=
  match out with
  | 1 => exactVal (bf16.val v)
  | 2 => exactVal (f64.val v)
  | 3 => some (exactInt (BitVec.ofNat 32 v).toInt)
  | 4 => some (exactInt (BitVec.ofNat 64 v).toInt)
  | _ => exactVal (f32.val v)

/-! ## PROJ (R384, R385) -/

/-- γ as a number of units of 2^−53 (R385). -/
def WDesc.gamma (d : WDesc) : Nat :=
  let acc := match d.ty with
    | 0 | 1 => ((d.k + 15) / 16 + 2) * 2 ^ 29
    | 2 => (d.k + 2) * 2 ^ 29
    | 3 => d.k + 2
    | _ => (3 * ((d.k + 63) / 64) + 3) * 2 ^ 29
  acc + (if d.out = 1 then 2 ^ 45 else if d.out = 5 then 2 ^ 29 else 0)

/-- The modulus of an integer TYPE (R384). -/
def WDesc.modulus (d : WDesc) : Int := if d.ty = 4 then 2 ^ 32 else 2 ^ 64

/-- The check of u and w (R384). -/
def projRows (o : Oper) (d : WDesc) : Bool :=
  (upto d.m).all fun i =>
    match o.value d.ints 1 i, o.value d.ints 2 i with
    | some u, some w =>
      if d.ints then (u - w) % (d.modulus * exactScale) == 0
      else match o.value false 3 i with
        | some m => decide (((u - w).natAbs : Int) * 2 ^ 53 ≤ d.gamma * m)
        | none => false
    | _, _ => false

/-- The address of the superblock that holds B(k, j), and the value of the element (R118, R215, R238). -/
def superblock (d : WDesc) (k j : Nat) : Nat := d.b + (k / 128 * (d.n / 128) + j / 128) * 8452

def Reader.q4 (r : Reader) (d : WDesc) (k j : Nat) : Option Int :=
  let base := superblock d k j
  let blk := 2 * (j % 128) + k % 128 / 64
  let e := k % 64
  let code := r.nat (base + 32 * blk + e / 2) 1 / 16 ^ (e % 2) % 16
  let sc := r.nat (base + 8192 + blk) 1
  match (fmulEx (q4val code) (f32.val (r.nat (base + 8448) 4))).1 with
  | .fin neg m x =>
    let v : Int := (m : Int) * sc * 2 ^ (x + 1074).toNat
    some (if neg then -v else v)
  | _ => if sc = 0 then some 0 else none

/-- The ranges that hold row i of A, of B and of C. -/
def WDesc.rowA (d : WDesc) (i : Nat) : List (Nat × Nat) := (upto d.k).map fun k => (d.a + i * d.lda + k * typeSize d.ty, typeSize d.ty)
def WDesc.rowB (d : WDesc) (k : Nat) : List (Nat × Nat) :=
  if d.ty = 6 then (upto (d.n / 128)).map fun j => (superblock d k (128 * j), 8452)
  else (upto d.n).map fun j => (d.b + k * d.ldb + j * typeSize d.ty, typeSize d.ty)
def WDesc.rowC (d : WDesc) (i : Nat) : List (Nat × Nat) := (upto d.n).map fun j => (d.c + i * d.ldc + j * outSize d.out, outSize d.out)

/-- The elements of row i of A, of row k of B, of row i of C. -/
def Reader.elemsA (r : Reader) (d : WDesc) (i : Nat) : List (Option Int) := (d.rowA i).map fun x => typeVal d.ty (r.nat x.1 x.2)
def Reader.elemsB (r : Reader) (d : WDesc) (k : Nat) : List (Option Int) :=
  if d.ty = 6 then (upto d.n).map (r.q4 d k) else (d.rowB k).map fun x => typeVal d.ty (r.nat x.1 x.2)
def Reader.elemsC (r : Reader) (d : WDesc) (i : Nat) : List (Option Int) := (d.rowC i).map fun x => outVal d.out (r.nat x.1 x.2)

/-- Products of two lists of exact numbers, at the square of the scale. -/
def products (xs ys : List (Option Int)) : List (Option Int) :=
  (xs.zip ys).map fun p =>
    match p with
    | (some a, some b) => some (a * b)
    | _ => none

/-- Whether an emitted value agrees with the terms recomputed for it: equal modulo the modulus, or within `units`
× 2^−52 of the terms' magnitudes (R384, R387). -/
def agrees (modulus : Option Int) (units : Nat) (terms : List (Option Int)) (v : Option Int) : Bool :=
  match exactSum terms, exactSum (terms.map exactAbs), v with
  | some t, some mag, some v =>
    let diff := t - v * exactScale
    match modulus with
    | some m => diff % (m * exactScale * exactScale) == 0
    | none => decide ((diff.natAbs : Int) * 2 ^ 52 ≤ units * mag)
  | _, _, _ => false

/-- The spot checks of PROJ on 8 rows and 8 indices (R384). -/
def Reader.projSpots (r : Reader) (o : Oper) (d : WDesc) (rows ks : List Nat) : Bool :=
  let x := (upto d.n).map fun j => some (exactInt (sel o.seed j))
  let y := (upto d.k).map fun k => o.value d.ints 4 k
  let md := if d.ints then some d.modulus else none
  let absB := (upto d.k).map fun k => exactSum ((r.elemsB d k).map exactAbs)
  let row (i : Nat) : Bool :=
    agrees md (d.n + d.k) (products (r.elemsC d i) x) (o.value d.ints 1 i)
      && agrees md (d.n + d.k) (products (r.elemsA d i) y) (o.value d.ints 2 i)
      && (d.ints || agrees none (d.n + d.k) (products ((r.elemsA d i).map exactAbs) absB) (o.value false 3 i))
  (rows.all row) && ks.all fun k => agrees md (d.n + d.k) (products (r.elemsB d k) x) (o.value d.ints 4 k)

/-! ## Keys and spans (R386, R388) -/

/-- A key or element of TYPE 7 to 10 as 64 bits: signed ones sign-extended. -/
def key64 (ty v : Nat) : DWord := if ty = 7 then (BitVec.ofNat 32 v).signExtend 64 else BitVec.ofNat 64 v

/-- The bits of a key that the hash takes: a 32-bit key zero-extended (R383). -/
def keyBits (ty : Nat) (v : DWord) : DWord := if ty = 7 ∨ ty = 9 then (v.setWidth 32 : Word).setWidth 64 else v

/-- The order of keys that TYPE gives. -/
def keyLe (ty : Nat) (a b : DWord) : Bool := if ty = 7 ∨ ty = 8 then decide (a.toInt ≤ b.toInt) else decide (a.toNat ≤ b.toNat)

/-- Field f of the record of span b. -/
def Oper.field (o : Oper) (b f : Nat) : DWord := BitVec.ofNat 64 (fieldAt ((o.item 5 b).getD []) (8 * f) 8)

/-- The ranges of the elements of span b from a base. -/
def WDesc.span (d : WDesc) (base b : Nat) : List (Nat × Nat) :=
  (upto (min d.k (d.m - b * d.k))).map fun i => (base + (b * d.k + i) * typeSize d.ty, typeSize d.ty)

def Reader.spanKeys (r : Reader) (d : WDesc) (base b : Nat) : List DWord := (d.span base b).map fun x => key64 d.ty (r.nat x.1 x.2)

/-- Whether keys stand in order. -/
def sortedKeys (ty : Nat) : List DWord → Bool
  | a :: b :: t => keyLe ty a b && sortedKeys ty (b :: t)
  | _ => true

def hashSum (seed : BitVec 128) (ty : Nat) (l : List DWord) : DWord := l.foldl (fun h k => h + keyHash seed (keyBits ty k)) 0

/-- The test of PERM on the records (R386). -/
def permTest (o : Oper) (d : WDesc) : Bool :=
  let n := d.spans
  ((upto n).all fun b => o.field b 4 == 1)
    && ((upto (n - 1)).all fun b => keyLe d.ty (o.field b 1) (o.field (b + 1) 0))
    && (upto n).foldl (fun (h : DWord) b => h + o.field b 2) 0 == (upto n).foldl (fun (h : DWord) b => h + o.field b 3) 0

/-- A span of PERM recomputed (R386). -/
def Reader.permSpot (r : Reader) (o : Oper) (d : WDesc) (b : Nat) : Bool :=
  let ins := r.spanKeys d d.a b
  let outs := r.spanKeys d d.c b
  o.field b 0 == outs.headD 0 && o.field b 1 == outs.getLastD 0 && o.field b 2 == hashSum o.seed d.ty ins
    && o.field b 3 == hashSum o.seed d.ty outs && (o.field b 4 == 1) == sortedKeys d.ty outs

/-- ⊕ of PFX (R388). -/
def WDesc.plus (d : WDesc) (a b : DWord) : DWord :=
  let fix (v : DWord) : DWord := if d.ty = 7 then (v.setWidth 32 : Word).signExtend 64 else v
  if d.op = 0 then fix (a + b) else if (fix a).toInt ≤ (fix b).toInt then fix b else fix a

/-- Equality of PFX fields: in the element's width. -/
def WDesc.sameElem (d : WDesc) (a b : DWord) : Bool := if d.ty = 7 then (a.setWidth 32 : Word) == b.setWidth 32 else a == b

/-- The test of PFX on the records (R388). -/
def pfxTest (o : Oper) (d : WDesc) : Bool :=
  let n := d.spans
  ((upto n).all fun b => o.field b 2 == 0 && o.field b 3 == 0 && o.field b 4 == 0)
    && d.sameElem (o.field 0 1) (o.field 0 0)
    && (upto (n - 1)).all fun b => d.sameElem (o.field (b + 1) 1) (d.plus (o.field b 1) (o.field (b + 1) 0))

/-- Inclusive combinations of some elements from a start, if there is one. -/
def WDesc.scanFrom (d : WDesc) : Option DWord → List DWord → List DWord
  | _, [] => []
  | acc, x :: t =>
    let v := match acc with
      | some a => d.plus a x
      | none => x
    v :: d.scanFrom (some v) t

/-- A span of PFX recomputed (R388). -/
def Reader.pfxSpot (r : Reader) (o : Oper) (d : WDesc) (b : Nat) : Bool :=
  let ins := r.spanKeys d d.a b
  let outs := r.spanKeys d d.c b
  let total := (d.scanFrom none ins).getLastD 0
  let run := d.scanFrom (if b = 0 then none else some (o.field (b - 1) 1)) ins
  d.sameElem (o.field b 0) total && d.sameElem (o.field b 1) (run.getLastD 0)
    && (outs.zip run).all fun p => d.sameElem p.1 p.2

/-! ## RES (R387) -/

/-- Ranges of a vector of n elements, and of column k of A. -/
def WDesc.vec (d : WDesc) (base : Nat) : List (Nat × Nat) := (upto d.m).map fun i => (base + i * typeSize d.ty, typeSize d.ty)
def WDesc.colA (d : WDesc) (k : Nat) : List (Nat × Nat) := (upto d.m).map fun i => (d.a + i * d.lda + k * typeSize d.ty, typeSize d.ty)

/-- The test of RES (R387). -/
def Reader.resTest (r : Reader) (o : Oper) (d : WDesc) : Bool :=
  let z := (upto d.m).map fun i => some (sel o.seed i)
  let vals (l : List (Nat × Nat)) : List (Option Int) := l.map fun x => typeVal d.ty (r.nat x.1 x.2)
  let x := vals (d.vec d.c)
  let p1 := exactSum (products z (vals (d.vec d.b)))
  let p2 := exactSum (products ((upto d.m).map fun k => o.value false 1 k) x)
  let mu := exactSum (products ((upto d.m).map fun k => o.value false 2 k) (x.map exactAbs))
  match p1, p2, mu, exactVal (f64.val d.tol) with
  | some p1, some p2, some mu, some tol =>
    let u : Int := exactScale
    let lhs : Int := (p1 * u - p2).natAbs
    decide (lhs * u * 2 ^ 53 ≤ tol * ((p1.natAbs : Int) * u + mu) * 2 ^ 53 + ((d.m : Int) + 2) * mu * u)
  | _, _, _, _ => false

/-- The spot checks of RES on some columns (R387). -/
def Reader.resSpots (r : Reader) (o : Oper) (d : WDesc) (ss cs : List Nat) : Bool :=
  let z := (upto d.m).map fun i => some (exactInt (sel o.seed i))
  let ones := (upto d.m).map fun _ => some (exactInt 1)
  let col (k : Nat) : List (Option Int) := (d.colA k).map fun x => typeVal d.ty (r.nat x.1 x.2)
  (ss.all fun k => agrees none d.m (products (col k) z) (o.value false 1 k))
    && cs.all fun k => agrees none d.m (products ((col k).map exactAbs) ones) (o.value false 2 k)

/-! ## The verdict (R390) -/

/-- Eight numbers below a bound drawn with the checker's secret generator (R384; DESIGN CHOICE, log 13). -/
def drawEight (ctr salt bound : Nat) : List Nat := (upto 8).map fun i => Config.secret (64 * ctr + 8 * salt + i) % bound

/-- What a test by a descriptor finds: the causes 1, 7, 8, 9 or 0, in the order of R390. The reads of the test
and of its spot checks come before its comparisons. With cause 1 come the errors met. -/
def State.arithTest (s : State) (o : Oper) (d : WDesc) : Nat × List Nat :=
  let r : Reader := { s := s, ctx := (s.task o.task).ctx }
  let one := drawEight s.ctr 0 (if o.cls = 2 ∨ o.cls = 4 then d.spans else d.m)
  let two := drawEight s.ctr 1 (if o.cls = 1 then d.k else d.m)
  let ranges := match o.cls with
    | 1 =>
      let bs := if d.ints then two else upto d.k
      one.flatMap (fun i => d.rowA i ++ d.rowC i) ++ bs.flatMap d.rowB
    | 3 => d.vec d.b ++ d.vec d.c ++ (one ++ two).flatMap d.colA
    | _ => one.flatMap fun b => d.span d.a b ++ d.span d.c b
  let r := r.readAll ranges
  let test := match o.cls with
    | 1 => projRows o d
    | 2 => permTest o d
    | 3 => r.resTest o d
    | _ => pfxTest o d
  let spots := match o.cls with
    | 1 => r.projSpots o d one two
    | 2 => one.all (r.permSpot o d)
    | 3 => r.resSpots o d one two
    | _ => one.all (r.pfxSpot o d)
  if r.fail ≠ 0 then (r.fail, r.places) else if !test then (8, []) else if !spots then (9, []) else (0, r.places)

/-- The cause for which the test of an operator fails, 0 if it passes: the first in the order of R390; and the uncorrectable
errors the checker's reads met. Without a descriptor the elements of a PROJ operator have no known type, so that none of them
is a NaN (DESIGN CHOICE, log 13). -/
def State.verdict (s : State) (o : Oper) : Nat × List Nat :=
  let desc := (o.item 0 0).map parseWDesc
  let need := (desc.map fun d => d.required o.cls).getD []
  let floats := o.cls == 3 || (o.cls == 1 && desc.any WDesc.floats)
  let used := 0 :: need.map Prod.fst
  let real := if floats then (if o.cls = 3 then [1, 2] else need.map Prod.fst) else []
  let bad (item : Nat) (l : List Byte) : Bool := real.contains item && !finite64 l
  let outside := o.items.any fun x => (x.1 == 0 && x.2.1 != 0) || need.any fun n => n.1 == x.1 && decide (n.2 ≤ x.2.1)
  if o.ue.isSome then (1, [])
  else if o.noclose then (2, [])
  else if o.late then (3, [])
  else if o.items.any (fun x => bad x.1 x.2.2) || o.dups.any (fun x => bad x.1 x.2) then (4, [])
  else if desc.isNone || need.any fun n => (upto n.2).any fun i => (o.item n.1 i).isNone then (5, [])
  else if o.dups.any (fun x => used.contains x.1) || outside then (6, [])
  else match desc with
    | none => (5, [])
    | some d =>
      if !d.good o.cls then (7, [])
      else
        let c := if o.cls = 5 then (0, []) else s.arithTest o d
        if c.1 ≠ 0 then c else if o.repl = some false then (10, []) else (0, [])

/-- Whether emissions of an operator's gangs are still on their way to the checker. -/
def State.emitting (s : State) (task : Nat) : Bool :=
  s.allGangs.any fun g => g.task == task && g.kops.any fun k =>
    match k.work with
    | .wemit _ _ _ _ => !k.done
    | _ => false

/-- Blocks of a task drawn for a REPL test: min(8, blocks) different ones (R389; DESIGN CHOICE, log 13). -/
def drawBlocks (ctr : Nat) : Nat → Nat → List Nat → List Nat
  | 0, _, _ => []
  | k + 1, salt, left =>
    match left with
    | [] => []
    | b :: t =>
      let x := nth b left (Config.secret (64 * ctr + 32 + salt) % (t.length + 1))
      x :: drawBlocks ctr k (salt + 1) (left.filter (· != x))

/-- The die a block of a task ran on last. -/
def Task.lastDie (t : Task) (block : Nat) : Nat := ((t.ran.reverse.find? fun r => r.1 == block).map fun r => r.2.1).getD 0

/-- WITNESS_TEST (R390): a failed test discards the operator; one that passes makes it PASSED, but for class
REPL, whose blocks are replayed first (R389). -/
def execWitnessTest (oper : Nat) (s : State) : Res :=
  .next (
    match s.ck.opers.find? fun o => o.id == oper with
    | none => s
    | some o =>
      if o.state != .closed then s
      else if s.emitting o.task then s.later (.witnessTest oper)
      else
        let c := s.verdict o
        if c.1 ≠ 0 then
          let s := s.reportAll c.2 o.task
          let s := if c.1 = 1 then s.modOper oper fun o => { o with ue := some (o.ue.getD 4) } else s
          (s.discard [oper] [] c.1).tryReleases
        else if o.cls = 5 ∧ o.repl.isNone ∧ o.screening.all fun r => s.ck.replays.all fun x => x.id != r || x.screen then
          let t := s.task o.task
          let blocks := drawBlocks s.ctr (min 8 t.blocks) 0 (upto t.blocks)
          let s := s.modOper oper fun o => { o with repl := some true }
          blocks.foldl (fun s b => match s.ck.opers.find? fun o => o.id == oper with
            | some o => s.replayBlock o.task b (t.lastDie b) false
            | none => s) s
        else (s.modOper oper fun o => { o with state := .passed }).tryReleases)

end Sys2Proof.Machine
end

