-- ==== Sys2Proof/Machine/Dispatcher.lean ====
section
/-! DEFINITION. Machine/Dispatcher.lean: task records (R275 to R279), their tables (R338 to R344), placement
and admission of blocks (R280 to R282), launching (R23, R28, R70). -/

namespace Sys2Proof.Machine

open Sys2Proof

/-! ## Capacity (R28, R69, R169, R278) -/

/-- What a core has left: register words and gangs of each scheduler, slots, z tiles, scratchpad bytes,
receive queues. -/
structure Free where
  words : List Nat
  gangs : List Nat
  slots : Nat
  zt : Nat
  spad : Nat
  queues : Nat
  deriving DecidableEq, Repr

/-- An empty core: what is enabled and not retired (R19, R151, R269). -/
def Core.empty (c : Core) : Free :=
  let w := 16 * (2048 - 128 * c.lostSegs)
  { words := [w, w, w, w], gangs := [16, 16, 16, 16], slots := 32 - c.lostSlots, zt := 16 - c.lostZt
    spad := 1024 * (512 - 64 * c.lostS), queues := 4 }

/-- Register words of a gang of a block (R69). -/
def Block.words (b : Block) : Nat := b.ngen * b.width + 2 * b.naff + b.nuni

/-- Scratchpad bytes of a block: S and the L space of its gangs (R169, R278). -/
def Block.spad (b : Block) : Nat := b.sbytes + b.home * b.width * 16 * b.lmem

/-- The scheduler with the most free register words, the lowest of several (R28). -/
def Free.start (f : Free) : Nat :=
  (upto 4).foldl (fun best i => if nth 0 f.words best < nth 0 f.words i then i else best) 0

/-- Gangs of w words dealt to schedulers in turn from one on; none if one does not fit. -/
def Free.deal (w : Nat) : Nat → Nat → Free → Option Free
  | 0, _, f => some f
  | k + 1, i, f =>
    if nth 0 f.words i < w ∨ nth 0 f.gangs i = 0 then none
    else Free.deal w k ((i + 1) % 4) { f with words := modAt (· - w) f.words i, gangs := modAt (· - 1) f.gangs i }

/-- What is left of a core after a block, if it fits (R28). -/
def Free.place (f : Free) (b : Block) : Option Free :=
  if f.slots < b.slots ∨ f.zt < b.zt ∨ f.spad < b.spad ∨ f.queues < b.rq then none
  else (f.deal b.words b.home f.start).map fun f =>
    { f with slots := f.slots - b.slots, zt := f.zt - b.zt, spad := f.spad - b.spad, queues := f.queues - b.rq }

/-- How many copies of a block fit, counted one by one; a block has a gang, and a core holds 64 (R280). -/
def Free.count (b : Block) : Nat → Free → Nat
  | 0, _ => 0
  | k + 1, f =>
    match f.place b with
    | none => 0
    | some f => 1 + Free.count b k f

/-- The blocks resident on a core. -/
def State.coreBlocks (s : State) (die core : Nat) : List Block := s.allBlocks.filter fun b => b.die == die && b.core == core

/-- What a resident block's gangs hold of each scheduler, taken off. -/
def Free.without (f : Free) (b : Block) (scheds : List Nat) : Free :=
  let f := scheds.foldl (fun (f : Free) i => { f with words := modAt (· - b.words) f.words i, gangs := modAt (· - 1) f.gangs i }) f
  { f with slots := f.slots - b.slots, zt := f.zt - b.zt, spad := f.spad - b.spad, queues := f.queues - b.rq }

/-- What a core has left if some of its blocks are gone. -/
def State.freeOf (s : State) (die core : Nat) (gone : List Nat) : Free :=
  ((s.coreBlocks die core).filter fun b => !gone.contains b.uid).foldl
    (fun f b => f.without b ((s.allGangs.filter fun g => g.block == b.uid).map Gang.sched)) (s.coreAt die core).empty

/-- Whether the dispatcher places blocks on a core: it is there, and no unit of it waits to be retired (R403). -/
def State.coreUsable (s : State) (die core : Nat) : Bool :=
  !(s.coreAt die core).retired
    && s.ck.units.all fun u => !(u.lasting && u.node == die && unitCore u.kind u.index == some (s.ck.placeOf die core))

/-- A block of a record, not yet placed. -/
def TaskRec.block (r : TaskRec) : Block :=
  { home := r.home, width := r.width, ngen := r.ngen, naff := r.naff, nuni := r.nuni, sbytes := r.sbytes, slots := r.slots
    zt := r.zt, lmem := r.lmem, rq := r.rq, prio := r.prio }

/-- Whether a block fits an empty core of the package (R278). -/
def State.fitsEmpty (s : State) (dies : List Nat) (b : Block) : Bool :=
  dies.any fun d => (upto 112).any fun c =>
    !(s.coreAt d c).retired && ((s.coreAt d c).empty.place { b with rq := 0 }).isSome

/-! ## The order of placement (R280) -/

/-- Numbers sorted by a key, stably. -/
def insertBy (key : Nat → Nat) (x : Nat) : List Nat → List Nat
  | [] => [x]
  | y :: t => if key x < key y then x :: y :: t else y :: insertBy key x t
def sortBy (key : Nat → Nat) (l : List Nat) : List Nat := l.foldl (fun acc x => insertBy key x acc) []

/-- Hops of the route from a node to another by the route tables, up to a bound (R364). -/
def Fabric.hops (f : Fabric) (dst : Nat) : Nat → Nat → Bool → Nat
  | 0, _, _ => 0
  | k + 1, node, down =>
    if node = dst then 0
    else match (Store.find (Store.get ({} : Node) f.nodes node).routes (2 * dst + down.toNat)).bind (f.linkAt node) with
      | none => k + 1
      | some (i, side) =>
        let v := ((f.links[i]?).map fun l => l.far side).getD dst
        1 + Fabric.hops f dst k v (down || decide (f.key node < f.key v))

/-- The links that the topology record published last gives as live: their two nodes (R367). -/
def Fabric.publishedLinks (f : Fabric) : List (Nat × Nat) :=
  let entry (i : Nat) : List Byte := (f.topology.drop (240 + 8 * i)).take 8
  (upto (fieldAt f.topology 3 1)).filterMap fun i =>
    if fieldAt (entry i) 6 1 = 1 then some (fieldAt (entry i) 0 1, fieldAt (entry i) 2 1) else none

/-- Whether a compute die and a memory die are adjacent in the published topology (R280). -/
def Fabric.adjacent (f : Fabric) (die md : Nat) : Bool :=
  f.publishedLinks.contains (die, 4 + md) || f.publishedLinks.contains (4 + md, die)

/-- The clusters of a die in the order published for a memory die (R367): by hop distance from the port of the
route, then by number. -/
def Fabric.clusterOrder (f : Fabric) (die md : Nat) : List Nat :=
  let port := (Store.find (Store.get ({} : Node) f.nodes die).routes (2 * (4 + md))).getD 0
  sortBy (fun c => Config.hopDistance die port c % 8) (upto 14)

/-- The memory die preferred by a task: that of its affinity address (R280). -/
def State.preferred (s : State) (t : Task) : Option Nat :=
  if t.record.affin = 0 then none
  else match s.walk none t.ctx t.record.affin with
    | .ok (_, x) => if s.owns (s.ctx t.ctx).tenant x then some (homeDie x.phys) else none
    | .error _ => none

/-- Blocks of a task that a die could take now. -/
def State.dieRoom (s : State) (b : Block) (die : Nat) : Nat :=
  (upto 112).foldl (fun n c => if s.coreUsable die c then n + Free.count b 65 (s.freeOf die c []) else n) 0

/-- The dies a task's blocks may be placed on, in order (R280). -/
def State.dieOrder (s : State) (t : Task) (b : Block) : List Nat :=
  let dies := s.presentDies.filter fun d => !t.excluded.getLsbD d
  let room (d : Nat) : Nat := 1048576 - s.dieRoom b d
  match s.preferred t with
  | none => sortBy room dies
  | some m =>
    sortBy room (dies.filter fun d => s.fab.adjacent d m)
      ++ sortBy (fun d => s.fab.hops (4 + m) 14 d false) (dies.filter fun d => !s.fab.adjacent d m)

/-- The cores a task's blocks may be placed on, in order (R280). -/
def State.coreOrder (s : State) (t : Task) (b : Block) : List (Nat × Nat) :=
  let m := s.preferred t
  (s.dieOrder t b).flatMap fun d =>
    let clusters := match m with
      | none => upto 14
      | some m => s.fab.clusterOrder d m
    (clusters.flatMap fun c => (upto 8).map fun k => (d, 8 * c + k)).filter fun p => s.coreUsable p.1 p.2

/-- The first core that a block fits (R280). -/
def State.chooseCore (s : State) (cores : List (Nat × Nat)) (b : Block) : Option (Nat × Nat) :=
  cores.find? fun p => ((s.freeOf p.1 p.2 []).place b).isSome

/-! ## Admission -/

/-- A gang as it is launched (R23, R24, R70, R270, R284). -/
def launchGang (t : Task) (b : Block) (i sched uid : Nat) : Gang :=
  { uid := uid, task := t.id, block := b.uid, id := b.num * b.home + i, rank0 := i, sched := sched, width := b.width
    ngen := b.ngen, naff := b.naff, nuni := b.nuni
    slices := (upto (b.width / 4)).map fun _ => { pc := BitVec.ofNat 64 t.record.code, active := 15 }
    live := sliceMask (upto (b.width / 4))
    allow := ((t.caps.zipIdx).filter fun (p : Cap × Nat) => p.1.allow != 0).map fun p => (p.2, p.1.allow)
    level := b.prio, key := uid }

/-- A block placed on a core, its gangs dealt and launched (R28, R170, R213). -/
def State.launchBlock (s : State) (t : Task) (b : Block) (die core : Nat) : State :=
  let start := (s.freeOf die core []).start
  let b := { b with uid := s.next, task := t.id, die := die, core := core, admitted := s.next, attempt := t.attempt }
  let gangs := (upto b.home).map fun i => launchGang t b i ((start + i) % 4) (s.next + 1 + i)
  let s := s.focusCore die core
  { s with blocks := s.blocks ++ [b], gangs := s.gangs ++ gangs, next := s.next + 1 + b.home }

/-- The lineage entry of a task's operator, made when its first block is admitted (R377, R378). -/
def State.openOper (s : State) (t : Task) : State :=
  if t.record.wclass = 0 || (s.operOf t.id).isSome then s
  else
    let o : Oper := { id := s.next, tenant := t.tenant, opid := t.record.opid, task := t.id, cls := t.record.wclass
                      attempt := t.attempt, seed := Config.witnessSeed s.ctr, parents := t.record.parents }
    { s with
      ck := { s.ck with
        opers := s.ck.opers ++ [o]
        hist := s.ck.hist.filter fun h => !(h.tenant == o.tenant && h.opid == o.opid) }
      next := s.next + 1 }

/-- The next block of a task admitted to a core. -/
def State.admitBlock (s : State) (t : Task) (die core : Nat) : State :=
  let num := t.nextBlock
  let s := s.openOper t
  let s := s.launchBlock t { t.record.block with num := num } die core
  let s := s.modTask t.id fun t => { t with nextBlock := num + 1, ran := t.ran ++ [(num, die, core)] }
  let last := num + 1 == t.blocks
  let levels := s.levels.map fun (l : Nat × List QEntry) => (l.1, if last then l.2.filter (· != QEntry.task t.id) else l.2)
  (({ s with levels := levels, evictFor := none, evictAt := none }.rescopeAll t.id).signalAll).later .blockAdmission

/-- Whether a task's operator id keeps it waiting: another live entry has it, or the table is full (R377). -/
def State.operWaits (s : State) (t : Task) : Bool :=
  t.record.wclass != 0 && (s.operOf t.id).isNone
    && (s.ck.opers.any (fun o => o.tenant == t.tenant && o.opid == t.record.opid) || decide (16384 ≤ s.ck.opers.length))

/-- Save slots of a core that hold an image, or that a block being evicted will take (R327). -/
def State.poolUsed (s : State) (die core : Nat) : Nat :=
  (s.images.filter fun im => im.slot.isSome && im.die == die && im.core == core).length
    + ((s.coreBlocks die core).filter fun b => b.evicting).length

/-- Save slots a core has free. -/
def State.poolFree (s : State) (die core : Nat) : Nat :=
  ((s.coreAt die core).saveBase >>> 56).toNat - s.poolUsed die core

/-- The resident blocks of a core that may be evicted for a block of a priority: lowest priority first, then
youngest admission (R282). Replays of the checker are not evicted. -/
def State.evictable (s : State) (die core prio : Nat) : List Nat :=
  let l := (s.coreBlocks die core).filter fun b => decide (b.prio < prio) && b.replay.isNone && !b.evicting
  let key (uid : Nat) : Nat := match l.find? fun b => b.uid == uid with
    | some b => b.prio * 2 ^ 64 + (2 ^ 64 - 1 - b.admitted)
    | none => 0
  sortBy key (l.map Block.uid)

/-- The shortest leading part of the evictable blocks of a core that makes room, of those that find a save
slot each (R282, R327). -/
def State.evictionFor (s : State) (b : Block) (die core : Nat) : Option (List Nat) :=
  let l := s.evictable die core b.prio
  let n := min l.length (s.poolFree die core)
  ((upto n).map (· + 1)).findSome? fun k =>
    if ((s.freeOf die core (l.take k)).place b).isSome then some (l.take k) else none

/-- A block that fits no core waits, and nothing else is admitted before it (R281). Partial eviction is tried for it (R282). -/
def State.partialEviction (s : State) (e : QEntry) (cores : List (Nat × Nat)) (b : Block) : State :=
  let s := { s with evictFor := some e }
  match cores.findSome? fun p => (s.evictionFor b p.1 p.2).map fun l => (p, l) with
  | none => s
  | some (p, l) => l.foldl (fun s uid => (s.modBlock uid fun b => { b with evicting := true }).later (.blockEvictionSave uid))
      { s with evictAt := some p }

/-- The entry the dispatcher decides on: that of the block that waits, else the head of the highest level that is not empty
(R281). -/
def State.headEntry (s : State) : Option QEntry :=
  match s.evictFor with
  | some e => some e
  | none => (upto 8).reverse.findSome? fun p => (Store.get [] s.levels p).head?

/-- The core for the block of an entry: the one on which blocks have been evicted for it, if there is one, else the first
that it fits (R280, R282). -/
def State.coreFor (s : State) (cores : List (Nat × Nat)) (b : Block) : Option (Nat × Nat) :=
  match s.evictAt with
  | some p => s.chooseCore (cores.filter (· == p)) b
  | none => s.chooseCore cores b

/-- A block that has found no core: it goes on waiting while others are being evicted for it, unless the core they leave may
be used no more (R282, R403). -/
def State.noCore (s : State) (e : QEntry) (cores : List (Nat × Nat)) (b : Block) : State :=
  match s.evictAt with
  | some p => if cores.contains p then s else { s with evictAt := none }.later .blockAdmission
  | none => s.partialEviction e cores b

/-- The cores an image may be placed on: with a D grant, those of its die of eviction (R333). -/
def State.imageCores (s : State) (im : Image) : List (Nat × Nat) :=
  (s.coreOrder (s.task im.block.task) im.block).filter fun p => !im.grant || p.1 == im.dieOfEviction

/-- BLOCK_ADMISSION (R281, R282). -/
def execBlockAdmission (s : State) : Res :=
  .next (
    match s.headEntry with
    | none => s
    | some (.task id) =>
      let t := s.task id
      let b := t.record.block
      if t.id = 0 || t.failing || decide (t.blocks ≤ t.nextBlock) then
        { s with
          evictFor := none, evictAt := none
          levels := s.levels.map fun (l : Nat × List QEntry) => (l.1, l.2.filter (· != QEntry.task id)) }.later .blockAdmission
      else if s.operWaits t then s
      else
        let cores := s.coreOrder t b
        match s.coreFor cores b with
        | some (d, c) => s.admitBlock t d c
        | none => s.noCore (.task id) cores b
    | some (.image id) =>
      match s.images.find? fun im => im.id == id with
      | none =>
        { s with
          evictFor := none, evictAt := none
          levels := s.levels.map fun (l : Nat × List QEntry) => (l.1, l.2.filter (· != QEntry.image id)) }.later .blockAdmission
      | some im =>
        let cores := s.imageCores im
        if (s.coreFor cores im.block).isSome || !s.fitsEmpty s.presentDies im.block then s.later (.blockRestore id)
        else s.noCore (.image id) cores im.block)

/-! ## Records (R276 to R279) -/

/-- The fields of a record (R276, R277). -/
def parseRecord (l : List Byte) : TaskRec where
  code := fieldAt l 0 8
  param := fieldAt l 8 8
  gtab := fieldAt l 16 8
  ctab := fieldAt l 24 8
  affin := fieldAt l 32 8
  gangs := fieldAt l 40 4
  width := fieldAt l 44 1
  prio := fieldAt l 45 1
  restart := (fieldAt l 46 1).testBit 0
  wclass := fieldAt l 46 1 / 2 % 8
  replay := (fieldAt l 46 1).testBit 4
  rq := fieldAt l 46 1 / 32
  home := fieldAt l 47 1
  ngen := fieldAt l 48 1
  naff := fieldAt l 49 1
  nuni := fieldAt l 50 1
  sbytes := fieldAt l 52 4
  slots := fieldAt l 56 1
  zt := fieldAt l 57 1
  lmem := fieldAt l 58 1
  opid := fieldAt l 60 4
  parents := (upto 8).map fun i => fieldAt l (64 + 4 * i) 4

/-- An image of a task's tables read in its context; none if it does not translate or may not be read (R338). -/
def State.image (s : State) (ctx va n : Nat) : Option (List Byte) :=
  match s.segsRaw ctx .read (n / 4096 + 2) va n with
  | .error _ => none
  | .ok l => if (l.findSome? (s.segAbort false)).isSome then none else some (l.flatMap fun g => s.seen g.x g.len)

/-- The places of the errors that the dispatcher meets in what it reads of a record's tables (R32). -/
def State.imagePlaces (s : State) (ctx va n : Nat) : List Nat :=
  match s.segsRaw ctx .read (n / 4096 + 2) va n with
  | .error (.abort _ places) => places
  | .error _ => []
  | .ok l => s.segErrors false l

/-- A valid group of the group table: number, scope, size (R339). -/
def groupEntries (l : List Byte) : List (Nat × Nat × Nat) :=
  (upto 256).filterMap fun g => if fieldAt l (16 * g) 1 % 2 = 1 then some (g, fieldAt l (16 * g + 1) 1, fieldAt l (16 * g + 4) 4) else none

/-- A gang's membership entry, with its RANK0 (R341). -/
def parseMember (l : List Byte) (home i : Nat) : Member :=
  let e := l.drop (4096 + 16 * i)
  { grp := (upto 4).map fun k => fieldAt e k 1
    valid := fieldAt e 4 1
    rank := (if home = 0 then 0 else i % home) :: (upto 3).map fun k => fieldAt e (8 + 2 * k) 2 }

/-- Whether a reserved field of entry i of the tables is set: of the group table, then of the membership table (R338, R339,
R341). -/
def entryReserved (i : Nat) (e : List Byte) : Bool :=
  if i < 256 then fieldAt e 0 1 % 2 == 1 && (fieldAt e 0 1 != 1 || fieldAt e 2 2 != 0 || fieldAt e 8 8 != 0)
  else 16 ≤ fieldAt e 4 1 || fieldAt e 5 3 != 0 || fieldAt e 14 2 != 0

/-- Whether a reserved field of the tables is set. -/
def tablesReserved (l : List Byte) (gangs : Nat) : Bool := (upto (256 + gangs)).any fun i => entryReserved i (l.drop (16 * i))

/-- The same of tables that can be read only in part: of the entries that can. -/
def State.partReserved (s : State) (ctx gtab gangs : Nat) : Bool :=
  (upto (256 + gangs)).any fun i => match s.image ctx (gtab + 16 * i) 16 with
    | some e => entryReserved i e
    | none => false

/-- The gangs that name a group, each with its slot and rank. -/
def namersOf (ms : List Member) (g : Nat) : List (Nat × Nat) :=
  ms.flatMap fun m => (upto 4).filterMap fun k =>
    if m.valid.testBit k && nth 0 m.grp k == g then some (k, nth 0 m.rank k) else none

/-- Whether the group and membership tables break R339 or R341. -/
def tablesBad (l : List Byte) (home gangs : Nat) : Bool :=
  let groups := groupEntries l
  let ms := (upto gangs).map (parseMember l home)
  let grp0 (i : Nat) : Nat := nth 0 (nth {} ms i).grp 0
  let blocks := if home = 0 then 0 else gangs / home
  ((upto 256).any fun g => fieldAt l (16 * g) 1 % 2 == 0 && fieldAt l (16 * g) 16 != 0)
  || (groups.any fun g => decide (5 < g.2.1) || g.2.2 == 0 || decide (65535 < g.2.2))
  || (ms.any fun m => !m.valid.testBit 0
      || (upto 4).any fun k =>
        if m.valid.testBit k then
          (groups.all fun g => g.1 != nth 0 m.grp k)
            || (upto 4).any fun j => decide (j < k) && m.valid.testBit j && nth 0 m.grp j == nth 0 m.grp k
        else nth 0 m.grp k != 0 || (k != 0 && nth 0 m.rank k != 0))
  || ((upto gangs).any fun i => grp0 i != grp0 (i / home * home))
  || ((upto blocks).any fun b => (upto b).any fun c => grp0 (b * home) == grp0 (c * home))
  || ((upto blocks).any fun b =>
      let g := grp0 (b * home)
      (groups.any fun x => x.1 == g && x.2.2 != home) || (namersOf ms g).any fun x => x.1 != 0)
  || groups.any fun g =>
      let ns := namersOf ms g.1
      ns.length != g.2.2 || (upto g.2.2).any fun r => ns.all fun x => x.2 != r

/-! ## Capabilities (R342, R343) -/

/-- The bytes of TARGET that a kind uses. -/
def targetBytes (kind : Nat) : List Nat :=
  match kind with
  | 1 => (upto 9).map (8 + ·)
  | 2 => [8, 9]
  | 3 => [8]
  | 4 => [8, 9, 10]
  | 5 => [8, 9] ++ (upto 16).map (16 + ·)
  | _ => []

/-- The fields of an entry as its kind lays them out. -/
def parseCap (e : List Byte) : Cap :=
  let k := fieldAt e 0 1
  { kind := k, perm := fieldAt e 1 1, allow := fieldAt e 2 1, reply := fieldAt e 3 1
    f8 := fieldAt e 8 (if k = 1 then 4 else if k = 3 then 1 else 2)
    f10 := fieldAt e 10 1
    f12 := fieldAt e 12 4
    f16 := if k = 5 then fieldAt e 16 8 else fieldAt e 16 1
    f24 := fieldAt e 24 8 }

/-- Whether an entry's own fields are good (R342, R343). -/
def capFields (e : List Byte) : Bool :=
  let c := parseCap e
  let admitted := match c.kind with
    | 1 | 3 => 1
    | 2 => 3
    | 4 => 12
    | 5 => 24
    | _ => 0
  decide (1 ≤ c.kind ∧ c.kind ≤ 5) && (c.perm ||| admitted) == admitted && fieldAt e 4 4 == 0
    && (if c.kind ≤ 3 then decide (1 ≤ c.allow ∧ c.allow ≤ 64) else c.allow == 0)
    && ((upto 24).all fun i => (targetBytes c.kind).contains (8 + i) || fieldAt e (8 + i) 1 == 0)
    && (c.kind != 1 || decide (c.f16 ≤ 3)) && (c.kind != 2 || decide (c.f8 < 4096))
    && (c.kind != 4 || decide (c.f8 ≤ 63 ∧ c.f10 ≤ 15))

/-- The tenant condition as it stands when a record is validated, for targets that exist then (R343). -/
def State.capTenant (s : State) (ctx : Nat) (c : Cap) : Bool :=
  let own := s.ctx ctx
  match c.kind with
  | 1 => s.tasks.all fun t => t.id != c.f8 || t.tenant == own.tenant
  | 2 =>
    let called := s.ctx c.f8
    !called.valid || c.f8 == ctx || (own.launchx && called.tenant == own.tenant)
  | 3 =>
    let w := Store.get ({} : Window) s.windows c.f8
    !w.bound || w.tenant == own.tenant
  | 4 => s.grants.all fun g => !(g.num == c.f8 && c.f10.testBit g.die) || g.ctx == ctx
  | _ => own.remote

/-- The capability table a task holds (R342, R343). -/
def State.capTable (s : State) (ctx : Nat) (es : List (List Byte)) : List Cap :=
  let first := es.map fun e => let c := parseCap e; if capFields e && s.capTenant ctx c then c else {}
  let replyOk (c : Cap) : Bool := c.reply == 0xFF || (match first[c.reply]? with
    | some x => x.kind == 1 || x.kind == 3
    | none => false)
  first.map fun c => if replyOk c then c else {}

/-- The entries of a capability image; none if it does not translate (R342). -/
def State.capImage (s : State) (ctx ctab : Nat) : Option (Nat × Bool × List (List Byte)) :=
  if ctab = 0 then some (0, false, [])
  else match s.image ctx ctab 32 with
    | none => none
    | some h =>
      let n := fieldAt h 0 4
      let resv := fieldAt h 4 28 != 0
      if 64 < n then some (n, resv, [])
      else match s.image ctx (ctab + 32) (32 * n) with
        | none => none
        | some l => some (n, resv, (upto n).map fun i => (l.drop (32 * i)).take 32)

/-! ## Validation (R278, R279, R338) -/

/-- The conditions a record breaks, each with its REASON. -/
def State.recordFaults (s : State) (l : List Byte) (ctx : Nat) : List Nat :=
  let r := parseRecord l
  let high (a : Nat) : Bool := decide (2 ^ 48 ≤ a)
  let tab := s.image ctx r.gtab (4096 + 16 * r.gangs)
  let caps := s.capImage ctx r.ctab
  let bits : List (Bool × Nat) := [
    (fieldAt l 59 1 != 1, 1),
    (fieldAt l 51 1 != 0 || fieldAt l 96 32 != 0 || decide (7 < r.prio) || decide (5 < r.wclass) || decide (4 < r.rq)
      || (r.wclass != 0 && r.opid == 0), 2),
    (match tab with
      | some t => tablesReserved t r.gangs
      | none => s.partReserved ctx r.gtab r.gangs, 2),
    (match (if r.ctab = 0 then none else s.image ctx r.ctab 32) with
      | some h => decide (64 < fieldAt h 0 4) || fieldAt h 4 28 != 0
      | none => false, 2),
    (r.code % 48 != 0 || high r.code || high r.param || high r.gtab || high r.ctab || high r.affin || !(s.ctx ctx).valid
      || tab.isNone || caps.isNone, 3),
    (r.width % 4 != 0 || decide (r.width < 4) || decide (32 < r.width), 4),
    (r.gangs == 0 || (r.home != 0 && r.gangs % r.home != 0), 5),
    (match tab with
      | some t => r.home != 0 && tablesBad t r.home r.gangs
      | none => false, 5),
    (decide (64 < r.ngen + r.naff + r.nuni), 6),
    (r.home == 0 || decide (64 < r.home) || r.sbytes % 16 != 0 || decide (524288 < r.sbytes) || decide (32 < r.slots)
      || decide (16 < r.zt) || decide (64 < r.lmem) || !s.fitsEmpty s.presentDies r.block, 7)]
  (bits.filter Prod.fst).map Prod.snd

/-- Reasons as R279 numbers them: the lowest of those that apply; 0 if there is none. -/
def lowestReason (l : List Nat) : Nat := l.foldl (fun m x => if m = 0 ∨ x < m then x else m) 0

/-- An identity for a new task: the next that no live task has (R275; DESIGN CHOICE, log 12). -/
def State.freeTaskId (s : State) : Nat → Nat → Nat
  | 0, n => n
  | k + 1, n => if n = 0 ∨ 2 ^ 32 ≤ n ∨ s.tasks.any (fun t => t.id == n) then s.freeTaskId k (n % 2 ^ 32 + 1) else n

/-- A valid record made a task and queued at the end of its level (R275, R281, R338). -/
def State.queueTask (s : State) (rc : Record) : State :=
  let r := parseRecord rc.bytes
  let tab := (s.image rc.ctx r.gtab (4096 + 16 * r.gangs)).getD []
  let caps := match s.capImage rc.ctx r.ctab with
    | some (_, _, es) => s.capTable rc.ctx es
    | none => []
  let id := s.freeTaskId (s.tasks.length + 2) s.nextTask
  let barrier (g : Nat × Nat × Nat) : Barrier := { num := g.1, scope0 := g.2.1, size := g.2.2, expected := g.2.2, scope := g.2.1 }
  let t : Task :=
    { id := id, record := r, ctx := rc.ctx, tenant := (s.ctx rc.ctx).tenant, caps := caps
      members := (upto r.gangs).map (parseMember tab r.home), barriers := (groupEntries tab).map barrier, reply := rc.flit.reply }
  { s with
    tasks := s.tasks ++ [t], nextTask := id % (2 ^ 32 - 1) + 1
    levels := Store.put s.levels r.prio (Store.get [] s.levels r.prio ++ [QEntry.task id]) }.later .blockAdmission

/-- Records in the dispatcher queue (R275). -/
def State.queued (s : State) : Nat := s.levels.foldl (fun n (l : Nat × List QEntry) => n + l.2.length) 0

/-- TASK_RECORD_ARRIVAL (R275, R278): a record waits at its endpoint while the dispatcher is closed or its queue
is full; its unit returns when it has been queued or rejected (R270). -/
def execTaskRecordArrival (record : Nat) (s : State) : Res :=
  .next (
    match s.records.find? fun r => r.id == record with
    | none => s
    | some r =>
      if !s.accepting || 4096 ≤ s.queued then s.later (.taskRecordArrival record)
      else
        let reason := lowestReason (s.recordFaults r.bytes r.ctx)
        let t : Task := { record := parseRecord r.bytes, ctx := r.ctx, tenant := r.flit.tenant, reply := r.flit.reply, attempt := 0 }
        let met := s.imagePlaces r.ctx t.record.gtab (4096 + 16 * t.record.gangs) ++ if t.record.ctab = 0 then [] else s.imagePlaces r.ctx t.record.ctab 32
        let s := s.reportAll met 0
        let s := if reason = 0 then s.queueTask r else s.exitRecord t 1 reason
        ({ s with records := s.records.filter fun x => x.id != record }.returnUnit r.flit).flitDone r.flit)

end Sys2Proof.Machine
end

