-- ==== Sys2Proof/Machine/Save.lean ====
section
/-! DEFINITION. Machine/Save.lean: eviction of blocks (R283, R288), save images (R327 to R332, R335) and
restore (R333, R334). -/

namespace Sys2Proof.Machine

open Sys2Proof

/-! ## Eviction -/

/-- EVICT (R288): the block in focus is evicted once its chain has issued. -/
def execEvict (s : State) : Res :=
  .next (s.privileged fun s =>
    if s.poolFree s.b.die s.b.core = 0 then s.hold
    else ({ s with b := { s.b with evicting := true } }).later (.blockEvictionSave s.b.uid))

/-- Whether an access of a block's gangs, or an operation of theirs, has yet to be brought to an end before the
block is saved (R283 step 2, R310). -/
def State.gangBusy (s : State) (g : Gang) : Bool :=
  g.stopWaits || g.stop.isSome || !g.replies.isEmpty
    || (s.posted.any fun p => p.gang == g.uid && p.op.space == .s)
    || g.kops.any fun k => match k.work with
        | .feset _ _ _ _ | .chreset _ => !k.done
        | _ => false

/-- Whether a block is still to be brought to an end (R283 step 2): started collectives, and commands of the
matrix unit that have started and stop at no boundary. -/
def State.blockBusy (s : State) (b : Block) : Bool :=
  !b.colls.isEmpty
    || ((s.coreAt b.die b.core).mxq.any fun c => c.block == b.uid && c.started && !c.isMma && !c.isGemm)
    || (s.allGangs.filter fun g => g.block == b.uid).any s.gangBusy

/-! ## The bytes of an image (R328 to R332) -/

/-- A section: its kind, the gang's RANK0 or 0xFF, its unit, its bytes. -/
structure Section where
  kind : Nat
  rank : Nat
  unit_ : Nat
  bytes : List Byte

/-- WAITK of R331. -/
def Wait.kind : Wait → Nat
  | .waitf _ => 1
  | .waitc _ _ _ => 2
  | .waitany _ => 3
  | .bar _ _ => 4
  | .regang _ _ => 5
  | .sleep _ _ _ => 6
  | .wclose _ _ _ => 7
  | _ => 0

/-- The word waited at (R331). -/
def Wait.word (w : Wait) : Word :=
  let i : Option Instr := match w with
    | .waitf m => some (.waitf m)
    | .waitc k n _ => some (.waitc (BitVec.ofNat 3 k) (BitVec.ofNat 6 n))
    | .waitany m => some (.waitany 0 m)
    | .bar slot _ => some (.bar 0 (BitVec.ofNat 2 slot))
    | .regang m _ => some (.regang m)
    | .sleep n _ _ => some (.sleep (BitVec.ofNat 16 n))
    | .wclose c _ _ => some (.wclose c)
    | _ => Option.none
  (i.bind encode).getD 0

/-- How many of some operations of a gang are outstanding in a class. -/
def Gang.countIn (g : Gang) (ops : List Nat) (cls : Nat) : Nat :=
  (g.kops.filter fun k => k.cls == cls && ops.contains k.id).length

/-- The classes whose counts WCLOSE's wait records, with their lowest bits (R331). -/
def closeFields : List (Nat × Nat) := [(0, 0), (1, 6), (2, 12), (3, 18), (5, 24)]

/-- Bytes 44 to 47 of a slice record (R331). -/
def Gang.waitCount (g : Gang) (out : Nat → Bool) : Wait → Nat
  | .waitc k _ ops => g.countIn ops k
  | .sleep _ units _ => units
  | .bar _ phase => phase.toNat
  | .wclose _ ops posted =>
    closeFields.foldl (fun n (p : Nat × Nat) => n + g.countIn ops p.1 * 2 ^ p.2) 0 + if posted.any out then 2 ^ 30 else 0
  | _ => 0

/-- The predicates of a slice, as its record holds them (R331). -/
def Gang.slicePreds (g : Gang) (i : Nat) : Nat :=
  (upto 28).foldl (fun n j => if g.pred (j % 7) (4 * i + j / 7) then n + 2 ^ j else n) 0

/-- The index of the entry that a pending flag belongs to, 0xFF if there is none. -/
def entryIndex (entries : List Flight) (op : Nat) : Nat := (entries.findIdx? fun f => f.id == op).getD 255

/-- A slice record of some slices of a gang (R331). A group is named by its lowest live slice. -/
def Gang.sliceRecord (g : Gang) (out : Nat → Bool) (entries : List Flight) (i : Nat) (sl : Slice) : List Byte :=
  let rec_ (f : Nat) : Option FlagRec := sl.flags.find? fun r => r.flag == f
  let flags := (upto 12).foldl (fun n f => if (rec_ f).isSome then n + 2 ^ f else n) 0
  let wins := (upto 12).foldl (fun n f => n + (((rec_ f).map FlagRec.win).getD 0 % 16) * 16 ^ f) 0
  leBytes 8 sl.pc.toNat ++ leBytes 8 sl.link.toNat ++ leBytes 4 (sl.status i).toNat ++ leBytes 4 sl.mstk.toNat
    ++ leBytes 4 (g.slicePreds i) ++ leBytes 2 flags ++ leBytes 1 ((g.group sl.grp).headD sl.grp) ++ leBytes 1 sl.wait.kind ++ leBytes 6 wins
    ++ leBytes 1 sl.closed.toNat ++ leBytes 1 0 ++ leBytes 4 sl.wait.word.toNat ++ leBytes 4 (g.waitCount out sl.wait)
    ++ leBytes 4 sl.cause.toNat ++ (upto 12).flatMap fun f => leBytes 1 (((rec_ f).map fun r => entryIndex entries r.op).getD 255)

/-- A binding as the image holds it (R294, R330). -/
def bindRecord (ns : Nat) (x : Option Binding) : List Byte :=
  match x with
  | none => leBytes 16 0
  | some b =>
    leBytes 1 (if b.pending then 2 else 1) ++ leBytes 1 b.kind ++ leBytes 2 0
      ++ leBytes 4 (if b.kind = 4 then b.deadline - ns else b.arg.toNat) ++ leBytes 8 b.handler.toNat

/-- The mode byte of R330. -/
def GMode.code : GMode → Nat
  | .running => 0
  | .inTrap => 1
  | .inDebug => 2
  | .halted => 3

/-- A gang's own unfinished words: in flight, or those that its halt has made replay entries (R310, R330). -/
def Gang.words (g : Gang) : List Flight := g.hlist ++ g.flights

/-- A gang with its own unfinished words. -/
def Gang.setWords (g : Gang) (l : List Flight) : Gang := if g.hlist.isEmpty then { g with flights := l } else { g with hlist := l }

/-- The entries that frame words 32 and above show: those of the frame, or the gang's unfinished words (R330). -/
def Gang.savedEntries (g : Gang) : List Flight :=
  match g.frame with
  | some f => f.entries
  | none => g.words

/-- The gang control section (R330). -/
def Gang.control (g : Gang) (ns : Nat) (out : Nat → Bool) (arrival : Nat → Arrival) : List Byte :=
  let entries := g.savedEntries
  let lf := g.killCause.toNat * 2 ^ 32 + g.killed.toNat
  let bits (p : Binding → Bool) : Nat := (bindBits g.binds p).toNat
  let arr (k : Nat) : List Byte :=
    let a := arrival k
    leBytes 1 (if a.slices = 0 then 0 else 1) ++ leBytes 1 a.slices.toNat ++ leBytes 2 0 ++ leBytes 4 a.phase.toNat
  let chan (n : Nat) : List Byte :=
    let c := g.chan n
    leBytes 1 c.opened.toNat ++ leBytes 1 c.cap ++ leBytes 2 c.seqno
  let abort := match g.abort with
    | some a => a.toNat % 2 ^ 48 + 2 ^ 63
    | none => 0
  let word (sel : Nat) : Word := frameWord ((g.frame.map Frame.slices).getD g.past) entries sel
  leBytes 4 g.id ++ leBytes 1 g.rank0 ++ leBytes 1 g.live.toNat ++ leBytes 1 g.mode.code ++ leBytes 1 g.hslices.toNat
    ++ leBytes 8 lf ++ leBytes 4 g.fpstat.toNat ++ leBytes 4 g.mxUe.toNat ++ leBytes 4 g.mxUeLoc.toNat
    ++ leBytes 4 g.chCur.toNat ++ leBytes 4 g.mqDest.toNat ++ leBytes 1 (bits fun _ => true) ++ leBytes 1 (bits fun b => b.pending)
    ++ leBytes 2 0 ++ ((upto 6).flatMap fun k => leBytes 2 (g.kcount k)) ++ leBytes 4 0 ++ leBytes 8 abort
    ++ ((upto 8).flatMap fun i => if i < g.slices.length then
          g.sliceRecord out (if g.frame.isSome then g.words else entries) i (g.slice i) else leBytes 64 0)
    ++ ((upto 8).flatMap fun i => bindRecord ns (Store.find g.binds i))
    ++ ((upto 4).flatMap arr) ++ ((upto 15).flatMap fun n => chan (n + 1)) ++ leBytes 4 0
    ++ ((upto 64).flatMap fun c => leBytes 1 (g.allowance c))
    ++ leBytes 4 g.trapCause.toNat ++ leBytes 4 (entries.length + 256 * g.trapSel.toNat)
    ++ leBytes 8 g.trapPc.toNat ++ leBytes 8 g.trapAddr.toNat ++ leBytes 8 0
    ++ ((upto 96).flatMap fun sel => leBytes 4 (word sel).toNat)

/-- The operands of a word captured at issue (R332, kind 6). -/
def Flight.operands (f : Flight) : List Byte :=
  (upto 32).flatMap fun L =>
    leBytes 8 (Store.get 0 f.addr L).toNat ++ leBytes 16 (Store.get 0 f.data L).toNat ++ leBytes 16 (Store.get 0 f.casv L).toNat

/-- The sections of a gang of some kinds (R330, R332). -/
def State.gangSections (s : State) (b : Block) (g : Gang) : List Section :=
  let w := b.width
  let lw := 16 * b.lmem
  let regs (n : Nat) (f : Nat → Word) : List Byte := (upto n).flatMap fun i => leBytes 4 (f i).toNat
  let frame : List Section := match g.frame with
    | none => []
    | some fr =>
      ((bitsOf 8 g.hslices.toNat).map fun i =>
        { kind := 15, rank := g.rank0, unit_ := i, bytes := ({ g with slices := fr.slices }).sliceRecord s.isOut fr.entries i (nth {} fr.slices i) })
      ++ [{ kind := 16, rank := g.rank0, unit_ := 0
            bytes := leBytes 4 g.words.length ++ leBytes 12 0
              ++ g.words.flatMap fun f => ((upto 4).flatMap fun k => leBytes 4 (f.entryWord k).toNat) ++ f.operands }]
  [ { kind := 1, rank := g.rank0, unit_ := 0, bytes := g.control s.ns s.isOut (s.arrival g) },
    { kind := 2, rank := g.rank0, unit_ := 0, bytes := regs (b.ngen * w) fun k => g.genAt (k / w) (k % w) },
    { kind := 3, rank := g.rank0, unit_ := 0
      bytes := (upto b.naff).flatMap fun i => leBytes 4 (Store.get 0 g.affB i).toNat ++ leBytes 4 (Store.get 0 g.affS i).toNat },
    { kind := 4, rank := g.rank0, unit_ := 0, bytes := regs b.nuni fun i => (Store.get {} g.uni i).now },
    { kind := 5, rank := g.rank0, unit_ := 0, bytes := (upto w).flatMap fun L => memBytes s.mem (atL g.uid L 0) lw },
    { kind := 6, rank := g.rank0, unit_ := 0, bytes := g.savedEntries.flatMap Flight.operands } ] ++ frame

/-- A matrix command as the image holds it (R332, kind 12). -/
def MxCmd.record (c : MxCmd) (rank : Nat) : List Byte :=
  let kind := if c.coll.isSome then 1 else if c.isGemm then 2 else 0
  leBytes 4 ((encode c.word).getD 0).toNat ++ leBytes 1 rank ++ leBytes 1 kind
    ++ leBytes 2 (if c.isMma || c.isGemm then 2 ^ min 16 c.tiles - 1 else 0) ++ leBytes 4 c.y.toNat ++ leBytes 4 c.z.toNat
    ++ leBytes 2 c.step ++ leBytes 2 0 ++ leBytes 4 (c.coll.getD 0) ++ leBytes 8 0

/-- The 32 header bytes of a queued flit (R268; DEDUCED, log 23): its tenant, task, gang, channel, sequence number and
reply endpoint. -/
def Flit.head (f : Flit) : List Byte :=
  let ep : List Byte := match f.reply with
    | none => leBytes 16 0
    | some (.queue t n q) => leBytes 1 1 ++ leBytes 1 q ++ leBytes 2 0 ++ leBytes 4 t ++ leBytes 4 n ++ leBytes 4 0
    | some (.dispatch c) => leBytes 1 2 ++ leBytes 3 0 ++ leBytes 4 c ++ leBytes 8 0
    | some (.window w) => leBytes 1 3 ++ leBytes 3 0 ++ leBytes 4 w ++ leBytes 8 0
  leBytes 2 f.tenant ++ leBytes 2 f.chan ++ leBytes 4 f.task ++ leBytes 4 (f.sender.getD 0) ++ leBytes 2 f.seqno ++ leBytes 2 0 ++ ep

/-- The sections of a block (R332). -/
def State.blockSections (s : State) (b : Block) (gangs : List Gang) (mx : List MxCmd) : List Section :=
  let rankOf (uid : Nat) : Nat := ((gangs.find? fun g => g.uid == uid).map Gang.rank0).getD 0
  let fe := (upto ((b.sbytes + 127) / 128)).flatMap fun j =>
    leBytes 1 ((upto 8).foldl (fun n k => if decide (8 * j + k < b.sbytes / 16) && granFull s.empty (atS b.uid (16 * (8 * j + k))) then n + 2 ^ k else n) 0)
  let name (n : Nat) : List Byte := match b.bound n with
    | some x => leBytes 1 1 ++ leBytes 1 x.ty
    | none => leBytes 2 0
  let part (p : Part) : List Byte :=
    leBytes 4 p.coll ++ leBytes 1 p.rank ++ leBytes 1 p.minor ++ leBytes 2 0 ++ (p.desc.getD (leBytes 128 0)).take 128
  let slot (n : Nat) : List Section := match b.bound n with
    | some x => [{ kind := 10, rank := 255, unit_ := n, bytes := memBytes s.mem (atSlot b.uid x.phys 0) 8704 }]
    | none => []
  [ { kind := 7, rank := 255, unit_ := 0, bytes := memBytes s.mem (atS b.uid 0) b.sbytes },
    { kind := 8, rank := 255, unit_ := 0, bytes := fe },
    { kind := 9, rank := 255, unit_ := 0, bytes := (upto 32).flatMap name } ]
  ++ (upto 32).flatMap slot
  ++ ((upto b.zt).map fun n => { kind := 11, rank := 255, unit_ := n, bytes := memBytes s.mem (atZ b.uid n 0) 16384 })
  ++ [{ kind := 12, rank := 255, unit_ := 0, bytes := leBytes 4 mx.length ++ mx.flatMap fun c => c.record (rankOf c.gang) }]
  ++ ((upto b.rq).map fun q =>
        let l := Store.get [] b.queues q
        { kind := 13, rank := 255, unit_ := q, bytes := leBytes 4 l.length ++ leBytes 12 0 ++ l.flatMap fun f => f.head ++ (f.payload ++ leBytes 128 0).take 128 })
  ++ [{ kind := 14, rank := 255, unit_ := 0, bytes := leBytes 4 b.parts.length ++ leBytes 12 0 ++ b.parts.flatMap part }]

/-- Sections in increasing kind, gang and unit, without those of no bytes (R328, R329). -/
def State.sections (s : State) (b : Block) (gangs : List Gang) (mx : List MxCmd) : List Section :=
  let all := gangs.flatMap (s.gangSections b) ++ s.blockSections b gangs mx
  (upto 17).flatMap fun k => all.filter fun x => x.kind == k && !x.bytes.isEmpty

/-- A number rounded up to a multiple of 64. -/
def up64 (n : Nat) : Nat := (n + 63) / 64 * 64

/-- Sections laid out from an offset: each with its offset, and the end. -/
def layout : Nat → List Section → List (Section × Nat) × Nat
  | off, [] => ([], off)
  | off, x :: t =>
    let r := layout (up64 (off + x.bytes.length)) t
    ((x, off) :: r.1, r.2)

/-- The index block (R329). -/
def indexBytes (l : List (Section × Nat)) : List Byte :=
  leBytes 4 l.length ++ leBytes 12 0
    ++ l.flatMap fun (p : Section × Nat) =>
        leBytes 2 p.1.kind ++ leBytes 1 p.1.rank ++ leBytes 1 p.1.unit_ ++ leBytes 4 p.2 ++ leBytes 4 p.1.bytes.length ++ leBytes 4 0

/-- FLAGS of a record (R277). -/
def TaskRec.flags (r : TaskRec) : Nat := r.restart.toNat + 2 * r.wclass + 16 * r.replay.toNat + 32 * r.rq

/-- The header of an image (R328). -/
def imageHead (t : Task) (b : Block) (grant : Bool) (total index ns : Nat) : List Byte :=
  leBytes 2 1 ++ leBytes 2 64 ++ leBytes 4 t.id ++ leBytes 4 t.record.opid ++ leBytes 4 b.num ++ leBytes 1 b.home
    ++ leBytes 1 b.width ++ leBytes 1 b.ngen ++ leBytes 1 b.naff ++ leBytes 1 b.nuni ++ leBytes 1 b.slots ++ leBytes 1 b.zt
    ++ leBytes 1 b.lmem ++ leBytes 4 b.sbytes ++ leBytes 4 b.words ++ leBytes 1 b.prio ++ leBytes 1 t.record.flags
    ++ leBytes 1 b.die ++ leBytes 1 grant.toNat ++ leBytes 4 total ++ leBytes 8 index ++ leBytes 8 ns ++ leBytes 8 0

/-- An image written at a physical address (R328). -/
def State.writeImage (s : State) (addr : Nat) (b : Block) (gangs : List Gang) (mx : List MxCmd) (grant : Bool) : State :=
  let l := layout 64 (s.sections b gangs mx)
  let ix := indexBytes l.1
  let head := imageHead (s.task b.task) b grant (l.2 + ix.length) l.2 s.ns
  let put (m : List Host.Cell) (p : Section × Nat) : List Host.Cell := memWrite m (addr + p.2) p.1.bytes
  { s with
    mem := memWrite (l.1.foldl put (memWrite (memZero s.mem addr (l.2 + ix.length)) addr head)) (addr + l.2) ix
    seals := s.unsealed addr (l.2 + ix.length) }

/-! ## The save (R283 step 3) -/

/-- The lowest free slot of a core's save pool (R327). -/
def State.freeSlot (s : State) (die core : Nat) : Option Nat :=
  (upto ((s.coreAt die core).saveBase >>> 56).toNat).find? fun k =>
    s.images.all fun im => !(im.die == die && im.core == core && im.slot == some k)

/-- Whether a task holds a D grant that covers a die (R328, R343). -/
def State.hasGrant (s : State) (t : Task) (die : Nat) : Bool :=
  t.caps.any fun c => c.kind == 4 && c.f10.testBit die && s.grants.any fun g => g.die == die && g.num == c.f8 && g.ctx == t.ctx

/-- An evicted block's entry at the head of its level, after those of blocks evicted before it (R281). -/
def enterEvicted (id : Nat) : List QEntry → List QEntry
  | .image k :: t => .image k :: enterEvicted id t
  | l => .image id :: l

/-- The events of a queued command forgotten: it is accepted anew when the block is restored. -/
def State.forgetCmd (s : State) (id : Nat) : State :=
  ((((s.notLater (.mxCommandStart id)).notLater (.microTileComplete id)).notLater (.mxCommandComplete id)).notLater
    (.mgemmStepComplete id)).notLater (.mgemmEnd id)

/-- A gang as its image's record keeps it: its units come back to counters of their own while it is away (R270). -/
def Gang.away (cycle : Nat) (g : Gang) : Gang :=
  let unpark (f : Flight) : Flight := { f with parked := none }
  { g with
    slices := g.slices.map (Slice.stopped cycle), flights := g.flights.map unpark, yielded := none
    allow := g.allow.map fun (p : Nat × Nat) => (p.1, 0) }

/-- A block taken off its core into an image in a slot of the core's pool; the allocation is released (R29). -/
def State.saveBlock (s : State) (b : Block) (slot : Nat) : State :=
  let core := s.coreAt b.die b.core
  let stopped (g : Gang) : Gang := { g with slices := g.slices.map (Slice.stopped core.cycle) }
  let gangs := ((sortBy id ((s.allGangs.filter fun g => g.block == b.uid).map Gang.rank0)).filterMap fun r =>
    s.allGangs.find? fun g => g.block == b.uid && g.rank0 == r).map stopped
  let mx := core.mxq.filter fun c => c.block == b.uid
  let grant := s.hasGrant (s.task b.task) b.die
  let addr := (core.saveBase.extractLsb' 0 48).toNat + slot * 4194304
  let s := s.writeImage addr b gangs mx grant
  let im : Image := { id := s.next, die := b.die, core := b.core, slot := some slot, addr := addr, block := b, gangs := gangs.map (Gang.away core.cycle)
                      mx := mx.map fun c => { c with started := false, readyAt := none }, dieOfEviction := b.die, grant := grant }
  let s := mx.foldl (fun s c => s.forgetCmd c.id) s
  let s := s.modCore b.die b.core fun c => { c with mxq := c.mxq.filter fun c => c.block != b.uid }
  let none_ : Gang := {}
  let noBlock : Block := {}
  { s with
    next := s.next + 1
    images := s.images ++ [im]
    g := if s.g.block = b.uid then none_ else s.g
    b := if s.b.uid = b.uid then noBlock else s.b
    gangs := s.gangs.filter fun g => g.block != b.uid
    blocks := s.blocks.filter fun x => x.uid != b.uid
    levels := Store.put s.levels b.prio (enterEvicted s.next (Store.get [] s.levels b.prio)) }.later .blockAdmission

/-- BLOCK_EVICTION_SAVE (R283): nothing is saved of a block whose gangs have all ended. -/
def execBlockEvictionSave (block : Nat) (s : State) : Res :=
  .next (
    match s.allBlocks.find? fun b => b.uid == block with
    | none => s
    | some b =>
      if !b.evicting then s
      else if s.blockBusy b then s.later (.blockEvictionSave block)
      else match s.freeSlot b.die b.core with
        | none => s.later (.blockEvictionSave block)
        | some k => s.saveBlock b k)

/-! ## Reading an image -/

/-- The place of a section of an image, by the index block (R329). -/
def sectionAt (m : List Host.Cell) (addr kind rank unit_ : Nat) : Option Nat :=
  let ix := addr + memNat m (addr + 40) 8
  ((upto (memNat m ix 4)).map fun i => ix + 16 + 16 * i).findSome? fun e =>
    if memNat m e 2 = kind ∧ memNat m (e + 2) 1 = rank ∧ memNat m (e + 3) 1 = unit_ then some (addr + memNat m (e + 4) 4) else none

/-- A section applied to something, if the image holds it. -/
def withSection {α : Type} (m : List Host.Cell) (addr kind rank unit_ : Nat) (x : α) (f : Nat → α) : α :=
  match sectionAt m addr kind rank unit_ with
  | some a => f a
  | none => x

/-- A wait as a slice record says (R331). A wait that the record does not name, for a synchronous word or a
reply, is as the gang had it. -/
def Gang.readWait (g : Gang) (old : Wait) (kind : Nat) (word : Word) (n : Nat) (pc : DWord) : Wait :=
  let oldest (cls n : Nat) : List Nat := ((g.kops.filter fun k => k.cls == cls).map KOp.id).take n
  match kind, decodeWord word with
  | 1, .ok (.waitf m) => .waitf m
  | 2, .ok (.waitc k c) => .waitc k.toNat c.toNat (oldest k.toNat n)
  | 3, .ok (.waitany _ m) => .waitany m
  | 4, .ok (.bar _ slot) => .bar slot.toNat (BitVec.ofNat 32 n)
  | 5, .ok (.regang m) => .regang m pc
  | 6, .ok (.sleep c) => .sleep c.toNat n 0
  | 7, _ => .wclose word.msb (closeFields.flatMap fun (p : Nat × Nat) => oldest p.1 (n / 2 ^ p.2 % 64)) (match old with
      | .wclose _ _ posted => if n.testBit 30 then posted else []
      | _ => [])
  | 0, _ => if old.kind = 0 then old else .none
  | _, _ => old

/-- A slice with its SLICE.STATUS and SLICE.MSTK read (R145, R152). -/
def Slice.ofStatus (sl : Slice) (st mk : Nat) : Slice :=
  { sl with
    active := BitVec.ofNat 4 st
    stack := (upto (min 4 (st / 16 % 8))).map fun k => BitVec.ofNat 4 (mk / 16 ^ k)
    priv := st.testBit 8, step := st.testBit 9, brk := st.testBit 10 }

/-- Saved slices with what the frame words from a place on hold of them (R316, R330). -/
def readFrameSlices (m : List Host.Cell) (a : Nat) (l : List Slice) : List Slice :=
  l.zipIdx.map fun (p : Slice × Nat) =>
    let sl := p.1.ofStatus (memNat m (a + 4 * p.2) 4) (memNat m (a + 4 * (24 + p.2)) 4)
    sl.withPc (BitVec.ofNat 64 (memNat m (a + 4 * (8 + 2 * p.2)) 8))

/-- A slice read from its record (R331). -/
def Gang.readSlice (g : Gang) (m : List Host.Cell) (a : Nat) (entries : List Flight) (old : Slice) : Slice :=
  let pc := BitVec.ofNat 64 (memNat m a 8)
  let fl := memNat m (a + 28) 2
  let rec_ (f : Nat) : Option FlagRec :=
    match entries[memNat m (a + 52 + f) 1]? with
    | some e => if fl.testBit f then some { flag := f, op := e.id, win := memNat m (a + 32 + f / 2) 1 / 16 ^ (f % 2) % 16 } else none
    | none => none
  { old.ofStatus (memNat m (a + 16) 4) (memNat m (a + 20) 4) with
    pc := pc
    link := BitVec.ofNat 64 (memNat m (a + 8) 8)
    flags := (upto 12).filterMap rec_
    grp := memNat m (a + 30) 1
    closed := (memNat m (a + 38) 1).testBit 0
    wait := g.readWait old.wait (memNat m (a + 31) 1) (BitVec.ofNat 32 (memNat m (a + 40) 4)) (memNat m (a + 44) 4) pc
    cause := BitVec.ofNat 32 (memNat m (a + 48) 4) &&& 0x37FF }

/-- The predicates of a gang read from its slice records. -/
def Gang.readPreds (g : Gang) (m : List Host.Cell) (recs : Nat) : Gang :=
  (upto 7).foldl (fun g k => g.setPred k (upto g.width) fun L => (memNat m (recs + 64 * (L / 4) + 24) 4).testBit (7 * (L % 4) + k)) g

/-- A binding read from its record, its deadline from the remainder (R294). -/
def readBind (m : List Host.Cell) (a ns : Nat) (i : Nat) (old : Store Binding) : Store Binding :=
  let st := memNat m a 1
  let arg := memNat m (a + 4) 4
  let was := Store.get { kind := 0, arg := 0, handler := 0 } old i
  let kind := memNat m (a + 1) 1
  let x : Binding := { kind := kind, arg := if kind = 4 then was.arg else BitVec.ofNat 32 arg, handler := BitVec.ofNat 64 (memNat m (a + 8) 8)
                       pending := st == 2, broken := was.broken, deadline := ns + arg }
  if st = 0 then Store.del old i else Store.put old i x

/-- What a memory word accesses, as its instruction says (R54). -/
def memOpOf : Instr → Option MemOp
  | .ld _ d _ _ _ sp z => some { kind := .ld, space := spaceOf sp, size := 4 * sizeRegs z, reg := d.toNat }
  | .lda _ d _ _ _ sp z => some { kind := .lda, space := spaceOf sp, size := 4 * sizeRegs z, reg := d.toNat }
  | .ldx _ d _ _ _ sp z => some { kind := .ldx, space := spaceOf sp, size := if z.getLsbD 1 then 2 else 1, signed := !z.getLsbD 0, reg := d.toNat }
  | .ldw _ d _ _ _ sp z => some { kind := .ldw, space := spaceSD sp, size := 4 * sizeRegs z, reg := d.toNat }
  | .ldt _ d _ _ _ sp z => some { kind := .ldt, space := spaceSD sp, size := 4 * sizeRegs z, reg := d.toNat }
  | .st _ d _ _ _ sp z => some { kind := .st, space := spaceOf sp, size := 4 * sizeRegs z, reg := d.toNat }
  | .strel _ d _ _ _ sp z => some { kind := .strel, space := spaceOf sp, size := 4 * sizeRegs z, reg := d.toNat }
  | .stf _ d _ _ _ sp z => some { kind := .stf, space := spaceSD sp, size := 4 * sizeRegs z, reg := d.toNat }
  | .stx _ d _ _ _ sp z => some { kind := .stx, space := spaceOf sp, size := if z = 1 then 2 else 1, reg := d.toNat }
  | .gst _ d _ _ _ z => some { kind := .gst, space := .g, size := 4 * sizeRegs z, reg := d.toNat }
  | .atom _ d _ t o p f =>
    some { kind := .atom, space := if p = 1 then .g else .s, size := 4 * atomRegs t.toNat, reg := d.toNat, aop := o.toNat, aty := t.toNat, ret := f != 15 }
  | _ => none

/-- A replay entry with its words E0 to E3 read (R316, R317). -/
def Flight.readEntry (f : Flight) (m : List Host.Cell) (a : Nat) : Flight :=
  let e (k : Nat) : Nat := memNat m (a + 4 * k) 4
  let word := BitVec.ofNat 32 (e 0)
  { f with
    word := word, op := ((decodeWord word).toOption.bind memOpOf).getD f.op
    pc := BitVec.ofNat 64 (e 1 + 2 ^ 32 * (e 2 % 65536)), slice := e 2 / 65536 % 8
    cause := e 2 / 1048576 % 16, flag := e 2 / 16777216 % 16, remain := BitVec.ofNat 32 (e 3) }

/-- The gang control section read (R330), but for the counters k0 to k5, whose operations go on and complete while the
gang is away, and what has come back to it meanwhile: allowance units, and an abort of a posted operation (R210, R270). -/
def Gang.readControl (g : Gang) (m : List Host.Cell) (a ns : Nat) : Gang :=
  let n4 (o : Nat) : Nat := memNat m (a + o) 4
  let abort := memNat m (a + 56) 8
  let chan (c : Store Chan) (n : Nat) : Store Chan :=
    let x : Chan := { opened := (memNat m (a + 732 + 4 * n) 1).testBit 0, cap := memNat m (a + 733 + 4 * n) 1, seqno := memNat m (a + 734 + 4 * n) 2 }
    if x = {} then Store.del c n else Store.put c n x
  let allow (l : Store Nat) (c : Nat) : Store Nat := if (Store.find l c).isSome then Store.put l c (memNat m (a + 800 + c) 1 + Store.get 0 l c) else l
  let arr (l : Store Arrival) (k : Nat) : Store Arrival :=
    let x := Store.get {} l k
    if memNat m (a + 704 + 8 * k) 1 = 0 then l
    else Store.put l k { x with slices := BitVec.ofNat 8 (memNat m (a + 705 + 8 * k) 1), phase := BitVec.ofNat 32 (n4 (708 + 8 * k)) }
  let entries := g.savedEntries.zipIdx.map fun (p : Flight × Nat) => p.1.readEntry m (a + 896 + 4 * (32 + 4 * p.2))
  let g := match g.frame with
    | some f => { g with frame := some { slices := readFrameSlices m (a + 896) f.slices, entries := entries } }
    | none => { g.setWords entries with past := readFrameSlices m (a + 896) g.past }
  let list := if g.frame.isSome then g.words else entries
  let slices := g.slices.zipIdx.map fun (p : Slice × Nat) => g.readSlice m (a + 64 + 64 * p.2) list p.1
  let g := ({ g with slices := slices }).readPreds m (a + 64)
  { g with
    live := BitVec.ofNat 8 (memNat m (a + 5) 1)
    hslices := BitVec.ofNat 8 (memNat m (a + 7) 1)
    mode := match memNat m (a + 6) 1 with
      | 0 => .running
      | 1 => .inTrap
      | 2 => .inDebug
      | _ => .halted
    killed := BitVec.ofNat 32 (n4 8), killCause := BitVec.ofNat 3 (n4 12), fpstat := BitVec.ofNat 5 (n4 16)
    mxUe := BitVec.ofNat 5 (n4 20), mxUeLoc := BitVec.ofNat 23 (n4 24), chCur := BitVec.ofNat 4 (n4 28), mqDest := BitVec.ofNat 6 (n4 32)
    abort := if abort.testBit 63 then some (BitVec.ofNat 64 (abort % 2 ^ 48)) else g.abort
    binds := (upto 8).foldl (fun l i => readBind m (a + 576 + 16 * i) ns i l) g.binds
    arrivals := (upto 4).foldl arr g.arrivals
    chans := ((upto 15).map (· + 1)).foldl chan g.chans
    allow := (upto 64).foldl allow g.allow
    trapCause := BitVec.ofNat 32 (n4 864) &&& 0x0107FFFF, trapSel := BitVec.ofNat 7 (n4 868 / 256)
    trapPc := BitVec.ofNat 64 (memNat m (a + 872) 8), trapAddr := BitVec.ofNat 64 (memNat m (a + 880) 8) }

/-- The captured operands of a word read (R332). -/
def Flight.readOperands (f : Flight) (m : List Host.Cell) (a : Nat) : Flight :=
  let vals {w : Nat} (l : Store (BitVec w)) (off n : Nat) : Store (BitVec w) := l.map fun (p : Nat × BitVec w) => (p.1, BitVec.ofNat w (memNat m (a + 40 * p.1 + off) n))
  { f with addr := vals f.addr 0 8, data := vals f.data 8 16, casv := vals f.casv 24 16 }

/-- Operands of a list of words, at a pitch from a place on. -/
def readEntries (m : List Host.Cell) (a pitch : Nat) (l : List Flight) : List Flight :=
  l.zipIdx.map fun (p : Flight × Nat) => p.1.readOperands m (a + pitch * p.2)

/-- A gang read from an image. -/
def Gang.readImage (g : Gang) (b : Block) (m : List Host.Cell) (addr ns : Nat) : Gang :=
  let w := b.width
  let sec (k : Nat) (g : Gang) (f : Nat → Gang) : Gang := withSection m addr k g.rank0 0 g f
  let word (a i : Nat) : Word := BitVec.ofNat 32 (memNat m (a + 4 * i) 4)
  let g := sec 1 g fun a => g.readControl m a ns
  let g := sec 2 g fun a => (upto (b.ngen * w)).foldl (fun g i => g.setGen (i / w) (i % w) (word a i)) g
  let g := sec 3 g fun a => (upto b.naff).foldl (fun g i => g.setAff i (word a (2 * i)) (word a (2 * i + 1))) g
  let g := sec 4 g fun a => (upto b.nuni).foldl (fun g i => g.setUni i (word a i)) g
  let g := sec 6 g fun a => match g.frame with
    | some f => { g with frame := some { f with entries := readEntries m a 1280 f.entries } }
    | none => g.setWords (readEntries m a 1280 g.words)
  let g := sec 16 g fun a => g.setWords ((readEntries m (a + 32) 1296 g.words).zipIdx.map fun (p : Flight × Nat) =>
    p.1.readEntry m (a + 16 + 1296 * p.2))
  match g.frame with
  | none => g
  | some fr =>
    let one (p : Slice × Nat) : Slice :=
      if g.hslices.getLsbD p.2 then withSection m addr 15 g.rank0 p.2 p.1 fun a => g.readSlice m a fr.entries p.1 else p.1
    { g with frame := some { fr with slices := fr.slices.zipIdx.map one } }

/-- The memories of a block read from an image: L, S, its full-empty bits, slots and z tiles (R332). -/
def State.readSpaces (s : State) (b : Block) (gangs : List Gang) (addr : Nat) : State :=
  let m := s.mem
  let copy (s : State) (kind rank unit_ dst n : Nat) : State :=
    withSection m addr kind rank unit_ s fun a => { s with mem := memWrite s.mem dst (memBytes m a n) }
  let lw := 16 * b.lmem
  let s := gangs.foldl (fun s g => withSection m addr 5 g.rank0 0 s fun a =>
    { s with mem := (upto b.width).foldl (fun x L => memWrite x (atL g.uid L 0) (memBytes m (a + lw * L) lw)) s.mem }) s
  let s := copy s 7 255 0 (atS b.uid 0) b.sbytes
  let gran (a : Nat) (e : List Nat) (g : Nat) : List Nat :=
    if (memGet m (a + g / 8)).getLsbD (g % 8) then setFull e (atS b.uid (16 * g)) 16 else setEmpty e (atS b.uid (16 * g)) 16
  let s := withSection m addr 8 255 0 s fun a => { s with empty := (upto (b.sbytes / 16)).foldl (gran a) s.empty }
  let s := (upto 32).foldl (fun s n => match b.bound n with
    | some x => copy s 10 255 n (atSlot b.uid x.phys 0) 8704
    | none => s) s
  (upto b.zt).foldl (fun s n => copy s 11 255 n (atZ b.uid n 0) 16384) s

/-- A matrix command of an image read (R332, kind 12): its word, its gang by rank, its micro-tiles, its leader values, its
step, its collective. -/
def MxCmd.readCmd (c : MxCmd) (gangs : List Gang) (m : List Host.Cell) (a : Nat) : MxCmd :=
  let mask := memNat m (a + 6) 2
  { c with
    word := (decodeWord (BitVec.ofNat 32 (memNat m a 4))).toOption.getD c.word
    gang := ((gangs.find? fun g => g.rank0 == memNat m (a + 4) 1).map Gang.uid).getD c.gang
    tiles := ((upto 16).find? fun k => !mask.testBit k).getD 16
    y := BitVec.ofNat 32 (memNat m (a + 8) 4), z := BitVec.ofNat 32 (memNat m (a + 12) 4)
    step := memNat m (a + 16) 2, coll := c.coll.map fun _ => memNat m (a + 20) 4 }

/-- The matrix commands of an image read. -/
def Image.readCmds (im : Image) (m : List Host.Cell) : List MxCmd :=
  withSection m im.addr 12 255 0 im.mx fun a => im.mx.zipIdx.map fun (p : MxCmd × Nat) => p.1.readCmd im.gangs m (a + 4 + 32 * p.2)

/-- A queued flit read: its header as `Flit.head` lays it out, and its payload (R332, kind 13). -/
def Flit.readFlit (f : Flit) (m : List Host.Cell) (a : Nat) : Flit :=
  { f with
    tenant := memNat m a 2, chan := memNat m (a + 2) 2, task := memNat m (a + 4) 4
    sender := f.sender.map fun _ => memNat m (a + 8) 4, seqno := memNat m (a + 12) 2, payload := memBytes m (a + 32) 128 }

/-- A pending part read (R332, kind 14). -/
def Part.readPart (p : Part) (m : List Host.Cell) (a : Nat) : Part :=
  { p with
    coll := memNat m a 4, rank := memNat m (a + 4) 1, minor := memNat m (a + 5) 1
    desc := p.desc.map fun _ => memBytes m (a + 8) 128 }

/-- The block of an image with its slot names' types, its queued flits and its pending parts read (R332). -/
def Block.readImage (b : Block) (m : List Host.Cell) (addr : Nat) : Block :=
  let names (t : Store SlotBind) (a : Nat) : Store SlotBind := t.map fun (p : Nat × SlotBind) => (p.1, { p.2 with ty := memNat m (a + 2 * p.1 + 1) 1 })
  let flits (a : Nat) (l : List Flit) : List Flit := l.zipIdx.map fun (p : Flit × Nat) => p.1.readFlit m (a + 16 + 160 * p.2)
  let b := withSection m addr 9 255 0 b fun a => { b with slotTab := names b.slotTab a }
  let b := (upto b.rq).foldl (fun b q => withSection m addr 13 255 q b fun a => { b with queues := Store.put b.queues q (flits a (Store.get [] b.queues q)) }) b
  withSection m addr 14 255 0 b fun a =>
    { b with parts := b.parts.zipIdx.map fun (p : Part × Nat) => p.1.readPart m (a + 16 + 136 * p.2) }

/-! ## Restore (R333, R334) -/

/-- Where the lanes of a word lie on the new core: C and D are those of its place (R171, R172). A lane that has
no place there any more is killed, as at issue (R180; DEDUCED, log 24). -/
def State.replaceLanes (s : State) (b : Block) (g : Gang) (f : Flight) : Flight × List Nat :=
  if f.op.space == .c || f.op.space == .d then
    let perm := if f.op.kind.writes then 3 else 2
    let at_ (L : Nat) : Option Nat := s.spadAt g b f.op.space perm L (Store.get 0 f.addr L).toNat f.op.size
    let lost := (maskLanes f.remain).filter fun L => (at_ L).isNone
    let live := (maskLanes f.exec).filter fun L => !lost.contains L
    ({ f with
        place := f.place.map fun (p : Nat × Nat) => (p.1, (at_ p.1).getD p.2)
        exec := laneMask live, remain := f.remain &&& laneMask live }, lost)
  else (f, [])

/-- A gang placed on its new core: new largest key, base level (R284), its unfinished words re-injected (R333
step 6), its sleeps going on. -/
def State.restoreGang (s : State) (b : Block) (sched : Nat) (g : Gang) : Gang :=
  let core := s.coreAt b.die b.core
  let wake (sl : Slice) : Slice := if core.dbgCtl.getLsbD 16 then sl else sl.resumed core.cycle
  let fl := (g.flights.map reinject).map (s.replaceLanes b g)
  let fr := g.frame.map fun fr => (fr, fr.entries.map (s.replaceLanes b g))
  let lost := fl.flatMap (·.2) ++ (match fr with
    | some (_, l) => l.flatMap (·.2)
    | none => [])
  let g := { g with
    sched := sched, level := b.prio, key := s.next + g.rank0, waits := 0, yielded := none
    slices := g.slices.map wake
    flights := fl.map (·.1)
    frame := fr.map fun (p : Frame × List (Flight × List Nat)) => { p.1 with entries := p.2.map (·.1) } }
  if lost.isEmpty then g else g.kill lost 1

/-- The events of a restored gang: its words in flight and its sleeps go on. -/
def State.gangEvents (s : State) (g : Gang) : State :=
  let s := g.flights.foldl (fun s f => s.later (f.event g.uid)) s
  (upto g.slices.length).foldl (fun s i => match (g.slice i).wait with
    | .sleep _ _ _ => s.later (.sleepExpiry g.uid i)
    | _ => s) s

/-- An image no longer waits at the dispatcher. -/
def State.leaveLevels (s : State) (image : Nat) : State :=
  { s with
    evictFor := if s.evictFor = some (QEntry.image image) then none else s.evictFor
    evictAt := if s.evictFor = some (QEntry.image image) then none else s.evictAt
    levels := s.levels.map fun (l : Nat × List QEntry) => (l.1, l.2.filter (· != QEntry.image image)) }.later .blockAdmission

/-- The block of an image restored on a core (R333): its save slot is free. A reserved field of the image that is not zero is
passed over (DESIGN CHOICE, log 23). -/
def State.restoreBlock (s : State) (im : Image) (die core : Nat) : State :=
  let start := (s.freeOf die core []).start
  let b := im.block.readImage s.mem im.addr
  let mx := im.readCmds s.mem
  let b := { b with die := die, core := core, admitted := s.next, evicting := false }
  let gangs := im.gangs.map fun g => g.readImage b s.mem im.addr s.ns
  let s := (s.readSpaces b gangs im.addr).focusCore die core
  let gangs := gangs.map fun g => s.restoreGang b ((start + g.rank0) % 4) g
  let s := s.leaveLevels im.id
  let s := { s with
    images := s.images.filter fun x => x.id != im.id
    blocks := s.blocks ++ [b], gangs := s.gangs ++ gangs, next := s.next + b.home + 1
    c := { s.c with mxq := s.c.mxq ++ mx } }.noteReady
  let s := mx.foldl (fun s c => s.later (.mxCommandStart c.id)) s
  let s := gangs.foldl (fun s g => s.gangEvents g) s
  let s := if b.parts.isEmpty then s else s.later (.collectiveStart b.uid)
  let s := s.modTask b.task fun t => { t with ran := t.ran ++ [(b.num, die, core)] }
  let s := (s.rescopeAll b.task).signalAll
  gangs.foldl (fun s g =>
    let s := s.focus g.uid
    if s.g.uid = g.uid && !s.g.dying.isEmpty then (s.endSlices s.g.dying).settle else s) s

/-- The task of an image that no core of the package can hold fails as though every die were excluded (R334). -/
def State.noRoomFor (s : State) (im : Image) : State :=
  let id := im.block.task
  let s := s.modTask id fun t => { t with excluded := 15, failed := some 18 }
  ((s.leaveLevels im.id).endTaskGangs id).settleTask id

/-- BLOCK_RESTORE (R333 to R335). -/
def execBlockRestore (image : Nat) (s : State) : Res :=
  .next (
    match s.images.find? fun im => im.id == image with
    | none => s
    | some im =>
      if memNat s.mem im.addr 2 ≠ 1 then
        let s := s.leaveLevels image
        { s with plat := { s.plat with unsolicited := (1, image) :: s.plat.unsolicited } }
      else match s.coreFor (s.imageCores im) im.block with
        | some (d, c) => s.restoreBlock im d c
        | none =>
          if s.fitsEmpty s.presentDies im.block then s.later .blockAdmission
          else s.noRoomFor im)

end Sys2Proof.Machine
end

