-- ==== Sys2Proof/Machine/Verdict.lean ====
section
/-! DEFINITION. Machine/Verdict.lean: releases (R390), replays of blocks by the checker (R398, R399), retirement
of units (R402, R403, R421) and fatal errors of compute dies (R404). -/

namespace Sys2Proof.Machine

open Sys2Proof

/-- OPERATOR_RELEASE (R390): an operator that has passed is released with those it shares pages with, once all of
them may be. -/
def execOperatorRelease (oper : Nat) (s : State) : Res :=
  .next (
    match s.ck.opers.find? fun o => o.id == oper with
    | none => s
    | some o =>
      if o.state != .passed then s
      else match s.ck.releaseSet o with
        | none => s
        | some set => (s.releaseOpers set).tryReleases)

/-! ## Replays (R389, R397 to R399) -/

/-- The task a replay belongs to, as it stands, or as it stood if it has ended. -/
def State.replayedTask (s : State) (r : Replay) : Task := (s.tasks.find? fun t => t.id == r.task).getD r.src

/-- The dies that a replay may run on: present, not the original's, outside the task's exclusion set, not yet used
for this block (R398, R399). -/
def State.replayDies (s : State) (r : Replay) : List Nat :=
  s.presentDies.filter fun d => d != r.orig && !(s.replayedTask r).excluded.getLsbD d && r.sigs.all fun x => x.1 != d

/-- A replay leaves the checker; its operator no longer waits for it. -/
def State.dropReplay (s : State) (r : Replay) : State :=
  let s := { s with ck := { s.ck with replays := s.ck.replays.filter fun x => x.id != r.id } }
  s.modOper r.oper fun o => { o with screening := o.screening.filter (· != r.id) }

/-- A replay has ended for good: the operators look at their releases again, and a REPL operator whose replays
have all ended is tested (R389). -/
def State.replayOver (s : State) (r : Replay) : State :=
  let s := s.dropReplay r
  let rest := s.ck.replays.any fun x => x.oper == r.oper && !x.screen
  let s := if !r.screen && !rest then s.later (.witnessTest r.oper) else s
  s.tryReleases

/-- An operator fails with cause REPLAY, with a die blamed or none (R399): at its test, or at once if it has
passed. -/
def State.replayFails (s : State) (r : Replay) (blame : Option Nat) : State :=
  let s := s.modOper r.oper fun o =>
    if o.blame.isSome then { o with repl := some false } else { o with repl := some false, blame := blame, badBlock := blame.map fun _ => r.block }
  let s := s.replayOver r
  match s.ck.opers.find? fun o => o.id == r.oper with
  | some o => if o.state == .passed then (s.discard [o.id] [] 10).tryReleases else s
  | none => s

/-- A replay that finds no die: a first screening replay is as though not chosen; else the operator fails
(R389, R397, R399). -/
def State.replayNowhere (s : State) (r : Replay) : State :=
  if r.screen && r.sigs.isEmpty then (s.pcount 12 18 0 1).replayOver r else s.replayFails r none

/-- The task under which a replay runs: that of the original under an identity that no gang can name, its
barriers as at launch (R398). -/
def replayTask (t : Task) (id : Nat) (die : Nat) : Task :=
  let within (b : Barrier) (num : Nat) : Bool := (t.membersOf b.num).all fun i => i / t.record.home == num
  { t with
    id := id, reply := none, attempt := t.attempt, retired := [], failed := none, brokenAt := none, ending := false
    excluded := ~~~(1#4 <<< die)
    barriers := t.freshBarriers.map fun b => { b with wide := !((upto t.blocks).any fun n => within b n) } }

/-- A block replayed on a core (R398). -/
def State.launchReplay (s : State) (r : Replay) (die core : Nat) : State :=
  let t := replayTask (s.replayedTask r) (2 ^ 32 + s.next) die
  let s := { s with tasks := s.tasks ++ [t], next := s.next + 1 }
  let go (x : Replay) : Replay := if x.id = r.id then { x with uid := some s.next, die := die, start := s.ns } else x
  let s' := s.launchBlock t { t.record.block with num := r.block, replay := some r.id } die core
  let s' := { s' with ck := { s'.ck with replays := s'.ck.replays.map go } }
  let s' := if r.screen && r.sigs.isEmpty then s'.pcount 12 16 0 1 else s'
  s'.later (.replayAbandon r.id)

/-- REPLAY_START (R398): the replay waits for room on a die it may run on; no block is placed while others are being evicted
for a block that waits (R282). -/
def execReplayStart (replay : Nat) (s : State) : Res :=
  .next (
    match s.ck.replays.find? fun r => r.id == replay with
    | none => s
    | some r =>
      if r.uid.isSome then s
      else
        let dies := s.replayDies r
        let t := s.replayedTask r
        let cores := (s.coreOrder t t.record.block).filter fun p => dies.contains p.1
        if dies.isEmpty then s.replayNowhere r
        else if s.evictAt.isSome then s.later (.replayStart replay)
        else match s.chooseCore cores t.record.block with
          | some (d, c) => s.launchReplay r d c
          | none => s.later (.replayStart replay))

/-- Whether everything a block's gangs have issued has ended, so that its signature is whole. -/
def State.blockQuiet (s : State) (uid : Nat) : Bool :=
  (s.allGangs.all fun g => g.block != uid || g.flights.isEmpty)
    && (s.posted.all fun p => p.block != uid)
    && ((s.c :: s.cores).all fun c => c.mxq.all fun x => x.block != uid)
    && (s.b :: s.blocks).all fun b => b.uid != uid || b.colls.isEmpty

/-- The block of a task that ran as the original, and a block that ran for a replay. -/
def State.originalOf (s : State) (task num : Nat) : Option Block :=
  (s.b :: s.blocks).find? fun b => b.uid != 0 && b.task == task && b.num == num && b.replay.isNone
def State.replayOf (s : State) (id : Nat) : Option Block :=
  (s.b :: s.blocks).find? fun b => b.uid != 0 && b.gone && b.replay == some id

/-- A replay's block is forgotten, and the task it ran under. -/
def State.forgetReplay (s : State) (b : Block) : State :=
  let none_ : Block := {}
  let noGang : Gang := {}
  { s with
    tasks := s.tasks.filter fun t => t.id != b.task
    b := if s.b.uid = b.uid then none_ else s.b
    blocks := s.blocks.filter fun x => x.uid != b.uid
    g := if s.g.block = b.uid then noGang else s.g
    gangs := s.gangs.filter fun g => g.block != b.uid }

/-- What the signatures of a block say (R399): the original's, and those of its replays in order. -/
inductive Outcome3 where
  | agree
  | again
  | blameOrig
  | blameReplay (die core : Nat)
  | open_
  deriving DecidableEq, Repr

def judge (orig : DWord) : List (Nat × Nat × DWord) → Outcome3
  | [] => .again
  | [x] => if x.2.2 = orig then .agree else .again
  | x :: y :: _ => if y.2.2 = x.2.2 then .blameOrig else if y.2.2 = orig then .blameReplay x.1 x.2.1 else .open_

/-- The signatures of a replayed block compared (R399). -/
def State.settleReplay (s : State) (r : Replay) : State :=
  let orig := match s.ck.opers.find? fun o => o.id == r.oper with
    | some o => Store.get 0 o.sigs r.block
    | none => ((s.originalOf r.task r.block).map Block.sig).getD 0
  match judge orig r.sigs with
  | .agree => s.replayOver r
  | .again => s.later (.replayStart r.id)
  | .blameOrig => s.replayFails r (some r.orig)
  | .blameReplay d c => (s.recordFault 3 d 5 c 0 r.src.record.opid true).replayOver r
  | .open_ => s.replayFails r none

/-- REPLAY_END (R399). -/
def execReplayEnd (replay : Nat) (s : State) : Res :=
  .next (
    match s.replayOf replay with
    | none => s
    | some b =>
      match s.ck.replays.find? fun r => r.id == replay && r.uid == some b.uid with
      | none => (s.forgetReplay b).later .blockAdmission
      | some r =>
        let orig := (s.originalOf r.task r.block).map Block.uid
        if !s.blockQuiet b.uid || (orig.any fun u => !s.blockQuiet u) then s.later (.replayEnd replay)
        else
          let r := { r with uid := none, sigs := r.sigs ++ [(b.die, b.core, b.sig)] }
          let put (x : Replay) : Replay := if x.id = r.id then r else x
          let s := { s with ck := { s.ck with replays := s.ck.replays.map put } }
          ((s.forgetReplay b).settleReplay r).later .blockAdmission)

/-- REPLAY_ABANDON (R398): a replay that has not ended within 1 s is given up. -/
def execReplayAbandon (replay : Nat) (s : State) : Res :=
  .next (
    match s.ck.replays.find? fun r => r.id == replay with
    | none => s
    | some r =>
      match r.uid with
      | none => s
      | some uid =>
        if s.ns < r.start + 1000000000 then s.later (.replayAbandon replay)
        else
          let s := s.pcount 12 17 0 1
          let s := if r.screen then s.replayOver r else s.replayFails r none
          s.endGangs fun g => g.block == uid)

/-! ## Retirement of units (R402, R403, R421) -/

/-- A unit enters the retirement table. -/
def State.retire (s : State) (node kind index : Nat) : State :=
  let same (u : UnitErr) : Bool := u.node == node && u.kind == kind && u.index == index
  { s with ck := { s.ck with
      retired := if s.ck.retired.contains (node, kind, index) then s.ck.retired else s.ck.retired ++ [(node, kind, index)]
      units := s.ck.units.map fun u => if same u then { u with lasting := false } else u } }

/-- What the loss of a unit takes from its core (R403). -/
def Core.lose (c : Core) (kind : Nat) : Core :=
  match kind with
  | 1 => { c with lostSegs := c.lostSegs + 1 }
  | 2 => { c with lostSlots := c.lostSlots + 1 }
  | 3 => { c with lostZt := c.lostZt + 1 }
  | 4 => { c with lostS := c.lostS + 1 }
  | 5 => { c with retired := true }
  | _ => c

/-- The link at a port of a node is dead, and the routes are formed anew (R366, R403). -/
def State.killLinkAt (s : State) (node port : Nat) : State :=
  match s.fab.linkAt node port with
  | none => s
  | some (i, _) => (s.modLink i fun l => { l with state := .dead }).later .routeRecompute

/-- A retired pseudo-channel's frames reported to the host (R403; DESIGN CHOICE, log 25). -/
def State.reportFrames (s : State) (node index : Nat) : State :=
  { s with plat := { s.plat with unsolicited := (5, 256 * node + index) :: s.plat.unsolicited } }

/-- UNIT_RETIREMENT (R403), the unit of a core named by the core's place (R17): a unit of a core retires once the core holds
no block; a die cache slice and a link at once; a pseudo-channel when the host has remapped its frames, at a time the model
leaves free (DESIGN CHOICE, log 25). -/
def execUnitRetirement (node kind index : Nat) (s : State) : Res :=
  .next (
    if s.ck.units.all fun u => !(u.node == node && u.kind == kind && u.index == index && u.lasting) then s
    else match unitCore kind index with
      | some p =>
        match (if node < 4 then s.ck.coreNumber node p else some p) with
        | none => s.retire node kind index
        | some c =>
          if node < 4 && !(s.coreBlocks node c).isEmpty then s.later (.unitRetirement node kind index)
          else ((s.modCore node c fun x => x.lose kind).retire node kind index).later .blockAdmission
      | none =>
        let s := s.retire node kind index
        if kind = 8 then s.killLinkAt node index else if kind = 7 then s.reportFrames node index else s)

/-- ERROR_COUNT_AGEING (R421): a unit's counted entries leave its window with time; those older than the longest
window are forgotten. -/
def execErrorCountAgeing (node kind index : Nat) (s : State) : Res :=
  let same (u : UnitErr) : Bool := u.node == node && u.kind == kind && u.index == index
  let age (u : UnitErr) : UnitErr := if same u then { u with times := u.times.filter fun t => decide (s.ns < t + 2592000000000000) } else u
  let s := { s with ck := { s.ck with units := s.ck.units.map age } }
  .next (if s.ck.units.any fun u => same u && !u.times.isEmpty then s.later (.errorCountAgeing node kind index) else s)

/-! ## Fatal errors (R404) -/

/-- The entry of a fatal error, or of the injection that brought it about (R401, R406). -/
def State.recordFatal (s : State) (die : Nat) : State :=
  let armed (c : Core) : Bool := c.die == die && c.errInj.getLsbD 31 && injKind c.errInj == 5
  let clear (c : Core) : Core := if armed c then { c with errInj := c.errInj &&& 0x7FFFFFFF } else c
  if (s.c :: s.cores).any armed then
    ({ s with c := clear s.c, cores := s.cores.map clear }).recordFault 5 die 0 0 0 0 false
  else s.recordFault 4 die 0 0 0 0 false

/-- The accesses and commands of a die's blocks go with the die. -/
def State.dropDie (s : State) (die : Nat) (uids : List Nat) : State :=
  let still (g : Gang) : Gang := if uids.contains g.block then { g with flights := [], fences := [], kops := [], stop := none } else g
  let idle (c : Core) : Core := if c.die = die then { c with mxq := [] } else c
  let bare (b : Block) : Block := if uids.contains b.uid then { b with parts := [], colls := [] } else b
  let s := s.mapGangs still
  { s with
    posted := s.posted.filter fun p => p.die != die
    c := idle s.c, cores := s.cores.map idle
    b := bare s.b, blocks := s.blocks.map bare }

/-- A task with a block on a die that has failed is marked failed, its groups with a member there break, and its
surviving gangs are ended in time (R303, R404). -/
def State.failForDie (s : State) (die : Nat) (id : Nat) (uids : List Nat) : State :=
  let t := s.task id
  let here := s.allGangs.filter fun g => uids.contains g.block && g.task == id && g.live != 0
  let groups := (here.flatMap fun g => (upto 4).filterMap (s.groupOf g)).eraseDups
  let s := s.modTask id fun t => { t with
    failed := some 17, brokenAt := some (t.brokenAt.getD s.ns), excluded := t.excluded ||| (1#4 <<< die) }
  let s := groups.foldl (fun s n => s.breakGroup id n) s
  let s := s.later (.brokenTaskTimeout id)
  match s.operOf t.id with
  | some o => s.modOper o.id fun o => { o with blame := some die }
  | none => s

/-- The replays that ran on a die start again elsewhere (R398). -/
def State.restartReplays (s : State) (die : Nat) : State :=
  (s.ck.replays.filter fun r => r.uid.isSome && r.die == die).foldl (fun s r =>
    let put (x : Replay) : Replay := if x.id = r.id then { x with uid := none } else x
    ({ s with ck := { s.ck with replays := s.ck.replays.map put } }).later (.replayStart r.id)) s

/-- DIE_FATAL_ERROR (R404): the die is fenced and excluded, its blocks are lost, and their tasks fail. -/
def execDieFatalError (die : Nat) (s : State) : Res :=
  .next (
    if 4 ≤ die || !s.presentDies.contains die then s
    else
      let s := s.recordFatal die
      let blocks := s.allBlocks.filter fun b => b.die == die
      let uids := blocks.map Block.uid
      let tasks := ((blocks.filter fun b => b.replay.isNone).map Block.task).eraseDups
      let node : Node := { Store.get ({} : Node) s.fab.nodes die with excluded := true }
      let s := { s with fab := { s.fab with nodes := Store.put s.fab.nodes die node } }
      let s := tasks.foldl (fun s t => s.failForDie die t uids) s
      let s := s.restartReplays die
      let s := (s.dropDie die uids).endGangs fun g => uids.contains g.block
      let opers := (s.ck.opers.filter fun o => tasks.contains o.task && o.state != .discarded).map Oper.id
      let s := if opers.isEmpty then s else s.discard opers [] 13
      let s := tasks.foldl (fun s t => s.settleTask t) s
      let s := { s with plat := { s.plat with unsolicited := (2, die) :: s.plat.unsolicited } }
      (s.later .routeRecompute).tryReleases)

end Sys2Proof.Machine
end

