-- ==== Sys2Proof/Machine/Fabric.lean ====
section
/-! DEFINITION. Machine/Fabric.lean: the links of the package graph and their replay buffers (R16, R361, R362,
R449), discovery and routes (R363 to R366), the topology record (R367), the last steps of the boot (R442) and
requests to other packages that are not answered (R362, R373). -/

namespace Sys2Proof.Machine

open Sys2Proof

/-! ## The graph and its routes (R363) -/

/-- Whether a node is in the graph. -/
def Fabric.inGraph (f : Fabric) (n : Nat) : Bool := f.present.contains n && (f.node n).found && !(f.node n).excluded

/-- The links that carry flits, in both directions: from, to, port, cost. -/
def Fabric.edges (f : Fabric) : List (Nat × Nat × Nat × Nat) :=
  (f.links.filter fun l => (l.state == .live || l.state == .training) && f.inGraph l.nodeA && f.inGraph l.nodeB).flatMap fun l =>
    [(l.nodeA, l.nodeB, l.portA, l.cost), (l.nodeB, l.nodeA, l.portB, l.cost)]

/-- Fewest hops from KD, by rounds over the edges. -/
def levelRounds (es : List (Nat × Nat × Nat × Nat)) : Nat → Store Nat → Store Nat
  | 0, l => l
  | k + 1, l =>
    let relax (l : Store Nat) (e : Nat × Nat × Nat × Nat) : Store Nat :=
      match Store.find l e.1 with
      | none => l
      | some d => if d + 1 < Store.get 99 l e.2.1 then Store.put l e.2.1 (d + 1) else l
    levelRounds es k (es.foldl relax l)

/-- The levels of the nodes (R363). -/
def Fabric.levels (f : Fabric) : Store Nat := levelRounds f.edges 14 [(12, 0)]

/-- What is best known of a path: cost, hops, first-hop node and port. -/
abbrev PathTo := Nat × Nat × Nat × Nat

/-- Whether a path is better: less cost, then fewer hops, then the lower first-hop node (R363). -/
def betterPath (x y : PathTo) : Bool :=
  decide (x.1 < y.1)
    || (x.1 == y.1 && (decide (x.2.1 < y.2.1)
        || (x.2.1 == y.2.1 && (decide (x.2.2.1 < y.2.2.1) || (x.2.2.1 == y.2.2.1 && decide (x.2.2.2 < y.2.2.2))))))

/-- The best legal paths to a node from each node in each phase, at 2 × node + phase, by rounds. -/
def pathRounds (key : Nat → Nat) (es : List (Nat × Nat × Nat × Nat)) : Nat → Store PathTo → Store PathTo
  | 0, b => b
  | k + 1, b =>
    let relax (b : Store PathTo) (x : (Nat × Nat × Nat × Nat) × Nat) : Store PathTo :=
      let u := x.1.1
      let w := x.1.2.1
      let up := decide (key w < key u)
      if up && x.2 == 1 then b
      else match Store.find b (2 * w + if up then 0 else 1) with
        | none => b
        | some p =>
          let q : PathTo := (p.1 + x.1.2.2.2, p.2.1 + 1, w, x.1.2.2.1)
          match Store.find b (2 * u + x.2) with
          | none => Store.put b (2 * u + x.2) q
          | some old => if betterPath q old then Store.put b (2 * u + x.2) q else b
    pathRounds key es k ((es.flatMap fun e => [(e, 0), (e, 1)]).foldl relax b)

/-- The best paths to node v (R363). -/
def Fabric.paths (f : Fabric) (v : Nat) : Store PathTo :=
  pathRounds f.key f.edges 14 [(2 * v, (0, 0, v, 0)), (2 * v + 1, (0, 0, v, 0))]

/-- The route table of a node: a port for each node and phase, and entry 28 toward LD for other packages (R364). -/
def Fabric.routeTable (f : Fabric) (u : Nat) : Store Nat :=
  let ports (t : Store Nat) (v : Nat) : Store Nat :=
    if v = u then t
    else
      let ps := f.paths v
      let one (t : Store Nat) (ph : Nat) : Store Nat :=
        match Store.find ps (2 * u + ph) with
        | some p => Store.put t (2 * v + ph) p.2.2.2
        | none => t
      one (one t 0) 1
  let t := (upto 14).foldl ports []
  match Store.find t 26 with
  | some p => Store.put t 28 p
  | none => t

/-! ## The topology record (R367) -/

def nodeType (n : Nat) : Nat := if n < 4 then 0 else if n < 12 then 1 else if n = 12 then 2 else 3

/-- STATE of a link entry. -/
def LinkState.code : LinkState → Nat
  | .dead => 0
  | .live | .training => 1
  | .unusable => 2

/-- The topology record. -/
def State.topologyRecord (s : State) : List Byte :=
  let f := s.fab
  let node (n : Nat) : List Byte :=
    let x := f.node n
    let state := if x.excluded then 2 else if x.found then 1 else 0
    leBytes 1 n ++ leBytes 1 (nodeType n) ++ leBytes 1 state ++ leBytes 1 x.level ++ leBytes 4 0
      ++ leBytes 8 (if x.found then (Config.serial n).toNat else 0)
  let link (l : Link) : List Byte :=
    leBytes 1 l.nodeA ++ leBytes 1 l.portA ++ leBytes 1 l.nodeB ++ leBytes 1 l.portB ++ leBytes 1 l.cost ++ leBytes 1 l.version
      ++ leBytes 1 l.state.code ++ leBytes 1 0
  let pair (d m : Nat) : List Byte :=
    let order := (f.clusterOrder d m).filter fun c => decide (c < s.ck.clusters d)
    ((order.flatMap fun c => leBytes 1 c) ++ List.replicate 14 (0xFF#8)).take 14
  leBytes 2 1 ++ leBytes 1 14 ++ leBytes 1 f.links.length ++ leBytes 4 f.gen ++ leBytes 8 s.ns
    ++ (upto 14).flatMap node ++ f.links.flatMap link ++ (upto 4).flatMap fun d => (upto 8).flatMap (pair d)

/-- The record written again into host complex memory, at the address that the firmware has given, and the host told
(R367, R448). -/
def State.publish (s : State) : State :=
  let s := { s with fab := { s.fab with gen := s.fab.gen + 1 } }
  let record := s.topologyRecord
  { s with
    fab := { s.fab with topology := record }
    plat := { s.plat with
      hostWrites := (Config.topologyAddr, record) :: s.plat.hostWrites
      unsolicited := (4, s.fab.gen) :: s.plat.unsolicited } }

/-! ## Links (R362) -/

/-- The first 64 flits of both replay buffers of a link on their way (again). -/
def State.resendAll (s : State) (i : Nat) : State :=
  match s.fab.links[i]? with
  | none => s
  | some l =>
    let one (s : State) (side : Nat) : State := ((l.buf side).take 64).foldl (fun s x => s.later (x.event i side)) s
    one (one s 0) 1

/-- LINK_FLIT_RECEIVE (R362): a flit that fails a check is asked for again; one delivered before is not delivered
twice; a good one goes on. -/
def execLinkFlitReceive (link side seqno : Nat) (raw : List Byte) (s : State) : Res :=
  .next (
    match s.fab.links[link]? with
    | none => s
    | some l =>
      if l.state != .live then s
      else match (l.buf side).find? fun x => x.seqno == seqno with
        | none => s
        | some x =>
          if !flitGood l.version raw then s.arrives (.linkReplayRequest link side seqno)
          else if seqno < l.rx side then s.later (.linkAck link side seqno)
          else if l.rx side < seqno then s.later (x.event link side)
          else
            let step (l : Link) : Link := if side = 0 then { l with rx0 := seqno + 1 } else { l with rx1 := seqno + 1 }
            ((s.modLink link step).hop (l.far side) x.dstn x.raw x.deliver).later (.linkAck link side seqno))

/-- A scale-out port by the number that its link has in the steps of links, those of the package's own graph aside. Blame and
counters of LD name it by a port beyond those of R449 (DESIGN CHOICE, log 31). -/
def scalePort (link : Nat) : Option Nat := if 64 ≤ link ∧ link < 82 then some (link - 64) else none
def scaleBlame (port : Nat) : Nat := 8 + port

def State.modCar (s : State) (f : Carriage → Carriage) : State := { s with fab := { s.fab with car := f s.fab.car } }

/-- Whether a scale-out port carries flits: it is neither dead nor retraining, and the Carriage forwards (R373). -/
def Carriage.portUp (c : Carriage) (p : Nat) : Bool :=
  (c.state == .forward || c.state == .isolateLocal) && !c.dead.contains p && (Store.find c.training p).isNone

/-- LINK_ACK (R362): the flits up to the one acknowledged leave the replay buffer, and those behind go on their
way. -/
def execLinkAck (link side seqno : Nat) (s : State) : Res :=
  .next (
    match s.fab.links[link]? with
    | none => s
    | some l =>
      if l.rx side ≤ seqno then s
      else
        let s := s.modLink link fun l => l.setBuf side ((l.buf side).filter fun x => decide (seqno < x.seqno))
        if l.state == .live then s.resendAll link else s)

/-- LINK_REPLAY_REQUEST (R362): the sender sends the flit again from its replay buffer; after 8 replays of one flit the
link is blamed and retrains. -/
def execLinkReplayRequest (link side seqno : Nat) (s : State) : Res :=
  .next (
    match s.fab.links[link]? with
    | none => s
    | some l =>
      match (l.buf side).find? fun x => x.seqno == seqno with
      | none => s
      | some x =>
        if l.state != .live then s
        else if 8 ≤ x.replays then s.soon (.linkRetrain link)
        else
          let again (y : LinkFlit) : LinkFlit := if y.seqno = seqno then { y with replays := y.replays + 1 } else y
          let s := s.pcount (l.near side) 0 (l.nearPort side) 1
          (s.modLink link fun l => l.setBuf side ((l.buf side).map again)).later (x.event link side))

/-- LINK_RETRAIN (R362): the link is blamed in the fault record of both ends and retrains; the far end of a scale-out link
has a record of its own. -/
def execLinkRetrain (link : Nat) (s : State) : Res :=
  .next (
    match s.fab.links[link]?, scalePort link with
    | none, none => s
    | none, some p =>
      if !s.fab.car.portUp p then s
      else
        let s := (s.recordFault 1 13 8 (scaleBlame p) 0 0 true).pcount 13 1 (scaleBlame p) 1
        (s.modCar fun c => { c with training := Store.put c.training p 0 }).later (.linkRetrainingEnd link true)
    | some l, _ =>
      if l.state != .live then s
      else
        let s := (s.recordFault 1 l.nodeA 8 l.portA 0 0 true).recordFault 1 l.nodeB 8 l.portB 0 0 true
        let s := (s.pcount l.nodeA 1 l.portA 1).pcount l.nodeB 1 l.portB 1
        (s.modLink link fun l => { l with state := .training, retrains := 0 }).later (.linkRetrainingEnd link true))

/-- The version a link that has trained runs at, if its ends have one in common (R365). -/
def Fabric.trainedVersion (f : Fabric) (l : Link) : Option Nat :=
  match f.wires.find? fun w => w.nodeA == l.nodeA && w.portA == l.portA && w.nodeB == l.nodeB && w.portB == l.portB with
  | some w => w.version
  | none => some l.version

/-- The links of a scale-out port that has trained: the far end's versions must hold version 1 (R365). -/
def Carriage.portTrained (c : Carriage) (p : Nat) : Carriage :=
  let r := Store.get (1, 1) c.ranges p
  let c := { c with training := Store.del c.training p }
  if decide (r.1 ≤ 1) && decide (1 ≤ r.2) then c else { c with dead := insertNat c.dead p }

/-- LINK_RETRAINING_END (R362): delivery resumes from the replay buffers at the version now negotiated (R365), or, after three
failures in succession, the link is dead. -/
def execLinkRetrainingEnd (link : Nat) (trained : Bool) (s : State) : Res :=
  .next (
    match s.fab.links[link]?, scalePort link with
    | none, none => s
    | none, some p =>
      match Store.find s.fab.car.training p with
      | none => s
      | some k =>
        if trained then s.modCar fun c => c.portTrained p
        else if 3 ≤ k + 1 then s.modCar fun c => { c with training := Store.del c.training p, dead := insertNat c.dead p }
        else
          let s := s.pcount 13 1 (scaleBlame p) 1
          (s.modCar fun c => { c with training := Store.put c.training p (k + 1) }).later (.linkRetrainingEnd link true)
    | some l, _ =>
      if l.state != .training then s
      else if trained then
        match s.fab.trainedVersion l with
        | none => (s.modLink link fun l => { l with state := .unusable, retrains := 0 }).later .routeRecompute
        | some v =>
          let fresh (l : Link) (x : LinkFlit) : LinkFlit := { x with replays := 0, raw := l.stamp x.raw }
          let up (l : Link) : Link :=
            let l := { l with state := .live, retrains := 0, version := v }
            { l with buf0 := l.buf0.map (fresh l), buf1 := l.buf1.map (fresh l) }
          (s.modLink link up).resendAll link
      else if 3 ≤ l.retrains + 1 then (s.modLink link fun l => { l with state := .dead, retrains := l.retrains + 1 }).later .routeRecompute
      else
        let s := (s.pcount l.nodeA 1 l.portA 1).pcount l.nodeB 1 l.portB 1
        (s.modLink link fun l => { l with retrains := l.retrains + 1 }).later (.linkRetrainingEnd link true))

/-! ## Discovery (R363) -/

/-- Whether a die is there and its rail is up (R3, R438). -/
def State.powered (s : State) (n : Nat) : Bool := s.fab.present.contains n && (decide (4 ≤ n) || s.plat.vcd.getLsbD n)

/-- A link as it trains (R363, R365): one of the retirement table, or without power at an end, stays dead, and one whose ends
have no version in common is unusable. -/
def State.trainLink (s : State) (w : Wire) : Link :=
  let retired (n p : Nat) : Bool := s.ck.retired.contains (n, 8, p)
  let l : Link := { nodeA := w.nodeA, portA := w.portA, nodeB := w.nodeB, portB := w.portB, bw := w.bw }
  if retired w.nodeA w.portA || retired w.nodeB w.portB || !s.powered w.nodeA || !s.powered w.nodeB || w.bw == 0 then
    { l with state := .dead }
  else match w.version with
    | none => { l with state := .unusable }
    | some v => { l with version := v }

/-- A probe sent on a trained link of a node, at a port (R361, R363). Its tag names the two. -/
def State.sendProbe (s : State) (node port : Nat) : State :=
  match s.fab.linkAt node port with
  | none => s
  | some (i, side) =>
    match s.fab.links[i]? with
    | none => s
    | some l =>
      if l.state != .live || s.fab.probed.contains (node, port) then s
      else
        let h : LinkHead := { cls := 11, srcn := node, dstn := l.far side, srcp := s.fab.pkg, dstp := s.fab.pkg, tag := 16 * node + port }
        ({ s with fab := { s.fab with probed := s.fab.probed ++ [(node, port)] } }).enqueue i side (l.far side) (linkFlit h [])
          (.probe node port)

/-- The ports of a node that have links. -/
def Fabric.ports (f : Fabric) (node : Nat) : List Nat := (upto 13).filter fun p => (f.linkAt node p).isSome

/-- The checker takes the link map of a die: the costs of the links at its ports (R363). -/
def State.learn (s : State) (node : Nat) : State :=
  let cost (l : Link) : Link := if l.nodeA = node ∨ l.nodeB = node then { l with cost := linkCost l.bw } else l
  { s with fab := { s.fab with links := s.fab.links.map cost } }

/-- What a die answers to a probe (R363): its type, node number, enabled clusters and serial number, the trained bandwidth
of each port, and for a compute die the hop distances, a nibble each. The layout is the model's (DESIGN CHOICE, log 20). -/
def State.probePayload (s : State) (v : Nat) : List Byte :=
  let bw (p : Nat) : List Byte := leBytes 2 (((s.fab.linkAt v p).bind fun x => s.fab.links[x.1]?).map Link.bw |>.getD 0)
  let hop (p c : Nat) : Nat := Config.hopDistance v p c % 8
  leBytes 1 (nodeType v) ++ leBytes 1 v ++ leBytes 2 (if v < 4 then s.ck.clusters v else 0) ++ leBytes 4 0
    ++ leBytes 8 (Config.serial v).toNat ++ (upto 13).flatMap bw
    ++ (if v < 4 then (upto 8).flatMap fun p => (upto 7).flatMap fun c => leBytes 1 (hop p (2 * c) + 16 * hop p (2 * c + 1)) else [])

/-- PROBE (R363): the die that a probe has reached answers with its identity and its link map, over the link by which the
probe has come. -/
def execProbe (node port : Nat) (s : State) : Res :=
  .next (
    match (s.fab.linkAt node port).bind fun x => (s.fab.links[x.1]?).map fun l => (x, l) with
    | none => s.probeDone node port
    | some ((i, side), l) =>
      let v := l.far side
      let h : LinkHead := { cls := 12, srcn := v, dstn := node, srcp := s.fab.pkg, dstp := s.fab.pkg, tag := 16 * node + port, lf := 2 }
      s.enqueue i (1 - side) node (linkFlit h (s.probePayload v)) (.probeReply node port))

/-- PROBE_REPLY (R363): the checker records the die that answered and its link map, and probes it further on each of its
links. -/
def execProbeReply (node port : Nat) (s : State) : Res :=
  .next (
    match (s.fab.linkAt node port).bind fun p => (s.fab.links[p.1]?).map fun l => l.far p.2 with
    | none => s.probeDone node port
    | some v =>
      let x := s.fab.node v
      let s' :=
        if x.found then s
        else
          let s := ({ s with fab := { s.fab with nodes := Store.put s.fab.nodes v { x with found := true } } }).learn v
          (s.fab.ports v).foldl (fun s p => s.sendProbe v p) s
      s'.probeDone node port)

/-! ## New tables (R364, R366) -/

/-- The flits of dead links, and those at a die that has failed (R366): they leave the replay buffers, and wait at the node
they are at for the new tables; what a failed die still had to send is lost with it (R372). -/
def State.rerouteDead (s : State) : State :=
  let f := s.fab
  let gone (l : Link) : Bool := l.state == .dead || l.state == .unusable || (f.node l.nodeA).excluded || (f.node l.nodeB).excluded
  let at_ (n : Nat) (xs : List LinkFlit) : List Held :=
    xs.map fun x => { src := n, dst := x.dstn, raw := clearDown x.raw, deliver := x.deliver }
  let flits := (f.links.filter gone).flatMap fun l => at_ l.nodeA (l.waiting 0) ++ at_ l.nodeB (l.waiting 1)
  let empty (l : Link) : Link := if gone l then { l with buf0 := [], buf1 := [] } else l
  { s with fab := { f with links := f.links.map empty, held := f.held ++ flits } }

/-- The flits that wait at a failed die, or for one, are not sent (R372); nor is what discovery and the tables send, which
starts anew. -/
def State.settleHeld (s : State) : State :=
  let gone (n : Nat) : Bool := (s.fab.node n).excluded
  let anew (x : Held) : Bool := match x.deliver with
    | .probe _ _ | .probeReply _ _ | .routeWrite _ => true
    | _ => false
  let lost (x : Held) : Bool := gone x.src || gone x.dst || anew x
  let bad := s.fab.held.filter lost
  let s := { s with fab := { s.fab with held := s.fab.held.filter fun x => !lost x } }
  bad.foldl (fun s x => s.unsent x.src x.deliver) s

/-- The flits that have waited for the new tables go on. -/
def State.releaseHeld (s : State) : State :=
  let l := s.fab.held
  let s := { s with fab := { s.fab with held := [] } }
  l.foldl (fun s x => s.hop x.src x.dst x.raw x.deliver) s

/-- The operators and tasks that have written pending frames on some lines, discarded: their data is lost (R372). -/
def State.discardLost (s : State) (lines : List Nat) : State :=
  let hit (p : Page) : Bool :=
    let w1 := BitVec.ofNat 64 (memNat s.mem (p.leaf + 8) 8)
    w1.getLsbD 0 && lines.any fun n => decide (entryPa w1 ≤ 128 * n) && decide (128 * n < entryPa w1 + p.size)
  let pages := s.ck.pages.filter hit
  let ids := (pages.flatMap Page.writers).eraseDups
  let plain := (pages.flatMap Page.plain).eraseDups
  let node := lines.head?.map fun n => homeNode n
  if ids.isEmpty && plain.isEmpty then s
  else
    let mark (o : Oper) : Oper := if ids.contains o.id then { o with ue := o.ue.or node } else o
    ({ s with ck := { s.ck with opers := s.ck.opers.map mark } }).discard ids plain 1

/-- Every failed die recounted (R372), once the fabric has been drained. -/
def State.recountFailed (s : State) : State :=
  let before := s.fab.lost
  let s := ((upto 4).filter fun d => (s.fab.node d).excluded).foldl (fun s d => s.recount d) s
  s.discardLost (s.fab.lost.filter fun n => !before.contains n)

/-- The nodes that the checker reaches no more (R3, R404): a compute die has 100 µs to come back, any other answers no
more. -/
def State.cutOff (s : State) (levels : Store Nat) : State :=
  let f := s.fab
  let cut (n : Nat) : Bool := (f.node n).found && !(f.node n).excluded && (Store.find levels n).isNone
  let node (p : Nat × Node) : Nat × Node :=
    if cut p.1 && decide (4 ≤ p.1) then (p.1, { p.2 with found := false }) else (p.1, { p.2 with level := Store.get p.2.level levels p.1 })
  let dies := (upto 4).filter cut
  { s with fab := { f with
      nodes := f.nodes.map node
      cutAt := dies.map fun d => (d, Store.get s.ns f.cutAt d) } }

/-- The route-write flit of the next node in order, its new table in the payload (R364). The nodes between it and KD have
theirs by then, for every hop from KD is a down hop (R363). -/
def State.sendWrite (s : State) : State :=
  match s.fab.writes with
  | [] => s
  | n :: _ =>
    let table := s.fab.routeTable n
    let port (i : Nat) : List Byte := leBytes 1 (Store.get 255 table i)
    s.hop 12 n (linkFlit { cls := 13, srcn := 12, dstn := n, srcp := s.fab.pkg, dstp := s.fab.pkg, lf := 2 } ((upto 29).flatMap port))
      (.routeWrite n)

/-- ROUTE_RECOMPUTE (R366): new requests stop, the fabric drains, failed dies are recounted, and the new tables are sent. -/
def execRouteRecompute (s : State) : Res :=
  let s := ({ s with fab := { s.fab with paused := true } }).rerouteDead
  .next (
    if s.fab.links.any fun l => !l.buf0.isEmpty || !l.buf1.isEmpty then s.later .routeRecompute
    else
      let s := s.settleHeld
      if !s.fab.probed.isEmpty then s
      else
        let s := s.recountFailed
        let levels := s.fab.levels
        let s := s.cutOff levels
        let nodes := sortBy s.fab.key ((upto 14).filter fun n => s.fab.inGraph n && (Store.find levels n).isSome)
        ({ s with fab := { s.fab with writes := nodes } }).sendWrite)

/-! ## The last steps of the boot (R442) -/

/-- The retirement table as KD applies it at package reset (R402, R403): of each die as many of the highest core numbers are
missing as cores have retired (R17), and a core that is left has lost the units of its place. -/
def State.applyRetired (s : State) : State :=
  let gone (d : Nat) : List Nat := (upto (s.ck.off.filter fun p => p.1 == d).length).map (111 - ·)
  let s := (upto 4).foldl (fun s d => (gone d).foldl (fun s c => s.modCore d c fun x => x.lose 5) s) s
  s.ck.retired.foldl (fun s u =>
    match (unitCore u.2.1 u.2.2).bind (s.ck.coreNumber u.1) with
    | some c => if u.1 < 4 && u.2.1 != 5 then s.modCore u.1 c fun x => x.lose u.2.1 else s
    | none => s) s

/-- The Carriage goes to FORWARD once its ports have trained and the local side is ready (R373). -/
def Carriage.ahead (c : Carriage) : Carriage :=
  if c.ready && ((c.state == .training && c.trained) || c.state == .isolateLocal) then { c with state := .forward, misses := 0 } else c

/-- The checker reports the local side ready to the Carriage (R373). -/
def State.localReady (s : State) : State :=
  let c := s.fab.car
  ({ s with fab := { s.fab with car := { c with ready := true, beatAt := s.ns }.ahead } }).later .heartbeat

/-- Steps 5 to 7 of the boot (R405, R442). -/
def State.finishBoot (s : State) : State :=
  let s := (s.applyRetired).publish
  let s := { s with
    ck := { s.ck with keys := Store.put s.ck.keys 0 0 }
    plat := { s.plat with booting := false }
    accepting := true }
  let s := s.records.foldl (fun s r => s.later (.taskRecordArrival r.id)) s
  (s.localReady).later .blockAdmission

/-- ROUTE_WRITE (R364): a node takes its new table, and the next one is sent. After the last one requests enter again, and
the topology record is published (R366, R367). -/
def execRouteWrite (node : Nat) (s : State) : Res :=
  .next (
    if !s.fab.writes.contains node then s
    else
      let table := s.fab.routeTable node
      let f := { s.fab with
        nodes := Store.put s.fab.nodes node { s.fab.node node with routes := table }
        writes := s.fab.writes.filter (· != node) }
      let s := { s with fab := f }
      if !f.writes.isEmpty then s.sendWrite
      else
        let s := { s with fab := { s.fab with paused := false } }
        if s.plat.booting then s.finishBoot else ((s.publish).releaseHeld).later .blockAdmission)

/-! ## Requests to other packages (R362, R373) -/

/-- A request completes at its origin with an abort completion. -/
def State.abortRequest (s : State) (r : Request) : State :=
  let s := s.atBlock r.block
  let s := s.notLater (.copyFailure r.block r.coll r.chunk)
  match s.b.colls.find? fun c => c.num == r.coll with
  | none => s
  | some c => if s.b.uid != r.block || c.kill then s else s.failChunk r.coll (s.farAbort c r.chunk)

/-- A holder's request for a line 100 µs after it was sent (R362). -/
def State.lineTimedOut (s : State) (h n : Nat) : State :=
  match Store.find (s.line n).asked h with
  | none => s
  | some t => if s.ns < t + 100000 then s.later (lineTimeout h n) else s.giveUp h n

/-- REQUEST_TIMEOUT (R362): a request without a reply completes with an abort completion 100 µs after it was sent inside the
package, or 10 ms after it was sent to another; a reply that comes later is discarded. -/
def execRequestTimeout (request : Nat) (s : State) : Res :=
  .next (
    if 2 ^ 64 ≤ request then s.lineTimedOut ((request - 2 ^ 64) % 8) ((request - 2 ^ 64) / 8)
    else match s.fab.requests.find? fun r => r.id == request with
    | none => s
    | some r =>
      if r.expired then s
      else if s.ns < r.sentNs + 10000000 then s.later (.requestTimeout request)
      else
        let late (x : Request) : Request := if x.id = request then { x with expired := true } else x
        let s := { s with fab := { s.fab with requests := s.fab.requests.map late } }
        s.abortRequest r)

/-- NACK_ENDPOINT_ABSENT (R373): the far package's local side is away; the request completes with an abort
completion. -/
def execNackEndpointAbsent (request : Nat) (s : State) : Res :=
  .next (
    match s.fab.requests.find? fun r => r.id == request with
    | none => s
    | some r =>
      if r.expired then s.lateReply r
      else
        let s := { s with fab := { s.fab with requests := s.fab.requests.filter fun x => x.id != request } }
        ((s.notLater (.requestTimeout request)).notLater (.chunkLanded r.block r.coll r.chunk)).abortRequest r)

end Sys2Proof.Machine
end

