-- ==== Sys2Proof/Machine/Carriage.lean ====
section
/-! DEFINITION. Machine/Carriage.lean: the Carriage's states, transit flits, orphans and reset (R373, R374), and
the governors of the network regions (R375). What other packages do arrives as steps of the outside world
(DESIGN CHOICE, log 17). -/

namespace Sys2Proof.Machine

open Sys2Proof

/-- A flit of the Carriage's own to the origin of a request: completion 9, abort completion 10, NACK 14 (R361,
R373, R374). It leaves with one package hop. -/
def State.answerOrigin (s : State) (cls : Nat) (o : Nat × Nat × Nat) : State :=
  s.carSend o.1 (linkFlit { cls := cls, srcn := 13, dstn := o.2.1, srcp := s.fab.pkg, dstp := o.1, lf := 16, tag := o.2.2 } [])

/-- The Carriage leaves FORWARD for ISOLATE-LOCAL: each request from outside that awaits a reply is sent an abort
completion, and is performed no more (R373, R374). -/
def State.isolate (s : State) : State :=
  let o := s.fab.car.orphans
  let ours : Instr → Bool
    | .carriageTransitFlit dst _ raw => dst == s.fab.pkg && o.contains (fieldAt raw 4 2, fieldAt raw 2 1, fieldAt raw 12 4)
    | _ => false
  let s := { s with agenda := s.agenda.filter fun i => !ours i }
  let s := s.modCar fun c => { c with
    state := if c.state == .forward then .isolateLocal else c.state, ready := false, misses := 0, orphans := [] }
  o.foldl (fun s x => (s.answerOrigin 10 x).pcount 13 12 0 1) s

/-- A request from outside performed at the home of its line (R368): its 128 bytes are written; what a reduction leaves is
not stated, for no field of the flit names its operation (DESIGN CHOICE, log 17). -/
def State.performRemote (s : State) (raw : List Byte) : State :=
  let a := fieldAt raw 16 8
  let lines := linesOf a 128
  let whole := lines.filter fun n => a == 128 * n
  let bytes := if fieldAt raw 1 1 = 8 then (upto 128).map fun i => Config.reducedByte (128 * s.ctr + i) else raw.drop 32
  let s := lines.foldl (fun s n => s.usedLine homeHolder n true) s
  whole.foldl (fun s n => s.healLine n) (s.putG 0 a bytes)

/-- A request from outside leaves the Carriage's table with its reply (R374). -/
def State.replyRemote (s : State) (cls : Nat) (origin : Nat × Nat × Nat) : State :=
  (s.modCar fun c => { c with orphans := c.orphans.filter (· != origin) }).answerOrigin cls origin

/-- A request from outside, copy data or a reduction (R368, R374): it is kept in the Carriage's table until its reply
leaves, waits while the table is full or the home gathers its tokens, and meets an abort completion as any access does. -/
def State.remoteRequest (s : State) (hops : Nat) (raw : List Byte) : State :=
  let origin := (fieldAt raw 4 2, fieldAt raw 2 1, fieldAt raw 12 4)
  let again : Instr := .carriageTransitFlit s.fab.pkg hops raw
  let a := fieldAt raw 16 8
  let lines := linesOf a 128
  let bad (n : Nat) : Bool := !s.reachable (128 * n) || s.noReply homeHolder n || (s.lineBad n && a != 128 * n)
  let known := s.fab.car.orphans.contains origin
  if !known && decide (2048 ≤ s.fab.car.orphans.length) then s.later again
  else
    let s := if known then s else s.modCar fun c => { c with orphans := c.orphans ++ [origin] }
    if decide (2 ^ 39 < a + 128) || lines.any bad then
      ((s.reportAll (s.badLines (lines.filter bad)) 0).gaveUp homeHolder lines).replyRemote 10 origin
    else
      let r := s.readyLines homeHolder true lines
      if r.1 then (r.2.performRemote raw).replyRemote 9 origin else r.2.later again

/-- A reply of another package to a request of this one (R253, R362): the last of a chunk's completions lands it. -/
def State.remoteReply (s : State) (cls : Nat) (r : Request) : State :=
  let less (x : Request) : Request := if x.id = r.id then { x with due := x.due - 1 } else x
  if cls = 9 then
    if 1 < r.due then { s with fab := { s.fab with requests := s.fab.requests.map less } } else s.soon (.chunkLanded r.block r.coll r.chunk)
  else if cls = 10 then s.soon (.copyFailure r.block r.coll r.chunk)
  else s.soon (.nackEndpointAbsent r.id)

/-- A flit from another package for an endpoint of this one (R373, R374): in FORWARD it is delivered; in ISOLATE-LOCAL the
origin of a request is told that the endpoint is absent. A reply to a request that has timed out, or was sent before a reset
of the local side, is discarded and counted in either. -/
def State.localFlit (s : State) (hops : Nat) (raw : List Byte) : State :=
  let cls := fieldAt raw 1 1
  let isReply := cls == 9 || cls == 10 || cls == 14
  let local_ := s.fab.car.state == .isolateLocal
  match s.fab.requests.find? fun r => isReply && r.id == fieldAt raw 12 4 with
  | some r => if r.expired then s.lateReply r else if local_ then s else s.remoteReply cls r
  | none =>
    if isReply then s
    else if local_ then s.answerOrigin 14 (fieldAt raw 4 2, fieldAt raw 2 1, fieldAt raw 12 4)
    else if cls = 7 ∨ cls = 8 then s.remoteRequest hops raw
    else s

/-- A flit of a request of this package has left it; once all have, the other package may reply (R362). -/
def State.leftPackage (s : State) (tag : Nat) : State :=
  let less (r : Request) : Request := if r.id = tag then { r with unsent := r.unsent - 1 } else r
  match s.fab.requests.find? fun r => r.id == tag && !r.expired with
  | none => s
  | some r =>
    let s := { s with fab := { s.fab with requests := s.fab.requests.map less } }
    if 1 < r.unsent then s else (s.later (.chunkLanded r.block r.coll r.chunk)).later (.copyFailure r.block r.coll r.chunk)

/-- A flit from a local endpoint (R373): it leaves in FORWARD only, by the port of its package. -/
def State.egress (s : State) (dst : Nat) (raw : List Byte) : State :=
  if s.fab.car.state != .forward || (s.fab.car.portFor dst).isNone then s
  else (s.carSend dst (setHops raw 1)).leftPackage (fieldAt raw 12 4)

/-- CARRIAGE_TRANSIT_FLIT (R373, R374): a flit for another package goes on by the forwarding table, with one package
hop more; one whose HOPS would exceed 15 is dropped and counted. -/
def execCarriageTransitFlit (dst hops : Nat) (raw : List Byte) (s : State) : Res :=
  .next (
    if s.fab.car.state != .forward && s.fab.car.state != .isolateLocal then s
    else if dst = s.fab.pkg then s.localFlit hops raw
    else if fieldAt raw 4 2 = s.fab.pkg then s.egress dst raw
    else if 15 ≤ hops then s.pcount 13 11 0 1
    else s.carSend dst (setHops raw (hops + 1)))

/-- CARRIAGE_TRAINING_DONE (R365, R373): a port whose far end has no version in common is not used. -/
def execCarriageTrainingDone (s : State) : Res :=
  .next (s.modCar fun c =>
    if c.state == .training then ((c.ranges.map Prod.fst).foldl (fun (c : Carriage) p => c.portTrained p) { c with trained := true }).ahead else c)

/-- HEARTBEAT (R373, R404): every 100 µs while the local side runs. A compute die that has had no path to KD for 100 µs has
failed. -/
def execHeartbeat (s : State) : Res :=
  .next (
    if !s.fab.car.ready then s
    else if s.ns < s.fab.car.beatAt + 100000 then s.later .heartbeat
    else
      let s := s.modCar fun c => { c with beatAt := s.ns, misses := 0 }
      let gone := s.fab.cutAt.filter fun p => decide (p.2 + 100000 ≤ s.ns)
      let s := { s with fab := { s.fab with cutAt := s.fab.cutAt.filter fun p => !gone.contains p } }
      (gone.foldl (fun s p => s.soon (.dieFatalError p.1)) s).later .heartbeat)

/-- HEARTBEAT_MISS (R373): the third in succession takes the Carriage from FORWARD to ISOLATE-LOCAL. -/
def execHeartbeatMiss (s : State) : Res :=
  let s := s.modCar fun c => { c with misses := c.misses + 1 }
  .next (if 3 ≤ s.fab.car.misses && s.fab.car.state == .forward then s.isolate else s)

/-- QUIESCE (R374): a neighbour that is about to reset asks for quiet on a port, which is marked and answered; or it
answers the Carriage's own request. -/
def execQuiesce (port : Nat) (s : State) : Res :=
  .next (
    if 18 ≤ port then s
    else if s.fab.car.asked.contains port then s.modCar fun c => { c with asked := c.asked.filter (· != port) }
    else
      let raw := linkFlit { cls := 15, srcn := 13, dstn := 13, srcp := s.fab.pkg } []
      s.modCar fun c => { c with quiesced := insertNat c.quiesced port, sent := (port, raw) :: c.sent })

/-- The Carriage as its reset leaves it; what it has sent is sent (R374, R441). -/
def Carriage.cleared (c : Carriage) (state : CarState) : Carriage := 
  { state := state, ready := c.ready, beatAt := c.beatAt, ranges := c.ranges, sent := c.sent }

/-- The Carriage's counters cleared, as by its own reset (R420). -/
def State.clearCarCounters (s : State) : State :=
  { s with fab := { s.fab with cnt := s.fab.cnt.filter fun (p : Nat × DWord) => !(p.1 / 1024 == 13 && (p.1 / 32 % 32 == 11 || p.1 / 32 % 32 == 12 || p.1 / 32 % 32 == 13)) } }

/-- The Carriage reset: its ports train (R373, R441). -/
def State.resetCarriage (s : State) : State := ((s.modCar fun c => c.cleared .training).clearCarCounters).later .carriageTrainingDone

/-- CARRIAGE_RESET (R374): once every neighbour has answered, or 10 ms after they were asked. -/
def execCarriageReset (s : State) : Res :=
  .next (
    match s.fab.car.resetAt with
    | none => s
    | some t => if s.fab.car.asked.isEmpty || decide (t + 10000000 ≤ s.ns) then s.resetCarriage else s.later .carriageReset)

/-- GOVERNOR_LEVEL_CHANGE (R375): a region that has been at its level for 10 µs moves one level by its mean queue
depth. -/
def execGovernorLevelChange (node depth : Nat) (s : State) : Res :=
  let lv := Store.get 0 s.fab.gov node
  let want := if 24 < depth then lv - 1 else if depth < 4 then min 3 (lv + 1) else lv
  .next (
    if want = lv || decide (s.ns < Store.get 0 s.fab.govAt node + 10000) then s
    else { s with fab := { s.fab with gov := Store.put s.fab.gov node want, govAt := Store.put s.fab.govAt node s.ns } }.pcount node 4 0 1)

end Sys2Proof.Machine
end

