-- ==== Sys2Proof/Machine/HostIf.lean ====
section
/-! DEFINITION. Machine/HostIf.lean: host windows (R273) and the host's apertures onto device memory (R350,
R351). -/

namespace Sys2Proof.Machine

open Sys2Proof

/-- An access of the host to a window or an aperture: in recovery mode the link die serves the management port alone
(R442). -/
def State.served (s t : State) : State := if s.plat.bootFail.isSome then s else t

/-! ## Windows (R273) -/

def State.window (s : State) (w : Nat) : Window := Store.get {} s.windows w

/-- STAT of a window. -/
def Window.stat (w : Window) : Word := BitVec.ofNat 32 (w.left + 256 * w.recv.length)

/-- Whether a window's capability admits a send now: a queue or dispatch capability whose target belongs to the window's
tenant (R273, R343). -/
def State.windowAdmits (s : State) (w : Window) : Bool :=
  w.bound && decide (0 < w.left)
    && (if w.cap.kind = 1 then s.tasks.any fun t => t.id == w.cap.f8 && t.tenant == w.tenant
        else if w.cap.kind = 2 then (s.ctx w.cap.f8).tenant == w.tenant
        else false)

/-- HOST_WINDOW_SEND (R273): a flit, or a record to the dispatcher, takes a unit; a send that is not admitted is
dropped and counted. -/
def execHostWindowSend (window : Nat) (payload : List Byte) (s : State) : Res :=
  let w := s.window window
  .next (s.served (
    if !s.windowAdmits w then s.pcount 13 10 0 1
    else
      let s := { s with windows := Store.put s.windows window { w with left := w.left - 1 } }
      let bytes := (payload ++ leBytes 128 0).take 128
      let f : Flit :=
        { id := s.next, payload := bytes, tenant := w.tenant, task := 0, sender := none, window := some window, cap := 0
          chan := 0, seqno := 0
          dst := if w.cap.kind = 1 then .queue w.cap.f8 w.cap.f12 w.cap.f16 else .dispatch w.cap.f8
          reply := some (.window window), kid := none }
      let s := s.fresh
      if w.cap.kind = 2 then
        let r : Record := { id := s.next, bytes := bytes, ctx := w.cap.f8, flit := f }
        ({ s with records := s.records ++ [r] }.later (.taskRecordArrival s.next)).fresh
      else s.sendFlit f))

/-- What the host is answered. -/
def State.tellHost (s : State) (status : Nat) (data : List Byte) : State :=
  { s with plat := { s.plat with hostReads := (status, data) :: s.plat.hostReads } }

/-- Eight bytes of a window's RECV: of its oldest flit; an empty window reads zero (R273). -/
def Window.recvBytes (w : Window) (offset : Nat) : List Byte :=
  match w.recv with
  | [] => leBytes 8 0
  | f :: _ => ((f.payload.drop (offset - 0x100)).take 8)

/-- HOST_WINDOW_RECV (R273): a host read of 8 bytes of the windows, at STAT or in RECV of one. The read of the last 8 bytes of RECV
dequeues the oldest flit, and its unit returns (R270). -/
def execHostWindowRecv (place : Nat) (s : State) : Res :=
  let window := place / 4096
  let offset := place % 4096
  let w := s.window window
  .next (s.served (
    if offset = 0x080 then s.tellHost 0 (leBytes 8 w.stat.toNat)
    else
      let s := s.tellHost 0 (w.recvBytes offset)
      match w.recv with
      | [] => s
      | f :: t =>
        if offset = 0x178 then (State.returnUnit { s with windows := Store.put s.windows window { w with recv := t } } f).signalAll
        else s))

/-! ## Apertures (R350, R351) -/

/-- The context and the virtual address of an access through a translated aperture. -/
def State.apertureVa (s : State) (n offset count : Nat) : Option (Nat × Nat) :=
  match Store.find s.apertures n with
  | none => none
  | some (ctx, base) => if offset + count ≤ 2 ^ 30 then some (ctx, base + offset) else none

/-- The pages of an access through a translated aperture, if every one of them translates. -/
def State.apertureSegs (s : State) (n offset count : Nat) (need : Need) : Option (Nat × List Seg) :=
  match s.apertureVa n offset count with
  | none => none
  | some (ctx, va) =>
    match segsBy (fun va => s.translateBy [apertureCache] none ctx va need) (s.walkPlaces ctx) (count / 4096 + 2) va count with
    | .error _ => none
    | .ok l => some (ctx, l)

/-- Translations of an aperture enter the cache of the apertures (R350). -/
def State.apertureCached (s : State) (ctx : Nat) (l : List Seg) : State :=
  l.foldl (fun s g => s.cacheBy [apertureCache] ctx g.va g.x) s

/-- Whether a line lies in a host-private range (R351). -/
def State.privateLine (s : State) (n : Nat) : Bool := s.ranges.any fun r => decide (r.1 ≤ 128 * n) && decide (128 * n + 128 ≤ r.1 + r.2)

/-- A host access that meets an abort completion is told so, and the errors it met are reported (R32). -/
def State.hostAborts (s : State) (lines : List Nat) : State :=
  ((s.reportAll (s.badLines lines) 0).gaveUp homeHolder lines).tellHost 1 []

/-- Whether a host access to a line meets an abort completion: the memory die is absent, the home's request for the line has
timed out, or the line is bad (R3, R181, R362). -/
def State.hostBars (s : State) (n : Nat) : Bool := !s.reachable (128 * n) || s.noReply homeHolder n || s.lineBad n

/-- A host access that waits for a line at its home goes before the host's later ones (R350). -/
def State.hostWaits (s : State) (i : Instr) : State := { s with inputs := i :: s.inputs }

/-- A read performed at the homes of its lines: some bytes, their lines readable there. -/
def State.hostRead (s : State) (i : Instr) (lines : List Nat) (bytes : List Byte) : State :=
  let r := s.readyLines homeHolder false lines
  if !r.1 then r.2.hostWaits i
  else (lines.foldl (fun s n => s.usedLine homeHolder n false) s).tellHost 0 bytes

/-- HOST_APERTURE_READ (R350, R351, R396): through the physical aperture only lines of host-private ranges pass;
through a translated one the released frame is read (R182), and the Shutter is the test. -/
def execHostApertureRead (aperture : Option Nat) (offset count : Nat) (s : State) : Res :=
  .next (s.served (
    match aperture with
    | none =>
      let lines := linesOf offset count
      if 2 ^ 39 < offset + count then s.tellHost 1 []
      else if !lines.all s.privateLine then s.tellHost 2 []
      else if lines.any s.hostBars then s.hostAborts lines
      else s.hostRead (.hostApertureRead aperture offset count) lines (s.seenAt 0 offset count)
    | some n =>
      match s.apertureSegs n offset count .read with
      | none => s.tellHost 1 []
      | some (ctx, l) =>
        let s := s.apertureCached ctx l
        let lines := (l.flatMap fun g => linesOf (g.x.frame + g.x.off) g.len).eraseDups
        if !(l.all fun g => s.shutterPasses (s.ctx ctx).tenant g.x) then s.tellHost 2 []
        else if lines.any s.hostBars then s.hostAborts lines
        else s.hostRead (.hostApertureRead aperture offset count) lines (l.flatMap fun g => s.seenAt g.x.key (g.x.frame + g.x.off) g.len)))

/-- A host write at a physical place, under the key of a slot: the home performs it; a line written whole has new check bits
(R181). -/
def State.hostPut (s : State) (slot a : Nat) (bytes : List Byte) : State :=
  let lines := linesOf a bytes.length
  let whole := lines.filter fun n => decide (a ≤ 128 * n) && decide (128 * n + 128 ≤ a + bytes.length)
  let s := lines.foldl (fun s n => s.usedLine homeHolder n true) s
  whole.foldl (fun s n => s.healLine n) (s.putG slot a bytes)

/-- Whether a write of n bytes meets an abort completion. -/
def State.putAborts (s : State) (a n : Nat) : Bool :=
  (linesOf a n).any fun k => !s.reachable (128 * k) || s.noReply homeHolder k || (s.lineBad k && !(decide (a ≤ 128 * k) && decide (128 * k + 128 ≤ a + n)))

/-- A host write to the page of a segment: the released frame of a versioned page loses its tag (R350, R395). -/
def State.hostPutSeg (s : State) (g : Seg) (bytes : List Byte) : State :=
  let s := s.hostPut g.x.key (g.x.frame + g.x.off) bytes
  if g.x.ver then
    let s := (s.uncache g.x.leaf).setWord1 (leafEntries g.x) (g.x.w1 &&& ~~~(0xFFFF#64 <<< 4))
    { s with ck := s.ck.untag g.x.leaf }.freeTags
  else s

/-- The segments of a write with their bytes, written in turn. -/
def State.hostPutSegs (s : State) : List Seg → List Byte → State
  | [], _ => s
  | g :: t, bytes => State.hostPutSegs (s.hostPutSeg g (bytes.take g.len)) t (bytes.drop g.len)

/-- HOST_APERTURE_WRITE (R350). -/
def execHostApertureWrite (aperture : Option Nat) (offset : Nat) (bytes : List Byte) (s : State) : Res :=
  let n := bytes.length
  let again : Instr := .hostApertureWrite aperture offset bytes
  let go (s : State) (lines : List Nat) (f : State → State) : State :=
    let r := s.readyLines homeHolder true lines
    if r.1 then f s else r.2.hostWaits again
  .next (s.served (
    match aperture with
    | none =>
      if 2 ^ 39 < offset + n then s.tellHost 1 []
      else if s.putAborts offset n then s.hostAborts (linesOf offset n)
      else go s (linesOf offset n) fun s => s.hostPut 0 offset bytes
    | some k =>
      match s.apertureSegs k offset n .write with
      | none => s.tellHost 1 []
      | some (ctx, l) =>
        let s := s.apertureCached ctx l
        if l.any (fun g => g.x.pend) then s.tellHost 1 []
        else if l.any (fun g => s.putAborts (g.x.frame + g.x.off) g.len) then
          s.hostAborts (l.flatMap fun g => linesOf (g.x.frame + g.x.off) g.len)
        else go s ((l.flatMap fun g => linesOf (g.x.frame + g.x.off) g.len).eraseDups) fun s => s.hostPutSegs l bytes))

end Sys2Proof.Machine
end

