-- ==== Sys2Proof/Machine/Platform.lean ====
section
/-! DEFINITION. Machine/Platform.lean: power (R438, R439), cooling (R440), resets and the boot (R441 to R443). -/

namespace Sys2Proof.Machine

open Sys2Proof

/-! ## The boot flash (R443) -/

/-- Offset of a bank, and of the control block. -/
def bankAt (bank : Nat) : Nat := if bank = 0 then 0 else 33554432
def controlAt : Nat := 67108864 - 4096

/-- The bank the control block names active; a byte other than 0 and 1 counts by its lowest bit (DESIGN CHOICE, log 5). -/
def activeBank (m : List Host.Cell) : Nat := (memGet m (atFlash controlAt)).toNat % 2

/-- A big-endian number of n bytes. -/
def memBig (m : List Host.Cell) (a n : Nat) : Nat := leNat (memBytes m a n).reverse

/-- What a bank holds: the digest of its header and body, and its VERSION, if FORMAT, HSIZE, LENGTH and the
signature are good (R443). -/
def bankImage (m : List Host.Cell) (bank : Nat) : Option (BitVec 512 × Nat) :=
  let a := atFlash (bankAt bank)
  let len := memNat m (a + 4) 4
  if memNat m a 2 ≠ 1 ∨ memNat m (a + 2) 2 ≠ 512 ∨ 33554432 - 512 < len then none
  else
    let digest := Config.sha512 (memBytes m a 128 ++ memBytes m (a + 512) len)
    if Config.verifies digest (memBig m (a + 128) 66) (memBig m (a + 194) 66) then some (digest, memNat m (a + 8) 8) else none

/-- A bank that KD accepts: its image is good and not older than the rollback floor. -/
def State.goodBank (s : State) (bank : Nat) : Option (BitVec 512 × Nat) :=
  match bankImage s.mem bank with
  | some (d, v) => if s.plat.floor ≤ v then some (d, v) else none
  | none => none

/-- The bank the boot uses: the active one, else the other (R443). -/
def State.bootBank (s : State) : Option (Nat × BitVec 512 × Nat) :=
  let a := activeBank s.mem
  match s.goodBank a with
  | some x => some (a, x)
  | none => (s.goodBank (1 - a)).map fun x => (1 - a, x)

/-! ## Package reset (R441, R442) -/

/-- The checker after a package reset: what the stores powered from VAUX keep (R441; DEDUCED, log 39); the cores that are
left are numbered without the retired ones (R17). -/
def Checker.afterReset (k : Checker) : Checker :=
  { w := k.w, t := k.t, retired := k.retired, units := k.units
    off := (k.retired.filter fun u => u.2.1 == 5 && decide (u.1 < 4)).map fun u => (u.1, u.2.2) }

/-- The Carriage after a reset of the local side (R373): the requests that have left the package before it are known by the
Carriage. -/
def State.localReset (s : State) : State :=
  let s := s.isolate
  let late (r : Request) : Request := { r with expired := true, preReset := true }
  { s with fab := { s.fab with requests := (s.fab.requests.filter fun r => r.unsent == 0).map late } }

/-- Everything that a package reset takes back to its reset value. What other packages and the host have still to
do, the outputs, the Carriage and the stores powered from VAUX stay. -/
def State.clearPackage (s : State) : State :=
  let s := s.localReset
  let car13 (p : Nat × DWord) : Bool := p.1 / 1024 == 13 && (p.1 / 32 % 32 == 11 || p.1 / 32 % 32 == 12 || p.1 / 32 % 32 == 13)
  let replies := s.fab.requests.map fun r => Instr.chunkLanded r.block r.coll r.chunk
  let training := if s.fab.car.state == .training && !s.fab.car.trained then [Instr.carriageTrainingDone] else []
  let resetting := if s.fab.car.resetAt.isSome then [Instr.carriageReset] else []
  let fab : Fabric :=
    { present := s.fab.present, wires := s.fab.wires, pkg := s.fab.pkg, car := s.fab.car, requests := s.fab.requests
      cnt := s.fab.cnt.filter car13 }
  let plat : Platform :=
    { vcd := s.plat.vcd, vcar := s.plat.vcar, floor := s.plat.floor, answers := s.plat.answers, hostReads := s.plat.hostReads
      hostWrites := s.plat.hostWrites, unsolicited := s.plat.unsolicited, last := s.plat.last }
  { mem := s.mem.filter fun c => decide (atFlash 0 ≤ c.1), ck := s.ck.afterReset, fab := fab, plat := plat, next := s.next, ctr := s.ctr
    agenda := replies ++ training ++ resetting
    inputs := s.inputs }

/-- A boot that stops at a step: the dispatcher stays closed, and the failure is reported (R442, R448). -/
def State.bootStops (s : State) (step : Nat) : State :=
  { s with plat := { s.plat with bootFail := some step, unsolicited := (3, step) :: s.plat.unsolicited } }

/-- Step 4 of the boot: the links train, and the probes start from KD, which knows its own links (R363). -/
def State.discover (s : State) : State :=
  let there (w : Wire) : Bool := s.fab.present.contains w.nodeA && s.fab.present.contains w.nodeB
  let s := { s with
    fab := { s.fab with links := (s.fab.wires.filter there).map s.trainLink, nodes := [(12, { found := true })], paused := true }
    plat := { s.plat with booting := true } }
  let s := (s.fab.ports 12).foldl (fun s p => s.sendProbe 12 p) (s.learn 12)
  if s.fab.probed.isEmpty then s.later .routeRecompute else s

/-- PACKAGE_RESET (R441, R442): the boot as far as the probes; the steps after them follow the last route write. -/
def execPackageReset (s : State) : Res :=
  let s := s.clearPackage
  let s := (s.ck.units.filter UnitErr.lasting).foldl (fun s u => s.later (.unitRetirement u.node u.kind u.index)) s
  .next (
    match s.bootBank with
    | none => s.bootStops 2
    | some (bank, digest, version) =>
      let mem := memPut s.mem (atFlash controlAt) (BitVec.ofNat 8 bank)
      let mem := memWriteNat mem (atFlash (controlAt + 8)) 8 version
      ({ s with mem := mem, plat := { s.plat with floor := version, fwDigest := digest } }).discover)

/-! ## Power (R438, R439) -/

/-- POWER_ON (R439): every rail comes up, the Carriage resets with VCAR, and a package reset follows. -/
def execPowerOn (s : State) : Res :=
  let s := { s with plat := { s.plat with vcd := 15, vcar := true } }
  .next (s.resetCarriage.soon .packageReset)

/-- COMPUTE_RAIL_FALL (R439, R404): a power trip of the die. -/
def execComputeRailFall (die : Nat) (s : State) : Res :=
  let s := { s with plat := { s.plat with vcd := s.plat.vcd &&& ~~~(1#4 <<< die) } }
  .next (s.soon (.dieFatalError die))

/-- PACKAGE_RAIL_FALL (R439): a package reset. -/
def execPackageRailFall (_rail : Rail) (s : State) : Res := .next (s.soon .packageReset)

/-- VCAR_FALL (R439): the Carriage goes to OFF, and nothing else is affected. -/
def execVcarFall (s : State) : Res :=
  let s := { s with plat := { s.plat with vcar := false } }
  .next ((s.modCar fun c => c.cleared .off).clearCarCounters)

/-- VCAR_POWER_ON (R439, R441): the Carriage resets and trains. -/
def execVcarPowerOn (s : State) : Res := .next ({ s with plat := { s.plat with vcar := true } }.resetCarriage)

/-! ## Cooling (R440) -/

/-- THERMAL_STEP_DOWN (R440): only the length of the die's cycles changes. -/
def execThermalStepDown (node : Nat) (s : State) : Res :=
  .next { s with plat := { s.plat with hot := Store.put s.plat.hot node true } }

/-- THERMAL_STEP_UP (R440). -/
def execThermalStepUp (node : Nat) (s : State) : Res := .next { s with plat := { s.plat with hot := Store.del s.plat.hot node } }

/-- THERMAL_TRIP (R440): a fatal error of a compute die, a package reset for any other. -/
def execThermalTrip (node : Nat) (s : State) : Res :=
  .next (if node < 4 then s.soon (.dieFatalError node) else s.soon .packageReset)

end Sys2Proof.Machine
end

