-- ==== Sys2Proof/Machine/Mgmt.lean ====
section
/-! DEFINITION. Machine/Mgmt.lean: the management port (R444, R445), the SPDM responder (R446) and the commands of
R447, each answered with a status: 0 done, 1 refused, 2 needs a session, 3 malformed. The bytes of a command's
message are not given by the specification: a command arrives as a step of its own (DESIGN CHOICE, log 17). -/

namespace Sys2Proof.Machine

open Sys2Proof

/-- An answer on the management port. -/
def State.answer (s : State) (status : Nat) (data : List Byte) : State :=
  { s with plat := { s.plat with answers := (status, data) :: s.plat.answers } }

def State.modPlat (s : State) (f : Platform → Platform) : State := { s with plat := f s.plat }

/-- A command that needs a session: refused outside one; malformed, or refused, on its own tests; else it has its
effect and is answered done (R447). -/
def State.command (s : State) (ses malformed refused : Bool) (f : State → State) : State :=
  if !ses then s.answer 2 []
  else if malformed then s.answer 3 []
  else if refused then s.answer 1 []
  else (f s).answer 0 []

/-! ## MCTP (R444, R445) -/

/-- MCTP header fields of a datagram: destination, source, first and last packet, sequence, tag. -/
structure McHead where
  dst : Nat
  src : Nat
  som : Bool
  eom : Bool
  seqno : Nat
  tag : Nat
  deriving DecidableEq, Repr

def mcHead (d : List Byte) : McHead :=
  let f := fieldAt d 7 1
  { dst := fieldAt d 5 1, src := fieldAt d 6 1, som := f.testBit 7, eom := f.testBit 6, seqno := f / 16 % 4, tag := f % 16 }

/-- Whether the device takes a datagram (R445). -/
def State.takesDatagram (s : State) (checksumOk : Bool) (d : List Byte) : Bool :=
  let dst := (mcHead d).dst
  checksumOk && decide (9 ≤ d.length) && decide (d.length ≤ 8 + 1024) && fieldAt d 0 1 == 1 && fieldAt d 2 2 == d.length - 4
    && (dst == s.plat.eid || dst == 0xFF || (s.plat.eid == 0 && dst == 0))

/-- The device takes an endpoint id; who assigned it becomes the bus owner (R445). -/
def State.takeEid (s : State) (source eid : Nat) : State :=
  if eid = 0 ∨ 255 ≤ eid then s.answer 3 []
  else (s.modPlat fun p => { p with eid := eid, busOwner := source }).answer 0 []

/-- A message that has been put together (R444): Set Endpoint ID acts (DSP0236); any other is handed on. -/
def State.message (s : State) (src : Nat) (l : List Byte) : State :=
  let s := s.modPlat fun p => { p with received := (src, l) :: p.received }
  if fieldAt l 0 1 % 128 = 0 ∧ 5 ≤ l.length ∧ fieldAt l 2 1 = 1 ∧ fieldAt l 3 1 % 4 ≤ 1 then s.takeEid src (fieldAt l 4 1) else s

/-- MCTP_PACKET (R445). -/
def execMctpPacket (_source : Nat) (checksumOk : Bool) (datagram : List Byte) (s : State) : Res :=
  let h := mcHead datagram
  let body := datagram.drop 8
  .next (
    if !s.takesDatagram checksumOk datagram then s
    else
      let same (p : Nat × Nat × Nat × List Byte) : Bool := p.1 == h.src && p.2.1 == h.tag
      let old := s.plat.partials.find? same
      let s := s.modPlat fun p => { p with partials := p.partials.filter fun x => !same x }
      let sofar : Option (List Byte) :=
        if h.som then some body
        else match old with
          | some (_, _, n, l) => if n = h.seqno then some (l ++ body) else none
          | none => none
      match sofar with
      | none => s
      | some l =>
        if h.eom then s.message h.src l
        else s.modPlat fun p => { p with partials := (h.src, h.tag, (h.seqno + 1) % 4, l) :: p.partials })

/-- SET_ENDPOINT_ID (R445). -/
def execSetEndpointId (source eid : Nat) (s : State) : Res := .next (s.takeEid source eid)

/-! ## SPDM (R446) -/

/-- A request that comes out of order is answered with an error. -/
def State.spdm (s : State) (ok : Bool) (f : State → State) : State := if ok then f s else s.answer 1 []

/-- The bytes of a 512-bit value. -/
def bytes512 (x : BitVec 512) : List Byte := leBytes 64 x.toNat

/-- Data attested with the attestation key: r, then s, each 66 bytes (R446). -/
def attested (l : List Byte) : List Byte :=
  let sig := Config.attest (Config.sha512 l)
  l ++ be66 sig.1 ++ be66 sig.2

/-- GET_VERSION (R446): negotiation begins anew. -/
def execGetVersion (s : State) : Res :=
  .next ((s.modPlat fun p => { p with version := true, capab := false, algo := false, shared := none, session := none }).answer 0 [0x13])

/-- GET_CAPABILITIES (R446). -/
def execGetCapabilities (s : State) : Res :=
  .next (s.spdm s.plat.version fun s => (s.modPlat fun p => { p with capab := true }).answer 0 [])

/-- NEGOTIATE_ALGORITHMS (R446): ECDSA and Diffie-Hellman on P-521, SHA-512 and AES-256-GCM are what the device
has. -/
def execNegotiateAlgorithms (p521 sha512 aes256gcm : Bool) (s : State) : Res :=
  .next (s.spdm (s.plat.capab && p521 && sha512 && aes256gcm) fun s => (s.modPlat fun p => { p with algo := true }).answer 0 [])

/-- GET_DIGESTS (R446): the digest of the one slot's chain. -/
def execGetDigests (s : State) : Res := .next (s.spdm s.plat.algo fun s => s.answer 0 (bytes512 (Config.sha512 Config.certificate)))

/-- GET_CERTIFICATE (R446). -/
def execGetCertificate (slot offset count : Nat) (s : State) : Res :=
  .next (s.spdm (s.plat.algo && slot == 0) fun s => s.answer 0 ((Config.certificate.drop offset).take count))

/-- CHALLENGE (R446): the requester's nonce and the device's, attested. -/
def execChallenge (nonce : List Byte) (s : State) : Res :=
  .next (s.spdm s.plat.algo fun s => s.answer 0 (attested (nonce ++ bytes512 (Config.sha512 Config.certificate) ++ bytes512 (Config.spdmRandom s.ctr))))

/-- The retirement table as it is measured. -/
def Checker.retiredBytes (k : Checker) : List Byte := k.retired.flatMap fun u => leBytes 1 u.1 ++ leBytes 1 u.2.1 ++ leBytes 4 u.2.2

/-- A measurement of R446. -/
def State.measurement (s : State) : Nat → Option (BitVec 512)
  | 1 => some Config.romDigest
  | 2 => some s.plat.fwDigest
  | 3 => some (Config.sha512 s.ck.retiredBytes)
  | 4 => some (Config.sha512 s.fab.topology)
  | _ => none

/-- The content of a measurement answer: their number for index 0, all of them for 255, else the one named. -/
def State.measurements (s : State) (index : Nat) : Option (List Byte) :=
  if index = 0 then some [4]
  else if index = 255 then some ([1, 2, 3, 4].flatMap fun i => bytes512 ((s.measurement i).getD 0))
  else (s.measurement index).map bytes512

/-- GET_MEASUREMENTS (R446). -/
def execGetMeasurements (index : Nat) (nonce : List Byte) (s : State) : Res :=
  .next (s.spdm s.plat.algo fun s =>
    match s.measurements index with
    | none => s.answer 1 []
    | some l => s.answer 0 (attested (l ++ nonce)))

/-- KEY_EXCHANGE (R446). -/
def execKeyExchange (source : Nat) (share : List Byte) (s : State) : Res :=
  .next (s.spdm s.plat.algo fun s =>
    (s.modPlat fun p => { p with shared := some source }).answer 0 (attested (share ++ bytes512 (Config.spdmRandom s.ctr))))

/-- FINISH (R446, R448): the session opens, and its requester is the one that unsolicited messages go to. -/
def execFinish (source : Nat) (proofOk : Bool) (s : State) : Res :=
  .next (s.spdm (s.plat.shared == some source) fun s =>
    if proofOk then (s.modPlat fun p => { p with shared := none, session := some source, last := some source }).answer 0 []
    else (s.modPlat fun p => { p with shared := none }).answer 1 [])

/-- END_SESSION (R446). -/
def execEndSession (source : Nat) (s : State) : Res :=
  .next (s.spdm (s.plat.session == some source) fun s => (s.modPlat fun p => { p with session := none }).answer 0 [])

/-! ## Contexts, grants, windows -/

/-- Whether a context entry breaks R337; an entry address is that of a packet of 12 bytes (R37, R39). -/
def ctxBad (ctx : Nat) (e : List Byte) : Bool :=
  let entryOk (a : Nat) : Bool := a == 0 || (a % 12 == 0 && decide (a < 2 ^ 48))
  decide (4096 ≤ ctx) || e.length != 64 || fieldAt e 0 8 % 8192 != 0 || decide (8 ≤ fieldAt e 10 1) || fieldAt e 11 5 != 0
    || fieldAt e 32 32 != 0 || !entryOk (fieldAt e 16 8) || !entryOk (fieldAt e 24 8)

/-- CTXWRITE (R337). -/
def execCtxwrite (ses : Bool) (ctx : Nat) (entry : List Byte) (s : State) : Res :=
  let f := fieldAt entry 10 1
  let c : Ctx := { root := fieldAt entry 0 8, tenant := fieldAt entry 8 2, valid := f.testBit 0, launchx := f.testBit 1, remote := f.testBit 2
                   trapent := BitVec.ofNat 64 (fieldAt entry 16 8), dbgent := BitVec.ofNat 64 (fieldAt entry 24 8) }
  .next (s.command ses (ctxBad ctx entry) false fun s => { s with ctxs := Store.put s.ctxs ctx c })

/-- Whether a range of D may not be granted: the overflow area and the trace buffers of the die (R172). -/
def State.neverGranted (s : State) (die base len : Nat) : Bool :=
  let meets (a n : Nat) : Bool := decide (base < a + n) && decide (a < base + len)
  let trace (c : Core) : Bool :=
    c.die == die && meets (c.sampRec.extractLsb' 0 32).toNat (64 * (c.sampRec.extractLsb' 32 16).toNat)
  meets (Config.overflowArea die % 4097 * 4096) 16777216 || (s.c :: s.cores).any trace

/-- GRANT (R343, R172): the range is zeroed and its granules are set full. A length of 0 takes the grant away
(DEDUCED, log 26). -/
def execGrant (ses : Bool) (die num ctx base len : Nat) (s : State) : Res :=
  let bad := decide (4 ≤ die) || decide (64 ≤ num) || decide (4096 ≤ ctx) || base % 4096 != 0 || len % 4096 != 0
    || decide (33554432 < base + len)
  let g : Grant := { die := die, num := num, ctx := ctx, base := base, len := len }
  .next (s.command ses bad (len != 0 && s.neverGranted die base len) fun s =>
    { s with
      grants := s.grants.filter (fun x => !(x.die == die && x.num == num)) ++ (if len = 0 then [] else [g])
      mem := memZero s.mem (atD die base) len
      ue := clearUE s.ue (atD die base) len
      empty := setFull s.empty (atD die base) len })

/-- WINBIND (R273, R342). -/
def execWinbind (window tenant : Nat) (cap : List Byte) (s : State) : Res :=
  let bad := decide (256 ≤ window) || decide (65536 ≤ tenant) || cap.length != 32 || fieldAt cap 3 1 != 0xFF
  let c : Cap := if capFields cap then parseCap cap else {}
  .next (s.command true bad false fun s =>
    { s with windows := Store.put s.windows window { s.window window with bound := true, tenant := tenant, cap := c, left := c.allow } }.signalAll)

/-! ## Numbers and tables -/

/-- PKGNUM (R360). -/
def execPkgnum (num : Nat) (s : State) : Res :=
  .next (s.command true (decide (65536 ≤ num)) false fun s => { s with fab := { s.fab with pkg := num } })

/-- FWDTAB (R374). -/
def execFwdtab (pkg primary alternate : Nat) (s : State) : Res :=
  .next (s.command true (decide (65536 ≤ pkg) || decide (18 ≤ primary) || decide (18 ≤ alternate)) false fun s =>
    s.modCar fun c => { c with fwd := Store.put c.fwd pkg (primary, alternate) })

/-- SCREEN (R397). -/
def execScreen (q : Nat) (s : State) : Res :=
  .next (s.command true (decide (q < 4) || decide (20 < q)) false fun s => { s with ck := { s.ck with q := q } })

/-- WINDOW (R421). -/
def execWindow (seconds threshold : Nat) (s : State) : Res :=
  .next (s.command true (decide (seconds < 60) || decide (2592000 < seconds) || threshold == 0 || decide (254 < threshold)) false fun s =>
    { s with ck := { s.ck with w := seconds, t := threshold } })

/-- KEYLOAD (R405). -/
def execKeyload (ses : Bool) (slot tenant : Nat) (s : State) : Res :=
  .next (s.command ses (decide (1024 ≤ slot) || decide (65536 ≤ tenant)) false fun s =>
    { s with ck := { s.ck with keys := Store.put s.ck.keys slot tenant, gens := Store.put s.ck.gens slot s.next }, next := s.next + 1 })

/-- RETIRE-REMOVE (R402). -/
def execRetireRemove (ses : Bool) (node kind index : Nat) (s : State) : Res :=
  .next (s.command ses false (!s.ck.retired.contains (node, kind, index)) fun s =>
    { s with ck := { s.ck with retired := s.ck.retired.filter (· != (node, kind, index)) } })

/-- INJLOCK (R406): unlocking needs a session. -/
def execInjlock (ses lock : Bool) (s : State) : Res :=
  .next (s.command (ses || lock) false false fun s => { s with ck := { s.ck with injLock := lock } })

/-! ## Cores -/

/-- Whether a core has a logical index: one that is present and not retired (R17). -/
def State.coreNamed (s : State) (die core : Nat) : Bool :=
  decide (die < 4) && decide (core < 112) && s.fab.present.contains die && !(s.coreAt die core).retired

/-- HALT (R325). -/
def execHalt (die core : Nat) (on : Bool) (s : State) : Res :=
  .next (s.command true (!s.coreNamed die core) false fun s =>
    let s := s.focusCore die core
    s.setDbgCtl (if on then s.c.dbgCtl ||| 0x10000 else s.c.dbgCtl &&& ~~~0x10000))

/-- The frames whose leaf no longer maps them stop carrying their tags (R395). -/
def State.untagUnmapped (s : State) : State :=
  let mapped (leaf : Nat) : Bool := (memGet s.mem leaf).getLsbD 0
  let keep (t : Tag) : Tag := { t with frames := t.frames.filter mapped }
  { s with ck := { s.ck with tags := s.ck.tags.map keep } }.freeTags

/-- TLBI (R354): the cached entries of every context, of one, or of some pages of one are dropped, in the caches of R352
and in that of the apertures (R350). -/
def execTlbi (ctx : Option Nat) (va pages : Nat) (s : State) : Res :=
  let hit (e : TlbEntry) : Bool :=
    match ctx with
    | none => true
    | some c => e.ctx == c && (pages == 0 || (decide (e.va < va + 4096 * pages) && decide (va < e.va + e.size)))
  let leads (w : WalkEntry) : Bool :=
    match ctx with
    | none => true
    | some c =>
      let size := 2 ^ (12 + 9 * w.lvl)
      w.ctx == c && (pages == 0 || (decide (w.tag * size < va + 4096 * pages) && decide (va < (w.tag + 1) * size)))
  .next (s.command true false false fun s =>
    { s with tlb := s.tlb.filter (fun e => !hit e), walks := s.walks.filter fun w => !leads w }.untagUnmapped)

/-- SAVEPOOL (R327). -/
def execSavepool (die core : Nat) (base : DWord) (s : State) : Res :=
  .next (s.command true (!s.coreNamed die core || base.extractLsb' 0 22 != 0 || base.extractLsb' 48 8 != 0) false fun s =>
    s.modCore die core fun c => { c with saveBase := base })

/-! ## Reads -/

/-- The 32 bytes of a fault record entry (R401). -/
def FaultRec.bytes (e : FaultRec) : List Byte :=
  leBytes 8 e.ns ++ leBytes 1 e.cls ++ leBytes 1 e.node ++ leBytes 2 e.kind ++ leBytes 4 e.index ++ leBytes 8 e.addr
    ++ leBytes 4 e.opid ++ leBytes 1 e.count ++ leBytes 1 e.outcome ++ leBytes 2 0

/-- FAULTREAD (R401). -/
def execFaultread (s : State) : Res := .next (s.answer 0 (s.ck.faults.flatMap FaultRec.bytes))

/-- A package counter as it is read. Those of a port's queue count time, and hits of a die's cache, misses that a full table
holds and corrected errors are free numbers too (R420; DESIGN CHOICE, log 2). -/
def State.counter (s : State) (node index port : Nat) : DWord :=
  let k := 1024 * node + 32 * index + port
  Store.get 0 s.fab.cnt k + (if [2, 3, 6, 7, 9].contains index then BitVec.ofNat 64 (Config.timingEvents (s.ctr + k)) else 0)

/-- COUNTREAD (R420): every counter of a node, by index and port. -/
def execCountread (node : Nat) (s : State) : Res :=
  .next (if 14 ≤ node then s.answer 3 []
    else s.answer 0 ((upto 19).flatMap fun i => (upto (if node = 13 then 26 else 13)).flatMap fun p => leBytes 8 (s.counter node i p).toNat))

/-! ## Resets (R441) -/

/-- RESET (R441): a package reset follows. -/
def execReset (ses : Bool) (s : State) : Res := .next (s.command ses false false fun s => s.soon .packageReset)

/-- A core as its reset leaves it; what has been retired stays so (R403, R441). -/
def Core.fresh (c : Core) : Core :=
  { die := c.die, idx := c.idx, lostSlots := c.lostSlots, lostZt := c.lostZt, lostSegs := c.lostSegs, lostS := c.lostS, retired := c.retired }

/-- COREINIT (R441): on a core that holds no block. -/
def execCoreinit (ses : Bool) (die core : Nat) (s : State) : Res :=
  .next (s.command ses (!s.coreNamed die core) (!(s.coreBlocks die core).isEmpty) fun s => s.modCore die core Core.fresh)

/-- CARRESET (R374, R441): the neighbours are asked to quiesce first. -/
def execCarreset (ses : Bool) (s : State) : Res :=
  let live := s.fab.car.state == .forward || s.fab.car.state == .isolateLocal
  let ask := linkFlit { cls := 15, srcn := 13, dstn := 13, srcp := s.fab.pkg } []
  .next (s.command ses false (s.fab.car.state == .off) fun s =>
    let s := s.modCar fun c => { c with
      resetAt := some s.ns
      asked := if live then (upto 18).filter c.portUp else []
      sent := if live then ((upto 18).filter c.portUp).foldl (fun l p => (p, ask) :: l) c.sent else c.sent }
    s.later .carriageReset)

/-! ## Tasks and images -/

/-- TASKEND (R447): every gang of the task ends, and the task with reason ENDED. -/
def execTaskend (ses : Bool) (task : Nat) (s : State) : Res :=
  .next (s.command ses false (s.tasks.all fun t => t.id != task || decide (2 ^ 32 ≤ t.id)) fun s =>
    let s := s.modTask task fun t => { t with ending := true }
    (((s.endTaskGangs task).settleTask task).tryReleases).later .blockAdmission)

/-- The image that a command names, and where its bytes are (R447). -/
def State.namedImage (s : State) : ImageSource → Option (Image × Nat × Bool)
  | .pool die core slot =>
    (s.images.find? fun im => im.die == die && im.core == core && im.slot == some slot).map fun im => (im, im.addr, true)
  | .physical a =>
    (s.images.find? fun im => im.block.task == memNat s.mem (a + 4) 4 && im.block.num == memNat s.mem (a + 12) 4).map fun im => (im, a, false)

/-- IMGQUEUE (R335, R447): an image of version 1 at the head of its level. -/
def execImgqueue (ses : Bool) (source : ImageSource) (s : State) : Res :=
  let badAddr := match source with
    | .physical a => a % 64 != 0 || !(s.ranges.any fun r => decide (r.1 ≤ a) && decide (a < r.1 + r.2))
    | .pool die core _ => !s.coreNamed die core
  let found := s.namedImage source
  let refused := match found with
    | none => true
    | some (im, a, _) => memNat s.mem a 2 != 1 || s.levels.any fun (l : Nat × List QEntry) => l.2.contains (QEntry.image im.id)
  .next (s.command ses badAddr refused fun s =>
    match found with
    | none => s
    | some (im, a, _) =>
      let put (x : Image) : Image := if x.id = im.id then { x with addr := a } else x
      let p := im.block.prio
      { s with
        images := s.images.map put
        levels := Store.put s.levels p (.image im.id :: Store.get [] s.levels p) }.later .blockAdmission)

/-! ## The host's view of memory (R350, R351) -/

/-- APERBIND (R350). -/
def execAperbind (ses : Bool) (aperture : Nat) (target : Option (Nat × Nat)) (s : State) : Res :=
  let bad := decide (64 ≤ aperture) || match target with
    | some (c, b) => decide (4096 ≤ c) || b % 2 ^ 30 != 0 || decide (2 ^ 48 ≤ b)
    | none => false
  .next (s.command ses bad false fun s =>
    { s with apertures := match target with
        | some x => Store.put s.apertures aperture x
        | none => Store.del s.apertures aperture })

/-- HOSTRANGE (R351). -/
def execHostrange (ses : Bool) (base len : Nat) (declare : Bool) (s : State) : Res :=
  let bad := base % 2097152 != 0 || len % 2097152 != 0 || len == 0
  let refused := if declare then decide (64 ≤ s.ranges.length) else !s.ranges.contains (base, len)
  .next (s.command ses bad refused fun s =>
    { s with ranges := if declare then s.ranges ++ [(base, len)] else s.ranges.filter (· != (base, len)) })

/-! ## Firmware (R443) -/

/-- FWWRITE (R443): only the bank that is not active is written. -/
def execFwwrite (ses : Bool) (offset : Nat) (bytes : List Byte) (s : State) : Res :=
  let bank := 1 - activeBank s.mem
  let size := if bank = 0 then 33554432 else 33554432 - 4096
  .next (s.command ses (decide (size < offset + bytes.length)) false fun s =>
    { s with mem := memWrite s.mem (atFlash (bankAt bank + offset)) bytes })

/-- FWSELECT (R443): the other bank becomes active for the next package reset, if KD accepts its image. -/
def execFwselect (ses : Bool) (s : State) : Res :=
  let bank := 1 - activeBank s.mem
  .next (s.command ses false (s.goodBank bank).isNone fun s =>
    { s with mem := memPut s.mem (atFlash controlAt) (BitVec.ofNat 8 bank) })

end Sys2Proof.Machine
end

