-- ==== Sys2Proof/Machine/Sched.lean ====
section
/-! DEFINITION. Machine/Sched.lean: the schedulers: the ends of waits, the readiness of issue groups, the choice
of the next chain, ageing (R20, R284), and the entry of a handler once a stop is complete (R313). -/

namespace Sys2Proof.Machine

open Sys2Proof

/-! ## The ends of waits -/

/-- Whether what a slice waits for has come about, for the waits that end at its scheduler's turn (R202, R203,
R302, R410). -/
def State.waitOver (s : State) (sl : Slice) : Bool :=
  let retired (l : List Nat) : Bool := l.all fun k => s.g.kops.all fun o => o.id != k
  match sl.wait with
  | .waitf m => sl.flags.all fun r => !m.getLsbD r.flag
  | .waitc _ _ ops => retired ops
  | .bar slot phase =>
    match s.groupOf s.g slot with
    | none => true
    | some num => (s.barrier s.g.task num).broken || (s.barrier s.g.task num).phase != phase
  | .wclose _ ops posted => retired ops && posted.all fun w => !s.postedWords.contains w
  | _ => false

/-- Whether a slice stands in BAR on a broken group (R303). -/
def State.barBroken (s : State) (sl : Slice) : Bool :=
  match sl.wait with
  | .bar slot _ => s.slotBroken s.g slot
  | _ => false

/-- A slice whose wait is over: it stands at the next word, unless its wait followed its chain. -/
def Slice.goOn (broken : Bool) (sl : Slice) : Slice :=
  match sl.wait with
  | .wclose _ _ _ => { sl with wait := .none }
  | _ => if broken then sl.broken else { sl with wait := .none, pc := nextWord sl.pc }

/-- Whether a slice waits for a WCLOSE to end. -/
def Slice.closing (sl : Slice) : Bool :=
  match sl.wait with
  | .wclose _ _ _ => true
  | _ => false

/-- The end of a WCLOSE: a recorded posted abort marks the operator (R410). -/
def State.closeAbort (s : State) : State :=
  match s.operOf s.g.task with
  | none => s
  | some o => if s.g.abort.isSome && s.b.replay.isNone then s.modOper o.id fun o => { o with ue := some (o.ue.getD 4) } else s

/-- The slices of the gang in focus that may go on, their issue groups whole (R202). -/
def State.overSlices (s : State) : List Nat :=
  (upto 8).filter fun i =>
    s.mayWake i && s.waitOver (s.g.slice i)
      && (s.g.group (s.g.slice i).grp).all fun j => (s.g.slice j).wait == .none || s.waitOver (s.g.slice j)

/-- What a slice awaits synchronously and is still to come: words, and the write-backs of lines (R56, R355). -/
def State.owed (s : State) (sl : Slice) : Slice :=
  { sl with sync := sl.sync.filter s.isOut, backs := sl.backs.filter fun n => decide (0 < (s.line n).coming) }

/-- The waits of the gang in focus that are over end, and a draining FENCE that is complete raises its abort (R204). -/
def State.release (s : State) : State :=
  let s := { s.settleOrders with g := { s.settleOrders.g with slices := s.g.slices.map s.owed } }.raiseDrained
  let l := s.overSlices
  let s' := if l.any fun i => (s.g.slice i).closing then s.closeAbort else s
  let g := s'.g.modSlices l fun _ sl => sl.goOn (s.barBroken sl)
  ({ s' with g := g }).wakeAny

/-! ## Readiness (R284) -/

/-- Whether a word holds its chain back at the counters of R198 or the limit of R311 (event 0x00B). -/
def State.limitHeld (s : State) : Instr → Bool
  | .ld _ _ _ _ _ _ _ | .lda _ _ _ _ _ _ _ | .ldx _ _ _ _ _ _ _ | .st _ _ _ _ _ _ _ | .strel _ _ _ _ _ _ _
  | .ldw _ _ _ _ _ _ _ | .ldt _ _ _ _ _ _ _ | .stf _ _ _ _ _ _ _ | .stx _ _ _ _ _ _ _ => s.fullFlights
  | .gst _ _ _ _ _ _ => s.fullFlights || s.kHold 1
  | .atom _ _ _ _ _ _ f => s.fullFlights || (f != 15 && s.kHold 2)
  | .feset _ _ _ _ _ | .chreset _ _ => !s.lanes.isEmpty && s.kHold 0
  | .claim _ _ _ | .free _ _ | .tld _ _ _ _ | .tldt _ _ _ _ | .tldm _ _ _ | .zclr _ _ | .zld _ _ _ _ | .zst _ _ _ _ _
  | .mmabf _ _ _ _ | .mmah _ _ _ _ | .mmai8 _ _ _ _ | .mmai16 _ _ _ _ | .mmaf64 _ _ _ _ | .mmaq4 _ _ _ _
  | .mmasbf _ _ _ _ | .mmasi8 _ _ _ _ _ | .tst _ _ _ _ | .mgemm _ _ => !s.lanes.isEmpty && s.kHold 3
  | .cpart _ _ => s.kHold 0
  | .cpmx _ _ => s.kHold 0 || s.kHold 3
  | .gather _ _ | .scatter _ _ => s.kHold 1
  | .cred _ _ => s.kHold 5
  | .wrsMqSend _ _ => s.kHold 4
  | .rte => s.rteHold
  | .launch _ _ _ | .wemit _ _ _ _ => !s.lanes.isEmpty && s.kHold 4
  | .chclose _ _ => s.kHold 4
  | _ => false

/-- Whether a no-return ATOM is held back for want of posted entries (event 0x00C). -/
def State.postedHeld (s : State) : Instr → Bool
  | .atom _ _ _ _ _ _ f => f == 15 && decide (s.postedRoom < s.lanes.length)
  | _ => false

/-- The number of elements of a WEMIT (R409). -/
def State.emitCount (s : State) (z : BitVec 5) : Nat := (s.src.val (2 * z.toNat + 1) (leader s.lanes)).toNat

/-- Whether a word holds its chain back (R40). -/
def State.blocked (s : State) : Instr → Bool
  | .ld _ _ a f _ sp z => s.spadHold { kind := .ld, space := spaceOf sp, size := 4 * sizeRegs z, reg := 0 } a.toNat f.toNat
  | .lda _ _ a f _ sp z => s.spadHold { kind := .lda, space := spaceOf sp, size := 4 * sizeRegs z, reg := 0 } a.toNat f.toNat
  | .ldx _ _ a f _ sp _ => s.spadHold { kind := .ldx, space := spaceOf sp, size := 1, reg := 0 } a.toNat f.toNat
  | .st _ _ a f _ sp z => s.spadHold { kind := .st, space := spaceOf sp, size := 4 * sizeRegs z, reg := 0 } a.toNat f.toNat
  | .strel _ _ a f _ sp z => s.spadHold { kind := .strel, space := spaceOf sp, size := 4 * sizeRegs z, reg := 0 } a.toNat f.toNat
  | .stx _ _ a f _ sp _ => s.spadHold { kind := .stx, space := spaceOf sp, size := 1, reg := 0 } a.toNat f.toNat
  | .ldw _ _ a f _ sp z => s.spadHold { kind := .ldw, space := spaceSD sp, size := 4 * sizeRegs z, reg := 0 } a.toNat f.toNat
  | .ldt _ _ a f _ sp z => s.spadHold { kind := .ldt, space := spaceSD sp, size := 4 * sizeRegs z, reg := 0 } a.toNat f.toNat
  | .stf _ _ a f _ sp z => s.spadHold { kind := .stf, space := spaceSD sp, size := 4 * sizeRegs z, reg := 0 } a.toNat f.toNat
  | .gst _ _ _ f _ _ => s.gstHold f.toNat
  | .atom _ _ _ _ _ _ f => s.atomHold f.toNat
  | .feset _ _ _ _ _ | .chreset _ _ => !s.lanes.isEmpty && s.kHold 0
  | .claim _ _ _ | .free _ _ | .tld _ _ _ _ | .tldt _ _ _ _ | .tldm _ _ _ | .zclr _ _ | .zld _ _ _ _ | .zst _ _ _ _ _
  | .mmabf _ _ _ _ | .mmah _ _ _ _ | .mmai8 _ _ _ _ | .mmai16 _ _ _ _ | .mmaf64 _ _ _ _ | .mmaq4 _ _ _ _
  | .mmasbf _ _ _ _ | .mmasi8 _ _ _ _ _ | .tst _ _ _ _ => s.mxHold
  | .mgemm _ y => s.mxHold || (!s.lanes.isEmpty && s.storesPending (s.src.val y.toNat (leader s.lanes)).toNat 56)
  | .cpart _ y => s.copyHold 0 y.toNat
  | .cpmx _ y => s.copyHold 1 y.toNat
  | .gather _ y => s.copyHold 2 y.toNat
  | .scatter _ y => s.copyHold 3 y.toNat
  | .cred _ y => s.copyHold 4 y.toNat
  | .chtest _ _ y _ => !s.lanes.isEmpty && s.storesPending (s.src.val y.toNat (leader s.lanes)).toNat 64
  | .chclose _ n => (s.g.chan n.toNat).opened && s.kHold 4
  | .wrsMqSend _ _ => s.sendHold
  | .rdsMqRecv _ _ n => s.recvHold n.toNat
  | .launch _ n y => s.launchHold n.toNat y.toNat
  | .bar _ sl => s.barHold sl.toNat
  | .wemit _ i y z => !s.lanes.isEmpty && s.emitHold y.toNat i.toNat (s.emitCount z)
  | .evict _ => s.priv && s.poolFree s.b.die s.b.core == 0
  | .rte => s.rteHold
  | _ => false

/-- The words of the chain that the group chosen would issue next; none if it would raise a fault instead. -/
def State.nextChain (s : State) : Option (List Instr) :=
  let pc := s.groupPc
  match s.fetch (packetOf pc).toNat with
  | .error _ => none
  | .ok (_, words) =>
    let j := (pc &&& 3).toNat
    let rest := words.drop j
    let chain := chainOf rest
    if (packetFault s.priv j [] rest).isSome
      || (s.debugMatch ((upto chain.length).map fun k => pc + BitVec.ofNat 64 k)).isSome then none
    else some (chain.filterMap fun f => f.dec.toOption)

/-- The gang in focus with one of its groups taken as the issuing one. -/
def State.select (s : State) (k : Nat) : State := { s with sel := some (s.g.uid, k), snap := none }

/-- Whether a group of the gang in focus stands at a word it may look at: none of its slices waits or has a
program held by a stop, a handler, an eviction or a debugger (R284, R300, R313, R325). -/
def State.groupFree (s : State) (k : Nat) : Bool :=
  let l := s.g.group k
  !l.isEmpty && (l.all fun i => (s.g.slice i).wait == .none && (s.g.slice i).sync.isEmpty && (s.g.slice i).backs.isEmpty && s.mayWake i)
    && s.g.yielded != some k

/-- Whether a chain that could issue does issue: its window is open and no word of it is held back (R40, R58). A
chain that raises a fault is ready. -/
def State.chainReady (s : State) : Bool :=
  match s.nextChain with
  | none => true
  | some ws => !s.windowShut ws.length && ws.all fun i => !s.blocked i

/-- The groups of the gang in focus, each by the number it formed under, lowest slice first. -/
def Gang.groups (g : Gang) : List Nat := (((upto 8).filter g.live.getLsbD).map fun i => (g.slice i).grp).eraseDups

/-- The groups of the gang in focus that could issue in this cycle (R284). -/
def State.readyGroups (s : State) : List Nat :=
  s.g.groups.filter fun k =>
    s.groupFree k && (s.select k).chainReady && !Config.delayed (8 * s.ctr + k) s.g.uid

/-- What the counters of R419 add for a group that a limit or the want of posted entries holds back: once at least
(DESIGN CHOICE, log 2). -/
def State.countHeld (s : State) : State :=
  let words := (s.g.groups.filter s.groupFree).flatMap fun k => (((s.select k).nextChain).getD []).map fun i => (k, i)
  let lim := words.any fun (w : Nat × Instr) => (s.select w.1).limitHeld w.2
  let post := words.any fun (w : Nat × Instr) => (s.select w.1).postedHeld w.2
  let s := if lim then s.count 0x00B (1 + Config.timingEvents (64 * s.ctr + 0x00B)) else s
  if post then s.count 0x00C (1 + Config.timingEvents (64 * s.ctr + 0x00C)) else s

/-! ## A cycle -/

/-- Occurrences of the events that are times, free numbers of them (R419; DESIGN CHOICE, log 2). -/
def State.countTimes (s : State) (events : List Nat) (who : Option (Nat × Nat)) : State :=
  events.foldl (fun s e => { s with c := s.c.count e (Config.timingEvents (64 * s.ctr + e)) who }) s

/-- A cycle of the core in focus begins: its clock, and what it counts in each cycle (R150, R419; DESIGN CHOICE, log 2). -/
def State.newCycle (s : State) : State :=
  let n := 1 + Config.stall s.ctr
  let c := { s.c with cycle := s.c.cycle + n }
  let c := (c.count 0x001 n none).count 0x00A (n * s.parkedHere) none
  ({ s with c := c.count 0x00D (n * s.postedIn c.die c.idx) none }).countTimes [0x012, 0x020] none

/-- The live gangs that a scheduler of the core in focus holds. -/
def State.gangsOf (s : State) (k : Nat) : List Nat :=
  let here (b : Block) : Bool := b.die == s.c.die && b.core == s.c.idx
  let blocks := (s.allBlocks.filter here).map Block.uid
  (s.allGangs.filter fun g => g.live != 0 && g.sched == k && blocks.contains g.block).map Gang.uid

/-- The group that issues among the ready ones of a gang: round-robin by lowest slice (R20). -/
def Gang.nextGroup (g : Gang) (l : List Nat) : Nat :=
  (l.find? fun k => decide (g.lastGrp < (g.group k).headD 0)).getD (l.headD 0)

/-- A gang that is ready: itself and its ready groups. -/
structure Contender where
  uid : Nat
  level : Nat
  key : Nat
  grp : Nat
  deriving DecidableEq, Repr

/-- A gang looked at by its scheduler: what is over of its waits ends, and its counts are kept. -/
def State.look (s : State) (uid : Nat) : State :=
  let s := ((s.focus uid).release).countHeld
  s.countTimes [0x008, 0x00F, 0x010, 0x011] (some (s.g.sched, s.b.prio))

/-- The readiness of a gang. -/
def State.readyGang (s : State) (uid : Nat) : Option Contender :=
  let s := s.focus uid
  match s.readyGroups with
  | [] => none
  | l => some { uid := uid, level := s.g.level, key := s.g.key, grp := s.g.nextGroup l }

/-- The one of two ready gangs that issues: the higher level, then the smaller key (R284). -/
def Contender.better (x y : Contender) : Contender :=
  if y.level < x.level then x else if x.level < y.level then y else if x.key ≤ y.key then x else y

/-- The gang that issues. -/
def Contender.best : List Contender → Option Contender
  | [] => none
  | x :: t =>
    match Contender.best t with
    | none => some x
    | some y => some (x.better y)

/-- A ready gang that does not issue counts its wait (R284). -/
def State.passOver (s : State) (uid : Nat) : State :=
  let s := s.modGang uid fun g => { g with waits := g.waits + 1 }
  match s.findGang uid with
  | some g => if 256 ≤ g.waits then s.soon (.ageingLevelRise uid) else s
  | none => s

/-- A gang issues: it returns to its base level, and the group is chosen for its next chain (R284). -/
def State.issueNext (s : State) (r : Contender) : State :=
  let s := s.focus r.uid
  { s with g := { s.g with level := s.b.prio, waits := 0 }, sel := some (r.uid, r.grp) }

/-- Scheduler k of the core in focus takes its turn (R284). -/
def State.schedule (s : State) (k : Nat) : State :=
  let mine := s.gangsOf k
  let s := mine.foldl State.look s
  let ready := mine.filterMap s.readyGang
  let s := mine.foldl (fun s u => s.modGang u fun g => { g with yielded := none }) s
  match Contender.best ready with
  | none => s
  | some r => ((ready.filter fun x => x.uid != r.uid).foldl (fun s x => s.passOver x.uid) s).issueNext r

/-- SCHEDULER_CYCLE (R284): the four schedulers of a core take their turns one after another; the first turn
begins a cycle. -/
def execSchedulerCycle (die core : Nat) (s : State) : Res :=
  let s := s.focusCore die core
  let k := s.c.turn
  let s := if k = 0 then s.newCycle else s
  .next (({ s with c := { s.c with turn := (k + 1) % 4 } }).schedule k)

/-- AGEING_LEVEL_RISE (R284). -/
def execAgeingLevelRise (gang : Nat) (s : State) : Res :=
  let s := s.focus gang
  .next (
    if s.g.uid != gang || decide (s.g.waits < 256) then s
    else
      let s' := { s with g := { s.g with level := min 7 (s.g.level + 1), waits := 0 } }
      if s.g.level < 7 then s'.count 0x01D 1 else s')

/-- HANDLER_ENTRY (R313): the stop is complete once what it waits for has ended. -/
def execHandlerEntry (gang : Nat) (s : State) : Res :=
  let s := s.focus gang
  .next (
    match s.g.stop with
    | none => s
    | some st =>
      if s.g.uid != gang then s
      else if s.g.stopWaits then s.later (.handlerEntry gang)
      else s.enterHandler st)

end Sys2Proof.Machine
end

