-- ==== Sys2Proof/Machine/Dispatch.lean ====
section
/-! DEFINITION. Machine/Dispatch.lean: one arm for each step of the opcode table, each one call of its
meaning. -/

namespace Sys2Proof.Machine

open Sys2Proof

def exec (i : Instr) (s : State) : Host.Outcome State Fault Refusal :=
  match i with
  | .nop _ => Sys2Proof.Machine.execNop s
  | .mov _ d a q => Sys2Proof.Machine.execMov d a q s
  | .movi _ d im => Sys2Proof.Machine.execMovi d im s
  | .movhi _ d im => Sys2Proof.Machine.execMovhi d im s
  | .laneid _ d m q => Sys2Proof.Machine.execLaneid d m q s
  | .sel _ d a b m q => Sys2Proof.Machine.execSel d a b m q s
  | .shfl _ d a b m q => Sys2Proof.Machine.execShfl d a b m q s
  | .bcast _ d a b q => Sys2Proof.Machine.execBcast d a b q s
  | .unif _ d a q => Sys2Proof.Machine.execUnif d a q s
  | .icmp _ d a b m q => Sys2Proof.Machine.execIcmp d a b m q s
  | .icmpi _ k d a im => Sys2Proof.Machine.execIcmpi k d a im s
  | .plog _ d a b m q => Sys2Proof.Machine.execPlog d a b m q s
  | .p2v _ d q => Sys2Proof.Machine.execP2v d q s
  | .v2p _ a q => Sys2Proof.Machine.execV2p a q s
  | .voteAnyAll _ d a m q => Sys2Proof.Machine.execVoteAnyAll d a m q s
  | .voteBallot _ d a q => Sys2Proof.Machine.execVoteBallot d a q s
  | .iadd _ d a b m q => Sys2Proof.Machine.execIadd d a b m q s
  | .isub _ d a b m q => Sys2Proof.Machine.execIsub d a b m q s
  | .iaddi _ d a im => Sys2Proof.Machine.execIaddi d a im s
  | .imul _ d a b m q => Sys2Proof.Machine.execImul d a b m q s
  | .imulhs _ d a b m q => Sys2Proof.Machine.execImulhs d a b m q s
  | .imulhn _ d a b m q => Sys2Proof.Machine.execImulhn d a b m q s
  | .imad _ d a b e => Sys2Proof.Machine.execImad d a b e s
  | .imadw _ d a b e => Sys2Proof.Machine.execImadw d a b e s
  | .imadwn _ d a b e => Sys2Proof.Machine.execImadwn d a b e s
  | .imin _ d a b m q => Sys2Proof.Machine.execImin d a b m q s
  | .imax _ d a b m q => Sys2Proof.Machine.execImax d a b m q s
  | .iabs _ d a m q => Sys2Proof.Machine.execIabs d a m q s
  | .ineg _ d a m q => Sys2Proof.Machine.execIneg d a m q s
  | .idiv _ d a b m q => Sys2Proof.Machine.execIdiv d a b m q s
  | .irem _ d a b m q => Sys2Proof.Machine.execIrem d a b m q s
  | .iaccw _ d a m q => Sys2Proof.Machine.execIaccw d a m q s
  | .addr _ d a b m q => Sys2Proof.Machine.execAddr d a b m q s
  | .addri _ d a im => Sys2Proof.Machine.execAddri d a im s
  | .and _ d a b m q => Sys2Proof.Machine.execAnd d a b m q s
  | .or _ d a b m q => Sys2Proof.Machine.execOr d a b m q s
  | .xor _ d a b m q => Sys2Proof.Machine.execXor d a b m q s
  | .andn _ d a b m q => Sys2Proof.Machine.execAndn d a b m q s
  | .not _ d a m q => Sys2Proof.Machine.execNot d a m q s
  | .andi _ d a im => Sys2Proof.Machine.execAndi d a im s
  | .ori _ d a im => Sys2Proof.Machine.execOri d a im s
  | .xori _ d a im => Sys2Proof.Machine.execXori d a im s
  | .shl _ d a b m q => Sys2Proof.Machine.execShl d a b m q s
  | .shr _ d a b m q => Sys2Proof.Machine.execShr d a b m q s
  | .sar _ d a b m q => Sys2Proof.Machine.execSar d a b m q s
  | .shli _ d a w n => Sys2Proof.Machine.execShli d a w n s
  | .shri _ d a w n => Sys2Proof.Machine.execShri d a w n s
  | .sari _ d a w n => Sys2Proof.Machine.execSari d a w n s
  | .bfx _ d a l p => Sys2Proof.Machine.execBfx d a l p s
  | .bfxs _ d a l p => Sys2Proof.Machine.execBfxs d a l p s
  | .bfi _ d a l p => Sys2Proof.Machine.execBfi d a l p s
  | .bitop _ d a m q => Sys2Proof.Machine.execBitop d a m q s
  | .scan _ d a m q => Sys2Proof.Machine.execScan d a m q s
  | .ired _ d a m q => Sys2Proof.Machine.execIred d a m q s
  | .waitf m => Sys2Proof.Machine.execWaitf m s
  | .waitc k n => Sys2Proof.Machine.execWaitc k n s
  | .waitany p m => Sys2Proof.Machine.execWaitany p m s
  | .bar w sr => Sys2Proof.Machine.execBar w sr s
  | .fadd _ d a b m q => Sys2Proof.Machine.execFadd d a b m q s
  | .fsub _ d a b m q => Sys2Proof.Machine.execFsub d a b m q s
  | .fmul _ d a b m q => Sys2Proof.Machine.execFmul d a b m q s
  | .ffma32 _ d a b e => Sys2Proof.Machine.execFfma32 d a b e s
  | .ffma64 _ d a b e => Sys2Proof.Machine.execFfma64 d a b e s
  | .ffmabf _ d a b e => Sys2Proof.Machine.execFfmabf d a b e s
  | .ffmah _ d a b e => Sys2Proof.Machine.execFfmah d a b e s
  | .fmin _ d a b m q => Sys2Proof.Machine.execFmin d a b m q s
  | .fmax _ d a b m q => Sys2Proof.Machine.execFmax d a b m q s
  | .fsgn _ d a b m q => Sys2Proof.Machine.execFsgn d a b m q s
  | .fcmp _ d a b m q => Sys2Proof.Machine.execFcmp d a b m q s
  | .fclass _ d a m q => Sys2Proof.Machine.execFclass d a m q s
  | .frnd _ d a r m q => Sys2Proof.Machine.execFrnd d a r m q s
  | .fdiv _ d a b m q => Sys2Proof.Machine.execFdiv d a b m q s
  | .fsqrt _ d a m q => Sys2Proof.Machine.execFsqrt d a m q s
  | .frcp _ d a q => Sys2Proof.Machine.execFrcp d a q s
  | .frsq _ d a q => Sys2Proof.Machine.execFrsq d a q s
  | .fexp2 _ d a q => Sys2Proof.Machine.execFexp2 d a q s
  | .flog2 _ d a q => Sys2Proof.Machine.execFlog2 d a q s
  | .fsin _ d a q => Sys2Proof.Machine.execFsin d a q s
  | .fcos _ d a q => Sys2Proof.Machine.execFcos d a q s
  | .cvt _ d a t sr r q => Sys2Proof.Machine.execCvt d a t sr r q s
  | .cvtp _ d a b m q => Sys2Proof.Machine.execCvtp d a b m q s
  | .qenc _ d a b q => Sys2Proof.Machine.execQenc d a b q s
  | .qdec _ d a b q => Sys2Proof.Machine.execQdec d a b q s
  | .fscale _ d a b m q => Sys2Proof.Machine.execFscale d a b m q s
  | .fdot2 _ d a b e => Sys2Proof.Machine.execFdot2 d a b e s
  | .fmovi _ d im => Sys2Proof.Machine.execFmovi d im s
  | .fsum _ d a m q => Sys2Proof.Machine.execFsum d a m q s
  | .fscan _ d a m q => Sys2Proof.Machine.execFscan d a m q s
  | .bra q n im => Sys2Proof.Machine.execBra q n im s
  | .jmp a q => Sys2Proof.Machine.execJmp a q s
  | .call q n im => Sys2Proof.Machine.execCall q n im s
  | .calli a q => Sys2Proof.Machine.execCalli a q s
  | .ret => Sys2Proof.Machine.execRet s
  | .regang m => Sys2Proof.Machine.execRegang m s
  | .exit => Sys2Proof.Machine.execExit s
  | .yield => Sys2Proof.Machine.execYield s
  | .sleep n => Sys2Proof.Machine.execSleep n s
  | .rds _ d sr => Sys2Proof.Machine.execRds d sr s
  | .rdsMqRecv _ d n => Sys2Proof.Machine.execRdsMqRecv d n s
  | .rdsGangFpstat _ d => Sys2Proof.Machine.execRdsGangFpstat d s
  | .wrs _ d sr => Sys2Proof.Machine.execWrs d sr s
  | .wrsMqSend _ d => Sys2Proof.Machine.execWrsMqSend d s
  | .wrsGangFpstat _ d => Sys2Proof.Machine.execWrsGangFpstat d s
  | .wrsSliceStatus _ d => Sys2Proof.Machine.execWrsSliceStatus d s
  | .wrsMxUe _ d => Sys2Proof.Machine.execWrsMxUe d s
  | .wrsPerfSel _ d n => Sys2Proof.Machine.execWrsPerfSel d n s
  | .wrsTrapQ _ d => Sys2Proof.Machine.execWrsTrapQ d s
  | .wrsDbgCtl _ d => Sys2Proof.Machine.execWrsDbgCtl d s
  | .injectZFlipMma _ d => Sys2Proof.Machine.execInjectZFlipMma d s
  | .injectZFlipZst _ d => Sys2Proof.Machine.execInjectZFlipZst d s
  | .injectZUe _ d => Sys2Proof.Machine.execInjectZUe d s
  | .injectSlotUe _ d => Sys2Proof.Machine.execInjectSlotUe d s
  | .injectFatal _ d => Sys2Proof.Machine.execInjectFatal d s
  | .trap k => Sys2Proof.Machine.execTrap k s
  | .rte => Sys2Proof.Machine.execRte s
  | .brk k => Sys2Proof.Machine.execBrk k s
  | .mkpush _ q => Sys2Proof.Machine.execMkpush q s
  | .mkctl _ o => Sys2Proof.Machine.execMkctl o s
  | .ld _ d a f l sr z => Sys2Proof.Machine.execLd d a f l sr z s
  | .ldw _ d a f l sr z => Sys2Proof.Machine.execLdw d a f l sr z s
  | .ldt _ d a f l sr z => Sys2Proof.Machine.execLdt d a f l sr z s
  | .lda _ d a f l sr z => Sys2Proof.Machine.execLda d a f l sr z s
  | .ldx _ d a f l sr z => Sys2Proof.Machine.execLdx d a f l sr z s
  | .st _ d a f l sr z => Sys2Proof.Machine.execSt d a f l sr z s
  | .stf _ d a f l sr z => Sys2Proof.Machine.execStf d a f l sr z s
  | .strel _ d a f l sr z => Sys2Proof.Machine.execStrel d a f l sr z s
  | .stx _ d a f l sr z => Sys2Proof.Machine.execStx d a f l sr z s
  | .gst _ d a f l z => Sys2Proof.Machine.execGst d a f l z s
  | .atom _ d a t o p f => Sys2Proof.Machine.execAtom d a t o p f s
  | .fence _ r k sr => Sys2Proof.Machine.execFence r k sr s
  | .claim _ n t => Sys2Proof.Machine.execClaim n t s
  | .free _ n => Sys2Proof.Machine.execFree n s
  | .tld _ n y z => Sys2Proof.Machine.execTld n y z s
  | .tldt _ n y z => Sys2Proof.Machine.execTldt n y z s
  | .tldm _ n y => Sys2Proof.Machine.execTldm n y s
  | .zclr _ n => Sys2Proof.Machine.execZclr n s
  | .zld _ n y z => Sys2Proof.Machine.execZld n y z s
  | .zst _ m n y z => Sys2Proof.Machine.execZst m n y z s
  | .mmabf _ n a b => Sys2Proof.Machine.execMmabf n a b s
  | .mmah _ n a b => Sys2Proof.Machine.execMmah n a b s
  | .mmai8 _ n a b => Sys2Proof.Machine.execMmai8 n a b s
  | .mmai16 _ n a b => Sys2Proof.Machine.execMmai16 n a b s
  | .mmaf64 _ n a b => Sys2Proof.Machine.execMmaf64 n a b s
  | .mmaq4 _ n a b => Sys2Proof.Machine.execMmaq4 n a b s
  | .mmasbf _ n a b => Sys2Proof.Machine.execMmasbf n a b s
  | .mmasi8 _ h n a b => Sys2Proof.Machine.execMmasi8 h n a b s
  | .mgemm _ y => Sys2Proof.Machine.execMgemm y s
  | .tst _ n y z => Sys2Proof.Machine.execTst n y z s
  | .cpart _ y => Sys2Proof.Machine.execCpart y s
  | .cpmx _ y => Sys2Proof.Machine.execCpmx y s
  | .gather _ y => Sys2Proof.Machine.execGather y s
  | .scatter _ y => Sys2Proof.Machine.execScatter y s
  | .cred _ y => Sys2Proof.Machine.execCred y s
  | .chtest _ p y z => Sys2Proof.Machine.execChtest p y z s
  | .chreset _ y => Sys2Proof.Machine.execChreset y s
  | .feset _ x y sr v => Sys2Proof.Machine.execFeset x y sr v s
  | .bind _ k n y z => Sys2Proof.Machine.execBind k n y z s
  | .unbind _ n => Sys2Proof.Machine.execUnbind n s
  | .ginfo _ x sr im => Sys2Proof.Machine.execGinfo x sr im s
  | .launch _ n y => Sys2Proof.Machine.execLaunch n y s
  | .chopen _ n m => Sys2Proof.Machine.execChopen n m s
  | .chclose _ n => Sys2Proof.Machine.execChclose n s
  | .chsel _ n => Sys2Proof.Machine.execChsel n s
  | .wseed _ x => Sys2Proof.Machine.execWseed x s
  | .wemit _ im y z => Sys2Proof.Machine.execWemit im y z s
  | .wclose _ => Sys2Proof.Machine.execWclose s
  | .sigrd _ x => Sys2Proof.Machine.execSigrd x s
  | .relreq _ x y => Sys2Proof.Machine.execRelreq x y s
  | .tlbinvPage _ y => Sys2Proof.Machine.execTlbinvPage y s
  | .tlbinvRange _ y z => Sys2Proof.Machine.execTlbinvRange y z s
  | .tlbinvCtx _ => Sys2Proof.Machine.execTlbinvCtx s
  | .tlbinvAll _ => Sys2Proof.Machine.execTlbinvAll s
  | .cwb _ h v y z => Sys2Proof.Machine.execCwb h v y z s
  | .evict _ => Sys2Proof.Machine.execEvict s
  | .schedulerCycle die core => Sys2Proof.Machine.execSchedulerCycle die core s
  | .ageingLevelRise gang => Sys2Proof.Machine.execAgeingLevelRise gang s
  | .sleepExpiry gang slice => Sys2Proof.Machine.execSleepExpiry gang slice s
  | .handlerEntry gang => Sys2Proof.Machine.execHandlerEntry gang s
  | .scratchpadLoadComplete gang op => Sys2Proof.Machine.execScratchpadLoadComplete gang op s
  | .scratchpadStoreComplete gang op => Sys2Proof.Machine.execScratchpadStoreComplete gang op s
  | .gstComplete gang op => Sys2Proof.Machine.execGstComplete gang op s
  | .atomComplete gang op => Sys2Proof.Machine.execAtomComplete gang op s
  | .postedAtomicPerform op => Sys2Proof.Machine.execPostedAtomicPerform op s
  | .walkEnd gang op => Sys2Proof.Machine.execWalkEnd gang op s
  | .mxCommandStart cmd => Sys2Proof.Machine.execMxCommandStart cmd s
  | .microTileComplete cmd => Sys2Proof.Machine.execMicroTileComplete cmd s
  | .mxCommandComplete cmd => Sys2Proof.Machine.execMxCommandComplete cmd s
  | .mgemmStepComplete cmd => Sys2Proof.Machine.execMgemmStepComplete cmd s
  | .mgemmEnd cmd => Sys2Proof.Machine.execMgemmEnd cmd s
  | .collectiveStart block => Sys2Proof.Machine.execCollectiveStart block s
  | .chunkLanded block coll chunk => Sys2Proof.Machine.execChunkLanded block coll chunk s
  | .copyFailure block coll chunk => Sys2Proof.Machine.execCopyFailure block coll chunk s
  | .collectiveEnd block coll => Sys2Proof.Machine.execCollectiveEnd block coll s
  | .fesetEffect gang op => Sys2Proof.Machine.execFesetEffect gang op s
  | .fesetComplete gang op => Sys2Proof.Machine.execFesetComplete gang op s
  | .chresetEffect gang op => Sys2Proof.Machine.execChresetEffect gang op s
  | .flitPlacement flit => Sys2Proof.Machine.execFlitPlacement flit s
  | .flitResend flit => Sys2Proof.Machine.execFlitResend flit s
  | .bindingPending gang bind => Sys2Proof.Machine.execBindingPending gang bind s
  | .timerBindingExpiry gang bind => Sys2Proof.Machine.execTimerBindingExpiry gang bind s
  | .brokenTaskTimeout task => Sys2Proof.Machine.execBrokenTaskTimeout task s
  | .samplingChoice die core sched => Sys2Proof.Machine.execSamplingChoice die core sched s
  | .samplingRecord die core sched => Sys2Proof.Machine.execSamplingRecord die core sched s
  | .taskRecordArrival record => Sys2Proof.Machine.execTaskRecordArrival record s
  | .blockAdmission => Sys2Proof.Machine.execBlockAdmission s
  | .blockEvictionSave block => Sys2Proof.Machine.execBlockEvictionSave block s
  | .blockRestore image => Sys2Proof.Machine.execBlockRestore image s
  | .witnessItemStore gang op => Sys2Proof.Machine.execWitnessItemStore gang op s
  | .sigrdReply gang op => Sys2Proof.Machine.execSigrdReply gang op s
  | .relreqReply gang op => Sys2Proof.Machine.execRelreqReply gang op s
  | .witnessTest oper => Sys2Proof.Machine.execWitnessTest oper s
  | .operatorRelease oper => Sys2Proof.Machine.execOperatorRelease oper s
  | .replayStart replay => Sys2Proof.Machine.execReplayStart replay s
  | .replayEnd replay => Sys2Proof.Machine.execReplayEnd replay s
  | .replayAbandon replay => Sys2Proof.Machine.execReplayAbandon replay s
  | .unitRetirement node kind index => Sys2Proof.Machine.execUnitRetirement node kind index s
  | .errorCountAgeing node kind index => Sys2Proof.Machine.execErrorCountAgeing node kind index s
  | .dieFatalError die => Sys2Proof.Machine.execDieFatalError die s
  | .linkFlitReceive link side seqno raw => Sys2Proof.Machine.execLinkFlitReceive link side seqno raw s
  | .linkAck link side seqno => Sys2Proof.Machine.execLinkAck link side seqno s
  | .linkRetrain link => Sys2Proof.Machine.execLinkRetrain link s
  | .requestTimeout request => Sys2Proof.Machine.execRequestTimeout request s
  | .probe node port => Sys2Proof.Machine.execProbe node port s
  | .probeReply node port => Sys2Proof.Machine.execProbeReply node port s
  | .routeWrite node => Sys2Proof.Machine.execRouteWrite node s
  | .routeRecompute => Sys2Proof.Machine.execRouteRecompute s
  | .readRequest die line => Sys2Proof.Machine.execReadRequest die line s
  | .ownRequest die line => Sys2Proof.Machine.execOwnRequest die line s
  | .forwardedRequest die line req own => Sys2Proof.Machine.execForwardedRequest die line req own s
  | .tokensArrive holder origin line tokens owner dirty data => Sys2Proof.Machine.execTokensArrive holder origin line tokens owner dirty data s
  | .dieCacheEviction die line => Sys2Proof.Machine.execDieCacheEviction die line s
  | .transientRetryTimeout die line => Sys2Proof.Machine.execTransientRetryTimeout die line s
  | .persistentActivate die line own => Sys2Proof.Machine.execPersistentActivate die line own s
  | .persistentDeactivate die line => Sys2Proof.Machine.execPersistentDeactivate die line s
  | .deactivateAcknowledge die line => Sys2Proof.Machine.execDeactivateAcknowledge die line s
  | .nackEndpointAbsent request => Sys2Proof.Machine.execNackEndpointAbsent request s
  | .carriageTransitFlit dst hops raw => Sys2Proof.Machine.execCarriageTransitFlit dst hops raw s
  | .carriageTrainingDone => Sys2Proof.Machine.execCarriageTrainingDone s
  | .heartbeat => Sys2Proof.Machine.execHeartbeat s
  | .heartbeatMiss => Sys2Proof.Machine.execHeartbeatMiss s
  | .quiesce port => Sys2Proof.Machine.execQuiesce port s
  | .carriageReset => Sys2Proof.Machine.execCarriageReset s
  | .governorLevelChange node depth => Sys2Proof.Machine.execGovernorLevelChange node depth s
  | .hostWindowSend window payload => Sys2Proof.Machine.execHostWindowSend window payload s
  | .hostWindowRecv window => Sys2Proof.Machine.execHostWindowRecv window s
  | .hostApertureRead aperture offset count => Sys2Proof.Machine.execHostApertureRead aperture offset count s
  | .hostApertureWrite aperture offset bytes => Sys2Proof.Machine.execHostApertureWrite aperture offset bytes s
  | .powerOn => Sys2Proof.Machine.execPowerOn s
  | .computeRailFall die => Sys2Proof.Machine.execComputeRailFall die s
  | .packageRailFall rail => Sys2Proof.Machine.execPackageRailFall rail s
  | .vcarFall => Sys2Proof.Machine.execVcarFall s
  | .packageReset => Sys2Proof.Machine.execPackageReset s
  | .thermalStepDown node => Sys2Proof.Machine.execThermalStepDown node s
  | .thermalStepUp node => Sys2Proof.Machine.execThermalStepUp node s
  | .thermalTrip node => Sys2Proof.Machine.execThermalTrip node s
  | .mctpPacket source checksumOk datagram => Sys2Proof.Machine.execMctpPacket source checksumOk datagram s
  | .setEndpointId source eid => Sys2Proof.Machine.execSetEndpointId source eid s
  | .getVersion => Sys2Proof.Machine.execGetVersion s
  | .getCapabilities => Sys2Proof.Machine.execGetCapabilities s
  | .negotiateAlgorithms p521 sha512 aes256gcm => Sys2Proof.Machine.execNegotiateAlgorithms p521 sha512 aes256gcm s
  | .getDigests => Sys2Proof.Machine.execGetDigests s
  | .getCertificate slot offset count => Sys2Proof.Machine.execGetCertificate slot offset count s
  | .challenge nonce => Sys2Proof.Machine.execChallenge nonce s
  | .getMeasurements index nonce => Sys2Proof.Machine.execGetMeasurements index nonce s
  | .keyExchange source share => Sys2Proof.Machine.execKeyExchange source share s
  | .finish source proofOk => Sys2Proof.Machine.execFinish source proofOk s
  | .endSession source => Sys2Proof.Machine.execEndSession source s
  | .ctxwrite ses ctx entry => Sys2Proof.Machine.execCtxwrite ses ctx entry s
  | .grant ses die num ctx base len => Sys2Proof.Machine.execGrant ses die num ctx base len s
  | .winbind window tenant cap => Sys2Proof.Machine.execWinbind window tenant cap s
  | .pkgnum num => Sys2Proof.Machine.execPkgnum num s
  | .fwdtab pkg primary alternate => Sys2Proof.Machine.execFwdtab pkg primary alternate s
  | .screen q => Sys2Proof.Machine.execScreen q s
  | .window seconds threshold => Sys2Proof.Machine.execWindow seconds threshold s
  | .keyload ses slot tenant => Sys2Proof.Machine.execKeyload ses slot tenant s
  | .retireRemove ses node kind index => Sys2Proof.Machine.execRetireRemove ses node kind index s
  | .injlock ses lock => Sys2Proof.Machine.execInjlock ses lock s
  | .halt die core on => Sys2Proof.Machine.execHalt die core on s
  | .tlbi ctx va pages => Sys2Proof.Machine.execTlbi ctx va pages s
  | .savepool die core base => Sys2Proof.Machine.execSavepool die core base s
  | .faultread => Sys2Proof.Machine.execFaultread s
  | .countread node => Sys2Proof.Machine.execCountread node s
  | .reset ses => Sys2Proof.Machine.execReset ses s
  | .coreinit ses die core => Sys2Proof.Machine.execCoreinit ses die core s
  | .carreset ses => Sys2Proof.Machine.execCarreset ses s
  | .taskend ses task => Sys2Proof.Machine.execTaskend ses task s
  | .imgqueue ses source => Sys2Proof.Machine.execImgqueue ses source s
  | .aperbind ses aperture target => Sys2Proof.Machine.execAperbind ses aperture target s
  | .hostrange ses base len declare => Sys2Proof.Machine.execHostrange ses base len declare s
  | .fwwrite ses offset bytes => Sys2Proof.Machine.execFwwrite ses offset bytes s
  | .fwselect ses => Sys2Proof.Machine.execFwselect ses s
  | .vcarPowerOn => Sys2Proof.Machine.execVcarPowerOn s
  | .linkReplayRequest link side seqno => Sys2Proof.Machine.execLinkReplayRequest link side seqno s
  | .linkRetrainingEnd link trained => Sys2Proof.Machine.execLinkRetrainingEnd link trained s

end Sys2Proof.Machine
end

