-- ==== Sys2Proof/Machine/Place.lean ====
section
/-! DEFINITION. Machine/Place.lean: how a word comes to be the next one issued without a program's launch: a task
of one gang of 32 lanes that holds a whole core, its code in one page of G, its group chosen by its scheduler
(DESIGN CHOICE, log 3). -/

namespace Sys2Proof.Machine

open Sys2Proof

/-- Virtual address of the packet of a placed word: a multiple of 12 and of 2 MiB (DESIGN CHOICE, log 3). -/
def placeVa : Nat := 0x600000

/-- Physical address of the packet of a placed word. -/
def placePa : Nat := 0x200000

/-- The table entries that map the page of a placed word: two pointers and a 2 MiB leaf that may be read,
written and fetched (R345, R346). -/
def placeTables (m : List Host.Cell) : List Host.Cell :=
  memWriteNat (memWriteNat (memWriteNat m 0x2000 8 0x400001) 0x4000 8 0x600001) 0x6030 8 0x2000001F

/-- The packet of a placed word: the word, then two NOP. -/
def placePacket (w : Word) : List Byte := leBytes 4 w.toNat ++ leBytes 4 0x01000000 ++ leBytes 4 0x01000000

/-- The task a placed word belongs to: one block of one gang (R277). -/
def placeTask (id : Nat) : Task :=
  let r : TaskRec := { code := placeVa, width := 32, rq := 4, ngen := 64, sbytes := 524288, slots := 32, zt := 16, lmem := 64 }
  { id := id, record := r, members := [{ grp := [0, 0, 0, 0], valid := 0, rank := [0, 0, 0, 0] }], nextBlock := 1 }

/-- Its block, which holds a core's scratchpad, slots and tiles whole. -/
def placeBlock (uid task : Nat) : Block :=
  { uid := uid, task := task, home := 1, width := 32, ngen := 64, sbytes := 524288, slots := 32, zt := 16, lmem := 64, rq := 4 }

/-- Whether a word needs privileged code to have its effect (R33). -/
def wantsPriv (w : Word) : Bool :=
  match decodeWord w with
  | .ok i => needsPriv i
  | .error _ => false

/-- Its gang as launched (R23), privileged where the word needs it. -/
def placeGang (uid task block : Nat) (priv : Bool) : Gang :=
  { uid := uid, task := task, block := block, width := 32, ngen := 64, live := 0xFF, key := uid
    slices := (upto 8).map fun _ => { pc := BitVec.ofNat 64 placeVa, active := 15, priv := priv } }

/-- The word w about to be issued by a gang of its own. -/
def State.placeWord (s : State) (w : Word) : State :=
  let n := s.next
  { s with
    g := placeGang (n + 2) n (n + 1) (wantsPriv w)
    b := placeBlock (n + 1) n
    gangs := s.g :: s.gangs
    blocks := s.b :: s.blocks
    tasks := placeTask n :: s.tasks
    ctxs := Store.put s.ctxs 0 { root := 0x2000, valid := true }
    ck := { s.ck with keys := Store.put s.ck.keys 0 0, gens := Store.del s.ck.gens 0 }
    mem := memWrite (placeTables s.mem) placePa (placePacket w)
    seals := s.unsealed placePa 12
    ranges := []
    tlb := []
    walks := []
    urgent := []
    sel := some (n + 2, 0)
    snap := none
    iss := {}
    next := n + 3 }

end Sys2Proof.Machine
end

