-- ==== Sys2Proof/Machine/Step.lean ====
section
/-! DEFINITION. Machine/Step.lean: one step of the package (DESIGN CHOICE, log 1). A step takes place before any other
if it is urgent; a group a scheduler has chosen then issues its chain; else one of the steps that may take
place does: one of the agenda, the next one of the outside world, or a scheduler's turn on a core. -/

namespace Sys2Proof.Machine

open Sys2Proof

/-- The words of a chain, in order, each reading the state before the chain (R40). A word that holds the
chain back ends it; a fault before the chain is taken in the state before it (R44). -/
def runWords (before : State) : State → List (Nat × Instr) → Res
  | s, [] => .next s
  | s, (j, i) :: t =>
    match exec i (s.atWord j) with
    | .next s' =>
      if s'.iss.held then .next s'
      else if s'.iss.trapped then exec i (before.atWord j)
      else runWords before s' t
    | .fault r => .fault r
    | .refused r => .refused r

/-- The decoded words of a chain with their places in it. -/
def chainWords : Nat → List Fetched → List (Nat × Instr)
  | _, [] => []
  | j, f :: t =>
    match f.dec with
    | .ok i => (j, i) :: chainWords (j + 1) t
    | .error _ => []

/-- The chain of a group issues whole or not at all (R40, R44). -/
def issueChain (s : State) (ws : List (Nat × Instr)) : Res :=
  match runWords s s ws with
  | .next s' =>
    if s'.iss.held || s'.iss.trapped || effectOrder ws == ws then .next (s.finish s')
    else match runWords s s (effectOrder ws) with
      | .next s' => .next (s.finish s')
      | .fault r => .fault r
      | .refused r => .refused r
  | .fault r => .fault r
  | .refused r => .refused r

/-- The next chain of the group chosen: its packet is fetched and checked, and its words run. A packet is fetched anew for
each of its chains (DESIGN CHOICE, log 37). -/
def issueGroup (s : State) (gang : Nat) : Res :=
  let s := s.focus gang
  let s := { s with snap := some s.g }
  let pc := s.groupPc
  if s.group.isEmpty then .fault .noSuchGroup
  else
    match s.fetch (packetOf pc).toNat with
    | .error info =>
      let s := if info = 3 then s.reportAll (s.fetchErrors (packetOf pc).toNat) s.g.task else s
      .next ((s.begin gang pc []).faultAt (packetOf pc) (xlatStop 0 info).1 (xlatStop 0 info).2 0).idleIssue
    | .ok (s, words) =>
      let j := (pc &&& 3).toNat
      let rest := words.drop j
      let chain := chainOf rest
      let s := s.begin gang pc chain
      match packetFault s.priv j [] rest with
      | some (k, c) => .next (s.faultAt (packetOf pc ||| BitVec.ofNat 64 k) c 0 0).idleIssue
      | none =>
        match s.debugMatch ((upto chain.length).map fun k => pc + BitVec.ofNat 64 k) with
        | some (n, pc') => .next (s.faultAt pc' 19 n 0).idleIssue
        | none => if s.windowShut chain.length then .next s.idleIssue else issueChain s (chainWords 0 chain)

/-- Time passes (DESIGN CHOICE, log 2). -/
def State.tick (s : State) : State := { s with ctr := s.ctr + 1, ns := s.ns + Config.elapsed s.ctr }

/-- The cores that hold a live gang, each once. -/
def State.busyCores (s : State) : List (Nat × Nat) :=
  s.allBlocks.foldl (fun l b => if l.contains (b.die, b.core) then l else l ++ [(b.die, b.core)]) []

/-- A die cache may evict any line it holds (R369). -/
def State.evictions (s : State) : List Instr :=
  s.fab.lines.flatMap fun (p : Nat × Line) =>
    ((upto 4).filter fun d => (p.2.of d).tokens != 0).map fun d => .dieCacheEviction d p.1

/-- The steps that may take place (DESIGN CHOICE, log 1). -/
def State.enabled (s : State) : List Instr :=
  s.inputs.take 1 ++ s.agenda ++ (s.busyCores.map fun c => .schedulerCycle c.1 c.2) ++ s.evictions

/-- The one of several steps that takes place, freely chosen (DESIGN CHOICE, log 1). -/
def choose (ctr : Nat) (l : List Instr) : Option Instr :=
  match l with
  | [] => none
  | [i] => some i
  | _ => l[Config.pick ctr % l.length]?

/-- A step chosen leaves the place it waited in. -/
def State.taken (s : State) (i : Instr) : State :=
  if s.inputs.head? = some i then { s with inputs := s.inputs.tail } else { s with agenda := s.agenda.erase i }

/-- One step of the package. Bindings found satisfied become pending before anything else happens (R293). -/
def step (s : State) : Host.Outcome State Fault Refusal :=
  let s := s.tick
  match s.latchable ++ s.urgent with
  | i :: t => exec i { s with urgent := t.filter s.urgent.contains }
  | [] =>
    match s.sel with
    | some (gang, _) => issueGroup s gang
    | none =>
      match choose s.ctr s.enabled with
      | some i => exec i (s.taken i)
      | none => .next s

/-- An instruction of the opcode table stored where the next step fetches it, as the first word of a gang placed
for it (DESIGN CHOICE, log 3). -/
def State.withFetchWord (s : State) (nbits w : Nat) : State := s.placeWord (BitVec.ofNat 32 (w % 2 ^ nbits))

end Sys2Proof.Machine
end

