-- ==== Sys2Proof/Laws/PerInstr.lean ====
section
/-! SUPPORT. Laws/PerInstr.lean: the family RoundTrip: a well-formed instruction's word decodes to the instruction, one
lemma for each constructor. The steps that no word encodes meet the statement because they have no word. The arithmetic
of each layout of fields is proved once, as `lay_…`, and used by every instruction with that layout. -/

namespace Sys2Proof.Laws

open Sys2Proof

/-- Decoding the word of a well-formed instruction gives the instruction back, with every operand; the word has 32 bits. -/
def RoundTrip.Statement (i : Instr) : Prop :=
  i.wf = true → ∀ n, encodeNat i = some n → n < 2 ^ 32 ∧ decodeNat n = .ok i

/-- What is left of the round trip is that the fields of the word name the instruction. -/
theorem decode_of_candidate {i : Instr} {n : Nat} (hw : i.wf = true) (he : encodeNat i = some n)
    (hn : n < 2 ^ 32) (hc : candidate n = some i) : n < 2 ^ 32 ∧ decodeNat n = .ok i := by
  refine ⟨hn, ?_⟩
  rw [decodeNat, hc]
  show (if (i.wf && encodeNat i == some n) = true then _ else _) = _
  rw [hw, he, if_pos (by simp)]

/-- One digit of a number: what is left of it above P is X times V and the digit. -/
theorem digit {W P V X v : Nat} (Q : Nat) (hQ : P * V = Q) (hv : v < V) (h : W / P = X * V + v) :
    W / P % V = v ∧ W / Q = X := by
  have hV : 0 < V := Nat.lt_of_le_of_lt (Nat.zero_le _) hv
  refine ⟨?_, ?_⟩
  · rw [h, Nat.mul_comm, Nat.mul_add_mod, Nat.mod_eq_of_lt hv]
  · rw [← hQ, ← Nat.div_div_eq_div_mul, h, Nat.mul_comm, Nat.mul_add_div hV, Nat.div_eq_of_lt hv, Nat.add_zero]

/-- A field of a word is a bit vector if its bits are that vector's. -/
theorem fld_eq {w : Nat} (b : BitVec w) (n lo : Nat) (h : n / 2 ^ lo % 2 ^ w = b.toNat) : fld w n lo = b := by
  apply BitVec.eq_of_toNat_eq
  rw [fld, BitVec.toNat_ofNat, h]

/-- A flag of a word. -/
theorem flg_eq (c : Bool) (n lo : Nat) (h : n / 2 ^ lo % 2 = c.toNat) : flg n lo = c := by
  unfold flg
  rw [h]
  cases c <;> rfl

theorem rds_not_recv {s : Nat} (h : rdsOk s = true) : ¬ (0x042 ≤ s ∧ s ≤ 0x045) := by
  rintro ⟨h1, h2⟩
  have : s = 66 ∨ s = 67 ∨ s = 68 ∨ s = 69 := by omega
  rcases this with rfl | rfl | rfl | rfl <;> exact absurd h (by decide)

theorem wrs_not_perf {s : Nat} (h : wrsOk s = true) : ¬ (0x150 ≤ s ∧ s ≤ 0x157) := by
  rintro ⟨h1, h2⟩
  have : s = 336 ∨ s = 337 ∨ s = 338 ∨ s = 339 ∨ s = 340 ∨ s = 341 ∨ s = 342 ∨ s = 343 := by omega
  rcases this with rfl | rfl | rfl | rfl | rfl | rfl | rfl | rfl <;> exact absurd h (by decide)

theorem lay_31w1 (k B x0 W : Nat) (hk : k < 128) (hB : B = k * 16777216) (h0 : x0 < 2 ^ 1)
    (h : B + x0 * 2147483648 = W) : W < 2 ^ 32 ∧ W / 2 ^ 24 % 128 = k ∧ W / 2 ^ 31 % 2 ^ 1 = x0 := by
  have s0 : W / 2 ^ 0 = ((0 * 2 + x0) * 128 + k) * 16777216 + 0 := by simp only [Nat.pow_zero, Nat.div_one]; omega
  obtain ⟨g0, s1⟩ := digit (V := 2 ^ 24) (2 ^ 24) (by decide) (by decide) s0
  obtain ⟨g1, s2⟩ := digit (V := 128) (2 ^ 31) (by decide) hk s1
  obtain ⟨g2, s3⟩ := digit (V := 2 ^ 1) (2 ^ 32) (by decide) h0 s2
  have hW : W < 2 ^ 32 := (Nat.div_eq_zero_iff_lt (Nat.two_pow_pos 32)).mp s3
  exact ⟨hW, g1, g2⟩

theorem lay_31w1_18w6_12w6_0w4 (k B x0 x1 x2 x3 W : Nat) (hk : k < 128) (hB : B = k * 16777216) (h0 : x0 < 2 ^ 1) (h1 : x1 < 2 ^ 6) (h2 : x2 < 2 ^ 6) (h3 : x3 < 2 ^ 4)
    (h : B + x0 * 2147483648 + x1 * 262144 + x2 * 4096 + x3 = W) : W < 2 ^ 32 ∧ W / 2 ^ 24 % 128 = k ∧ W / 2 ^ 31 % 2 ^ 1 = x0 ∧ W / 2 ^ 18 % 2 ^ 6 = x1 ∧ W / 2 ^ 12 % 2 ^ 6 = x2 ∧ W / 2 ^ 0 % 2 ^ 4 = x3 := by
  have s0 : W / 2 ^ 0 = (((((0 * 2 + x0) * 128 + k) * 64 + x1) * 64 + x2) * 256 + 0) * 16 + x3 := by simp only [Nat.pow_zero, Nat.div_one]; omega
  obtain ⟨g0, s1⟩ := digit (V := 2 ^ 4) (2 ^ 4) (by decide) h3 s0
  obtain ⟨g1, s2⟩ := digit (V := 2 ^ 8) (2 ^ 12) (by decide) (by decide) s1
  obtain ⟨g2, s3⟩ := digit (V := 2 ^ 6) (2 ^ 18) (by decide) h2 s2
  obtain ⟨g3, s4⟩ := digit (V := 2 ^ 6) (2 ^ 24) (by decide) h1 s3
  obtain ⟨g4, s5⟩ := digit (V := 128) (2 ^ 31) (by decide) hk s4
  obtain ⟨g5, s6⟩ := digit (V := 2 ^ 1) (2 ^ 32) (by decide) h0 s5
  have hW : W < 2 ^ 32 := (Nat.div_eq_zero_iff_lt (Nat.two_pow_pos 32)).mp s6
  exact ⟨hW, g4, g5, g3, g2, g0⟩

theorem lay_31w1_18w6_0w18 (k B x0 x1 x2 W : Nat) (hk : k < 128) (hB : B = k * 16777216) (h0 : x0 < 2 ^ 1) (h1 : x1 < 2 ^ 6) (h2 : x2 < 2 ^ 18)
    (h : B + x0 * 2147483648 + x1 * 262144 + x2 = W) : W < 2 ^ 32 ∧ W / 2 ^ 24 % 128 = k ∧ W / 2 ^ 31 % 2 ^ 1 = x0 ∧ W / 2 ^ 18 % 2 ^ 6 = x1 ∧ W / 2 ^ 0 % 2 ^ 18 = x2 := by
  have s0 : W / 2 ^ 0 = (((0 * 2 + x0) * 128 + k) * 64 + x1) * 262144 + x2 := by simp only [Nat.pow_zero, Nat.div_one]; omega
  obtain ⟨g0, s1⟩ := digit (V := 2 ^ 18) (2 ^ 18) (by decide) h2 s0
  obtain ⟨g1, s2⟩ := digit (V := 2 ^ 6) (2 ^ 24) (by decide) h1 s1
  obtain ⟨g2, s3⟩ := digit (V := 128) (2 ^ 31) (by decide) hk s2
  obtain ⟨g3, s4⟩ := digit (V := 2 ^ 1) (2 ^ 32) (by decide) h0 s3
  have hW : W < 2 ^ 32 := (Nat.div_eq_zero_iff_lt (Nat.two_pow_pos 32)).mp s4
  exact ⟨hW, g2, g3, g1, g0⟩

theorem lay_31w1_18w6_0w14 (k B x0 x1 x2 W : Nat) (hk : k < 128) (hB : B = k * 16777216) (h0 : x0 < 2 ^ 1) (h1 : x1 < 2 ^ 6) (h2 : x2 < 2 ^ 14)
    (h : B + x0 * 2147483648 + x1 * 262144 + x2 = W) : W < 2 ^ 32 ∧ W / 2 ^ 24 % 128 = k ∧ W / 2 ^ 31 % 2 ^ 1 = x0 ∧ W / 2 ^ 18 % 2 ^ 6 = x1 ∧ W / 2 ^ 0 % 2 ^ 14 = x2 := by
  have s0 : W / 2 ^ 0 = ((((0 * 2 + x0) * 128 + k) * 64 + x1) * 16 + 0) * 16384 + x2 := by simp only [Nat.pow_zero, Nat.div_one]; omega
  obtain ⟨g0, s1⟩ := digit (V := 2 ^ 14) (2 ^ 14) (by decide) h2 s0
  obtain ⟨g1, s2⟩ := digit (V := 2 ^ 4) (2 ^ 18) (by decide) (by decide) s1
  obtain ⟨g2, s3⟩ := digit (V := 2 ^ 6) (2 ^ 24) (by decide) h1 s2
  obtain ⟨g3, s4⟩ := digit (V := 128) (2 ^ 31) (by decide) hk s3
  obtain ⟨g4, s5⟩ := digit (V := 2 ^ 1) (2 ^ 32) (by decide) h0 s4
  have hW : W < 2 ^ 32 := (Nat.div_eq_zero_iff_lt (Nat.two_pow_pos 32)).mp s5
  exact ⟨hW, g3, g4, g2, g0⟩

theorem lay_31w1_18w6_4w2_0w4 (k B x0 x1 x2 x3 W : Nat) (hk : k < 128) (hB : B = k * 16777216) (h0 : x0 < 2 ^ 1) (h1 : x1 < 2 ^ 6) (h2 : x2 < 2 ^ 2) (h3 : x3 < 2 ^ 4)
    (h : B + x0 * 2147483648 + x1 * 262144 + x2 * 16 + x3 = W) : W < 2 ^ 32 ∧ W / 2 ^ 24 % 128 = k ∧ W / 2 ^ 31 % 2 ^ 1 = x0 ∧ W / 2 ^ 18 % 2 ^ 6 = x1 ∧ W / 2 ^ 4 % 2 ^ 2 = x2 ∧ W / 2 ^ 0 % 2 ^ 4 = x3 := by
  have s0 : W / 2 ^ 0 = (((((0 * 2 + x0) * 128 + k) * 64 + x1) * 4096 + 0) * 4 + x2) * 16 + x3 := by simp only [Nat.pow_zero, Nat.div_one]; omega
  obtain ⟨g0, s1⟩ := digit (V := 2 ^ 4) (2 ^ 4) (by decide) h3 s0
  obtain ⟨g1, s2⟩ := digit (V := 2 ^ 2) (2 ^ 6) (by decide) h2 s1
  obtain ⟨g2, s3⟩ := digit (V := 2 ^ 12) (2 ^ 18) (by decide) (by decide) s2
  obtain ⟨g3, s4⟩ := digit (V := 2 ^ 6) (2 ^ 24) (by decide) h1 s3
  obtain ⟨g4, s5⟩ := digit (V := 128) (2 ^ 31) (by decide) hk s4
  obtain ⟨g5, s6⟩ := digit (V := 2 ^ 1) (2 ^ 32) (by decide) h0 s5
  have hW : W < 2 ^ 32 := (Nat.div_eq_zero_iff_lt (Nat.two_pow_pos 32)).mp s6
  exact ⟨hW, g4, g5, g3, g1, g0⟩

theorem lay_31w1_18w6_12w6_6w6_4w2_0w4 (k B x0 x1 x2 x3 x4 x5 W : Nat) (hk : k < 128) (hB : B = k * 16777216) (h0 : x0 < 2 ^ 1) (h1 : x1 < 2 ^ 6) (h2 : x2 < 2 ^ 6) (h3 : x3 < 2 ^ 6) (h4 : x4 < 2 ^ 2) (h5 : x5 < 2 ^ 4)
    (h : B + x0 * 2147483648 + x1 * 262144 + x2 * 4096 + x3 * 64 + x4 * 16 + x5 = W) : W < 2 ^ 32 ∧ W / 2 ^ 24 % 128 = k ∧ W / 2 ^ 31 % 2 ^ 1 = x0 ∧ W / 2 ^ 18 % 2 ^ 6 = x1 ∧ W / 2 ^ 12 % 2 ^ 6 = x2 ∧ W / 2 ^ 6 % 2 ^ 6 = x3 ∧ W / 2 ^ 4 % 2 ^ 2 = x4 ∧ W / 2 ^ 0 % 2 ^ 4 = x5 := by
  have s0 : W / 2 ^ 0 = ((((((0 * 2 + x0) * 128 + k) * 64 + x1) * 64 + x2) * 64 + x3) * 4 + x4) * 16 + x5 := by simp only [Nat.pow_zero, Nat.div_one]; omega
  obtain ⟨g0, s1⟩ := digit (V := 2 ^ 4) (2 ^ 4) (by decide) h5 s0
  obtain ⟨g1, s2⟩ := digit (V := 2 ^ 2) (2 ^ 6) (by decide) h4 s1
  obtain ⟨g2, s3⟩ := digit (V := 2 ^ 6) (2 ^ 12) (by decide) h3 s2
  obtain ⟨g3, s4⟩ := digit (V := 2 ^ 6) (2 ^ 18) (by decide) h2 s3
  obtain ⟨g4, s5⟩ := digit (V := 2 ^ 6) (2 ^ 24) (by decide) h1 s4
  obtain ⟨g5, s6⟩ := digit (V := 128) (2 ^ 31) (by decide) hk s5
  obtain ⟨g6, s7⟩ := digit (V := 2 ^ 1) (2 ^ 32) (by decide) h0 s6
  have hW : W < 2 ^ 32 := (Nat.div_eq_zero_iff_lt (Nat.two_pow_pos 32)).mp s7
  exact ⟨hW, g5, g6, g4, g3, g2, g1, g0⟩

theorem lay_31w1_18w6_12w6_6w6_0w4 (k B x0 x1 x2 x3 x4 W : Nat) (hk : k < 128) (hB : B = k * 16777216) (h0 : x0 < 2 ^ 1) (h1 : x1 < 2 ^ 6) (h2 : x2 < 2 ^ 6) (h3 : x3 < 2 ^ 6) (h4 : x4 < 2 ^ 4)
    (h : B + x0 * 2147483648 + x1 * 262144 + x2 * 4096 + x3 * 64 + x4 = W) : W < 2 ^ 32 ∧ W / 2 ^ 24 % 128 = k ∧ W / 2 ^ 31 % 2 ^ 1 = x0 ∧ W / 2 ^ 18 % 2 ^ 6 = x1 ∧ W / 2 ^ 12 % 2 ^ 6 = x2 ∧ W / 2 ^ 6 % 2 ^ 6 = x3 ∧ W / 2 ^ 0 % 2 ^ 4 = x4 := by
  have s0 : W / 2 ^ 0 = ((((((0 * 2 + x0) * 128 + k) * 64 + x1) * 64 + x2) * 64 + x3) * 4 + 0) * 16 + x4 := by simp only [Nat.pow_zero, Nat.div_one]; omega
  obtain ⟨g0, s1⟩ := digit (V := 2 ^ 4) (2 ^ 4) (by decide) h4 s0
  obtain ⟨g1, s2⟩ := digit (V := 2 ^ 2) (2 ^ 6) (by decide) (by decide) s1
  obtain ⟨g2, s3⟩ := digit (V := 2 ^ 6) (2 ^ 12) (by decide) h3 s2
  obtain ⟨g3, s4⟩ := digit (V := 2 ^ 6) (2 ^ 18) (by decide) h2 s3
  obtain ⟨g4, s5⟩ := digit (V := 2 ^ 6) (2 ^ 24) (by decide) h1 s4
  obtain ⟨g5, s6⟩ := digit (V := 128) (2 ^ 31) (by decide) hk s5
  obtain ⟨g6, s7⟩ := digit (V := 2 ^ 1) (2 ^ 32) (by decide) h0 s6
  have hW : W < 2 ^ 32 := (Nat.div_eq_zero_iff_lt (Nat.two_pow_pos 32)).mp s7
  exact ⟨hW, g5, g6, g4, g3, g2, g0⟩

theorem lay_31w1_18w3_12w6_6w6_4w2_0w4 (k B x0 x1 x2 x3 x4 x5 W : Nat) (hk : k < 128) (hB : B = k * 16777216) (h0 : x0 < 2 ^ 1) (h1 : x1 < 2 ^ 3) (h2 : x2 < 2 ^ 6) (h3 : x3 < 2 ^ 6) (h4 : x4 < 2 ^ 2) (h5 : x5 < 2 ^ 4)
    (h : B + x0 * 2147483648 + x1 * 262144 + x2 * 4096 + x3 * 64 + x4 * 16 + x5 = W) : W < 2 ^ 32 ∧ W / 2 ^ 24 % 128 = k ∧ W / 2 ^ 31 % 2 ^ 1 = x0 ∧ W / 2 ^ 18 % 2 ^ 3 = x1 ∧ W / 2 ^ 12 % 2 ^ 6 = x2 ∧ W / 2 ^ 6 % 2 ^ 6 = x3 ∧ W / 2 ^ 4 % 2 ^ 2 = x4 ∧ W / 2 ^ 0 % 2 ^ 4 = x5 := by
  have s0 : W / 2 ^ 0 = (((((((0 * 2 + x0) * 128 + k) * 8 + 0) * 8 + x1) * 64 + x2) * 64 + x3) * 4 + x4) * 16 + x5 := by simp only [Nat.pow_zero, Nat.div_one]; omega
  obtain ⟨g0, s1⟩ := digit (V := 2 ^ 4) (2 ^ 4) (by decide) h5 s0
  obtain ⟨g1, s2⟩ := digit (V := 2 ^ 2) (2 ^ 6) (by decide) h4 s1
  obtain ⟨g2, s3⟩ := digit (V := 2 ^ 6) (2 ^ 12) (by decide) h3 s2
  obtain ⟨g3, s4⟩ := digit (V := 2 ^ 6) (2 ^ 18) (by decide) h2 s3
  obtain ⟨g4, s5⟩ := digit (V := 2 ^ 3) (2 ^ 21) (by decide) h1 s4
  obtain ⟨g5, s6⟩ := digit (V := 2 ^ 3) (2 ^ 24) (by decide) (by decide) s5
  obtain ⟨g6, s7⟩ := digit (V := 128) (2 ^ 31) (by decide) hk s6
  obtain ⟨g7, s8⟩ := digit (V := 2 ^ 1) (2 ^ 32) (by decide) h0 s7
  have hW : W < 2 ^ 32 := (Nat.div_eq_zero_iff_lt (Nat.two_pow_pos 32)).mp s8
  exact ⟨hW, g6, g7, g4, g3, g2, g1, g0⟩

theorem lay_31w1_21w3_18w3_12w6_0w12 (k B x0 x1 x2 x3 x4 W : Nat) (hk : k < 128) (hB : B = k * 16777216) (h0 : x0 < 2 ^ 1) (h1 : x1 < 2 ^ 3) (h2 : x2 < 2 ^ 3) (h3 : x3 < 2 ^ 6) (h4 : x4 < 2 ^ 12)
    (h : B + x0 * 2147483648 + x1 * 2097152 + x2 * 262144 + x3 * 4096 + x4 = W) : W < 2 ^ 32 ∧ W / 2 ^ 24 % 128 = k ∧ W / 2 ^ 31 % 2 ^ 1 = x0 ∧ W / 2 ^ 21 % 2 ^ 3 = x1 ∧ W / 2 ^ 18 % 2 ^ 3 = x2 ∧ W / 2 ^ 12 % 2 ^ 6 = x3 ∧ W / 2 ^ 0 % 2 ^ 12 = x4 := by
  have s0 : W / 2 ^ 0 = (((((0 * 2 + x0) * 128 + k) * 8 + x1) * 8 + x2) * 64 + x3) * 4096 + x4 := by simp only [Nat.pow_zero, Nat.div_one]; omega
  obtain ⟨g0, s1⟩ := digit (V := 2 ^ 12) (2 ^ 12) (by decide) h4 s0
  obtain ⟨g1, s2⟩ := digit (V := 2 ^ 6) (2 ^ 18) (by decide) h3 s1
  obtain ⟨g2, s3⟩ := digit (V := 2 ^ 3) (2 ^ 21) (by decide) h2 s2
  obtain ⟨g3, s4⟩ := digit (V := 2 ^ 3) (2 ^ 24) (by decide) h1 s3
  obtain ⟨g4, s5⟩ := digit (V := 128) (2 ^ 31) (by decide) hk s4
  obtain ⟨g5, s6⟩ := digit (V := 2 ^ 1) (2 ^ 32) (by decide) h0 s5
  have hW : W < 2 ^ 32 := (Nat.div_eq_zero_iff_lt (Nat.two_pow_pos 32)).mp s6
  exact ⟨hW, g4, g5, g3, g2, g1, g0⟩

theorem lay_31w1_18w3_12w3_6w3_4w2_0w4 (k B x0 x1 x2 x3 x4 x5 W : Nat) (hk : k < 128) (hB : B = k * 16777216) (h0 : x0 < 2 ^ 1) (h1 : x1 < 2 ^ 3) (h2 : x2 < 2 ^ 3) (h3 : x3 < 2 ^ 3) (h4 : x4 < 2 ^ 2) (h5 : x5 < 2 ^ 4)
    (h : B + x0 * 2147483648 + x1 * 262144 + x2 * 4096 + x3 * 64 + x4 * 16 + x5 = W) : W < 2 ^ 32 ∧ W / 2 ^ 24 % 128 = k ∧ W / 2 ^ 31 % 2 ^ 1 = x0 ∧ W / 2 ^ 18 % 2 ^ 3 = x1 ∧ W / 2 ^ 12 % 2 ^ 3 = x2 ∧ W / 2 ^ 6 % 2 ^ 3 = x3 ∧ W / 2 ^ 4 % 2 ^ 2 = x4 ∧ W / 2 ^ 0 % 2 ^ 4 = x5 := by
  have s0 : W / 2 ^ 0 = (((((((((0 * 2 + x0) * 128 + k) * 8 + 0) * 8 + x1) * 8 + 0) * 8 + x2) * 8 + 0) * 8 + x3) * 4 + x4) * 16 + x5 := by simp only [Nat.pow_zero, Nat.div_one]; omega
  obtain ⟨g0, s1⟩ := digit (V := 2 ^ 4) (2 ^ 4) (by decide) h5 s0
  obtain ⟨g1, s2⟩ := digit (V := 2 ^ 2) (2 ^ 6) (by decide) h4 s1
  obtain ⟨g2, s3⟩ := digit (V := 2 ^ 3) (2 ^ 9) (by decide) h3 s2
  obtain ⟨g3, s4⟩ := digit (V := 2 ^ 3) (2 ^ 12) (by decide) (by decide) s3
  obtain ⟨g4, s5⟩ := digit (V := 2 ^ 3) (2 ^ 15) (by decide) h2 s4
  obtain ⟨g5, s6⟩ := digit (V := 2 ^ 3) (2 ^ 18) (by decide) (by decide) s5
  obtain ⟨g6, s7⟩ := digit (V := 2 ^ 3) (2 ^ 21) (by decide) h1 s6
  obtain ⟨g7, s8⟩ := digit (V := 2 ^ 3) (2 ^ 24) (by decide) (by decide) s7
  obtain ⟨g8, s9⟩ := digit (V := 128) (2 ^ 31) (by decide) hk s8
  obtain ⟨g9, s10⟩ := digit (V := 2 ^ 1) (2 ^ 32) (by decide) h0 s9
  have hW : W < 2 ^ 32 := (Nat.div_eq_zero_iff_lt (Nat.two_pow_pos 32)).mp s10
  exact ⟨hW, g8, g9, g6, g4, g2, g1, g0⟩

theorem lay_31w1_18w6_0w4 (k B x0 x1 x2 W : Nat) (hk : k < 128) (hB : B = k * 16777216) (h0 : x0 < 2 ^ 1) (h1 : x1 < 2 ^ 6) (h2 : x2 < 2 ^ 4)
    (h : B + x0 * 2147483648 + x1 * 262144 + x2 = W) : W < 2 ^ 32 ∧ W / 2 ^ 24 % 128 = k ∧ W / 2 ^ 31 % 2 ^ 1 = x0 ∧ W / 2 ^ 18 % 2 ^ 6 = x1 ∧ W / 2 ^ 0 % 2 ^ 4 = x2 := by
  have s0 : W / 2 ^ 0 = ((((0 * 2 + x0) * 128 + k) * 64 + x1) * 16384 + 0) * 16 + x2 := by simp only [Nat.pow_zero, Nat.div_one]; omega
  obtain ⟨g0, s1⟩ := digit (V := 2 ^ 4) (2 ^ 4) (by decide) h2 s0
  obtain ⟨g1, s2⟩ := digit (V := 2 ^ 14) (2 ^ 18) (by decide) (by decide) s1
  obtain ⟨g2, s3⟩ := digit (V := 2 ^ 6) (2 ^ 24) (by decide) h1 s2
  obtain ⟨g3, s4⟩ := digit (V := 128) (2 ^ 31) (by decide) hk s3
  obtain ⟨g4, s5⟩ := digit (V := 2 ^ 1) (2 ^ 32) (by decide) h0 s4
  have hW : W < 2 ^ 32 := (Nat.div_eq_zero_iff_lt (Nat.two_pow_pos 32)).mp s5
  exact ⟨hW, g3, g4, g2, g0⟩

theorem lay_31w1_12w6_0w4 (k B x0 x1 x2 W : Nat) (hk : k < 128) (hB : B = k * 16777216) (h0 : x0 < 2 ^ 1) (h1 : x1 < 2 ^ 6) (h2 : x2 < 2 ^ 4)
    (h : B + x0 * 2147483648 + x1 * 4096 + x2 = W) : W < 2 ^ 32 ∧ W / 2 ^ 24 % 128 = k ∧ W / 2 ^ 31 % 2 ^ 1 = x0 ∧ W / 2 ^ 12 % 2 ^ 6 = x1 ∧ W / 2 ^ 0 % 2 ^ 4 = x2 := by
  have s0 : W / 2 ^ 0 = (((((0 * 2 + x0) * 128 + k) * 64 + 0) * 64 + x1) * 256 + 0) * 16 + x2 := by simp only [Nat.pow_zero, Nat.div_one]; omega
  obtain ⟨g0, s1⟩ := digit (V := 2 ^ 4) (2 ^ 4) (by decide) h2 s0
  obtain ⟨g1, s2⟩ := digit (V := 2 ^ 8) (2 ^ 12) (by decide) (by decide) s1
  obtain ⟨g2, s3⟩ := digit (V := 2 ^ 6) (2 ^ 18) (by decide) h1 s2
  obtain ⟨g3, s4⟩ := digit (V := 2 ^ 6) (2 ^ 24) (by decide) (by decide) s3
  obtain ⟨g4, s5⟩ := digit (V := 128) (2 ^ 31) (by decide) hk s4
  obtain ⟨g5, s6⟩ := digit (V := 2 ^ 1) (2 ^ 32) (by decide) h0 s5
  have hW : W < 2 ^ 32 := (Nat.div_eq_zero_iff_lt (Nat.two_pow_pos 32)).mp s6
  exact ⟨hW, g4, g5, g2, g0⟩

theorem lay_31w1_18w6_12w6_0w12 (k B x0 x1 x2 x3 W : Nat) (hk : k < 128) (hB : B = k * 16777216) (h0 : x0 < 2 ^ 1) (h1 : x1 < 2 ^ 6) (h2 : x2 < 2 ^ 6) (h3 : x3 < 2 ^ 12)
    (h : B + x0 * 2147483648 + x1 * 262144 + x2 * 4096 + x3 = W) : W < 2 ^ 32 ∧ W / 2 ^ 24 % 128 = k ∧ W / 2 ^ 31 % 2 ^ 1 = x0 ∧ W / 2 ^ 18 % 2 ^ 6 = x1 ∧ W / 2 ^ 12 % 2 ^ 6 = x2 ∧ W / 2 ^ 0 % 2 ^ 12 = x3 := by
  have s0 : W / 2 ^ 0 = ((((0 * 2 + x0) * 128 + k) * 64 + x1) * 64 + x2) * 4096 + x3 := by simp only [Nat.pow_zero, Nat.div_one]; omega
  obtain ⟨g0, s1⟩ := digit (V := 2 ^ 12) (2 ^ 12) (by decide) h3 s0
  obtain ⟨g1, s2⟩ := digit (V := 2 ^ 6) (2 ^ 18) (by decide) h2 s1
  obtain ⟨g2, s3⟩ := digit (V := 2 ^ 6) (2 ^ 24) (by decide) h1 s2
  obtain ⟨g3, s4⟩ := digit (V := 128) (2 ^ 31) (by decide) hk s3
  obtain ⟨g4, s5⟩ := digit (V := 2 ^ 1) (2 ^ 32) (by decide) h0 s4
  have hW : W < 2 ^ 32 := (Nat.div_eq_zero_iff_lt (Nat.two_pow_pos 32)).mp s5
  exact ⟨hW, g3, g4, g2, g1, g0⟩

theorem lay_31w1_18w6_12w6_6w6_4w1_0w4 (k B x0 x1 x2 x3 x4 x5 W : Nat) (hk : k < 128) (hB : B = k * 16777216) (h0 : x0 < 2 ^ 1) (h1 : x1 < 2 ^ 6) (h2 : x2 < 2 ^ 6) (h3 : x3 < 2 ^ 6) (h4 : x4 < 2 ^ 1) (h5 : x5 < 2 ^ 4)
    (h : B + x0 * 2147483648 + x1 * 262144 + x2 * 4096 + x3 * 64 + x4 * 16 + x5 = W) : W < 2 ^ 32 ∧ W / 2 ^ 24 % 128 = k ∧ W / 2 ^ 31 % 2 ^ 1 = x0 ∧ W / 2 ^ 18 % 2 ^ 6 = x1 ∧ W / 2 ^ 12 % 2 ^ 6 = x2 ∧ W / 2 ^ 6 % 2 ^ 6 = x3 ∧ W / 2 ^ 4 % 2 ^ 1 = x4 ∧ W / 2 ^ 0 % 2 ^ 4 = x5 := by
  have s0 : W / 2 ^ 0 = (((((((0 * 2 + x0) * 128 + k) * 64 + x1) * 64 + x2) * 64 + x3) * 2 + 0) * 2 + x4) * 16 + x5 := by simp only [Nat.pow_zero, Nat.div_one]; omega
  obtain ⟨g0, s1⟩ := digit (V := 2 ^ 4) (2 ^ 4) (by decide) h5 s0
  obtain ⟨g1, s2⟩ := digit (V := 2 ^ 1) (2 ^ 5) (by decide) h4 s1
  obtain ⟨g2, s3⟩ := digit (V := 2 ^ 1) (2 ^ 6) (by decide) (by decide) s2
  obtain ⟨g3, s4⟩ := digit (V := 2 ^ 6) (2 ^ 12) (by decide) h3 s3
  obtain ⟨g4, s5⟩ := digit (V := 2 ^ 6) (2 ^ 18) (by decide) h2 s4
  obtain ⟨g5, s6⟩ := digit (V := 2 ^ 6) (2 ^ 24) (by decide) h1 s5
  obtain ⟨g6, s7⟩ := digit (V := 128) (2 ^ 31) (by decide) hk s6
  obtain ⟨g7, s8⟩ := digit (V := 2 ^ 1) (2 ^ 32) (by decide) h0 s7
  have hW : W < 2 ^ 32 := (Nat.div_eq_zero_iff_lt (Nat.two_pow_pos 32)).mp s8
  exact ⟨hW, g6, g7, g5, g4, g3, g1, g0⟩

theorem lay_31w1_18w6_12w6_6w6_0w6 (k B x0 x1 x2 x3 x4 W : Nat) (hk : k < 128) (hB : B = k * 16777216) (h0 : x0 < 2 ^ 1) (h1 : x1 < 2 ^ 6) (h2 : x2 < 2 ^ 6) (h3 : x3 < 2 ^ 6) (h4 : x4 < 2 ^ 6)
    (h : B + x0 * 2147483648 + x1 * 262144 + x2 * 4096 + x3 * 64 + x4 = W) : W < 2 ^ 32 ∧ W / 2 ^ 24 % 128 = k ∧ W / 2 ^ 31 % 2 ^ 1 = x0 ∧ W / 2 ^ 18 % 2 ^ 6 = x1 ∧ W / 2 ^ 12 % 2 ^ 6 = x2 ∧ W / 2 ^ 6 % 2 ^ 6 = x3 ∧ W / 2 ^ 0 % 2 ^ 6 = x4 := by
  have s0 : W / 2 ^ 0 = (((((0 * 2 + x0) * 128 + k) * 64 + x1) * 64 + x2) * 64 + x3) * 64 + x4 := by simp only [Nat.pow_zero, Nat.div_one]; omega
  obtain ⟨g0, s1⟩ := digit (V := 2 ^ 6) (2 ^ 6) (by decide) h4 s0
  obtain ⟨g1, s2⟩ := digit (V := 2 ^ 6) (2 ^ 12) (by decide) h3 s1
  obtain ⟨g2, s3⟩ := digit (V := 2 ^ 6) (2 ^ 18) (by decide) h2 s2
  obtain ⟨g3, s4⟩ := digit (V := 2 ^ 6) (2 ^ 24) (by decide) h1 s3
  obtain ⟨g4, s5⟩ := digit (V := 128) (2 ^ 31) (by decide) hk s4
  obtain ⟨g5, s6⟩ := digit (V := 2 ^ 1) (2 ^ 32) (by decide) h0 s5
  have hW : W < 2 ^ 32 := (Nat.div_eq_zero_iff_lt (Nat.two_pow_pos 32)).mp s6
  exact ⟨hW, g4, g5, g3, g2, g1, g0⟩

theorem lay_31w1_19w5_12w6_6w6_1w5 (k B x0 x1 x2 x3 x4 W : Nat) (hk : k < 128) (hB : B = k * 16777216) (h0 : x0 < 2 ^ 1) (h1 : x1 < 2 ^ 5) (h2 : x2 < 2 ^ 6) (h3 : x3 < 2 ^ 6) (h4 : x4 < 2 ^ 5)
    (h : B + x0 * 2147483648 + x1 * 524288 + x2 * 4096 + x3 * 64 + x4 * 2 = W) : W < 2 ^ 32 ∧ W / 2 ^ 24 % 128 = k ∧ W / 2 ^ 31 % 2 ^ 1 = x0 ∧ W / 2 ^ 19 % 2 ^ 5 = x1 ∧ W / 2 ^ 12 % 2 ^ 6 = x2 ∧ W / 2 ^ 6 % 2 ^ 6 = x3 ∧ W / 2 ^ 1 % 2 ^ 5 = x4 := by
  have s0 : W / 2 ^ 0 = (((((((0 * 2 + x0) * 128 + k) * 32 + x1) * 2 + 0) * 64 + x2) * 64 + x3) * 32 + x4) * 2 + 0 := by simp only [Nat.pow_zero, Nat.div_one]; omega
  obtain ⟨g0, s1⟩ := digit (V := 2 ^ 1) (2 ^ 1) (by decide) (by decide) s0
  obtain ⟨g1, s2⟩ := digit (V := 2 ^ 5) (2 ^ 6) (by decide) h4 s1
  obtain ⟨g2, s3⟩ := digit (V := 2 ^ 6) (2 ^ 12) (by decide) h3 s2
  obtain ⟨g3, s4⟩ := digit (V := 2 ^ 6) (2 ^ 18) (by decide) h2 s3
  obtain ⟨g4, s5⟩ := digit (V := 2 ^ 1) (2 ^ 19) (by decide) (by decide) s4
  obtain ⟨g5, s6⟩ := digit (V := 2 ^ 5) (2 ^ 24) (by decide) h1 s5
  obtain ⟨g6, s7⟩ := digit (V := 128) (2 ^ 31) (by decide) hk s6
  obtain ⟨g7, s8⟩ := digit (V := 2 ^ 1) (2 ^ 32) (by decide) h0 s7
  have hW : W < 2 ^ 32 := (Nat.div_eq_zero_iff_lt (Nat.two_pow_pos 32)).mp s8
  exact ⟨hW, g6, g7, g5, g3, g2, g1⟩

theorem lay_31w1_18w6_12w6_4w2_0w4 (k B x0 x1 x2 x3 x4 W : Nat) (hk : k < 128) (hB : B = k * 16777216) (h0 : x0 < 2 ^ 1) (h1 : x1 < 2 ^ 6) (h2 : x2 < 2 ^ 6) (h3 : x3 < 2 ^ 2) (h4 : x4 < 2 ^ 4)
    (h : B + x0 * 2147483648 + x1 * 262144 + x2 * 4096 + x3 * 16 + x4 = W) : W < 2 ^ 32 ∧ W / 2 ^ 24 % 128 = k ∧ W / 2 ^ 31 % 2 ^ 1 = x0 ∧ W / 2 ^ 18 % 2 ^ 6 = x1 ∧ W / 2 ^ 12 % 2 ^ 6 = x2 ∧ W / 2 ^ 4 % 2 ^ 2 = x3 ∧ W / 2 ^ 0 % 2 ^ 4 = x4 := by
  have s0 : W / 2 ^ 0 = ((((((0 * 2 + x0) * 128 + k) * 64 + x1) * 64 + x2) * 64 + 0) * 4 + x3) * 16 + x4 := by simp only [Nat.pow_zero, Nat.div_one]; omega
  obtain ⟨g0, s1⟩ := digit (V := 2 ^ 4) (2 ^ 4) (by decide) h4 s0
  obtain ⟨g1, s2⟩ := digit (V := 2 ^ 2) (2 ^ 6) (by decide) h3 s1
  obtain ⟨g2, s3⟩ := digit (V := 2 ^ 6) (2 ^ 12) (by decide) (by decide) s2
  obtain ⟨g3, s4⟩ := digit (V := 2 ^ 6) (2 ^ 18) (by decide) h2 s3
  obtain ⟨g4, s5⟩ := digit (V := 2 ^ 6) (2 ^ 24) (by decide) h1 s4
  obtain ⟨g5, s6⟩ := digit (V := 128) (2 ^ 31) (by decide) hk s5
  obtain ⟨g6, s7⟩ := digit (V := 2 ^ 1) (2 ^ 32) (by decide) h0 s6
  have hW : W < 2 ^ 32 := (Nat.div_eq_zero_iff_lt (Nat.two_pow_pos 32)).mp s7
  exact ⟨hW, g5, g6, g4, g3, g1, g0⟩

theorem lay_31w1_19w5_12w6_4w2_0w4 (k B x0 x1 x2 x3 x4 W : Nat) (hk : k < 128) (hB : B = k * 16777216) (h0 : x0 < 2 ^ 1) (h1 : x1 < 2 ^ 5) (h2 : x2 < 2 ^ 6) (h3 : x3 < 2 ^ 2) (h4 : x4 < 2 ^ 4)
    (h : B + x0 * 2147483648 + x1 * 524288 + x2 * 4096 + x3 * 16 + x4 = W) : W < 2 ^ 32 ∧ W / 2 ^ 24 % 128 = k ∧ W / 2 ^ 31 % 2 ^ 1 = x0 ∧ W / 2 ^ 19 % 2 ^ 5 = x1 ∧ W / 2 ^ 12 % 2 ^ 6 = x2 ∧ W / 2 ^ 4 % 2 ^ 2 = x3 ∧ W / 2 ^ 0 % 2 ^ 4 = x4 := by
  have s0 : W / 2 ^ 0 = (((((((0 * 2 + x0) * 128 + k) * 32 + x1) * 2 + 0) * 64 + x2) * 64 + 0) * 4 + x3) * 16 + x4 := by simp only [Nat.pow_zero, Nat.div_one]; omega
  obtain ⟨g0, s1⟩ := digit (V := 2 ^ 4) (2 ^ 4) (by decide) h4 s0
  obtain ⟨g1, s2⟩ := digit (V := 2 ^ 2) (2 ^ 6) (by decide) h3 s1
  obtain ⟨g2, s3⟩ := digit (V := 2 ^ 6) (2 ^ 12) (by decide) (by decide) s2
  obtain ⟨g3, s4⟩ := digit (V := 2 ^ 6) (2 ^ 18) (by decide) h2 s3
  obtain ⟨g4, s5⟩ := digit (V := 2 ^ 1) (2 ^ 19) (by decide) (by decide) s4
  obtain ⟨g5, s6⟩ := digit (V := 2 ^ 5) (2 ^ 24) (by decide) h1 s5
  obtain ⟨g6, s7⟩ := digit (V := 128) (2 ^ 31) (by decide) hk s6
  obtain ⟨g7, s8⟩ := digit (V := 2 ^ 1) (2 ^ 32) (by decide) h0 s7
  have hW : W < 2 ^ 32 := (Nat.div_eq_zero_iff_lt (Nat.two_pow_pos 32)).mp s8
  exact ⟨hW, g6, g7, g5, g3, g1, g0⟩

theorem lay_31w1_19w5_13w5_6w6_4w2_0w4 (k B x0 x1 x2 x3 x4 x5 W : Nat) (hk : k < 128) (hB : B = k * 16777216) (h0 : x0 < 2 ^ 1) (h1 : x1 < 2 ^ 5) (h2 : x2 < 2 ^ 5) (h3 : x3 < 2 ^ 6) (h4 : x4 < 2 ^ 2) (h5 : x5 < 2 ^ 4)
    (h : B + x0 * 2147483648 + x1 * 524288 + x2 * 8192 + x3 * 64 + x4 * 16 + x5 = W) : W < 2 ^ 32 ∧ W / 2 ^ 24 % 128 = k ∧ W / 2 ^ 31 % 2 ^ 1 = x0 ∧ W / 2 ^ 19 % 2 ^ 5 = x1 ∧ W / 2 ^ 13 % 2 ^ 5 = x2 ∧ W / 2 ^ 6 % 2 ^ 6 = x3 ∧ W / 2 ^ 4 % 2 ^ 2 = x4 ∧ W / 2 ^ 0 % 2 ^ 4 = x5 := by
  have s0 : W / 2 ^ 0 = ((((((((0 * 2 + x0) * 128 + k) * 32 + x1) * 2 + 0) * 32 + x2) * 2 + 0) * 64 + x3) * 4 + x4) * 16 + x5 := by simp only [Nat.pow_zero, Nat.div_one]; omega
  obtain ⟨g0, s1⟩ := digit (V := 2 ^ 4) (2 ^ 4) (by decide) h5 s0
  obtain ⟨g1, s2⟩ := digit (V := 2 ^ 2) (2 ^ 6) (by decide) h4 s1
  obtain ⟨g2, s3⟩ := digit (V := 2 ^ 6) (2 ^ 12) (by decide) h3 s2
  obtain ⟨g3, s4⟩ := digit (V := 2 ^ 1) (2 ^ 13) (by decide) (by decide) s3
  obtain ⟨g4, s5⟩ := digit (V := 2 ^ 5) (2 ^ 18) (by decide) h2 s4
  obtain ⟨g5, s6⟩ := digit (V := 2 ^ 1) (2 ^ 19) (by decide) (by decide) s5
  obtain ⟨g6, s7⟩ := digit (V := 2 ^ 5) (2 ^ 24) (by decide) h1 s6
  obtain ⟨g7, s8⟩ := digit (V := 128) (2 ^ 31) (by decide) hk s7
  obtain ⟨g8, s9⟩ := digit (V := 2 ^ 1) (2 ^ 32) (by decide) h0 s8
  have hW : W < 2 ^ 32 := (Nat.div_eq_zero_iff_lt (Nat.two_pow_pos 32)).mp s9
  exact ⟨hW, g7, g8, g6, g4, g2, g1, g0⟩

theorem lay_31w1_19w5_13w5_0w12 (k B x0 x1 x2 x3 W : Nat) (hk : k < 128) (hB : B = k * 16777216) (h0 : x0 < 2 ^ 1) (h1 : x1 < 2 ^ 5) (h2 : x2 < 2 ^ 5) (h3 : x3 < 2 ^ 12)
    (h : B + x0 * 2147483648 + x1 * 524288 + x2 * 8192 + x3 = W) : W < 2 ^ 32 ∧ W / 2 ^ 24 % 128 = k ∧ W / 2 ^ 31 % 2 ^ 1 = x0 ∧ W / 2 ^ 19 % 2 ^ 5 = x1 ∧ W / 2 ^ 13 % 2 ^ 5 = x2 ∧ W / 2 ^ 0 % 2 ^ 12 = x3 := by
  have s0 : W / 2 ^ 0 = ((((((0 * 2 + x0) * 128 + k) * 32 + x1) * 2 + 0) * 32 + x2) * 2 + 0) * 4096 + x3 := by simp only [Nat.pow_zero, Nat.div_one]; omega
  obtain ⟨g0, s1⟩ := digit (V := 2 ^ 12) (2 ^ 12) (by decide) h3 s0
  obtain ⟨g1, s2⟩ := digit (V := 2 ^ 1) (2 ^ 13) (by decide) (by decide) s1
  obtain ⟨g2, s3⟩ := digit (V := 2 ^ 5) (2 ^ 18) (by decide) h2 s2
  obtain ⟨g3, s4⟩ := digit (V := 2 ^ 1) (2 ^ 19) (by decide) (by decide) s3
  obtain ⟨g4, s5⟩ := digit (V := 2 ^ 5) (2 ^ 24) (by decide) h1 s4
  obtain ⟨g5, s6⟩ := digit (V := 128) (2 ^ 31) (by decide) hk s5
  obtain ⟨g6, s7⟩ := digit (V := 2 ^ 1) (2 ^ 32) (by decide) h0 s6
  have hW : W < 2 ^ 32 := (Nat.div_eq_zero_iff_lt (Nat.two_pow_pos 32)).mp s7
  exact ⟨hW, g5, g6, g4, g2, g0⟩

theorem lay_31w1_18w6_12w6_4w1_0w4 (k B x0 x1 x2 x3 x4 W : Nat) (hk : k < 128) (hB : B = k * 16777216) (h0 : x0 < 2 ^ 1) (h1 : x1 < 2 ^ 6) (h2 : x2 < 2 ^ 6) (h3 : x3 < 2 ^ 1) (h4 : x4 < 2 ^ 4)
    (h : B + x0 * 2147483648 + x1 * 262144 + x2 * 4096 + x3 * 16 + x4 = W) : W < 2 ^ 32 ∧ W / 2 ^ 24 % 128 = k ∧ W / 2 ^ 31 % 2 ^ 1 = x0 ∧ W / 2 ^ 18 % 2 ^ 6 = x1 ∧ W / 2 ^ 12 % 2 ^ 6 = x2 ∧ W / 2 ^ 4 % 2 ^ 1 = x3 ∧ W / 2 ^ 0 % 2 ^ 4 = x4 := by
  have s0 : W / 2 ^ 0 = ((((((0 * 2 + x0) * 128 + k) * 64 + x1) * 64 + x2) * 128 + 0) * 2 + x3) * 16 + x4 := by simp only [Nat.pow_zero, Nat.div_one]; omega
  obtain ⟨g0, s1⟩ := digit (V := 2 ^ 4) (2 ^ 4) (by decide) h4 s0
  obtain ⟨g1, s2⟩ := digit (V := 2 ^ 1) (2 ^ 5) (by decide) h3 s1
  obtain ⟨g2, s3⟩ := digit (V := 2 ^ 7) (2 ^ 12) (by decide) (by decide) s2
  obtain ⟨g3, s4⟩ := digit (V := 2 ^ 6) (2 ^ 18) (by decide) h2 s3
  obtain ⟨g4, s5⟩ := digit (V := 2 ^ 6) (2 ^ 24) (by decide) h1 s4
  obtain ⟨g5, s6⟩ := digit (V := 128) (2 ^ 31) (by decide) hk s5
  obtain ⟨g6, s7⟩ := digit (V := 2 ^ 1) (2 ^ 32) (by decide) h0 s6
  have hW : W < 2 ^ 32 := (Nat.div_eq_zero_iff_lt (Nat.two_pow_pos 32)).mp s7
  exact ⟨hW, g5, g6, g4, g3, g1, g0⟩

theorem lay_31w1_18w6_12w6_6w1_0w6 (k B x0 x1 x2 x3 x4 W : Nat) (hk : k < 128) (hB : B = k * 16777216) (h0 : x0 < 2 ^ 1) (h1 : x1 < 2 ^ 6) (h2 : x2 < 2 ^ 6) (h3 : x3 < 2 ^ 1) (h4 : x4 < 2 ^ 6)
    (h : B + x0 * 2147483648 + x1 * 262144 + x2 * 4096 + x3 * 64 + x4 = W) : W < 2 ^ 32 ∧ W / 2 ^ 24 % 128 = k ∧ W / 2 ^ 31 % 2 ^ 1 = x0 ∧ W / 2 ^ 18 % 2 ^ 6 = x1 ∧ W / 2 ^ 12 % 2 ^ 6 = x2 ∧ W / 2 ^ 6 % 2 ^ 1 = x3 ∧ W / 2 ^ 0 % 2 ^ 6 = x4 := by
  have s0 : W / 2 ^ 0 = ((((((0 * 2 + x0) * 128 + k) * 64 + x1) * 64 + x2) * 32 + 0) * 2 + x3) * 64 + x4 := by simp only [Nat.pow_zero, Nat.div_one]; omega
  obtain ⟨g0, s1⟩ := digit (V := 2 ^ 6) (2 ^ 6) (by decide) h4 s0
  obtain ⟨g1, s2⟩ := digit (V := 2 ^ 1) (2 ^ 7) (by decide) h3 s1
  obtain ⟨g2, s3⟩ := digit (V := 2 ^ 5) (2 ^ 12) (by decide) (by decide) s2
  obtain ⟨g3, s4⟩ := digit (V := 2 ^ 6) (2 ^ 18) (by decide) h2 s3
  obtain ⟨g4, s5⟩ := digit (V := 2 ^ 6) (2 ^ 24) (by decide) h1 s4
  obtain ⟨g5, s6⟩ := digit (V := 128) (2 ^ 31) (by decide) hk s5
  obtain ⟨g6, s7⟩ := digit (V := 2 ^ 1) (2 ^ 32) (by decide) h0 s6
  have hW : W < 2 ^ 32 := (Nat.div_eq_zero_iff_lt (Nat.two_pow_pos 32)).mp s7
  exact ⟨hW, g5, g6, g4, g3, g1, g0⟩

theorem lay_31w1_18w6_12w6_5w5_0w5 (k B x0 x1 x2 x3 x4 W : Nat) (hk : k < 128) (hB : B = k * 16777216) (h0 : x0 < 2 ^ 1) (h1 : x1 < 2 ^ 6) (h2 : x2 < 2 ^ 6) (h3 : x3 < 2 ^ 5) (h4 : x4 < 2 ^ 5)
    (h : B + x0 * 2147483648 + x1 * 262144 + x2 * 4096 + x3 * 32 + x4 = W) : W < 2 ^ 32 ∧ W / 2 ^ 24 % 128 = k ∧ W / 2 ^ 31 % 2 ^ 1 = x0 ∧ W / 2 ^ 18 % 2 ^ 6 = x1 ∧ W / 2 ^ 12 % 2 ^ 6 = x2 ∧ W / 2 ^ 5 % 2 ^ 5 = x3 ∧ W / 2 ^ 0 % 2 ^ 5 = x4 := by
  have s0 : W / 2 ^ 0 = ((((((0 * 2 + x0) * 128 + k) * 64 + x1) * 64 + x2) * 4 + 0) * 32 + x3) * 32 + x4 := by simp only [Nat.pow_zero, Nat.div_one]; omega
  obtain ⟨g0, s1⟩ := digit (V := 2 ^ 5) (2 ^ 5) (by decide) h4 s0
  obtain ⟨g1, s2⟩ := digit (V := 2 ^ 5) (2 ^ 10) (by decide) h3 s1
  obtain ⟨g2, s3⟩ := digit (V := 2 ^ 2) (2 ^ 12) (by decide) (by decide) s2
  obtain ⟨g3, s4⟩ := digit (V := 2 ^ 6) (2 ^ 18) (by decide) h2 s3
  obtain ⟨g4, s5⟩ := digit (V := 2 ^ 6) (2 ^ 24) (by decide) h1 s4
  obtain ⟨g5, s6⟩ := digit (V := 128) (2 ^ 31) (by decide) hk s5
  obtain ⟨g6, s7⟩ := digit (V := 2 ^ 1) (2 ^ 32) (by decide) h0 s6
  have hW : W < 2 ^ 32 := (Nat.div_eq_zero_iff_lt (Nat.two_pow_pos 32)).mp s7
  exact ⟨hW, g5, g6, g4, g3, g1, g0⟩

theorem lay_0w12 (k B x0 W : Nat) (hk : k < 128) (hB : B = k * 16777216) (h0 : x0 < 2 ^ 12)
    (h : B + x0 = W) : W < 2 ^ 32 ∧ W / 2 ^ 24 % 128 = k ∧ W / 2 ^ 0 % 2 ^ 12 = x0 := by
  have s0 : W / 2 ^ 0 = (((0 * 2 + 0) * 128 + k) * 4096 + 0) * 4096 + x0 := by simp only [Nat.pow_zero, Nat.div_one]; omega
  obtain ⟨g0, s1⟩ := digit (V := 2 ^ 12) (2 ^ 12) (by decide) h0 s0
  obtain ⟨g1, s2⟩ := digit (V := 2 ^ 12) (2 ^ 24) (by decide) (by decide) s1
  obtain ⟨g2, s3⟩ := digit (V := 128) (2 ^ 31) (by decide) hk s2
  obtain ⟨g3, s4⟩ := digit (V := 2 ^ 1) (2 ^ 32) (by decide) (by decide) s3
  have hW : W < 2 ^ 32 := (Nat.div_eq_zero_iff_lt (Nat.two_pow_pos 32)).mp s4
  exact ⟨hW, g2, g0⟩

theorem lay_21w3_15w6 (k B x0 x1 W : Nat) (hk : k < 128) (hB : B = k * 16777216) (h0 : x0 < 2 ^ 3) (h1 : x1 < 2 ^ 6)
    (h : B + x0 * 2097152 + x1 * 32768 = W) : W < 2 ^ 32 ∧ W / 2 ^ 24 % 128 = k ∧ W / 2 ^ 21 % 2 ^ 3 = x0 ∧ W / 2 ^ 15 % 2 ^ 6 = x1 := by
  have s0 : W / 2 ^ 0 = ((((0 * 2 + 0) * 128 + k) * 8 + x0) * 64 + x1) * 32768 + 0 := by simp only [Nat.pow_zero, Nat.div_one]; omega
  obtain ⟨g0, s1⟩ := digit (V := 2 ^ 15) (2 ^ 15) (by decide) (by decide) s0
  obtain ⟨g1, s2⟩ := digit (V := 2 ^ 6) (2 ^ 21) (by decide) h1 s1
  obtain ⟨g2, s3⟩ := digit (V := 2 ^ 3) (2 ^ 24) (by decide) h0 s2
  obtain ⟨g3, s4⟩ := digit (V := 128) (2 ^ 31) (by decide) hk s3
  obtain ⟨g4, s5⟩ := digit (V := 2 ^ 1) (2 ^ 32) (by decide) (by decide) s4
  have hW : W < 2 ^ 32 := (Nat.div_eq_zero_iff_lt (Nat.two_pow_pos 32)).mp s5
  exact ⟨hW, g3, g2, g1⟩

theorem lay_8w1_0w8 (k B x0 x1 W : Nat) (hk : k < 128) (hB : B = k * 16777216) (h0 : x0 < 2 ^ 1) (h1 : x1 < 2 ^ 8)
    (h : B + x0 * 256 + x1 = W) : W < 2 ^ 32 ∧ W / 2 ^ 24 % 128 = k ∧ W / 2 ^ 8 % 2 ^ 1 = x0 ∧ W / 2 ^ 0 % 2 ^ 8 = x1 := by
  have s0 : W / 2 ^ 0 = ((((0 * 2 + 0) * 128 + k) * 32768 + 0) * 2 + x0) * 256 + x1 := by simp only [Nat.pow_zero, Nat.div_one]; omega
  obtain ⟨g0, s1⟩ := digit (V := 2 ^ 8) (2 ^ 8) (by decide) h1 s0
  obtain ⟨g1, s2⟩ := digit (V := 2 ^ 1) (2 ^ 9) (by decide) h0 s1
  obtain ⟨g2, s3⟩ := digit (V := 2 ^ 15) (2 ^ 24) (by decide) (by decide) s2
  obtain ⟨g3, s4⟩ := digit (V := 128) (2 ^ 31) (by decide) hk s3
  obtain ⟨g4, s5⟩ := digit (V := 2 ^ 1) (2 ^ 32) (by decide) (by decide) s4
  have hW : W < 2 ^ 32 := (Nat.div_eq_zero_iff_lt (Nat.two_pow_pos 32)).mp s5
  exact ⟨hW, g3, g1, g0⟩

theorem lay_2w1_0w2 (k B x0 x1 W : Nat) (hk : k < 128) (hB : B = k * 16777216) (h0 : x0 < 2 ^ 1) (h1 : x1 < 2 ^ 2)
    (h : B + x0 * 4 + x1 = W) : W < 2 ^ 32 ∧ W / 2 ^ 24 % 128 = k ∧ W / 2 ^ 2 % 2 ^ 1 = x0 ∧ W / 2 ^ 0 % 2 ^ 2 = x1 := by
  have s0 : W / 2 ^ 0 = ((((0 * 2 + 0) * 128 + k) * 2097152 + 0) * 2 + x0) * 4 + x1 := by simp only [Nat.pow_zero, Nat.div_one]; omega
  obtain ⟨g0, s1⟩ := digit (V := 2 ^ 2) (2 ^ 2) (by decide) h1 s0
  obtain ⟨g1, s2⟩ := digit (V := 2 ^ 1) (2 ^ 3) (by decide) h0 s1
  obtain ⟨g2, s3⟩ := digit (V := 2 ^ 21) (2 ^ 24) (by decide) (by decide) s2
  obtain ⟨g3, s4⟩ := digit (V := 128) (2 ^ 31) (by decide) hk s3
  obtain ⟨g4, s5⟩ := digit (V := 2 ^ 1) (2 ^ 32) (by decide) (by decide) s4
  have hW : W < 2 ^ 32 := (Nat.div_eq_zero_iff_lt (Nat.two_pow_pos 32)).mp s5
  exact ⟨hW, g3, g1, g0⟩

theorem lay_31w1_19w5_13w5_7w5_1w5 (k B x0 x1 x2 x3 x4 W : Nat) (hk : k < 128) (hB : B = k * 16777216) (h0 : x0 < 2 ^ 1) (h1 : x1 < 2 ^ 5) (h2 : x2 < 2 ^ 5) (h3 : x3 < 2 ^ 5) (h4 : x4 < 2 ^ 5)
    (h : B + x0 * 2147483648 + x1 * 524288 + x2 * 8192 + x3 * 128 + x4 * 2 = W) : W < 2 ^ 32 ∧ W / 2 ^ 24 % 128 = k ∧ W / 2 ^ 31 % 2 ^ 1 = x0 ∧ W / 2 ^ 19 % 2 ^ 5 = x1 ∧ W / 2 ^ 13 % 2 ^ 5 = x2 ∧ W / 2 ^ 7 % 2 ^ 5 = x3 ∧ W / 2 ^ 1 % 2 ^ 5 = x4 := by
  have s0 : W / 2 ^ 0 = (((((((((0 * 2 + x0) * 128 + k) * 32 + x1) * 2 + 0) * 32 + x2) * 2 + 0) * 32 + x3) * 2 + 0) * 32 + x4) * 2 + 0 := by simp only [Nat.pow_zero, Nat.div_one]; omega
  obtain ⟨g0, s1⟩ := digit (V := 2 ^ 1) (2 ^ 1) (by decide) (by decide) s0
  obtain ⟨g1, s2⟩ := digit (V := 2 ^ 5) (2 ^ 6) (by decide) h4 s1
  obtain ⟨g2, s3⟩ := digit (V := 2 ^ 1) (2 ^ 7) (by decide) (by decide) s2
  obtain ⟨g3, s4⟩ := digit (V := 2 ^ 5) (2 ^ 12) (by decide) h3 s3
  obtain ⟨g4, s5⟩ := digit (V := 2 ^ 1) (2 ^ 13) (by decide) (by decide) s4
  obtain ⟨g5, s6⟩ := digit (V := 2 ^ 5) (2 ^ 18) (by decide) h2 s5
  obtain ⟨g6, s7⟩ := digit (V := 2 ^ 1) (2 ^ 19) (by decide) (by decide) s6
  obtain ⟨g7, s8⟩ := digit (V := 2 ^ 5) (2 ^ 24) (by decide) h1 s7
  obtain ⟨g8, s9⟩ := digit (V := 128) (2 ^ 31) (by decide) hk s8
  obtain ⟨g9, s10⟩ := digit (V := 2 ^ 1) (2 ^ 32) (by decide) h0 s9
  have hW : W < 2 ^ 32 := (Nat.div_eq_zero_iff_lt (Nat.two_pow_pos 32)).mp s10
  exact ⟨hW, g8, g9, g7, g5, g3, g1⟩

theorem lay_31w1_18w3_12w6_6w6_4w1_0w4 (k B x0 x1 x2 x3 x4 x5 W : Nat) (hk : k < 128) (hB : B = k * 16777216) (h0 : x0 < 2 ^ 1) (h1 : x1 < 2 ^ 3) (h2 : x2 < 2 ^ 6) (h3 : x3 < 2 ^ 6) (h4 : x4 < 2 ^ 1) (h5 : x5 < 2 ^ 4)
    (h : B + x0 * 2147483648 + x1 * 262144 + x2 * 4096 + x3 * 64 + x4 * 16 + x5 = W) : W < 2 ^ 32 ∧ W / 2 ^ 24 % 128 = k ∧ W / 2 ^ 31 % 2 ^ 1 = x0 ∧ W / 2 ^ 18 % 2 ^ 3 = x1 ∧ W / 2 ^ 12 % 2 ^ 6 = x2 ∧ W / 2 ^ 6 % 2 ^ 6 = x3 ∧ W / 2 ^ 4 % 2 ^ 1 = x4 ∧ W / 2 ^ 0 % 2 ^ 4 = x5 := by
  have s0 : W / 2 ^ 0 = ((((((((0 * 2 + x0) * 128 + k) * 8 + 0) * 8 + x1) * 64 + x2) * 64 + x3) * 2 + 0) * 2 + x4) * 16 + x5 := by simp only [Nat.pow_zero, Nat.div_one]; omega
  obtain ⟨g0, s1⟩ := digit (V := 2 ^ 4) (2 ^ 4) (by decide) h5 s0
  obtain ⟨g1, s2⟩ := digit (V := 2 ^ 1) (2 ^ 5) (by decide) h4 s1
  obtain ⟨g2, s3⟩ := digit (V := 2 ^ 1) (2 ^ 6) (by decide) (by decide) s2
  obtain ⟨g3, s4⟩ := digit (V := 2 ^ 6) (2 ^ 12) (by decide) h3 s3
  obtain ⟨g4, s5⟩ := digit (V := 2 ^ 6) (2 ^ 18) (by decide) h2 s4
  obtain ⟨g5, s6⟩ := digit (V := 2 ^ 3) (2 ^ 21) (by decide) h1 s5
  obtain ⟨g6, s7⟩ := digit (V := 2 ^ 3) (2 ^ 24) (by decide) (by decide) s6
  obtain ⟨g7, s8⟩ := digit (V := 128) (2 ^ 31) (by decide) hk s7
  obtain ⟨g8, s9⟩ := digit (V := 2 ^ 1) (2 ^ 32) (by decide) h0 s8
  have hW : W < 2 ^ 32 := (Nat.div_eq_zero_iff_lt (Nat.two_pow_pos 32)).mp s9
  exact ⟨hW, g7, g8, g5, g4, g3, g1, g0⟩

theorem lay_31w1_18w6_12w6_6w2_4w2_0w4 (k B x0 x1 x2 x3 x4 x5 W : Nat) (hk : k < 128) (hB : B = k * 16777216) (h0 : x0 < 2 ^ 1) (h1 : x1 < 2 ^ 6) (h2 : x2 < 2 ^ 6) (h3 : x3 < 2 ^ 2) (h4 : x4 < 2 ^ 2) (h5 : x5 < 2 ^ 4)
    (h : B + x0 * 2147483648 + x1 * 262144 + x2 * 4096 + x3 * 64 + x4 * 16 + x5 = W) : W < 2 ^ 32 ∧ W / 2 ^ 24 % 128 = k ∧ W / 2 ^ 31 % 2 ^ 1 = x0 ∧ W / 2 ^ 18 % 2 ^ 6 = x1 ∧ W / 2 ^ 12 % 2 ^ 6 = x2 ∧ W / 2 ^ 6 % 2 ^ 2 = x3 ∧ W / 2 ^ 4 % 2 ^ 2 = x4 ∧ W / 2 ^ 0 % 2 ^ 4 = x5 := by
  have s0 : W / 2 ^ 0 = (((((((0 * 2 + x0) * 128 + k) * 64 + x1) * 64 + x2) * 16 + 0) * 4 + x3) * 4 + x4) * 16 + x5 := by simp only [Nat.pow_zero, Nat.div_one]; omega
  obtain ⟨g0, s1⟩ := digit (V := 2 ^ 4) (2 ^ 4) (by decide) h5 s0
  obtain ⟨g1, s2⟩ := digit (V := 2 ^ 2) (2 ^ 6) (by decide) h4 s1
  obtain ⟨g2, s3⟩ := digit (V := 2 ^ 2) (2 ^ 8) (by decide) h3 s2
  obtain ⟨g3, s4⟩ := digit (V := 2 ^ 4) (2 ^ 12) (by decide) (by decide) s3
  obtain ⟨g4, s5⟩ := digit (V := 2 ^ 6) (2 ^ 18) (by decide) h2 s4
  obtain ⟨g5, s6⟩ := digit (V := 2 ^ 6) (2 ^ 24) (by decide) h1 s5
  obtain ⟨g6, s7⟩ := digit (V := 128) (2 ^ 31) (by decide) hk s6
  obtain ⟨g7, s8⟩ := digit (V := 2 ^ 1) (2 ^ 32) (by decide) h0 s7
  have hW : W < 2 ^ 32 := (Nat.div_eq_zero_iff_lt (Nat.two_pow_pos 32)).mp s8
  exact ⟨hW, g6, g7, g5, g4, g2, g1, g0⟩

theorem lay_31w1_18w6_12w6_9w3_6w3_4w2_0w4 (k B x0 x1 x2 x3 x4 x5 x6 W : Nat) (hk : k < 128) (hB : B = k * 16777216) (h0 : x0 < 2 ^ 1) (h1 : x1 < 2 ^ 6) (h2 : x2 < 2 ^ 6) (h3 : x3 < 2 ^ 3) (h4 : x4 < 2 ^ 3) (h5 : x5 < 2 ^ 2) (h6 : x6 < 2 ^ 4)
    (h : B + x0 * 2147483648 + x1 * 262144 + x2 * 4096 + x3 * 512 + x4 * 64 + x5 * 16 + x6 = W) : W < 2 ^ 32 ∧ W / 2 ^ 24 % 128 = k ∧ W / 2 ^ 31 % 2 ^ 1 = x0 ∧ W / 2 ^ 18 % 2 ^ 6 = x1 ∧ W / 2 ^ 12 % 2 ^ 6 = x2 ∧ W / 2 ^ 9 % 2 ^ 3 = x3 ∧ W / 2 ^ 6 % 2 ^ 3 = x4 ∧ W / 2 ^ 4 % 2 ^ 2 = x5 ∧ W / 2 ^ 0 % 2 ^ 4 = x6 := by
  have s0 : W / 2 ^ 0 = (((((((0 * 2 + x0) * 128 + k) * 64 + x1) * 64 + x2) * 8 + x3) * 8 + x4) * 4 + x5) * 16 + x6 := by simp only [Nat.pow_zero, Nat.div_one]; omega
  obtain ⟨g0, s1⟩ := digit (V := 2 ^ 4) (2 ^ 4) (by decide) h6 s0
  obtain ⟨g1, s2⟩ := digit (V := 2 ^ 2) (2 ^ 6) (by decide) h5 s1
  obtain ⟨g2, s3⟩ := digit (V := 2 ^ 3) (2 ^ 9) (by decide) h4 s2
  obtain ⟨g3, s4⟩ := digit (V := 2 ^ 3) (2 ^ 12) (by decide) h3 s3
  obtain ⟨g4, s5⟩ := digit (V := 2 ^ 6) (2 ^ 18) (by decide) h2 s4
  obtain ⟨g5, s6⟩ := digit (V := 2 ^ 6) (2 ^ 24) (by decide) h1 s5
  obtain ⟨g6, s7⟩ := digit (V := 128) (2 ^ 31) (by decide) hk s6
  obtain ⟨g7, s8⟩ := digit (V := 2 ^ 1) (2 ^ 32) (by decide) h0 s7
  have hW : W < 2 ^ 32 := (Nat.div_eq_zero_iff_lt (Nat.two_pow_pos 32)).mp s8
  exact ⟨hW, g6, g7, g5, g4, g3, g2, g1, g0⟩

theorem lay_31w1_18w6_12w6_6w6_4w1_0w4_r32 (k B x0 x1 x2 x3 x4 x5 W : Nat) (hk : k < 128) (hB : B = k * 16777216 + 32) (h0 : x0 < 2 ^ 1) (h1 : x1 < 2 ^ 6) (h2 : x2 < 2 ^ 6) (h3 : x3 < 2 ^ 6) (h4 : x4 < 2 ^ 1) (h5 : x5 < 2 ^ 4)
    (h : B + x0 * 2147483648 + x1 * 262144 + x2 * 4096 + x3 * 64 + x4 * 16 + x5 = W) : W < 2 ^ 32 ∧ W / 2 ^ 24 % 128 = k ∧ W / 2 ^ 31 % 2 ^ 1 = x0 ∧ W / 2 ^ 18 % 2 ^ 6 = x1 ∧ W / 2 ^ 12 % 2 ^ 6 = x2 ∧ W / 2 ^ 6 % 2 ^ 6 = x3 ∧ W / 2 ^ 4 % 2 ^ 1 = x4 ∧ W / 2 ^ 0 % 2 ^ 4 = x5 := by
  have s0 : W / 2 ^ 0 = (((((((0 * 2 + x0) * 128 + k) * 64 + x1) * 64 + x2) * 64 + x3) * 2 + 1) * 2 + x4) * 16 + x5 := by simp only [Nat.pow_zero, Nat.div_one]; omega
  obtain ⟨g0, s1⟩ := digit (V := 2 ^ 4) (2 ^ 4) (by decide) h5 s0
  obtain ⟨g1, s2⟩ := digit (V := 2 ^ 1) (2 ^ 5) (by decide) h4 s1
  obtain ⟨g2, s3⟩ := digit (V := 2 ^ 1) (2 ^ 6) (by decide) (by decide) s2
  obtain ⟨g3, s4⟩ := digit (V := 2 ^ 6) (2 ^ 12) (by decide) h3 s3
  obtain ⟨g4, s5⟩ := digit (V := 2 ^ 6) (2 ^ 18) (by decide) h2 s4
  obtain ⟨g5, s6⟩ := digit (V := 2 ^ 6) (2 ^ 24) (by decide) h1 s5
  obtain ⟨g6, s7⟩ := digit (V := 128) (2 ^ 31) (by decide) hk s6
  obtain ⟨g7, s8⟩ := digit (V := 2 ^ 1) (2 ^ 32) (by decide) h0 s7
  have hW : W < 2 ^ 32 := (Nat.div_eq_zero_iff_lt (Nat.two_pow_pos 32)).mp s8
  exact ⟨hW, g6, g7, g5, g4, g3, g1, g0⟩

theorem lay_20w4_19w1_0w19 (k B x0 x1 x2 W : Nat) (hk : k < 128) (hB : B = k * 16777216) (h0 : x0 < 2 ^ 4) (h1 : x1 < 2 ^ 1) (h2 : x2 < 2 ^ 19)
    (h : B + x0 * 1048576 + x1 * 524288 + x2 = W) : W < 2 ^ 32 ∧ W / 2 ^ 24 % 128 = k ∧ W / 2 ^ 20 % 2 ^ 4 = x0 ∧ W / 2 ^ 19 % 2 ^ 1 = x1 ∧ W / 2 ^ 0 % 2 ^ 19 = x2 := by
  have s0 : W / 2 ^ 0 = ((((0 * 2 + 0) * 128 + k) * 16 + x0) * 2 + x1) * 524288 + x2 := by simp only [Nat.pow_zero, Nat.div_one]; omega
  obtain ⟨g0, s1⟩ := digit (V := 2 ^ 19) (2 ^ 19) (by decide) h2 s0
  obtain ⟨g1, s2⟩ := digit (V := 2 ^ 1) (2 ^ 20) (by decide) h1 s1
  obtain ⟨g2, s3⟩ := digit (V := 2 ^ 4) (2 ^ 24) (by decide) h0 s2
  obtain ⟨g3, s4⟩ := digit (V := 128) (2 ^ 31) (by decide) hk s3
  obtain ⟨g4, s5⟩ := digit (V := 2 ^ 1) (2 ^ 32) (by decide) (by decide) s4
  have hW : W < 2 ^ 32 := (Nat.div_eq_zero_iff_lt (Nat.two_pow_pos 32)).mp s5
  exact ⟨hW, g3, g2, g1, g0⟩

theorem lay_13w5_0w4 (k B x0 x1 W : Nat) (hk : k < 128) (hB : B = k * 16777216) (h0 : x0 < 2 ^ 5) (h1 : x1 < 2 ^ 4)
    (h : B + x0 * 8192 + x1 = W) : W < 2 ^ 32 ∧ W / 2 ^ 24 % 128 = k ∧ W / 2 ^ 13 % 2 ^ 5 = x0 ∧ W / 2 ^ 0 % 2 ^ 4 = x1 := by
  have s0 : W / 2 ^ 0 = (((((0 * 2 + 0) * 128 + k) * 64 + 0) * 32 + x0) * 512 + 0) * 16 + x1 := by simp only [Nat.pow_zero, Nat.div_one]; omega
  obtain ⟨g0, s1⟩ := digit (V := 2 ^ 4) (2 ^ 4) (by decide) h1 s0
  obtain ⟨g1, s2⟩ := digit (V := 2 ^ 9) (2 ^ 13) (by decide) (by decide) s1
  obtain ⟨g2, s3⟩ := digit (V := 2 ^ 5) (2 ^ 18) (by decide) h0 s2
  obtain ⟨g3, s4⟩ := digit (V := 2 ^ 6) (2 ^ 24) (by decide) (by decide) s3
  obtain ⟨g4, s5⟩ := digit (V := 128) (2 ^ 31) (by decide) hk s4
  obtain ⟨g5, s6⟩ := digit (V := 2 ^ 1) (2 ^ 32) (by decide) (by decide) s5
  have hW : W < 2 ^ 32 := (Nat.div_eq_zero_iff_lt (Nat.two_pow_pos 32)).mp s6
  exact ⟨hW, g4, g2, g0⟩

theorem lay_none (k B W : Nat) (hk : k < 128) (hB : B = k * 16777216) 
    (h : B = W) : W < 2 ^ 32 ∧ W / 2 ^ 24 % 128 = k := by
  have s0 : W / 2 ^ 0 = ((0 * 2 + 0) * 128 + k) * 16777216 + 0 := by simp only [Nat.pow_zero, Nat.div_one]; omega
  obtain ⟨g0, s1⟩ := digit (V := 2 ^ 24) (2 ^ 24) (by decide) (by decide) s0
  obtain ⟨g1, s2⟩ := digit (V := 128) (2 ^ 31) (by decide) hk s1
  obtain ⟨g2, s3⟩ := digit (V := 2 ^ 1) (2 ^ 32) (by decide) (by decide) s2
  have hW : W < 2 ^ 32 := (Nat.div_eq_zero_iff_lt (Nat.two_pow_pos 32)).mp s3
  exact ⟨hW, g1⟩

theorem lay_0w8 (k B x0 W : Nat) (hk : k < 128) (hB : B = k * 16777216) (h0 : x0 < 2 ^ 8)
    (h : B + x0 = W) : W < 2 ^ 32 ∧ W / 2 ^ 24 % 128 = k ∧ W / 2 ^ 0 % 2 ^ 8 = x0 := by
  have s0 : W / 2 ^ 0 = (((0 * 2 + 0) * 128 + k) * 65536 + 0) * 256 + x0 := by simp only [Nat.pow_zero, Nat.div_one]; omega
  obtain ⟨g0, s1⟩ := digit (V := 2 ^ 8) (2 ^ 8) (by decide) h0 s0
  obtain ⟨g1, s2⟩ := digit (V := 2 ^ 16) (2 ^ 24) (by decide) (by decide) s1
  obtain ⟨g2, s3⟩ := digit (V := 128) (2 ^ 31) (by decide) hk s2
  obtain ⟨g3, s4⟩ := digit (V := 2 ^ 1) (2 ^ 32) (by decide) (by decide) s3
  have hW : W < 2 ^ 32 := (Nat.div_eq_zero_iff_lt (Nat.two_pow_pos 32)).mp s4
  exact ⟨hW, g2, g0⟩

theorem lay_0w16 (k B x0 W : Nat) (hk : k < 128) (hB : B = k * 16777216) (h0 : x0 < 2 ^ 16)
    (h : B + x0 = W) : W < 2 ^ 32 ∧ W / 2 ^ 24 % 128 = k ∧ W / 2 ^ 0 % 2 ^ 16 = x0 := by
  have s0 : W / 2 ^ 0 = (((0 * 2 + 0) * 128 + k) * 256 + 0) * 65536 + x0 := by simp only [Nat.pow_zero, Nat.div_one]; omega
  obtain ⟨g0, s1⟩ := digit (V := 2 ^ 16) (2 ^ 16) (by decide) h0 s0
  obtain ⟨g1, s2⟩ := digit (V := 2 ^ 8) (2 ^ 24) (by decide) (by decide) s1
  obtain ⟨g2, s3⟩ := digit (V := 128) (2 ^ 31) (by decide) hk s2
  obtain ⟨g3, s4⟩ := digit (V := 2 ^ 1) (2 ^ 32) (by decide) (by decide) s3
  have hW : W < 2 ^ 32 := (Nat.div_eq_zero_iff_lt (Nat.two_pow_pos 32)).mp s4
  exact ⟨hW, g2, g0⟩

theorem lay_31w1_0w4 (k B x0 x1 W : Nat) (hk : k < 128) (hB : B = k * 16777216) (h0 : x0 < 2 ^ 1) (h1 : x1 < 2 ^ 4)
    (h : B + x0 * 2147483648 + x1 = W) : W < 2 ^ 32 ∧ W / 2 ^ 24 % 128 = k ∧ W / 2 ^ 31 % 2 ^ 1 = x0 ∧ W / 2 ^ 0 % 2 ^ 4 = x1 := by
  have s0 : W / 2 ^ 0 = (((0 * 2 + x0) * 128 + k) * 1048576 + 0) * 16 + x1 := by simp only [Nat.pow_zero, Nat.div_one]; omega
  obtain ⟨g0, s1⟩ := digit (V := 2 ^ 4) (2 ^ 4) (by decide) h1 s0
  obtain ⟨g1, s2⟩ := digit (V := 2 ^ 20) (2 ^ 24) (by decide) (by decide) s1
  obtain ⟨g2, s3⟩ := digit (V := 128) (2 ^ 31) (by decide) hk s2
  obtain ⟨g3, s4⟩ := digit (V := 2 ^ 1) (2 ^ 32) (by decide) h0 s3
  have hW : W < 2 ^ 32 := (Nat.div_eq_zero_iff_lt (Nat.two_pow_pos 32)).mp s4
  exact ⟨hW, g2, g3, g0⟩

theorem lay_31w1_0w1 (k B x0 x1 W : Nat) (hk : k < 128) (hB : B = k * 16777216) (h0 : x0 < 2 ^ 1) (h1 : x1 < 2 ^ 1)
    (h : B + x0 * 2147483648 + x1 = W) : W < 2 ^ 32 ∧ W / 2 ^ 24 % 128 = k ∧ W / 2 ^ 31 % 2 ^ 1 = x0 ∧ W / 2 ^ 0 % 2 ^ 1 = x1 := by
  have s0 : W / 2 ^ 0 = (((0 * 2 + x0) * 128 + k) * 8388608 + 0) * 2 + x1 := by simp only [Nat.pow_zero, Nat.div_one]; omega
  obtain ⟨g0, s1⟩ := digit (V := 2 ^ 1) (2 ^ 1) (by decide) h1 s0
  obtain ⟨g1, s2⟩ := digit (V := 2 ^ 23) (2 ^ 24) (by decide) (by decide) s1
  obtain ⟨g2, s3⟩ := digit (V := 128) (2 ^ 31) (by decide) hk s2
  obtain ⟨g3, s4⟩ := digit (V := 2 ^ 1) (2 ^ 32) (by decide) h0 s3
  have hW : W < 2 ^ 32 := (Nat.div_eq_zero_iff_lt (Nat.two_pow_pos 32)).mp s4
  exact ⟨hW, g2, g3, g0⟩

theorem lay_31w1_18w6_12w6_8w4_4w4_2w2_0w2 (k B x0 x1 x2 x3 x4 x5 x6 W : Nat) (hk : k < 128) (hB : B = k * 16777216) (h0 : x0 < 2 ^ 1) (h1 : x1 < 2 ^ 6) (h2 : x2 < 2 ^ 6) (h3 : x3 < 2 ^ 4) (h4 : x4 < 2 ^ 4) (h5 : x5 < 2 ^ 2) (h6 : x6 < 2 ^ 2)
    (h : B + x0 * 2147483648 + x1 * 262144 + x2 * 4096 + x3 * 256 + x4 * 16 + x5 * 4 + x6 = W) : W < 2 ^ 32 ∧ W / 2 ^ 24 % 128 = k ∧ W / 2 ^ 31 % 2 ^ 1 = x0 ∧ W / 2 ^ 18 % 2 ^ 6 = x1 ∧ W / 2 ^ 12 % 2 ^ 6 = x2 ∧ W / 2 ^ 8 % 2 ^ 4 = x3 ∧ W / 2 ^ 4 % 2 ^ 4 = x4 ∧ W / 2 ^ 2 % 2 ^ 2 = x5 ∧ W / 2 ^ 0 % 2 ^ 2 = x6 := by
  have s0 : W / 2 ^ 0 = (((((((0 * 2 + x0) * 128 + k) * 64 + x1) * 64 + x2) * 16 + x3) * 16 + x4) * 4 + x5) * 4 + x6 := by simp only [Nat.pow_zero, Nat.div_one]; omega
  obtain ⟨g0, s1⟩ := digit (V := 2 ^ 2) (2 ^ 2) (by decide) h6 s0
  obtain ⟨g1, s2⟩ := digit (V := 2 ^ 2) (2 ^ 4) (by decide) h5 s1
  obtain ⟨g2, s3⟩ := digit (V := 2 ^ 4) (2 ^ 8) (by decide) h4 s2
  obtain ⟨g3, s4⟩ := digit (V := 2 ^ 4) (2 ^ 12) (by decide) h3 s3
  obtain ⟨g4, s5⟩ := digit (V := 2 ^ 6) (2 ^ 18) (by decide) h2 s4
  obtain ⟨g5, s6⟩ := digit (V := 2 ^ 6) (2 ^ 24) (by decide) h1 s5
  obtain ⟨g6, s7⟩ := digit (V := 128) (2 ^ 31) (by decide) hk s6
  obtain ⟨g7, s8⟩ := digit (V := 2 ^ 1) (2 ^ 32) (by decide) h0 s7
  have hW : W < 2 ^ 32 := (Nat.div_eq_zero_iff_lt (Nat.two_pow_pos 32)).mp s8
  exact ⟨hW, g6, g7, g5, g4, g3, g2, g1, g0⟩

theorem lay_31w1_18w6_12w6_8w4_4w4_3w1_0w2_r4 (k B x0 x1 x2 x3 x4 x5 x6 W : Nat) (hk : k < 128) (hB : B = k * 16777216 + 4) (h0 : x0 < 2 ^ 1) (h1 : x1 < 2 ^ 6) (h2 : x2 < 2 ^ 6) (h3 : x3 < 2 ^ 4) (h4 : x4 < 2 ^ 4) (h5 : x5 < 2 ^ 1) (h6 : x6 < 2 ^ 2)
    (h : B + x0 * 2147483648 + x1 * 262144 + x2 * 4096 + x3 * 256 + x4 * 16 + x5 * 8 + x6 = W) : W < 2 ^ 32 ∧ W / 2 ^ 24 % 128 = k ∧ W / 2 ^ 31 % 2 ^ 1 = x0 ∧ W / 2 ^ 18 % 2 ^ 6 = x1 ∧ W / 2 ^ 12 % 2 ^ 6 = x2 ∧ W / 2 ^ 8 % 2 ^ 4 = x3 ∧ W / 2 ^ 4 % 2 ^ 4 = x4 ∧ W / 2 ^ 3 % 2 ^ 1 = x5 ∧ W / 2 ^ 0 % 2 ^ 2 = x6 := by
  have s0 : W / 2 ^ 0 = ((((((((0 * 2 + x0) * 128 + k) * 64 + x1) * 64 + x2) * 16 + x3) * 16 + x4) * 2 + x5) * 2 + 1) * 4 + x6 := by simp only [Nat.pow_zero, Nat.div_one]; omega
  obtain ⟨g0, s1⟩ := digit (V := 2 ^ 2) (2 ^ 2) (by decide) h6 s0
  obtain ⟨g1, s2⟩ := digit (V := 2 ^ 1) (2 ^ 3) (by decide) (by decide) s1
  obtain ⟨g2, s3⟩ := digit (V := 2 ^ 1) (2 ^ 4) (by decide) h5 s2
  obtain ⟨g3, s4⟩ := digit (V := 2 ^ 4) (2 ^ 8) (by decide) h4 s3
  obtain ⟨g4, s5⟩ := digit (V := 2 ^ 4) (2 ^ 12) (by decide) h3 s4
  obtain ⟨g5, s6⟩ := digit (V := 2 ^ 6) (2 ^ 18) (by decide) h2 s5
  obtain ⟨g6, s7⟩ := digit (V := 2 ^ 6) (2 ^ 24) (by decide) h1 s6
  obtain ⟨g7, s8⟩ := digit (V := 128) (2 ^ 31) (by decide) hk s7
  obtain ⟨g8, s9⟩ := digit (V := 2 ^ 1) (2 ^ 32) (by decide) h0 s8
  have hW : W < 2 ^ 32 := (Nat.div_eq_zero_iff_lt (Nat.two_pow_pos 32)).mp s9
  exact ⟨hW, g7, g8, g6, g5, g4, g3, g2, g0⟩

theorem lay_31w1_18w6_12w6_8w4_4w4_2w2_0w1 (k B x0 x1 x2 x3 x4 x5 x6 W : Nat) (hk : k < 128) (hB : B = k * 16777216) (h0 : x0 < 2 ^ 1) (h1 : x1 < 2 ^ 6) (h2 : x2 < 2 ^ 6) (h3 : x3 < 2 ^ 4) (h4 : x4 < 2 ^ 4) (h5 : x5 < 2 ^ 2) (h6 : x6 < 2 ^ 1)
    (h : B + x0 * 2147483648 + x1 * 262144 + x2 * 4096 + x3 * 256 + x4 * 16 + x5 * 4 + x6 = W) : W < 2 ^ 32 ∧ W / 2 ^ 24 % 128 = k ∧ W / 2 ^ 31 % 2 ^ 1 = x0 ∧ W / 2 ^ 18 % 2 ^ 6 = x1 ∧ W / 2 ^ 12 % 2 ^ 6 = x2 ∧ W / 2 ^ 8 % 2 ^ 4 = x3 ∧ W / 2 ^ 4 % 2 ^ 4 = x4 ∧ W / 2 ^ 2 % 2 ^ 2 = x5 ∧ W / 2 ^ 0 % 2 ^ 1 = x6 := by
  have s0 : W / 2 ^ 0 = ((((((((0 * 2 + x0) * 128 + k) * 64 + x1) * 64 + x2) * 16 + x3) * 16 + x4) * 4 + x5) * 2 + 0) * 2 + x6 := by simp only [Nat.pow_zero, Nat.div_one]; omega
  obtain ⟨g0, s1⟩ := digit (V := 2 ^ 1) (2 ^ 1) (by decide) h6 s0
  obtain ⟨g1, s2⟩ := digit (V := 2 ^ 1) (2 ^ 2) (by decide) (by decide) s1
  obtain ⟨g2, s3⟩ := digit (V := 2 ^ 2) (2 ^ 4) (by decide) h5 s2
  obtain ⟨g3, s4⟩ := digit (V := 2 ^ 4) (2 ^ 8) (by decide) h4 s3
  obtain ⟨g4, s5⟩ := digit (V := 2 ^ 4) (2 ^ 12) (by decide) h3 s4
  obtain ⟨g5, s6⟩ := digit (V := 2 ^ 6) (2 ^ 18) (by decide) h2 s5
  obtain ⟨g6, s7⟩ := digit (V := 2 ^ 6) (2 ^ 24) (by decide) h1 s6
  obtain ⟨g7, s8⟩ := digit (V := 128) (2 ^ 31) (by decide) hk s7
  obtain ⟨g8, s9⟩ := digit (V := 2 ^ 1) (2 ^ 32) (by decide) h0 s8
  have hW : W < 2 ^ 32 := (Nat.div_eq_zero_iff_lt (Nat.two_pow_pos 32)).mp s9
  exact ⟨hW, g7, g8, g6, g5, g4, g3, g2, g0⟩

theorem lay_31w1_18w6_13w5_8w4_4w4_0w2 (k B x0 x1 x2 x3 x4 x5 W : Nat) (hk : k < 128) (hB : B = k * 16777216) (h0 : x0 < 2 ^ 1) (h1 : x1 < 2 ^ 6) (h2 : x2 < 2 ^ 5) (h3 : x3 < 2 ^ 4) (h4 : x4 < 2 ^ 4) (h5 : x5 < 2 ^ 2)
    (h : B + x0 * 2147483648 + x1 * 262144 + x2 * 8192 + x3 * 256 + x4 * 16 + x5 = W) : W < 2 ^ 32 ∧ W / 2 ^ 24 % 128 = k ∧ W / 2 ^ 31 % 2 ^ 1 = x0 ∧ W / 2 ^ 18 % 2 ^ 6 = x1 ∧ W / 2 ^ 13 % 2 ^ 5 = x2 ∧ W / 2 ^ 8 % 2 ^ 4 = x3 ∧ W / 2 ^ 4 % 2 ^ 4 = x4 ∧ W / 2 ^ 0 % 2 ^ 2 = x5 := by
  have s0 : W / 2 ^ 0 = ((((((((0 * 2 + x0) * 128 + k) * 64 + x1) * 32 + x2) * 2 + 0) * 16 + x3) * 16 + x4) * 4 + 0) * 4 + x5 := by simp only [Nat.pow_zero, Nat.div_one]; omega
  obtain ⟨g0, s1⟩ := digit (V := 2 ^ 2) (2 ^ 2) (by decide) h5 s0
  obtain ⟨g1, s2⟩ := digit (V := 2 ^ 2) (2 ^ 4) (by decide) (by decide) s1
  obtain ⟨g2, s3⟩ := digit (V := 2 ^ 4) (2 ^ 8) (by decide) h4 s2
  obtain ⟨g3, s4⟩ := digit (V := 2 ^ 4) (2 ^ 12) (by decide) h3 s3
  obtain ⟨g4, s5⟩ := digit (V := 2 ^ 1) (2 ^ 13) (by decide) (by decide) s4
  obtain ⟨g5, s6⟩ := digit (V := 2 ^ 5) (2 ^ 18) (by decide) h2 s5
  obtain ⟨g6, s7⟩ := digit (V := 2 ^ 6) (2 ^ 24) (by decide) h1 s6
  obtain ⟨g7, s8⟩ := digit (V := 128) (2 ^ 31) (by decide) hk s7
  obtain ⟨g8, s9⟩ := digit (V := 2 ^ 1) (2 ^ 32) (by decide) h0 s8
  have hW : W < 2 ^ 32 := (Nat.div_eq_zero_iff_lt (Nat.two_pow_pos 32)).mp s9
  exact ⟨hW, g7, g8, g6, g5, g3, g2, g0⟩

theorem lay_31w1_18w6_12w6_9w3_5w4_4w1_0w4 (k B x0 x1 x2 x3 x4 x5 x6 W : Nat) (hk : k < 128) (hB : B = k * 16777216) (h0 : x0 < 2 ^ 1) (h1 : x1 < 2 ^ 6) (h2 : x2 < 2 ^ 6) (h3 : x3 < 2 ^ 3) (h4 : x4 < 2 ^ 4) (h5 : x5 < 2 ^ 1) (h6 : x6 < 2 ^ 4)
    (h : B + x0 * 2147483648 + x1 * 262144 + x2 * 4096 + x3 * 512 + x4 * 32 + x5 * 16 + x6 = W) : W < 2 ^ 32 ∧ W / 2 ^ 24 % 128 = k ∧ W / 2 ^ 31 % 2 ^ 1 = x0 ∧ W / 2 ^ 18 % 2 ^ 6 = x1 ∧ W / 2 ^ 12 % 2 ^ 6 = x2 ∧ W / 2 ^ 9 % 2 ^ 3 = x3 ∧ W / 2 ^ 5 % 2 ^ 4 = x4 ∧ W / 2 ^ 4 % 2 ^ 1 = x5 ∧ W / 2 ^ 0 % 2 ^ 4 = x6 := by
  have s0 : W / 2 ^ 0 = (((((((0 * 2 + x0) * 128 + k) * 64 + x1) * 64 + x2) * 8 + x3) * 16 + x4) * 2 + x5) * 16 + x6 := by simp only [Nat.pow_zero, Nat.div_one]; omega
  obtain ⟨g0, s1⟩ := digit (V := 2 ^ 4) (2 ^ 4) (by decide) h6 s0
  obtain ⟨g1, s2⟩ := digit (V := 2 ^ 1) (2 ^ 5) (by decide) h5 s1
  obtain ⟨g2, s3⟩ := digit (V := 2 ^ 4) (2 ^ 9) (by decide) h4 s2
  obtain ⟨g3, s4⟩ := digit (V := 2 ^ 3) (2 ^ 12) (by decide) h3 s3
  obtain ⟨g4, s5⟩ := digit (V := 2 ^ 6) (2 ^ 18) (by decide) h2 s4
  obtain ⟨g5, s6⟩ := digit (V := 2 ^ 6) (2 ^ 24) (by decide) h1 s5
  obtain ⟨g6, s7⟩ := digit (V := 128) (2 ^ 31) (by decide) hk s6
  obtain ⟨g7, s8⟩ := digit (V := 2 ^ 1) (2 ^ 32) (by decide) h0 s7
  have hW : W < 2 ^ 32 := (Nat.div_eq_zero_iff_lt (Nat.two_pow_pos 32)).mp s8
  exact ⟨hW, g6, g7, g5, g4, g3, g2, g1, g0⟩

theorem lay_31w1_5w1_3w2_0w3 (k B x0 x1 x2 x3 W : Nat) (hk : k < 128) (hB : B = k * 16777216) (h0 : x0 < 2 ^ 1) (h1 : x1 < 2 ^ 1) (h2 : x2 < 2 ^ 2) (h3 : x3 < 2 ^ 3)
    (h : B + x0 * 2147483648 + x1 * 32 + x2 * 8 + x3 = W) : W < 2 ^ 32 ∧ W / 2 ^ 24 % 128 = k ∧ W / 2 ^ 31 % 2 ^ 1 = x0 ∧ W / 2 ^ 5 % 2 ^ 1 = x1 ∧ W / 2 ^ 3 % 2 ^ 2 = x2 ∧ W / 2 ^ 0 % 2 ^ 3 = x3 := by
  have s0 : W / 2 ^ 0 = (((((0 * 2 + x0) * 128 + k) * 262144 + 0) * 2 + x1) * 4 + x2) * 8 + x3 := by simp only [Nat.pow_zero, Nat.div_one]; omega
  obtain ⟨g0, s1⟩ := digit (V := 2 ^ 3) (2 ^ 3) (by decide) h3 s0
  obtain ⟨g1, s2⟩ := digit (V := 2 ^ 2) (2 ^ 5) (by decide) h2 s1
  obtain ⟨g2, s3⟩ := digit (V := 2 ^ 1) (2 ^ 6) (by decide) h1 s2
  obtain ⟨g3, s4⟩ := digit (V := 2 ^ 18) (2 ^ 24) (by decide) (by decide) s3
  obtain ⟨g4, s5⟩ := digit (V := 128) (2 ^ 31) (by decide) hk s4
  obtain ⟨g5, s6⟩ := digit (V := 2 ^ 1) (2 ^ 32) (by decide) h0 s5
  have hW : W < 2 ^ 32 := (Nat.div_eq_zero_iff_lt (Nat.two_pow_pos 32)).mp s6
  exact ⟨hW, g4, g5, g2, g1, g0⟩

theorem lay_31w1_18w5_12w4_m (k r B x0 x1 x2 W : Nat) (hk : k < 128) (hr : r < 64) (hB : B = k * 16777216 + r) (h0 : x0 < 2 ^ 1) (h1 : x1 < 2 ^ 5) (h2 : x2 < 2 ^ 4)
    (h : B + x0 * 2147483648 + x1 * 262144 + x2 * 4096 = W) : W < 2 ^ 32 ∧ W / 2 ^ 24 % 128 = k ∧ W % 64 = r ∧ W / 2 ^ 31 % 2 ^ 1 = x0 ∧ W / 2 ^ 18 % 2 ^ 5 = x1 ∧ W / 2 ^ 12 % 2 ^ 4 = x2 := by
  have s0 : W / 2 ^ 0 = (((((((0 * 2 + x0) * 128 + k) * 2 + 0) * 32 + x1) * 4 + 0) * 16 + x2) * 64 + 0) * 64 + r := by simp only [Nat.pow_zero, Nat.div_one]; omega
  obtain ⟨g0, s1⟩ := digit (V := 64) (2 ^ 6) (by decide) hr s0
  obtain ⟨g1, s2⟩ := digit (V := 2 ^ 6) (2 ^ 12) (by decide) (by decide) s1
  obtain ⟨g2, s3⟩ := digit (V := 2 ^ 4) (2 ^ 16) (by decide) h2 s2
  obtain ⟨g3, s4⟩ := digit (V := 2 ^ 2) (2 ^ 18) (by decide) (by decide) s3
  obtain ⟨g4, s5⟩ := digit (V := 2 ^ 5) (2 ^ 23) (by decide) h1 s4
  obtain ⟨g5, s6⟩ := digit (V := 2 ^ 1) (2 ^ 24) (by decide) (by decide) s5
  obtain ⟨g6, s7⟩ := digit (V := 128) (2 ^ 31) (by decide) hk s6
  obtain ⟨g7, s8⟩ := digit (V := 2 ^ 1) (2 ^ 32) (by decide) h0 s7
  have hW : W < 2 ^ 32 := (Nat.div_eq_zero_iff_lt (Nat.two_pow_pos 32)).mp s8
  exact ⟨hW, g6, by simpa only [Nat.pow_zero, Nat.div_one] using g0, g7, g4, g2⟩

theorem lay_31w1_18w5_m (k r B x0 x1 W : Nat) (hk : k < 128) (hr : r < 64) (hB : B = k * 16777216 + r) (h0 : x0 < 2 ^ 1) (h1 : x1 < 2 ^ 5)
    (h : B + x0 * 2147483648 + x1 * 262144 = W) : W < 2 ^ 32 ∧ W / 2 ^ 24 % 128 = k ∧ W % 64 = r ∧ W / 2 ^ 31 % 2 ^ 1 = x0 ∧ W / 2 ^ 18 % 2 ^ 5 = x1 := by
  have s0 : W / 2 ^ 0 = (((((0 * 2 + x0) * 128 + k) * 2 + 0) * 32 + x1) * 4096 + 0) * 64 + r := by simp only [Nat.pow_zero, Nat.div_one]; omega
  obtain ⟨g0, s1⟩ := digit (V := 64) (2 ^ 6) (by decide) hr s0
  obtain ⟨g1, s2⟩ := digit (V := 2 ^ 12) (2 ^ 18) (by decide) (by decide) s1
  obtain ⟨g2, s3⟩ := digit (V := 2 ^ 5) (2 ^ 23) (by decide) h1 s2
  obtain ⟨g3, s4⟩ := digit (V := 2 ^ 1) (2 ^ 24) (by decide) (by decide) s3
  obtain ⟨g4, s5⟩ := digit (V := 128) (2 ^ 31) (by decide) hk s4
  obtain ⟨g5, s6⟩ := digit (V := 2 ^ 1) (2 ^ 32) (by decide) h0 s5
  have hW : W < 2 ^ 32 := (Nat.div_eq_zero_iff_lt (Nat.two_pow_pos 32)).mp s6
  exact ⟨hW, g4, by simpa only [Nat.pow_zero, Nat.div_one] using g0, g5, g2⟩

theorem lay_31w1_18w5_12w6_6w6_m (k r B x0 x1 x2 x3 W : Nat) (hk : k < 128) (hr : r < 64) (hB : B = k * 16777216 + r) (h0 : x0 < 2 ^ 1) (h1 : x1 < 2 ^ 5) (h2 : x2 < 2 ^ 6) (h3 : x3 < 2 ^ 6)
    (h : B + x0 * 2147483648 + x1 * 262144 + x2 * 4096 + x3 * 64 = W) : W < 2 ^ 32 ∧ W / 2 ^ 24 % 128 = k ∧ W % 64 = r ∧ W / 2 ^ 31 % 2 ^ 1 = x0 ∧ W / 2 ^ 18 % 2 ^ 5 = x1 ∧ W / 2 ^ 12 % 2 ^ 6 = x2 ∧ W / 2 ^ 6 % 2 ^ 6 = x3 := by
  have s0 : W / 2 ^ 0 = ((((((0 * 2 + x0) * 128 + k) * 2 + 0) * 32 + x1) * 64 + x2) * 64 + x3) * 64 + r := by simp only [Nat.pow_zero, Nat.div_one]; omega
  obtain ⟨g0, s1⟩ := digit (V := 64) (2 ^ 6) (by decide) hr s0
  obtain ⟨g1, s2⟩ := digit (V := 2 ^ 6) (2 ^ 12) (by decide) h3 s1
  obtain ⟨g2, s3⟩ := digit (V := 2 ^ 6) (2 ^ 18) (by decide) h2 s2
  obtain ⟨g3, s4⟩ := digit (V := 2 ^ 5) (2 ^ 23) (by decide) h1 s3
  obtain ⟨g4, s5⟩ := digit (V := 2 ^ 1) (2 ^ 24) (by decide) (by decide) s4
  obtain ⟨g5, s6⟩ := digit (V := 128) (2 ^ 31) (by decide) hk s5
  obtain ⟨g6, s7⟩ := digit (V := 2 ^ 1) (2 ^ 32) (by decide) h0 s6
  have hW : W < 2 ^ 32 := (Nat.div_eq_zero_iff_lt (Nat.two_pow_pos 32)).mp s7
  exact ⟨hW, g5, by simpa only [Nat.pow_zero, Nat.div_one] using g0, g6, g3, g2, g1⟩

theorem lay_31w1_18w5_12w6_m (k r B x0 x1 x2 W : Nat) (hk : k < 128) (hr : r < 64) (hB : B = k * 16777216 + r) (h0 : x0 < 2 ^ 1) (h1 : x1 < 2 ^ 5) (h2 : x2 < 2 ^ 6)
    (h : B + x0 * 2147483648 + x1 * 262144 + x2 * 4096 = W) : W < 2 ^ 32 ∧ W / 2 ^ 24 % 128 = k ∧ W % 64 = r ∧ W / 2 ^ 31 % 2 ^ 1 = x0 ∧ W / 2 ^ 18 % 2 ^ 5 = x1 ∧ W / 2 ^ 12 % 2 ^ 6 = x2 := by
  have s0 : W / 2 ^ 0 = ((((((0 * 2 + x0) * 128 + k) * 2 + 0) * 32 + x1) * 64 + x2) * 64 + 0) * 64 + r := by simp only [Nat.pow_zero, Nat.div_one]; omega
  obtain ⟨g0, s1⟩ := digit (V := 64) (2 ^ 6) (by decide) hr s0
  obtain ⟨g1, s2⟩ := digit (V := 2 ^ 6) (2 ^ 12) (by decide) (by decide) s1
  obtain ⟨g2, s3⟩ := digit (V := 2 ^ 6) (2 ^ 18) (by decide) h2 s2
  obtain ⟨g3, s4⟩ := digit (V := 2 ^ 5) (2 ^ 23) (by decide) h1 s3
  obtain ⟨g4, s5⟩ := digit (V := 2 ^ 1) (2 ^ 24) (by decide) (by decide) s4
  obtain ⟨g5, s6⟩ := digit (V := 128) (2 ^ 31) (by decide) hk s5
  obtain ⟨g6, s7⟩ := digit (V := 2 ^ 1) (2 ^ 32) (by decide) h0 s6
  have hW : W < 2 ^ 32 := (Nat.div_eq_zero_iff_lt (Nat.two_pow_pos 32)).mp s7
  exact ⟨hW, g5, by simpa only [Nat.pow_zero, Nat.div_one] using g0, g6, g3, g2⟩

theorem lay_31w1_18w4_m (k r B x0 x1 W : Nat) (hk : k < 128) (hr : r < 64) (hB : B = k * 16777216 + r) (h0 : x0 < 2 ^ 1) (h1 : x1 < 2 ^ 4)
    (h : B + x0 * 2147483648 + x1 * 262144 = W) : W < 2 ^ 32 ∧ W / 2 ^ 24 % 128 = k ∧ W % 64 = r ∧ W / 2 ^ 31 % 2 ^ 1 = x0 ∧ W / 2 ^ 18 % 2 ^ 4 = x1 := by
  have s0 : W / 2 ^ 0 = (((((0 * 2 + x0) * 128 + k) * 4 + 0) * 16 + x1) * 4096 + 0) * 64 + r := by simp only [Nat.pow_zero, Nat.div_one]; omega
  obtain ⟨g0, s1⟩ := digit (V := 64) (2 ^ 6) (by decide) hr s0
  obtain ⟨g1, s2⟩ := digit (V := 2 ^ 12) (2 ^ 18) (by decide) (by decide) s1
  obtain ⟨g2, s3⟩ := digit (V := 2 ^ 4) (2 ^ 22) (by decide) h1 s2
  obtain ⟨g3, s4⟩ := digit (V := 2 ^ 2) (2 ^ 24) (by decide) (by decide) s3
  obtain ⟨g4, s5⟩ := digit (V := 128) (2 ^ 31) (by decide) hk s4
  obtain ⟨g5, s6⟩ := digit (V := 2 ^ 1) (2 ^ 32) (by decide) h0 s5
  have hW : W < 2 ^ 32 := (Nat.div_eq_zero_iff_lt (Nat.two_pow_pos 32)).mp s6
  exact ⟨hW, g4, by simpa only [Nat.pow_zero, Nat.div_one] using g0, g5, g2⟩

theorem lay_31w1_18w4_12w6_6w6_m (k r B x0 x1 x2 x3 W : Nat) (hk : k < 128) (hr : r < 64) (hB : B = k * 16777216 + r) (h0 : x0 < 2 ^ 1) (h1 : x1 < 2 ^ 4) (h2 : x2 < 2 ^ 6) (h3 : x3 < 2 ^ 6)
    (h : B + x0 * 2147483648 + x1 * 262144 + x2 * 4096 + x3 * 64 = W) : W < 2 ^ 32 ∧ W / 2 ^ 24 % 128 = k ∧ W % 64 = r ∧ W / 2 ^ 31 % 2 ^ 1 = x0 ∧ W / 2 ^ 18 % 2 ^ 4 = x1 ∧ W / 2 ^ 12 % 2 ^ 6 = x2 ∧ W / 2 ^ 6 % 2 ^ 6 = x3 := by
  have s0 : W / 2 ^ 0 = ((((((0 * 2 + x0) * 128 + k) * 4 + 0) * 16 + x1) * 64 + x2) * 64 + x3) * 64 + r := by simp only [Nat.pow_zero, Nat.div_one]; omega
  obtain ⟨g0, s1⟩ := digit (V := 64) (2 ^ 6) (by decide) hr s0
  obtain ⟨g1, s2⟩ := digit (V := 2 ^ 6) (2 ^ 12) (by decide) h3 s1
  obtain ⟨g2, s3⟩ := digit (V := 2 ^ 6) (2 ^ 18) (by decide) h2 s2
  obtain ⟨g3, s4⟩ := digit (V := 2 ^ 4) (2 ^ 22) (by decide) h1 s3
  obtain ⟨g4, s5⟩ := digit (V := 2 ^ 2) (2 ^ 24) (by decide) (by decide) s4
  obtain ⟨g5, s6⟩ := digit (V := 128) (2 ^ 31) (by decide) hk s5
  obtain ⟨g6, s7⟩ := digit (V := 2 ^ 1) (2 ^ 32) (by decide) h0 s6
  have hW : W < 2 ^ 32 := (Nat.div_eq_zero_iff_lt (Nat.two_pow_pos 32)).mp s7
  exact ⟨hW, g5, by simpa only [Nat.pow_zero, Nat.div_one] using g0, g6, g3, g2, g1⟩

theorem lay_31w1_22w2_18w4_12w6_6w6_m (k r B x0 x1 x2 x3 x4 W : Nat) (hk : k < 128) (hr : r < 64) (hB : B = k * 16777216 + r) (h0 : x0 < 2 ^ 1) (h1 : x1 < 2 ^ 2) (h2 : x2 < 2 ^ 4) (h3 : x3 < 2 ^ 6) (h4 : x4 < 2 ^ 6)
    (h : B + x0 * 2147483648 + x1 * 4194304 + x2 * 262144 + x3 * 4096 + x4 * 64 = W) : W < 2 ^ 32 ∧ W / 2 ^ 24 % 128 = k ∧ W % 64 = r ∧ W / 2 ^ 31 % 2 ^ 1 = x0 ∧ W / 2 ^ 22 % 2 ^ 2 = x1 ∧ W / 2 ^ 18 % 2 ^ 4 = x2 ∧ W / 2 ^ 12 % 2 ^ 6 = x3 ∧ W / 2 ^ 6 % 2 ^ 6 = x4 := by
  have s0 : W / 2 ^ 0 = ((((((0 * 2 + x0) * 128 + k) * 4 + x1) * 16 + x2) * 64 + x3) * 64 + x4) * 64 + r := by simp only [Nat.pow_zero, Nat.div_one]; omega
  obtain ⟨g0, s1⟩ := digit (V := 64) (2 ^ 6) (by decide) hr s0
  obtain ⟨g1, s2⟩ := digit (V := 2 ^ 6) (2 ^ 12) (by decide) h4 s1
  obtain ⟨g2, s3⟩ := digit (V := 2 ^ 6) (2 ^ 18) (by decide) h3 s2
  obtain ⟨g3, s4⟩ := digit (V := 2 ^ 4) (2 ^ 22) (by decide) h2 s3
  obtain ⟨g4, s5⟩ := digit (V := 2 ^ 2) (2 ^ 24) (by decide) h1 s4
  obtain ⟨g5, s6⟩ := digit (V := 128) (2 ^ 31) (by decide) hk s5
  obtain ⟨g6, s7⟩ := digit (V := 2 ^ 1) (2 ^ 32) (by decide) h0 s6
  have hW : W < 2 ^ 32 := (Nat.div_eq_zero_iff_lt (Nat.two_pow_pos 32)).mp s7
  exact ⟨hW, g5, by simpa only [Nat.pow_zero, Nat.div_one] using g0, g6, g4, g3, g2, g1⟩

theorem lay_31w1_18w4_12w5_6w5_m (k r B x0 x1 x2 x3 W : Nat) (hk : k < 128) (hr : r < 64) (hB : B = k * 16777216 + r) (h0 : x0 < 2 ^ 1) (h1 : x1 < 2 ^ 4) (h2 : x2 < 2 ^ 5) (h3 : x3 < 2 ^ 5)
    (h : B + x0 * 2147483648 + x1 * 262144 + x2 * 4096 + x3 * 64 = W) : W < 2 ^ 32 ∧ W / 2 ^ 24 % 128 = k ∧ W % 64 = r ∧ W / 2 ^ 31 % 2 ^ 1 = x0 ∧ W / 2 ^ 18 % 2 ^ 4 = x1 ∧ W / 2 ^ 12 % 2 ^ 5 = x2 ∧ W / 2 ^ 6 % 2 ^ 5 = x3 := by
  have s0 : W / 2 ^ 0 = ((((((((0 * 2 + x0) * 128 + k) * 4 + 0) * 16 + x1) * 2 + 0) * 32 + x2) * 2 + 0) * 32 + x3) * 64 + r := by simp only [Nat.pow_zero, Nat.div_one]; omega
  obtain ⟨g0, s1⟩ := digit (V := 64) (2 ^ 6) (by decide) hr s0
  obtain ⟨g1, s2⟩ := digit (V := 2 ^ 5) (2 ^ 11) (by decide) h3 s1
  obtain ⟨g2, s3⟩ := digit (V := 2 ^ 1) (2 ^ 12) (by decide) (by decide) s2
  obtain ⟨g3, s4⟩ := digit (V := 2 ^ 5) (2 ^ 17) (by decide) h2 s3
  obtain ⟨g4, s5⟩ := digit (V := 2 ^ 1) (2 ^ 18) (by decide) (by decide) s4
  obtain ⟨g5, s6⟩ := digit (V := 2 ^ 4) (2 ^ 22) (by decide) h1 s5
  obtain ⟨g6, s7⟩ := digit (V := 2 ^ 2) (2 ^ 24) (by decide) (by decide) s6
  obtain ⟨g7, s8⟩ := digit (V := 128) (2 ^ 31) (by decide) hk s7
  obtain ⟨g8, s9⟩ := digit (V := 2 ^ 1) (2 ^ 32) (by decide) h0 s8
  have hW : W < 2 ^ 32 := (Nat.div_eq_zero_iff_lt (Nat.two_pow_pos 32)).mp s9
  exact ⟨hW, g7, by simpa only [Nat.pow_zero, Nat.div_one] using g0, g8, g5, g3, g1⟩

theorem lay_31w1_19w3_12w5_6w5_m (k r B x0 x1 x2 x3 W : Nat) (hk : k < 128) (hr : r < 64) (hB : B = k * 16777216 + r) (h0 : x0 < 2 ^ 1) (h1 : x1 < 2 ^ 3) (h2 : x2 < 2 ^ 5) (h3 : x3 < 2 ^ 5)
    (h : B + x0 * 2147483648 + x1 * 524288 + x2 * 4096 + x3 * 64 = W) : W < 2 ^ 32 ∧ W / 2 ^ 24 % 128 = k ∧ W % 64 = r ∧ W / 2 ^ 31 % 2 ^ 1 = x0 ∧ W / 2 ^ 19 % 2 ^ 3 = x1 ∧ W / 2 ^ 12 % 2 ^ 5 = x2 ∧ W / 2 ^ 6 % 2 ^ 5 = x3 := by
  have s0 : W / 2 ^ 0 = ((((((((0 * 2 + x0) * 128 + k) * 4 + 0) * 8 + x1) * 4 + 0) * 32 + x2) * 2 + 0) * 32 + x3) * 64 + r := by simp only [Nat.pow_zero, Nat.div_one]; omega
  obtain ⟨g0, s1⟩ := digit (V := 64) (2 ^ 6) (by decide) hr s0
  obtain ⟨g1, s2⟩ := digit (V := 2 ^ 5) (2 ^ 11) (by decide) h3 s1
  obtain ⟨g2, s3⟩ := digit (V := 2 ^ 1) (2 ^ 12) (by decide) (by decide) s2
  obtain ⟨g3, s4⟩ := digit (V := 2 ^ 5) (2 ^ 17) (by decide) h2 s3
  obtain ⟨g4, s5⟩ := digit (V := 2 ^ 2) (2 ^ 19) (by decide) (by decide) s4
  obtain ⟨g5, s6⟩ := digit (V := 2 ^ 3) (2 ^ 22) (by decide) h1 s5
  obtain ⟨g6, s7⟩ := digit (V := 2 ^ 2) (2 ^ 24) (by decide) (by decide) s6
  obtain ⟨g7, s8⟩ := digit (V := 128) (2 ^ 31) (by decide) hk s7
  obtain ⟨g8, s9⟩ := digit (V := 2 ^ 1) (2 ^ 32) (by decide) h0 s8
  have hW : W < 2 ^ 32 := (Nat.div_eq_zero_iff_lt (Nat.two_pow_pos 32)).mp s9
  exact ⟨hW, g7, by simpa only [Nat.pow_zero, Nat.div_one] using g0, g8, g5, g3, g1⟩

theorem lay_31w1_22w1_18w4_12w5_6w5_m (k r B x0 x1 x2 x3 x4 W : Nat) (hk : k < 128) (hr : r < 64) (hB : B = k * 16777216 + r) (h0 : x0 < 2 ^ 1) (h1 : x1 < 2 ^ 1) (h2 : x2 < 2 ^ 4) (h3 : x3 < 2 ^ 5) (h4 : x4 < 2 ^ 5)
    (h : B + x0 * 2147483648 + x1 * 4194304 + x2 * 262144 + x3 * 4096 + x4 * 64 = W) : W < 2 ^ 32 ∧ W / 2 ^ 24 % 128 = k ∧ W % 64 = r ∧ W / 2 ^ 31 % 2 ^ 1 = x0 ∧ W / 2 ^ 22 % 2 ^ 1 = x1 ∧ W / 2 ^ 18 % 2 ^ 4 = x2 ∧ W / 2 ^ 12 % 2 ^ 5 = x3 ∧ W / 2 ^ 6 % 2 ^ 5 = x4 := by
  have s0 : W / 2 ^ 0 = (((((((((0 * 2 + x0) * 128 + k) * 2 + 0) * 2 + x1) * 16 + x2) * 2 + 0) * 32 + x3) * 2 + 0) * 32 + x4) * 64 + r := by simp only [Nat.pow_zero, Nat.div_one]; omega
  obtain ⟨g0, s1⟩ := digit (V := 64) (2 ^ 6) (by decide) hr s0
  obtain ⟨g1, s2⟩ := digit (V := 2 ^ 5) (2 ^ 11) (by decide) h4 s1
  obtain ⟨g2, s3⟩ := digit (V := 2 ^ 1) (2 ^ 12) (by decide) (by decide) s2
  obtain ⟨g3, s4⟩ := digit (V := 2 ^ 5) (2 ^ 17) (by decide) h3 s3
  obtain ⟨g4, s5⟩ := digit (V := 2 ^ 1) (2 ^ 18) (by decide) (by decide) s4
  obtain ⟨g5, s6⟩ := digit (V := 2 ^ 4) (2 ^ 22) (by decide) h2 s5
  obtain ⟨g6, s7⟩ := digit (V := 2 ^ 1) (2 ^ 23) (by decide) h1 s6
  obtain ⟨g7, s8⟩ := digit (V := 2 ^ 1) (2 ^ 24) (by decide) (by decide) s7
  obtain ⟨g8, s9⟩ := digit (V := 128) (2 ^ 31) (by decide) hk s8
  obtain ⟨g9, s10⟩ := digit (V := 2 ^ 1) (2 ^ 32) (by decide) h0 s9
  have hW : W < 2 ^ 32 := (Nat.div_eq_zero_iff_lt (Nat.two_pow_pos 32)).mp s10
  exact ⟨hW, g8, by simpa only [Nat.pow_zero, Nat.div_one] using g0, g9, g6, g5, g3, g1⟩

theorem lay_31w1_12w6_m (k r B x0 x1 W : Nat) (hk : k < 128) (hr : r < 64) (hB : B = k * 16777216 + r) (h0 : x0 < 2 ^ 1) (h1 : x1 < 2 ^ 6)
    (h : B + x0 * 2147483648 + x1 * 4096 = W) : W < 2 ^ 32 ∧ W / 2 ^ 24 % 128 = k ∧ W % 64 = r ∧ W / 2 ^ 31 % 2 ^ 1 = x0 ∧ W / 2 ^ 12 % 2 ^ 6 = x1 := by
  have s0 : W / 2 ^ 0 = (((((0 * 2 + x0) * 128 + k) * 64 + 0) * 64 + x1) * 64 + 0) * 64 + r := by simp only [Nat.pow_zero, Nat.div_one]; omega
  obtain ⟨g0, s1⟩ := digit (V := 64) (2 ^ 6) (by decide) hr s0
  obtain ⟨g1, s2⟩ := digit (V := 2 ^ 6) (2 ^ 12) (by decide) (by decide) s1
  obtain ⟨g2, s3⟩ := digit (V := 2 ^ 6) (2 ^ 18) (by decide) h1 s2
  obtain ⟨g3, s4⟩ := digit (V := 2 ^ 6) (2 ^ 24) (by decide) (by decide) s3
  obtain ⟨g4, s5⟩ := digit (V := 128) (2 ^ 31) (by decide) hk s4
  obtain ⟨g5, s6⟩ := digit (V := 2 ^ 1) (2 ^ 32) (by decide) h0 s5
  have hW : W < 2 ^ 32 := (Nat.div_eq_zero_iff_lt (Nat.two_pow_pos 32)).mp s6
  exact ⟨hW, g4, by simpa only [Nat.pow_zero, Nat.div_one] using g0, g5, g2⟩

theorem lay_31w1_18w3_12w6_6w6_m (k r B x0 x1 x2 x3 W : Nat) (hk : k < 128) (hr : r < 64) (hB : B = k * 16777216 + r) (h0 : x0 < 2 ^ 1) (h1 : x1 < 2 ^ 3) (h2 : x2 < 2 ^ 6) (h3 : x3 < 2 ^ 6)
    (h : B + x0 * 2147483648 + x1 * 262144 + x2 * 4096 + x3 * 64 = W) : W < 2 ^ 32 ∧ W / 2 ^ 24 % 128 = k ∧ W % 64 = r ∧ W / 2 ^ 31 % 2 ^ 1 = x0 ∧ W / 2 ^ 18 % 2 ^ 3 = x1 ∧ W / 2 ^ 12 % 2 ^ 6 = x2 ∧ W / 2 ^ 6 % 2 ^ 6 = x3 := by
  have s0 : W / 2 ^ 0 = ((((((0 * 2 + x0) * 128 + k) * 8 + 0) * 8 + x1) * 64 + x2) * 64 + x3) * 64 + r := by simp only [Nat.pow_zero, Nat.div_one]; omega
  obtain ⟨g0, s1⟩ := digit (V := 64) (2 ^ 6) (by decide) hr s0
  obtain ⟨g1, s2⟩ := digit (V := 2 ^ 6) (2 ^ 12) (by decide) h3 s1
  obtain ⟨g2, s3⟩ := digit (V := 2 ^ 6) (2 ^ 18) (by decide) h2 s2
  obtain ⟨g3, s4⟩ := digit (V := 2 ^ 3) (2 ^ 21) (by decide) h1 s3
  obtain ⟨g4, s5⟩ := digit (V := 2 ^ 3) (2 ^ 24) (by decide) (by decide) s4
  obtain ⟨g5, s6⟩ := digit (V := 128) (2 ^ 31) (by decide) hk s5
  obtain ⟨g6, s7⟩ := digit (V := 2 ^ 1) (2 ^ 32) (by decide) h0 s6
  have hW : W < 2 ^ 32 := (Nat.div_eq_zero_iff_lt (Nat.two_pow_pos 32)).mp s7
  exact ⟨hW, g5, by simpa only [Nat.pow_zero, Nat.div_one] using g0, g6, g3, g2, g1⟩

theorem lay_31w1_18w6_12w6_7w1_6w1_m (k r B x0 x1 x2 x3 x4 W : Nat) (hk : k < 128) (hr : r < 64) (hB : B = k * 16777216 + r) (h0 : x0 < 2 ^ 1) (h1 : x1 < 2 ^ 6) (h2 : x2 < 2 ^ 6) (h3 : x3 < 2 ^ 1) (h4 : x4 < 2 ^ 1)
    (h : B + x0 * 2147483648 + x1 * 262144 + x2 * 4096 + x3 * 128 + x4 * 64 = W) : W < 2 ^ 32 ∧ W / 2 ^ 24 % 128 = k ∧ W % 64 = r ∧ W / 2 ^ 31 % 2 ^ 1 = x0 ∧ W / 2 ^ 18 % 2 ^ 6 = x1 ∧ W / 2 ^ 12 % 2 ^ 6 = x2 ∧ W / 2 ^ 7 % 2 ^ 1 = x3 ∧ W / 2 ^ 6 % 2 ^ 1 = x4 := by
  have s0 : W / 2 ^ 0 = (((((((0 * 2 + x0) * 128 + k) * 64 + x1) * 64 + x2) * 16 + 0) * 2 + x3) * 2 + x4) * 64 + r := by simp only [Nat.pow_zero, Nat.div_one]; omega
  obtain ⟨g0, s1⟩ := digit (V := 64) (2 ^ 6) (by decide) hr s0
  obtain ⟨g1, s2⟩ := digit (V := 2 ^ 1) (2 ^ 7) (by decide) h4 s1
  obtain ⟨g2, s3⟩ := digit (V := 2 ^ 1) (2 ^ 8) (by decide) h3 s2
  obtain ⟨g3, s4⟩ := digit (V := 2 ^ 4) (2 ^ 12) (by decide) (by decide) s3
  obtain ⟨g4, s5⟩ := digit (V := 2 ^ 6) (2 ^ 18) (by decide) h2 s4
  obtain ⟨g5, s6⟩ := digit (V := 2 ^ 6) (2 ^ 24) (by decide) h1 s5
  obtain ⟨g6, s7⟩ := digit (V := 128) (2 ^ 31) (by decide) hk s6
  obtain ⟨g7, s8⟩ := digit (V := 2 ^ 1) (2 ^ 32) (by decide) h0 s7
  have hW : W < 2 ^ 32 := (Nat.div_eq_zero_iff_lt (Nat.two_pow_pos 32)).mp s8
  exact ⟨hW, g6, by simpa only [Nat.pow_zero, Nat.div_one] using g0, g7, g5, g4, g2, g1⟩

theorem lay_31w1_21w3_18w3_12w6_7w5_m (k r B x0 x1 x2 x3 x4 W : Nat) (hk : k < 128) (hr : r < 64) (hB : B = k * 16777216 + r) (h0 : x0 < 2 ^ 1) (h1 : x1 < 2 ^ 3) (h2 : x2 < 2 ^ 3) (h3 : x3 < 2 ^ 6) (h4 : x4 < 2 ^ 5)
    (h : B + x0 * 2147483648 + x1 * 2097152 + x2 * 262144 + x3 * 4096 + x4 * 128 = W) : W < 2 ^ 32 ∧ W / 2 ^ 24 % 128 = k ∧ W % 64 = r ∧ W / 2 ^ 31 % 2 ^ 1 = x0 ∧ W / 2 ^ 21 % 2 ^ 3 = x1 ∧ W / 2 ^ 18 % 2 ^ 3 = x2 ∧ W / 2 ^ 12 % 2 ^ 6 = x3 ∧ W / 2 ^ 7 % 2 ^ 5 = x4 := by
  have s0 : W / 2 ^ 0 = (((((((0 * 2 + x0) * 128 + k) * 8 + x1) * 8 + x2) * 64 + x3) * 32 + x4) * 2 + 0) * 64 + r := by simp only [Nat.pow_zero, Nat.div_one]; omega
  obtain ⟨g0, s1⟩ := digit (V := 64) (2 ^ 6) (by decide) hr s0
  obtain ⟨g1, s2⟩ := digit (V := 2 ^ 1) (2 ^ 7) (by decide) (by decide) s1
  obtain ⟨g2, s3⟩ := digit (V := 2 ^ 5) (2 ^ 12) (by decide) h4 s2
  obtain ⟨g3, s4⟩ := digit (V := 2 ^ 6) (2 ^ 18) (by decide) h3 s3
  obtain ⟨g4, s5⟩ := digit (V := 2 ^ 3) (2 ^ 21) (by decide) h2 s4
  obtain ⟨g5, s6⟩ := digit (V := 2 ^ 3) (2 ^ 24) (by decide) h1 s5
  obtain ⟨g6, s7⟩ := digit (V := 128) (2 ^ 31) (by decide) hk s6
  obtain ⟨g7, s8⟩ := digit (V := 2 ^ 1) (2 ^ 32) (by decide) h0 s7
  have hW : W < 2 ^ 32 := (Nat.div_eq_zero_iff_lt (Nat.two_pow_pos 32)).mp s8
  exact ⟨hW, g6, by simpa only [Nat.pow_zero, Nat.div_one] using g0, g7, g5, g4, g3, g2⟩

theorem lay_31w1_18w3_m (k r B x0 x1 W : Nat) (hk : k < 128) (hr : r < 64) (hB : B = k * 16777216 + r) (h0 : x0 < 2 ^ 1) (h1 : x1 < 2 ^ 3)
    (h : B + x0 * 2147483648 + x1 * 262144 = W) : W < 2 ^ 32 ∧ W / 2 ^ 24 % 128 = k ∧ W % 64 = r ∧ W / 2 ^ 31 % 2 ^ 1 = x0 ∧ W / 2 ^ 18 % 2 ^ 3 = x1 := by
  have s0 : W / 2 ^ 0 = (((((0 * 2 + x0) * 128 + k) * 8 + 0) * 8 + x1) * 4096 + 0) * 64 + r := by simp only [Nat.pow_zero, Nat.div_one]; omega
  obtain ⟨g0, s1⟩ := digit (V := 64) (2 ^ 6) (by decide) hr s0
  obtain ⟨g1, s2⟩ := digit (V := 2 ^ 12) (2 ^ 18) (by decide) (by decide) s1
  obtain ⟨g2, s3⟩ := digit (V := 2 ^ 3) (2 ^ 21) (by decide) h1 s2
  obtain ⟨g3, s4⟩ := digit (V := 2 ^ 3) (2 ^ 24) (by decide) (by decide) s3
  obtain ⟨g4, s5⟩ := digit (V := 128) (2 ^ 31) (by decide) hk s4
  obtain ⟨g5, s6⟩ := digit (V := 2 ^ 1) (2 ^ 32) (by decide) h0 s5
  have hW : W < 2 ^ 32 := (Nat.div_eq_zero_iff_lt (Nat.two_pow_pos 32)).mp s6
  exact ⟨hW, g4, by simpa only [Nat.pow_zero, Nat.div_one] using g0, g5, g2⟩

theorem lay_31w1_18w6_12w2_6w3_m (k r B x0 x1 x2 x3 W : Nat) (hk : k < 128) (hr : r < 64) (hB : B = k * 16777216 + r) (h0 : x0 < 2 ^ 1) (h1 : x1 < 2 ^ 6) (h2 : x2 < 2 ^ 2) (h3 : x3 < 2 ^ 3)
    (h : B + x0 * 2147483648 + x1 * 262144 + x2 * 4096 + x3 * 64 = W) : W < 2 ^ 32 ∧ W / 2 ^ 24 % 128 = k ∧ W % 64 = r ∧ W / 2 ^ 31 % 2 ^ 1 = x0 ∧ W / 2 ^ 18 % 2 ^ 6 = x1 ∧ W / 2 ^ 12 % 2 ^ 2 = x2 ∧ W / 2 ^ 6 % 2 ^ 3 = x3 := by
  have s0 : W / 2 ^ 0 = (((((((0 * 2 + x0) * 128 + k) * 64 + x1) * 16 + 0) * 4 + x2) * 8 + 0) * 8 + x3) * 64 + r := by simp only [Nat.pow_zero, Nat.div_one]; omega
  obtain ⟨g0, s1⟩ := digit (V := 64) (2 ^ 6) (by decide) hr s0
  obtain ⟨g1, s2⟩ := digit (V := 2 ^ 3) (2 ^ 9) (by decide) h3 s1
  obtain ⟨g2, s3⟩ := digit (V := 2 ^ 3) (2 ^ 12) (by decide) (by decide) s2
  obtain ⟨g3, s4⟩ := digit (V := 2 ^ 2) (2 ^ 14) (by decide) h2 s3
  obtain ⟨g4, s5⟩ := digit (V := 2 ^ 4) (2 ^ 18) (by decide) (by decide) s4
  obtain ⟨g5, s6⟩ := digit (V := 2 ^ 6) (2 ^ 24) (by decide) h1 s5
  obtain ⟨g6, s7⟩ := digit (V := 128) (2 ^ 31) (by decide) hk s6
  obtain ⟨g7, s8⟩ := digit (V := 2 ^ 1) (2 ^ 32) (by decide) h0 s7
  have hW : W < 2 ^ 32 := (Nat.div_eq_zero_iff_lt (Nat.two_pow_pos 32)).mp s8
  exact ⟨hW, g6, by simpa only [Nat.pow_zero, Nat.div_one] using g0, g7, g5, g3, g1⟩

theorem lay_31w1_18w6_12w6_m (k r B x0 x1 x2 W : Nat) (hk : k < 128) (hr : r < 64) (hB : B = k * 16777216 + r) (h0 : x0 < 2 ^ 1) (h1 : x1 < 2 ^ 6) (h2 : x2 < 2 ^ 6)
    (h : B + x0 * 2147483648 + x1 * 262144 + x2 * 4096 = W) : W < 2 ^ 32 ∧ W / 2 ^ 24 % 128 = k ∧ W % 64 = r ∧ W / 2 ^ 31 % 2 ^ 1 = x0 ∧ W / 2 ^ 18 % 2 ^ 6 = x1 ∧ W / 2 ^ 12 % 2 ^ 6 = x2 := by
  have s0 : W / 2 ^ 0 = (((((0 * 2 + x0) * 128 + k) * 64 + x1) * 64 + x2) * 64 + 0) * 64 + r := by simp only [Nat.pow_zero, Nat.div_one]; omega
  obtain ⟨g0, s1⟩ := digit (V := 64) (2 ^ 6) (by decide) hr s0
  obtain ⟨g1, s2⟩ := digit (V := 2 ^ 6) (2 ^ 12) (by decide) (by decide) s1
  obtain ⟨g2, s3⟩ := digit (V := 2 ^ 6) (2 ^ 18) (by decide) h2 s2
  obtain ⟨g3, s4⟩ := digit (V := 2 ^ 6) (2 ^ 24) (by decide) h1 s3
  obtain ⟨g4, s5⟩ := digit (V := 128) (2 ^ 31) (by decide) hk s4
  obtain ⟨g5, s6⟩ := digit (V := 2 ^ 1) (2 ^ 32) (by decide) h0 s5
  have hW : W < 2 ^ 32 := (Nat.div_eq_zero_iff_lt (Nat.two_pow_pos 32)).mp s6
  exact ⟨hW, g4, by simpa only [Nat.pow_zero, Nat.div_one] using g0, g5, g3, g2⟩

theorem lay_31w1_18w4_12w6_m (k r B x0 x1 x2 W : Nat) (hk : k < 128) (hr : r < 64) (hB : B = k * 16777216 + r) (h0 : x0 < 2 ^ 1) (h1 : x1 < 2 ^ 4) (h2 : x2 < 2 ^ 6)
    (h : B + x0 * 2147483648 + x1 * 262144 + x2 * 4096 = W) : W < 2 ^ 32 ∧ W / 2 ^ 24 % 128 = k ∧ W % 64 = r ∧ W / 2 ^ 31 % 2 ^ 1 = x0 ∧ W / 2 ^ 18 % 2 ^ 4 = x1 ∧ W / 2 ^ 12 % 2 ^ 6 = x2 := by
  have s0 : W / 2 ^ 0 = ((((((0 * 2 + x0) * 128 + k) * 4 + 0) * 16 + x1) * 64 + x2) * 64 + 0) * 64 + r := by simp only [Nat.pow_zero, Nat.div_one]; omega
  obtain ⟨g0, s1⟩ := digit (V := 64) (2 ^ 6) (by decide) hr s0
  obtain ⟨g1, s2⟩ := digit (V := 2 ^ 6) (2 ^ 12) (by decide) (by decide) s1
  obtain ⟨g2, s3⟩ := digit (V := 2 ^ 6) (2 ^ 18) (by decide) h2 s2
  obtain ⟨g3, s4⟩ := digit (V := 2 ^ 4) (2 ^ 22) (by decide) h1 s3
  obtain ⟨g4, s5⟩ := digit (V := 2 ^ 2) (2 ^ 24) (by decide) (by decide) s4
  obtain ⟨g5, s6⟩ := digit (V := 128) (2 ^ 31) (by decide) hk s5
  obtain ⟨g6, s7⟩ := digit (V := 2 ^ 1) (2 ^ 32) (by decide) h0 s6
  have hW : W < 2 ^ 32 := (Nat.div_eq_zero_iff_lt (Nat.two_pow_pos 32)).mp s7
  exact ⟨hW, g5, by simpa only [Nat.pow_zero, Nat.div_one] using g0, g6, g3, g2⟩

theorem lay_31w1_20w4_m (k r B x0 x1 W : Nat) (hk : k < 128) (hr : r < 64) (hB : B = k * 16777216 + r) (h0 : x0 < 2 ^ 1) (h1 : x1 < 2 ^ 4)
    (h : B + x0 * 2147483648 + x1 * 1048576 = W) : W < 2 ^ 32 ∧ W / 2 ^ 24 % 128 = k ∧ W % 64 = r ∧ W / 2 ^ 31 % 2 ^ 1 = x0 ∧ W / 2 ^ 20 % 2 ^ 4 = x1 := by
  have s0 : W / 2 ^ 0 = ((((0 * 2 + x0) * 128 + k) * 16 + x1) * 16384 + 0) * 64 + r := by simp only [Nat.pow_zero, Nat.div_one]; omega
  obtain ⟨g0, s1⟩ := digit (V := 64) (2 ^ 6) (by decide) hr s0
  obtain ⟨g1, s2⟩ := digit (V := 2 ^ 14) (2 ^ 20) (by decide) (by decide) s1
  obtain ⟨g2, s3⟩ := digit (V := 2 ^ 4) (2 ^ 24) (by decide) h1 s2
  obtain ⟨g3, s4⟩ := digit (V := 128) (2 ^ 31) (by decide) hk s3
  obtain ⟨g4, s5⟩ := digit (V := 2 ^ 1) (2 ^ 32) (by decide) h0 s4
  have hW : W < 2 ^ 32 := (Nat.div_eq_zero_iff_lt (Nat.two_pow_pos 32)).mp s5
  exact ⟨hW, g3, by simpa only [Nat.pow_zero, Nat.div_one] using g0, g4, g2⟩

theorem lay_31w1_18w4_12w6_7w5_m (k r B x0 x1 x2 x3 W : Nat) (hk : k < 128) (hr : r < 64) (hB : B = k * 16777216 + r) (h0 : x0 < 2 ^ 1) (h1 : x1 < 2 ^ 4) (h2 : x2 < 2 ^ 6) (h3 : x3 < 2 ^ 5)
    (h : B + x0 * 2147483648 + x1 * 262144 + x2 * 4096 + x3 * 128 = W) : W < 2 ^ 32 ∧ W / 2 ^ 24 % 128 = k ∧ W % 64 = r ∧ W / 2 ^ 31 % 2 ^ 1 = x0 ∧ W / 2 ^ 18 % 2 ^ 4 = x1 ∧ W / 2 ^ 12 % 2 ^ 6 = x2 ∧ W / 2 ^ 7 % 2 ^ 5 = x3 := by
  have s0 : W / 2 ^ 0 = (((((((0 * 2 + x0) * 128 + k) * 4 + 0) * 16 + x1) * 64 + x2) * 32 + x3) * 2 + 0) * 64 + r := by simp only [Nat.pow_zero, Nat.div_one]; omega
  obtain ⟨g0, s1⟩ := digit (V := 64) (2 ^ 6) (by decide) hr s0
  obtain ⟨g1, s2⟩ := digit (V := 2 ^ 1) (2 ^ 7) (by decide) (by decide) s1
  obtain ⟨g2, s3⟩ := digit (V := 2 ^ 5) (2 ^ 12) (by decide) h3 s2
  obtain ⟨g3, s4⟩ := digit (V := 2 ^ 6) (2 ^ 18) (by decide) h2 s3
  obtain ⟨g4, s5⟩ := digit (V := 2 ^ 4) (2 ^ 22) (by decide) h1 s4
  obtain ⟨g5, s6⟩ := digit (V := 2 ^ 2) (2 ^ 24) (by decide) (by decide) s5
  obtain ⟨g6, s7⟩ := digit (V := 128) (2 ^ 31) (by decide) hk s6
  obtain ⟨g7, s8⟩ := digit (V := 2 ^ 1) (2 ^ 32) (by decide) h0 s7
  have hW : W < 2 ^ 32 := (Nat.div_eq_zero_iff_lt (Nat.two_pow_pos 32)).mp s8
  exact ⟨hW, g6, by simpa only [Nat.pow_zero, Nat.div_one] using g0, g7, g4, g3, g2⟩

theorem lay_31w1_m (k r B x0 W : Nat) (hk : k < 128) (hr : r < 64) (hB : B = k * 16777216 + r) (h0 : x0 < 2 ^ 1)
    (h : B + x0 * 2147483648 = W) : W < 2 ^ 32 ∧ W / 2 ^ 24 % 128 = k ∧ W % 64 = r ∧ W / 2 ^ 31 % 2 ^ 1 = x0 := by
  have s0 : W / 2 ^ 0 = (((0 * 2 + x0) * 128 + k) * 262144 + 0) * 64 + r := by simp only [Nat.pow_zero, Nat.div_one]; omega
  obtain ⟨g0, s1⟩ := digit (V := 64) (2 ^ 6) (by decide) hr s0
  obtain ⟨g1, s2⟩ := digit (V := 2 ^ 18) (2 ^ 24) (by decide) (by decide) s1
  obtain ⟨g2, s3⟩ := digit (V := 128) (2 ^ 31) (by decide) hk s2
  obtain ⟨g3, s4⟩ := digit (V := 2 ^ 1) (2 ^ 32) (by decide) h0 s3
  have hW : W < 2 ^ 32 := (Nat.div_eq_zero_iff_lt (Nat.two_pow_pos 32)).mp s4
  exact ⟨hW, g2, by simpa only [Nat.pow_zero, Nat.div_one] using g0, g3⟩

theorem lay_31w1_19w5_m (k r B x0 x1 W : Nat) (hk : k < 128) (hr : r < 64) (hB : B = k * 16777216 + r) (h0 : x0 < 2 ^ 1) (h1 : x1 < 2 ^ 5)
    (h : B + x0 * 2147483648 + x1 * 524288 = W) : W < 2 ^ 32 ∧ W / 2 ^ 24 % 128 = k ∧ W % 64 = r ∧ W / 2 ^ 31 % 2 ^ 1 = x0 ∧ W / 2 ^ 19 % 2 ^ 5 = x1 := by
  have s0 : W / 2 ^ 0 = ((((0 * 2 + x0) * 128 + k) * 32 + x1) * 8192 + 0) * 64 + r := by simp only [Nat.pow_zero, Nat.div_one]; omega
  obtain ⟨g0, s1⟩ := digit (V := 64) (2 ^ 6) (by decide) hr s0
  obtain ⟨g1, s2⟩ := digit (V := 2 ^ 13) (2 ^ 19) (by decide) (by decide) s1
  obtain ⟨g2, s3⟩ := digit (V := 2 ^ 5) (2 ^ 24) (by decide) h1 s2
  obtain ⟨g3, s4⟩ := digit (V := 128) (2 ^ 31) (by decide) hk s3
  obtain ⟨g4, s5⟩ := digit (V := 2 ^ 1) (2 ^ 32) (by decide) h0 s4
  have hW : W < 2 ^ 32 := (Nat.div_eq_zero_iff_lt (Nat.two_pow_pos 32)).mp s5
  exact ⟨hW, g3, by simpa only [Nat.pow_zero, Nat.div_one] using g0, g4, g2⟩

theorem lay_31w1_19w1_18w1_13w5_6w6_m (k r B x0 x1 x2 x3 x4 W : Nat) (hk : k < 128) (hr : r < 64) (hB : B = k * 16777216 + r) (h0 : x0 < 2 ^ 1) (h1 : x1 < 2 ^ 1) (h2 : x2 < 2 ^ 1) (h3 : x3 < 2 ^ 5) (h4 : x4 < 2 ^ 6)
    (h : B + x0 * 2147483648 + x1 * 524288 + x2 * 262144 + x3 * 8192 + x4 * 64 = W) : W < 2 ^ 32 ∧ W / 2 ^ 24 % 128 = k ∧ W % 64 = r ∧ W / 2 ^ 31 % 2 ^ 1 = x0 ∧ W / 2 ^ 19 % 2 ^ 1 = x1 ∧ W / 2 ^ 18 % 2 ^ 1 = x2 ∧ W / 2 ^ 13 % 2 ^ 5 = x3 ∧ W / 2 ^ 6 % 2 ^ 6 = x4 := by
  have s0 : W / 2 ^ 0 = ((((((((0 * 2 + x0) * 128 + k) * 16 + 0) * 2 + x1) * 2 + x2) * 32 + x3) * 2 + 0) * 64 + x4) * 64 + r := by simp only [Nat.pow_zero, Nat.div_one]; omega
  obtain ⟨g0, s1⟩ := digit (V := 64) (2 ^ 6) (by decide) hr s0
  obtain ⟨g1, s2⟩ := digit (V := 2 ^ 6) (2 ^ 12) (by decide) h4 s1
  obtain ⟨g2, s3⟩ := digit (V := 2 ^ 1) (2 ^ 13) (by decide) (by decide) s2
  obtain ⟨g3, s4⟩ := digit (V := 2 ^ 5) (2 ^ 18) (by decide) h3 s3
  obtain ⟨g4, s5⟩ := digit (V := 2 ^ 1) (2 ^ 19) (by decide) h2 s4
  obtain ⟨g5, s6⟩ := digit (V := 2 ^ 1) (2 ^ 20) (by decide) h1 s5
  obtain ⟨g6, s7⟩ := digit (V := 2 ^ 4) (2 ^ 24) (by decide) (by decide) s6
  obtain ⟨g7, s8⟩ := digit (V := 128) (2 ^ 31) (by decide) hk s7
  obtain ⟨g8, s9⟩ := digit (V := 2 ^ 1) (2 ^ 32) (by decide) h0 s8
  have hW : W < 2 ^ 32 := (Nat.div_eq_zero_iff_lt (Nat.two_pow_pos 32)).mp s9
  exact ⟨hW, g7, by simpa only [Nat.pow_zero, Nat.div_one] using g0, g8, g5, g4, g3, g1⟩

theorem RoundTrip.nop (c) : RoundTrip.Statement (.nop c) := by
  intro hw W he
  obtain ⟨hn, hk, e0⟩ := lay_31w1 0x1 _ _ W (by decide) rfl c.toNat_lt (Option.some.inj he)
  refine decode_of_candidate hw he hn ?_
  rw [candidate, hk]
  show some _ = _
  rw [flg_eq c _ _ e0]

theorem RoundTrip.mov (c d a q) : RoundTrip.Statement (.mov c d a q) := by
  intro hw W he
  obtain ⟨hn, hk, e0, e1, e2, e3⟩ := lay_31w1_18w6_12w6_0w4 0x2 _ _ _ _ _ W (by decide) rfl c.toNat_lt d.isLt a.isLt q.isLt (Option.some.inj he)
  refine decode_of_candidate hw he hn ?_
  rw [candidate, hk]
  show some _ = _
  rw [flg_eq c _ _ e0, fld_eq d _ _ e1, fld_eq a _ _ e2, fld_eq q _ _ e3]

theorem RoundTrip.movi (c d i) : RoundTrip.Statement (.movi c d i) := by
  intro hw W he
  obtain ⟨hn, hk, e0, e1, e2⟩ := lay_31w1_18w6_0w18 0x3 _ _ _ _ W (by decide) rfl c.toNat_lt d.isLt i.isLt (Option.some.inj he)
  refine decode_of_candidate hw he hn ?_
  rw [candidate, hk]
  show some _ = _
  rw [flg_eq c _ _ e0, fld_eq d _ _ e1, fld_eq i _ _ e2]

theorem RoundTrip.movhi (c d i) : RoundTrip.Statement (.movhi c d i) := by
  intro hw W he
  obtain ⟨hn, hk, e0, e1, e2⟩ := lay_31w1_18w6_0w14 0x4 _ _ _ _ W (by decide) rfl c.toNat_lt d.isLt i.isLt (Option.some.inj he)
  refine decode_of_candidate hw he hn ?_
  rw [candidate, hk]
  show some _ = _
  rw [flg_eq c _ _ e0, fld_eq d _ _ e1, fld_eq i _ _ e2]

theorem RoundTrip.laneid (c d m q) : RoundTrip.Statement (.laneid c d m q) := by
  intro hw W he
  obtain ⟨hn, hk, e0, e1, e2, e3⟩ := lay_31w1_18w6_4w2_0w4 0x5 _ _ _ _ _ W (by decide) rfl c.toNat_lt d.isLt m.isLt q.isLt (Option.some.inj he)
  refine decode_of_candidate hw he hn ?_
  rw [candidate, hk]
  show some _ = _
  rw [flg_eq c _ _ e0, fld_eq d _ _ e1, fld_eq m _ _ e2, fld_eq q _ _ e3]

theorem RoundTrip.sel (c d a b m q) : RoundTrip.Statement (.sel c d a b m q) := by
  intro hw W he
  obtain ⟨hn, hk, e0, e1, e2, e3, e4, e5⟩ := lay_31w1_18w6_12w6_6w6_4w2_0w4 0x6 _ _ _ _ _ _ _ W (by decide) rfl c.toNat_lt d.isLt a.isLt b.isLt m.isLt q.isLt (Option.some.inj he)
  refine decode_of_candidate hw he hn ?_
  rw [candidate, hk]
  show some _ = _
  rw [flg_eq c _ _ e0, fld_eq d _ _ e1, fld_eq a _ _ e2, fld_eq b _ _ e3, fld_eq m _ _ e4, fld_eq q _ _ e5]

theorem RoundTrip.shfl (c d a b m q) : RoundTrip.Statement (.shfl c d a b m q) := by
  intro hw W he
  obtain ⟨hn, hk, e0, e1, e2, e3, e4, e5⟩ := lay_31w1_18w6_12w6_6w6_4w2_0w4 0x7 _ _ _ _ _ _ _ W (by decide) rfl c.toNat_lt d.isLt a.isLt b.isLt m.isLt q.isLt (Option.some.inj he)
  refine decode_of_candidate hw he hn ?_
  rw [candidate, hk]
  show some _ = _
  rw [flg_eq c _ _ e0, fld_eq d _ _ e1, fld_eq a _ _ e2, fld_eq b _ _ e3, fld_eq m _ _ e4, fld_eq q _ _ e5]

theorem RoundTrip.bcast (c d a b q) : RoundTrip.Statement (.bcast c d a b q) := by
  intro hw W he
  obtain ⟨hn, hk, e0, e1, e2, e3, e4⟩ := lay_31w1_18w6_12w6_6w6_0w4 0x8 _ _ _ _ _ _ W (by decide) rfl c.toNat_lt d.isLt a.isLt b.isLt q.isLt (Option.some.inj he)
  refine decode_of_candidate hw he hn ?_
  rw [candidate, hk]
  show some _ = _
  rw [flg_eq c _ _ e0, fld_eq d _ _ e1, fld_eq a _ _ e2, fld_eq b _ _ e3, fld_eq q _ _ e4]

theorem RoundTrip.unif (c d a q) : RoundTrip.Statement (.unif c d a q) := by
  intro hw W he
  obtain ⟨hn, hk, e0, e1, e2, e3⟩ := lay_31w1_18w6_12w6_0w4 0x9 _ _ _ _ _ W (by decide) rfl c.toNat_lt d.isLt a.isLt q.isLt (Option.some.inj he)
  refine decode_of_candidate hw he hn ?_
  rw [candidate, hk]
  show some _ = _
  rw [flg_eq c _ _ e0, fld_eq d _ _ e1, fld_eq a _ _ e2, fld_eq q _ _ e3]

theorem RoundTrip.icmp (c d a b m q) : RoundTrip.Statement (.icmp c d a b m q) := by
  intro hw W he
  obtain ⟨hn, hk, e0, e1, e2, e3, e4, e5⟩ := lay_31w1_18w3_12w6_6w6_4w2_0w4 0xa _ _ _ _ _ _ _ W (by decide) rfl c.toNat_lt d.isLt a.isLt b.isLt m.isLt q.isLt (Option.some.inj he)
  refine decode_of_candidate hw he hn ?_
  rw [candidate, hk]
  show some _ = _
  rw [flg_eq c _ _ e0, fld_eq d _ _ e1, fld_eq a _ _ e2, fld_eq b _ _ e3, fld_eq m _ _ e4, fld_eq q _ _ e5]

theorem RoundTrip.icmpi (c k d a i) : RoundTrip.Statement (.icmpi c k d a i) := by
  intro hw W he
  obtain ⟨hn, hk, e0, e1, e2, e3, e4⟩ := lay_31w1_21w3_18w3_12w6_0w12 0xb _ _ _ _ _ _ W (by decide) rfl c.toNat_lt k.isLt d.isLt a.isLt i.isLt (Option.some.inj he)
  refine decode_of_candidate hw he hn ?_
  rw [candidate, hk]
  show some _ = _
  rw [flg_eq c _ _ e0, fld_eq k _ _ e1, fld_eq d _ _ e2, fld_eq a _ _ e3, fld_eq i _ _ e4]

theorem RoundTrip.plog (c d a b m q) : RoundTrip.Statement (.plog c d a b m q) := by
  intro hw W he
  obtain ⟨hn, hk, e0, e1, e2, e3, e4, e5⟩ := lay_31w1_18w3_12w3_6w3_4w2_0w4 0xc _ _ _ _ _ _ _ W (by decide) rfl c.toNat_lt d.isLt a.isLt b.isLt m.isLt q.isLt (Option.some.inj he)
  refine decode_of_candidate hw he hn ?_
  rw [candidate, hk]
  show some _ = _
  rw [flg_eq c _ _ e0, fld_eq d _ _ e1, fld_eq a _ _ e2, fld_eq b _ _ e3, fld_eq m _ _ e4, fld_eq q _ _ e5]

theorem RoundTrip.p2v (c d q) : RoundTrip.Statement (.p2v c d q) := by
  intro hw W he
  obtain ⟨hn, hk, e0, e1, e2⟩ := lay_31w1_18w6_0w4 0xd _ _ _ _ W (by decide) rfl c.toNat_lt d.isLt q.isLt (Option.some.inj he)
  refine decode_of_candidate hw he hn ?_
  rw [candidate, hk]
  show some _ = _
  rw [flg_eq c _ _ e0, fld_eq d _ _ e1, fld_eq q _ _ e2]

theorem RoundTrip.v2p (c a q) : RoundTrip.Statement (.v2p c a q) := by
  intro hw W he
  obtain ⟨hn, hk, e0, e1, e2⟩ := lay_31w1_12w6_0w4 0xe _ _ _ _ W (by decide) rfl c.toNat_lt a.isLt q.isLt (Option.some.inj he)
  refine decode_of_candidate hw he hn ?_
  rw [candidate, hk]
  show some _ = _
  rw [flg_eq c _ _ e0, fld_eq a _ _ e1, fld_eq q _ _ e2]

theorem RoundTrip.voteAnyAll (c d a m q) : RoundTrip.Statement (.voteAnyAll c d a m q) := by
  intro hw W he
  have hn := Option.some.inj he
  have := c.toNat_lt; have := d.isLt; have := a.isLt; have := m.isLt; have := q.isLt
  refine decode_of_candidate hw he (by omega) ?_
  have hk : W / 2 ^ 24 % 128 = 0xf := by omega
  have h5 : flg W 5 = false := flg_eq false _ _ (by simp only [Bool.toNat_false]; omega)
  rw [candidate, hk]
  show (if flg W 5 = true then _ else _) = _
  rw [h5]
  show some _ = _
  rw [flg_eq c, fld_eq d, fld_eq a, fld_eq m, fld_eq q] <;> omega

theorem RoundTrip.voteBallot (c d a q) : RoundTrip.Statement (.voteBallot c d a q) := by
  intro hw W he
  have hn := Option.some.inj he
  have := c.toNat_lt; have := d.isLt; have := a.isLt; have := q.isLt
  refine decode_of_candidate hw he (by omega) ?_
  have hk : W / 2 ^ 24 % 128 = 0xf := by omega
  have h5 : flg W 5 = true := flg_eq true _ _ (by simp only [Bool.toNat_true]; omega)
  rw [candidate, hk]
  show (if flg W 5 = true then _ else _) = _
  rw [h5]
  show some _ = _
  rw [flg_eq c, fld_eq d, fld_eq a, fld_eq q] <;> omega

theorem RoundTrip.iadd (c d a b m q) : RoundTrip.Statement (.iadd c d a b m q) := by
  intro hw W he
  obtain ⟨hn, hk, e0, e1, e2, e3, e4, e5⟩ := lay_31w1_18w6_12w6_6w6_4w2_0w4 0x10 _ _ _ _ _ _ _ W (by decide) rfl c.toNat_lt d.isLt a.isLt b.isLt m.isLt q.isLt (Option.some.inj he)
  refine decode_of_candidate hw he hn ?_
  rw [candidate, hk]
  show some _ = _
  rw [flg_eq c _ _ e0, fld_eq d _ _ e1, fld_eq a _ _ e2, fld_eq b _ _ e3, fld_eq m _ _ e4, fld_eq q _ _ e5]

theorem RoundTrip.isub (c d a b m q) : RoundTrip.Statement (.isub c d a b m q) := by
  intro hw W he
  obtain ⟨hn, hk, e0, e1, e2, e3, e4, e5⟩ := lay_31w1_18w6_12w6_6w6_4w2_0w4 0x11 _ _ _ _ _ _ _ W (by decide) rfl c.toNat_lt d.isLt a.isLt b.isLt m.isLt q.isLt (Option.some.inj he)
  refine decode_of_candidate hw he hn ?_
  rw [candidate, hk]
  show some _ = _
  rw [flg_eq c _ _ e0, fld_eq d _ _ e1, fld_eq a _ _ e2, fld_eq b _ _ e3, fld_eq m _ _ e4, fld_eq q _ _ e5]

theorem RoundTrip.iaddi (c d a i) : RoundTrip.Statement (.iaddi c d a i) := by
  intro hw W he
  obtain ⟨hn, hk, e0, e1, e2, e3⟩ := lay_31w1_18w6_12w6_0w12 0x12 _ _ _ _ _ W (by decide) rfl c.toNat_lt d.isLt a.isLt i.isLt (Option.some.inj he)
  refine decode_of_candidate hw he hn ?_
  rw [candidate, hk]
  show some _ = _
  rw [flg_eq c _ _ e0, fld_eq d _ _ e1, fld_eq a _ _ e2, fld_eq i _ _ e3]

theorem RoundTrip.imul (c d a b m q) : RoundTrip.Statement (.imul c d a b m q) := by
  intro hw W he
  obtain ⟨hn, hk, e0, e1, e2, e3, e4, e5⟩ := lay_31w1_18w6_12w6_6w6_4w2_0w4 0x13 _ _ _ _ _ _ _ W (by decide) rfl c.toNat_lt d.isLt a.isLt b.isLt m.isLt q.isLt (Option.some.inj he)
  refine decode_of_candidate hw he hn ?_
  rw [candidate, hk]
  show some _ = _
  rw [flg_eq c _ _ e0, fld_eq d _ _ e1, fld_eq a _ _ e2, fld_eq b _ _ e3, fld_eq m _ _ e4, fld_eq q _ _ e5]

theorem RoundTrip.imulhs (c d a b m q) : RoundTrip.Statement (.imulhs c d a b m q) := by
  intro hw W he
  obtain ⟨hn, hk, e0, e1, e2, e3, e4, e5⟩ := lay_31w1_18w6_12w6_6w6_4w1_0w4 0x14 _ _ _ _ _ _ _ W (by decide) rfl c.toNat_lt d.isLt a.isLt b.isLt m.isLt q.isLt (Option.some.inj he)
  refine decode_of_candidate hw he hn ?_
  rw [candidate, hk]
  show some _ = _
  rw [flg_eq c _ _ e0, fld_eq d _ _ e1, fld_eq a _ _ e2, fld_eq b _ _ e3, fld_eq m _ _ e4, fld_eq q _ _ e5]

theorem RoundTrip.imulhn (c d a b m q) : RoundTrip.Statement (.imulhn c d a b m q) := by
  intro hw W he
  obtain ⟨hn, hk, e0, e1, e2, e3, e4, e5⟩ := lay_31w1_18w6_12w6_6w6_4w1_0w4 0x15 _ _ _ _ _ _ _ W (by decide) rfl c.toNat_lt d.isLt a.isLt b.isLt m.isLt q.isLt (Option.some.inj he)
  refine decode_of_candidate hw he hn ?_
  rw [candidate, hk]
  show some _ = _
  rw [flg_eq c _ _ e0, fld_eq d _ _ e1, fld_eq a _ _ e2, fld_eq b _ _ e3, fld_eq m _ _ e4, fld_eq q _ _ e5]

theorem RoundTrip.imad (c d a b e) : RoundTrip.Statement (.imad c d a b e) := by
  intro hw W he
  obtain ⟨hn, hk, e0, e1, e2, e3, e4⟩ := lay_31w1_18w6_12w6_6w6_0w6 0x16 _ _ _ _ _ _ W (by decide) rfl c.toNat_lt d.isLt a.isLt b.isLt e.isLt (Option.some.inj he)
  refine decode_of_candidate hw he hn ?_
  rw [candidate, hk]
  show some _ = _
  rw [flg_eq c _ _ e0, fld_eq d _ _ e1, fld_eq a _ _ e2, fld_eq b _ _ e3, fld_eq e _ _ e4]

theorem RoundTrip.imadw (c d a b e) : RoundTrip.Statement (.imadw c d a b e) := by
  intro hw W he
  obtain ⟨hn, hk, e0, e1, e2, e3, e4⟩ := lay_31w1_19w5_12w6_6w6_1w5 0x17 _ _ _ _ _ _ W (by decide) rfl c.toNat_lt d.isLt a.isLt b.isLt e.isLt (Option.some.inj he)
  refine decode_of_candidate hw he hn ?_
  rw [candidate, hk]
  show some _ = _
  rw [flg_eq c _ _ e0, fld_eq d _ _ e1, fld_eq a _ _ e2, fld_eq b _ _ e3, fld_eq e _ _ e4]

theorem RoundTrip.imadwn (c d a b e) : RoundTrip.Statement (.imadwn c d a b e) := by
  intro hw W he
  obtain ⟨hn, hk, e0, e1, e2, e3, e4⟩ := lay_31w1_19w5_12w6_6w6_1w5 0x18 _ _ _ _ _ _ W (by decide) rfl c.toNat_lt d.isLt a.isLt b.isLt e.isLt (Option.some.inj he)
  refine decode_of_candidate hw he hn ?_
  rw [candidate, hk]
  show some _ = _
  rw [flg_eq c _ _ e0, fld_eq d _ _ e1, fld_eq a _ _ e2, fld_eq b _ _ e3, fld_eq e _ _ e4]

theorem RoundTrip.imin (c d a b m q) : RoundTrip.Statement (.imin c d a b m q) := by
  intro hw W he
  obtain ⟨hn, hk, e0, e1, e2, e3, e4, e5⟩ := lay_31w1_18w6_12w6_6w6_4w2_0w4 0x19 _ _ _ _ _ _ _ W (by decide) rfl c.toNat_lt d.isLt a.isLt b.isLt m.isLt q.isLt (Option.some.inj he)
  refine decode_of_candidate hw he hn ?_
  rw [candidate, hk]
  show some _ = _
  rw [flg_eq c _ _ e0, fld_eq d _ _ e1, fld_eq a _ _ e2, fld_eq b _ _ e3, fld_eq m _ _ e4, fld_eq q _ _ e5]

theorem RoundTrip.imax (c d a b m q) : RoundTrip.Statement (.imax c d a b m q) := by
  intro hw W he
  obtain ⟨hn, hk, e0, e1, e2, e3, e4, e5⟩ := lay_31w1_18w6_12w6_6w6_4w2_0w4 0x1a _ _ _ _ _ _ _ W (by decide) rfl c.toNat_lt d.isLt a.isLt b.isLt m.isLt q.isLt (Option.some.inj he)
  refine decode_of_candidate hw he hn ?_
  rw [candidate, hk]
  show some _ = _
  rw [flg_eq c _ _ e0, fld_eq d _ _ e1, fld_eq a _ _ e2, fld_eq b _ _ e3, fld_eq m _ _ e4, fld_eq q _ _ e5]

theorem RoundTrip.iabs (c d a m q) : RoundTrip.Statement (.iabs c d a m q) := by
  intro hw W he
  obtain ⟨hn, hk, e0, e1, e2, e3, e4⟩ := lay_31w1_18w6_12w6_4w2_0w4 0x1b _ _ _ _ _ _ W (by decide) rfl c.toNat_lt d.isLt a.isLt m.isLt q.isLt (Option.some.inj he)
  refine decode_of_candidate hw he hn ?_
  rw [candidate, hk]
  show some _ = _
  rw [flg_eq c _ _ e0, fld_eq d _ _ e1, fld_eq a _ _ e2, fld_eq m _ _ e3, fld_eq q _ _ e4]

theorem RoundTrip.ineg (c d a m q) : RoundTrip.Statement (.ineg c d a m q) := by
  intro hw W he
  obtain ⟨hn, hk, e0, e1, e2, e3, e4⟩ := lay_31w1_18w6_12w6_4w2_0w4 0x1c _ _ _ _ _ _ W (by decide) rfl c.toNat_lt d.isLt a.isLt m.isLt q.isLt (Option.some.inj he)
  refine decode_of_candidate hw he hn ?_
  rw [candidate, hk]
  show some _ = _
  rw [flg_eq c _ _ e0, fld_eq d _ _ e1, fld_eq a _ _ e2, fld_eq m _ _ e3, fld_eq q _ _ e4]

theorem RoundTrip.idiv (c d a b m q) : RoundTrip.Statement (.idiv c d a b m q) := by
  intro hw W he
  obtain ⟨hn, hk, e0, e1, e2, e3, e4, e5⟩ := lay_31w1_18w6_12w6_6w6_4w2_0w4 0x1d _ _ _ _ _ _ _ W (by decide) rfl c.toNat_lt d.isLt a.isLt b.isLt m.isLt q.isLt (Option.some.inj he)
  refine decode_of_candidate hw he hn ?_
  rw [candidate, hk]
  show some _ = _
  rw [flg_eq c _ _ e0, fld_eq d _ _ e1, fld_eq a _ _ e2, fld_eq b _ _ e3, fld_eq m _ _ e4, fld_eq q _ _ e5]

theorem RoundTrip.irem (c d a b m q) : RoundTrip.Statement (.irem c d a b m q) := by
  intro hw W he
  obtain ⟨hn, hk, e0, e1, e2, e3, e4, e5⟩ := lay_31w1_18w6_12w6_6w6_4w2_0w4 0x1e _ _ _ _ _ _ _ W (by decide) rfl c.toNat_lt d.isLt a.isLt b.isLt m.isLt q.isLt (Option.some.inj he)
  refine decode_of_candidate hw he hn ?_
  rw [candidate, hk]
  show some _ = _
  rw [flg_eq c _ _ e0, fld_eq d _ _ e1, fld_eq a _ _ e2, fld_eq b _ _ e3, fld_eq m _ _ e4, fld_eq q _ _ e5]

theorem RoundTrip.iaccw (c d a m q) : RoundTrip.Statement (.iaccw c d a m q) := by
  intro hw W he
  obtain ⟨hn, hk, e0, e1, e2, e3, e4⟩ := lay_31w1_19w5_12w6_4w2_0w4 0x1f _ _ _ _ _ _ W (by decide) rfl c.toNat_lt d.isLt a.isLt m.isLt q.isLt (Option.some.inj he)
  refine decode_of_candidate hw he hn ?_
  rw [candidate, hk]
  show some _ = _
  rw [flg_eq c _ _ e0, fld_eq d _ _ e1, fld_eq a _ _ e2, fld_eq m _ _ e3, fld_eq q _ _ e4]

theorem RoundTrip.addr (c d a b m q) : RoundTrip.Statement (.addr c d a b m q) := by
  intro hw W he
  obtain ⟨hn, hk, e0, e1, e2, e3, e4, e5⟩ := lay_31w1_19w5_13w5_6w6_4w2_0w4 0x20 _ _ _ _ _ _ _ W (by decide) rfl c.toNat_lt d.isLt a.isLt b.isLt m.isLt q.isLt (Option.some.inj he)
  refine decode_of_candidate hw he hn ?_
  rw [candidate, hk]
  show some _ = _
  rw [flg_eq c _ _ e0, fld_eq d _ _ e1, fld_eq a _ _ e2, fld_eq b _ _ e3, fld_eq m _ _ e4, fld_eq q _ _ e5]

theorem RoundTrip.addri (c d a i) : RoundTrip.Statement (.addri c d a i) := by
  intro hw W he
  obtain ⟨hn, hk, e0, e1, e2, e3⟩ := lay_31w1_19w5_13w5_0w12 0x21 _ _ _ _ _ W (by decide) rfl c.toNat_lt d.isLt a.isLt i.isLt (Option.some.inj he)
  refine decode_of_candidate hw he hn ?_
  rw [candidate, hk]
  show some _ = _
  rw [flg_eq c _ _ e0, fld_eq d _ _ e1, fld_eq a _ _ e2, fld_eq i _ _ e3]

theorem RoundTrip.and (c d a b m q) : RoundTrip.Statement (.and c d a b m q) := by
  intro hw W he
  obtain ⟨hn, hk, e0, e1, e2, e3, e4, e5⟩ := lay_31w1_18w6_12w6_6w6_4w1_0w4 0x22 _ _ _ _ _ _ _ W (by decide) rfl c.toNat_lt d.isLt a.isLt b.isLt m.isLt q.isLt (Option.some.inj he)
  refine decode_of_candidate hw he hn ?_
  rw [candidate, hk]
  show some _ = _
  rw [flg_eq c _ _ e0, fld_eq d _ _ e1, fld_eq a _ _ e2, fld_eq b _ _ e3, fld_eq m _ _ e4, fld_eq q _ _ e5]

theorem RoundTrip.or (c d a b m q) : RoundTrip.Statement (.or c d a b m q) := by
  intro hw W he
  obtain ⟨hn, hk, e0, e1, e2, e3, e4, e5⟩ := lay_31w1_18w6_12w6_6w6_4w1_0w4 0x23 _ _ _ _ _ _ _ W (by decide) rfl c.toNat_lt d.isLt a.isLt b.isLt m.isLt q.isLt (Option.some.inj he)
  refine decode_of_candidate hw he hn ?_
  rw [candidate, hk]
  show some _ = _
  rw [flg_eq c _ _ e0, fld_eq d _ _ e1, fld_eq a _ _ e2, fld_eq b _ _ e3, fld_eq m _ _ e4, fld_eq q _ _ e5]

theorem RoundTrip.xor (c d a b m q) : RoundTrip.Statement (.xor c d a b m q) := by
  intro hw W he
  obtain ⟨hn, hk, e0, e1, e2, e3, e4, e5⟩ := lay_31w1_18w6_12w6_6w6_4w1_0w4 0x24 _ _ _ _ _ _ _ W (by decide) rfl c.toNat_lt d.isLt a.isLt b.isLt m.isLt q.isLt (Option.some.inj he)
  refine decode_of_candidate hw he hn ?_
  rw [candidate, hk]
  show some _ = _
  rw [flg_eq c _ _ e0, fld_eq d _ _ e1, fld_eq a _ _ e2, fld_eq b _ _ e3, fld_eq m _ _ e4, fld_eq q _ _ e5]

theorem RoundTrip.andn (c d a b m q) : RoundTrip.Statement (.andn c d a b m q) := by
  intro hw W he
  obtain ⟨hn, hk, e0, e1, e2, e3, e4, e5⟩ := lay_31w1_18w6_12w6_6w6_4w1_0w4 0x25 _ _ _ _ _ _ _ W (by decide) rfl c.toNat_lt d.isLt a.isLt b.isLt m.isLt q.isLt (Option.some.inj he)
  refine decode_of_candidate hw he hn ?_
  rw [candidate, hk]
  show some _ = _
  rw [flg_eq c _ _ e0, fld_eq d _ _ e1, fld_eq a _ _ e2, fld_eq b _ _ e3, fld_eq m _ _ e4, fld_eq q _ _ e5]

theorem RoundTrip.not (c d a m q) : RoundTrip.Statement (.not c d a m q) := by
  intro hw W he
  obtain ⟨hn, hk, e0, e1, e2, e3, e4⟩ := lay_31w1_18w6_12w6_4w1_0w4 0x26 _ _ _ _ _ _ W (by decide) rfl c.toNat_lt d.isLt a.isLt m.isLt q.isLt (Option.some.inj he)
  refine decode_of_candidate hw he hn ?_
  rw [candidate, hk]
  show some _ = _
  rw [flg_eq c _ _ e0, fld_eq d _ _ e1, fld_eq a _ _ e2, fld_eq m _ _ e3, fld_eq q _ _ e4]

theorem RoundTrip.andi (c d a i) : RoundTrip.Statement (.andi c d a i) := by
  intro hw W he
  obtain ⟨hn, hk, e0, e1, e2, e3⟩ := lay_31w1_18w6_12w6_0w12 0x27 _ _ _ _ _ W (by decide) rfl c.toNat_lt d.isLt a.isLt i.isLt (Option.some.inj he)
  refine decode_of_candidate hw he hn ?_
  rw [candidate, hk]
  show some _ = _
  rw [flg_eq c _ _ e0, fld_eq d _ _ e1, fld_eq a _ _ e2, fld_eq i _ _ e3]

theorem RoundTrip.ori (c d a i) : RoundTrip.Statement (.ori c d a i) := by
  intro hw W he
  obtain ⟨hn, hk, e0, e1, e2, e3⟩ := lay_31w1_18w6_12w6_0w12 0x28 _ _ _ _ _ W (by decide) rfl c.toNat_lt d.isLt a.isLt i.isLt (Option.some.inj he)
  refine decode_of_candidate hw he hn ?_
  rw [candidate, hk]
  show some _ = _
  rw [flg_eq c _ _ e0, fld_eq d _ _ e1, fld_eq a _ _ e2, fld_eq i _ _ e3]

theorem RoundTrip.xori (c d a i) : RoundTrip.Statement (.xori c d a i) := by
  intro hw W he
  obtain ⟨hn, hk, e0, e1, e2, e3⟩ := lay_31w1_18w6_12w6_0w12 0x29 _ _ _ _ _ W (by decide) rfl c.toNat_lt d.isLt a.isLt i.isLt (Option.some.inj he)
  refine decode_of_candidate hw he hn ?_
  rw [candidate, hk]
  show some _ = _
  rw [flg_eq c _ _ e0, fld_eq d _ _ e1, fld_eq a _ _ e2, fld_eq i _ _ e3]

theorem RoundTrip.shl (c d a b m q) : RoundTrip.Statement (.shl c d a b m q) := by
  intro hw W he
  obtain ⟨hn, hk, e0, e1, e2, e3, e4, e5⟩ := lay_31w1_18w6_12w6_6w6_4w2_0w4 0x2a _ _ _ _ _ _ _ W (by decide) rfl c.toNat_lt d.isLt a.isLt b.isLt m.isLt q.isLt (Option.some.inj he)
  refine decode_of_candidate hw he hn ?_
  rw [candidate, hk]
  show some _ = _
  rw [flg_eq c _ _ e0, fld_eq d _ _ e1, fld_eq a _ _ e2, fld_eq b _ _ e3, fld_eq m _ _ e4, fld_eq q _ _ e5]

theorem RoundTrip.shr (c d a b m q) : RoundTrip.Statement (.shr c d a b m q) := by
  intro hw W he
  obtain ⟨hn, hk, e0, e1, e2, e3, e4, e5⟩ := lay_31w1_18w6_12w6_6w6_4w2_0w4 0x2b _ _ _ _ _ _ _ W (by decide) rfl c.toNat_lt d.isLt a.isLt b.isLt m.isLt q.isLt (Option.some.inj he)
  refine decode_of_candidate hw he hn ?_
  rw [candidate, hk]
  show some _ = _
  rw [flg_eq c _ _ e0, fld_eq d _ _ e1, fld_eq a _ _ e2, fld_eq b _ _ e3, fld_eq m _ _ e4, fld_eq q _ _ e5]

theorem RoundTrip.sar (c d a b m q) : RoundTrip.Statement (.sar c d a b m q) := by
  intro hw W he
  obtain ⟨hn, hk, e0, e1, e2, e3, e4, e5⟩ := lay_31w1_18w6_12w6_6w6_4w2_0w4 0x2c _ _ _ _ _ _ _ W (by decide) rfl c.toNat_lt d.isLt a.isLt b.isLt m.isLt q.isLt (Option.some.inj he)
  refine decode_of_candidate hw he hn ?_
  rw [candidate, hk]
  show some _ = _
  rw [flg_eq c _ _ e0, fld_eq d _ _ e1, fld_eq a _ _ e2, fld_eq b _ _ e3, fld_eq m _ _ e4, fld_eq q _ _ e5]

theorem RoundTrip.shli (c d a w n) : RoundTrip.Statement (.shli c d a w n) := by
  intro hw W he
  obtain ⟨hn, hk, e0, e1, e2, e3, e4⟩ := lay_31w1_18w6_12w6_6w1_0w6 0x2d _ _ _ _ _ _ W (by decide) rfl c.toNat_lt d.isLt a.isLt w.isLt n.isLt (Option.some.inj he)
  refine decode_of_candidate hw he hn ?_
  rw [candidate, hk]
  show some _ = _
  rw [flg_eq c _ _ e0, fld_eq d _ _ e1, fld_eq a _ _ e2, fld_eq w _ _ e3, fld_eq n _ _ e4]

theorem RoundTrip.shri (c d a w n) : RoundTrip.Statement (.shri c d a w n) := by
  intro hw W he
  obtain ⟨hn, hk, e0, e1, e2, e3, e4⟩ := lay_31w1_18w6_12w6_6w1_0w6 0x2e _ _ _ _ _ _ W (by decide) rfl c.toNat_lt d.isLt a.isLt w.isLt n.isLt (Option.some.inj he)
  refine decode_of_candidate hw he hn ?_
  rw [candidate, hk]
  show some _ = _
  rw [flg_eq c _ _ e0, fld_eq d _ _ e1, fld_eq a _ _ e2, fld_eq w _ _ e3, fld_eq n _ _ e4]

theorem RoundTrip.sari (c d a w n) : RoundTrip.Statement (.sari c d a w n) := by
  intro hw W he
  obtain ⟨hn, hk, e0, e1, e2, e3, e4⟩ := lay_31w1_18w6_12w6_6w1_0w6 0x2f _ _ _ _ _ _ W (by decide) rfl c.toNat_lt d.isLt a.isLt w.isLt n.isLt (Option.some.inj he)
  refine decode_of_candidate hw he hn ?_
  rw [candidate, hk]
  show some _ = _
  rw [flg_eq c _ _ e0, fld_eq d _ _ e1, fld_eq a _ _ e2, fld_eq w _ _ e3, fld_eq n _ _ e4]

theorem RoundTrip.bfx (c d a l p) : RoundTrip.Statement (.bfx c d a l p) := by
  intro hw W he
  obtain ⟨hn, hk, e0, e1, e2, e3, e4⟩ := lay_31w1_18w6_12w6_5w5_0w5 0x30 _ _ _ _ _ _ W (by decide) rfl c.toNat_lt d.isLt a.isLt l.isLt p.isLt (Option.some.inj he)
  refine decode_of_candidate hw he hn ?_
  rw [candidate, hk]
  show some _ = _
  rw [flg_eq c _ _ e0, fld_eq d _ _ e1, fld_eq a _ _ e2, fld_eq l _ _ e3, fld_eq p _ _ e4]

theorem RoundTrip.bfxs (c d a l p) : RoundTrip.Statement (.bfxs c d a l p) := by
  intro hw W he
  obtain ⟨hn, hk, e0, e1, e2, e3, e4⟩ := lay_31w1_18w6_12w6_5w5_0w5 0x31 _ _ _ _ _ _ W (by decide) rfl c.toNat_lt d.isLt a.isLt l.isLt p.isLt (Option.some.inj he)
  refine decode_of_candidate hw he hn ?_
  rw [candidate, hk]
  show some _ = _
  rw [flg_eq c _ _ e0, fld_eq d _ _ e1, fld_eq a _ _ e2, fld_eq l _ _ e3, fld_eq p _ _ e4]

theorem RoundTrip.bfi (c d a l p) : RoundTrip.Statement (.bfi c d a l p) := by
  intro hw W he
  obtain ⟨hn, hk, e0, e1, e2, e3, e4⟩ := lay_31w1_18w6_12w6_5w5_0w5 0x32 _ _ _ _ _ _ W (by decide) rfl c.toNat_lt d.isLt a.isLt l.isLt p.isLt (Option.some.inj he)
  refine decode_of_candidate hw he hn ?_
  rw [candidate, hk]
  show some _ = _
  rw [flg_eq c _ _ e0, fld_eq d _ _ e1, fld_eq a _ _ e2, fld_eq l _ _ e3, fld_eq p _ _ e4]

theorem RoundTrip.bitop (c d a m q) : RoundTrip.Statement (.bitop c d a m q) := by
  intro hw W he
  obtain ⟨hn, hk, e0, e1, e2, e3, e4⟩ := lay_31w1_18w6_12w6_4w2_0w4 0x33 _ _ _ _ _ _ W (by decide) rfl c.toNat_lt d.isLt a.isLt m.isLt q.isLt (Option.some.inj he)
  refine decode_of_candidate hw he hn ?_
  rw [candidate, hk]
  show some _ = _
  rw [flg_eq c _ _ e0, fld_eq d _ _ e1, fld_eq a _ _ e2, fld_eq m _ _ e3, fld_eq q _ _ e4]

theorem RoundTrip.scan (c d a m q) : RoundTrip.Statement (.scan c d a m q) := by
  intro hw W he
  obtain ⟨hn, hk, e0, e1, e2, e3, e4⟩ := lay_31w1_18w6_12w6_4w2_0w4 0x34 _ _ _ _ _ _ W (by decide) rfl c.toNat_lt d.isLt a.isLt m.isLt q.isLt (Option.some.inj he)
  refine decode_of_candidate hw he hn ?_
  rw [candidate, hk]
  show some _ = _
  rw [flg_eq c _ _ e0, fld_eq d _ _ e1, fld_eq a _ _ e2, fld_eq m _ _ e3, fld_eq q _ _ e4]

theorem RoundTrip.ired (c d a m q) : RoundTrip.Statement (.ired c d a m q) := by
  intro hw W he
  obtain ⟨hn, hk, e0, e1, e2, e3, e4⟩ := lay_31w1_18w6_12w6_4w2_0w4 0x35 _ _ _ _ _ _ W (by decide) rfl c.toNat_lt d.isLt a.isLt m.isLt q.isLt (Option.some.inj he)
  refine decode_of_candidate hw he hn ?_
  rw [candidate, hk]
  show some _ = _
  rw [flg_eq c _ _ e0, fld_eq d _ _ e1, fld_eq a _ _ e2, fld_eq m _ _ e3, fld_eq q _ _ e4]

theorem RoundTrip.waitf (m) : RoundTrip.Statement (.waitf m) := by
  intro hw W he
  obtain ⟨hn, hk, e0⟩ := lay_0w12 0x36 _ _ W (by decide) rfl m.isLt (Option.some.inj he)
  refine decode_of_candidate hw he hn ?_
  rw [candidate, hk]
  show some _ = _
  rw [fld_eq m _ _ e0]

theorem RoundTrip.waitc (k n) : RoundTrip.Statement (.waitc k n) := by
  intro hw W he
  obtain ⟨hn, hk, e0, e1⟩ := lay_21w3_15w6 0x37 _ _ _ W (by decide) rfl k.isLt n.isLt (Option.some.inj he)
  refine decode_of_candidate hw he hn ?_
  rw [candidate, hk]
  show some _ = _
  rw [fld_eq k _ _ e0, fld_eq n _ _ e1]

theorem RoundTrip.waitany (p m) : RoundTrip.Statement (.waitany p m) := by
  intro hw W he
  obtain ⟨hn, hk, e0, e1⟩ := lay_8w1_0w8 0x38 _ _ _ W (by decide) rfl p.isLt m.isLt (Option.some.inj he)
  refine decode_of_candidate hw he hn ?_
  rw [candidate, hk]
  show some _ = _
  rw [fld_eq p _ _ e0, fld_eq m _ _ e1]

theorem RoundTrip.bar (w s) : RoundTrip.Statement (.bar w s) := by
  intro hw W he
  obtain ⟨hn, hk, e0, e1⟩ := lay_2w1_0w2 0x39 _ _ _ W (by decide) rfl w.isLt s.isLt (Option.some.inj he)
  refine decode_of_candidate hw he hn ?_
  rw [candidate, hk]
  show some _ = _
  rw [fld_eq w _ _ e0, fld_eq s _ _ e1]

theorem RoundTrip.fadd (c d a b m q) : RoundTrip.Statement (.fadd c d a b m q) := by
  intro hw W he
  obtain ⟨hn, hk, e0, e1, e2, e3, e4, e5⟩ := lay_31w1_18w6_12w6_6w6_4w2_0w4 0x40 _ _ _ _ _ _ _ W (by decide) rfl c.toNat_lt d.isLt a.isLt b.isLt m.isLt q.isLt (Option.some.inj he)
  refine decode_of_candidate hw he hn ?_
  rw [candidate, hk]
  show some _ = _
  rw [flg_eq c _ _ e0, fld_eq d _ _ e1, fld_eq a _ _ e2, fld_eq b _ _ e3, fld_eq m _ _ e4, fld_eq q _ _ e5]

theorem RoundTrip.fsub (c d a b m q) : RoundTrip.Statement (.fsub c d a b m q) := by
  intro hw W he
  obtain ⟨hn, hk, e0, e1, e2, e3, e4, e5⟩ := lay_31w1_18w6_12w6_6w6_4w2_0w4 0x41 _ _ _ _ _ _ _ W (by decide) rfl c.toNat_lt d.isLt a.isLt b.isLt m.isLt q.isLt (Option.some.inj he)
  refine decode_of_candidate hw he hn ?_
  rw [candidate, hk]
  show some _ = _
  rw [flg_eq c _ _ e0, fld_eq d _ _ e1, fld_eq a _ _ e2, fld_eq b _ _ e3, fld_eq m _ _ e4, fld_eq q _ _ e5]

theorem RoundTrip.fmul (c d a b m q) : RoundTrip.Statement (.fmul c d a b m q) := by
  intro hw W he
  obtain ⟨hn, hk, e0, e1, e2, e3, e4, e5⟩ := lay_31w1_18w6_12w6_6w6_4w2_0w4 0x42 _ _ _ _ _ _ _ W (by decide) rfl c.toNat_lt d.isLt a.isLt b.isLt m.isLt q.isLt (Option.some.inj he)
  refine decode_of_candidate hw he hn ?_
  rw [candidate, hk]
  show some _ = _
  rw [flg_eq c _ _ e0, fld_eq d _ _ e1, fld_eq a _ _ e2, fld_eq b _ _ e3, fld_eq m _ _ e4, fld_eq q _ _ e5]

theorem RoundTrip.ffma32 (c d a b e) : RoundTrip.Statement (.ffma32 c d a b e) := by
  intro hw W he
  obtain ⟨hn, hk, e0, e1, e2, e3, e4⟩ := lay_31w1_18w6_12w6_6w6_0w6 0x43 _ _ _ _ _ _ W (by decide) rfl c.toNat_lt d.isLt a.isLt b.isLt e.isLt (Option.some.inj he)
  refine decode_of_candidate hw he hn ?_
  rw [candidate, hk]
  show some _ = _
  rw [flg_eq c _ _ e0, fld_eq d _ _ e1, fld_eq a _ _ e2, fld_eq b _ _ e3, fld_eq e _ _ e4]

theorem RoundTrip.ffma64 (c d a b e) : RoundTrip.Statement (.ffma64 c d a b e) := by
  intro hw W he
  obtain ⟨hn, hk, e0, e1, e2, e3, e4⟩ := lay_31w1_19w5_13w5_7w5_1w5 0x44 _ _ _ _ _ _ W (by decide) rfl c.toNat_lt d.isLt a.isLt b.isLt e.isLt (Option.some.inj he)
  refine decode_of_candidate hw he hn ?_
  rw [candidate, hk]
  show some _ = _
  rw [flg_eq c _ _ e0, fld_eq d _ _ e1, fld_eq a _ _ e2, fld_eq b _ _ e3, fld_eq e _ _ e4]

theorem RoundTrip.ffmabf (c d a b e) : RoundTrip.Statement (.ffmabf c d a b e) := by
  intro hw W he
  obtain ⟨hn, hk, e0, e1, e2, e3, e4⟩ := lay_31w1_18w6_12w6_6w6_0w6 0x45 _ _ _ _ _ _ W (by decide) rfl c.toNat_lt d.isLt a.isLt b.isLt e.isLt (Option.some.inj he)
  refine decode_of_candidate hw he hn ?_
  rw [candidate, hk]
  show some _ = _
  rw [flg_eq c _ _ e0, fld_eq d _ _ e1, fld_eq a _ _ e2, fld_eq b _ _ e3, fld_eq e _ _ e4]

theorem RoundTrip.ffmah (c d a b e) : RoundTrip.Statement (.ffmah c d a b e) := by
  intro hw W he
  obtain ⟨hn, hk, e0, e1, e2, e3, e4⟩ := lay_31w1_18w6_12w6_6w6_0w6 0x46 _ _ _ _ _ _ W (by decide) rfl c.toNat_lt d.isLt a.isLt b.isLt e.isLt (Option.some.inj he)
  refine decode_of_candidate hw he hn ?_
  rw [candidate, hk]
  show some _ = _
  rw [flg_eq c _ _ e0, fld_eq d _ _ e1, fld_eq a _ _ e2, fld_eq b _ _ e3, fld_eq e _ _ e4]

theorem RoundTrip.fmin (c d a b m q) : RoundTrip.Statement (.fmin c d a b m q) := by
  intro hw W he
  obtain ⟨hn, hk, e0, e1, e2, e3, e4, e5⟩ := lay_31w1_18w6_12w6_6w6_4w2_0w4 0x47 _ _ _ _ _ _ _ W (by decide) rfl c.toNat_lt d.isLt a.isLt b.isLt m.isLt q.isLt (Option.some.inj he)
  refine decode_of_candidate hw he hn ?_
  rw [candidate, hk]
  show some _ = _
  rw [flg_eq c _ _ e0, fld_eq d _ _ e1, fld_eq a _ _ e2, fld_eq b _ _ e3, fld_eq m _ _ e4, fld_eq q _ _ e5]

theorem RoundTrip.fmax (c d a b m q) : RoundTrip.Statement (.fmax c d a b m q) := by
  intro hw W he
  obtain ⟨hn, hk, e0, e1, e2, e3, e4, e5⟩ := lay_31w1_18w6_12w6_6w6_4w2_0w4 0x48 _ _ _ _ _ _ _ W (by decide) rfl c.toNat_lt d.isLt a.isLt b.isLt m.isLt q.isLt (Option.some.inj he)
  refine decode_of_candidate hw he hn ?_
  rw [candidate, hk]
  show some _ = _
  rw [flg_eq c _ _ e0, fld_eq d _ _ e1, fld_eq a _ _ e2, fld_eq b _ _ e3, fld_eq m _ _ e4, fld_eq q _ _ e5]

theorem RoundTrip.fsgn (c d a b m q) : RoundTrip.Statement (.fsgn c d a b m q) := by
  intro hw W he
  obtain ⟨hn, hk, e0, e1, e2, e3, e4, e5⟩ := lay_31w1_18w6_12w6_6w6_4w2_0w4 0x49 _ _ _ _ _ _ _ W (by decide) rfl c.toNat_lt d.isLt a.isLt b.isLt m.isLt q.isLt (Option.some.inj he)
  refine decode_of_candidate hw he hn ?_
  rw [candidate, hk]
  show some _ = _
  rw [flg_eq c _ _ e0, fld_eq d _ _ e1, fld_eq a _ _ e2, fld_eq b _ _ e3, fld_eq m _ _ e4, fld_eq q _ _ e5]

theorem RoundTrip.fcmp (c d a b m q) : RoundTrip.Statement (.fcmp c d a b m q) := by
  intro hw W he
  obtain ⟨hn, hk, e0, e1, e2, e3, e4, e5⟩ := lay_31w1_18w3_12w6_6w6_4w1_0w4 0x4a _ _ _ _ _ _ _ W (by decide) rfl c.toNat_lt d.isLt a.isLt b.isLt m.isLt q.isLt (Option.some.inj he)
  refine decode_of_candidate hw he hn ?_
  rw [candidate, hk]
  show some _ = _
  rw [flg_eq c _ _ e0, fld_eq d _ _ e1, fld_eq a _ _ e2, fld_eq b _ _ e3, fld_eq m _ _ e4, fld_eq q _ _ e5]

theorem RoundTrip.fclass (c d a m q) : RoundTrip.Statement (.fclass c d a m q) := by
  intro hw W he
  obtain ⟨hn, hk, e0, e1, e2, e3, e4⟩ := lay_31w1_18w6_12w6_4w2_0w4 0x4b _ _ _ _ _ _ W (by decide) rfl c.toNat_lt d.isLt a.isLt m.isLt q.isLt (Option.some.inj he)
  refine decode_of_candidate hw he hn ?_
  rw [candidate, hk]
  show some _ = _
  rw [flg_eq c _ _ e0, fld_eq d _ _ e1, fld_eq a _ _ e2, fld_eq m _ _ e3, fld_eq q _ _ e4]

theorem RoundTrip.frnd (c d a r m q) : RoundTrip.Statement (.frnd c d a r m q) := by
  intro hw W he
  obtain ⟨hn, hk, e0, e1, e2, e3, e4, e5⟩ := lay_31w1_18w6_12w6_6w2_4w2_0w4 0x4c _ _ _ _ _ _ _ W (by decide) rfl c.toNat_lt d.isLt a.isLt r.isLt m.isLt q.isLt (Option.some.inj he)
  refine decode_of_candidate hw he hn ?_
  rw [candidate, hk]
  show some _ = _
  rw [flg_eq c _ _ e0, fld_eq d _ _ e1, fld_eq a _ _ e2, fld_eq r _ _ e3, fld_eq m _ _ e4, fld_eq q _ _ e5]

theorem RoundTrip.fdiv (c d a b m q) : RoundTrip.Statement (.fdiv c d a b m q) := by
  intro hw W he
  obtain ⟨hn, hk, e0, e1, e2, e3, e4, e5⟩ := lay_31w1_18w6_12w6_6w6_4w1_0w4 0x4d _ _ _ _ _ _ _ W (by decide) rfl c.toNat_lt d.isLt a.isLt b.isLt m.isLt q.isLt (Option.some.inj he)
  refine decode_of_candidate hw he hn ?_
  rw [candidate, hk]
  show some _ = _
  rw [flg_eq c _ _ e0, fld_eq d _ _ e1, fld_eq a _ _ e2, fld_eq b _ _ e3, fld_eq m _ _ e4, fld_eq q _ _ e5]

theorem RoundTrip.fsqrt (c d a m q) : RoundTrip.Statement (.fsqrt c d a m q) := by
  intro hw W he
  obtain ⟨hn, hk, e0, e1, e2, e3, e4⟩ := lay_31w1_18w6_12w6_4w1_0w4 0x4e _ _ _ _ _ _ W (by decide) rfl c.toNat_lt d.isLt a.isLt m.isLt q.isLt (Option.some.inj he)
  refine decode_of_candidate hw he hn ?_
  rw [candidate, hk]
  show some _ = _
  rw [flg_eq c _ _ e0, fld_eq d _ _ e1, fld_eq a _ _ e2, fld_eq m _ _ e3, fld_eq q _ _ e4]

theorem RoundTrip.frcp (c d a q) : RoundTrip.Statement (.frcp c d a q) := by
  intro hw W he
  obtain ⟨hn, hk, e0, e1, e2, e3⟩ := lay_31w1_18w6_12w6_0w4 0x4f _ _ _ _ _ W (by decide) rfl c.toNat_lt d.isLt a.isLt q.isLt (Option.some.inj he)
  refine decode_of_candidate hw he hn ?_
  rw [candidate, hk]
  show some _ = _
  rw [flg_eq c _ _ e0, fld_eq d _ _ e1, fld_eq a _ _ e2, fld_eq q _ _ e3]

theorem RoundTrip.frsq (c d a q) : RoundTrip.Statement (.frsq c d a q) := by
  intro hw W he
  obtain ⟨hn, hk, e0, e1, e2, e3⟩ := lay_31w1_18w6_12w6_0w4 0x50 _ _ _ _ _ W (by decide) rfl c.toNat_lt d.isLt a.isLt q.isLt (Option.some.inj he)
  refine decode_of_candidate hw he hn ?_
  rw [candidate, hk]
  show some _ = _
  rw [flg_eq c _ _ e0, fld_eq d _ _ e1, fld_eq a _ _ e2, fld_eq q _ _ e3]

theorem RoundTrip.fexp2 (c d a q) : RoundTrip.Statement (.fexp2 c d a q) := by
  intro hw W he
  obtain ⟨hn, hk, e0, e1, e2, e3⟩ := lay_31w1_18w6_12w6_0w4 0x51 _ _ _ _ _ W (by decide) rfl c.toNat_lt d.isLt a.isLt q.isLt (Option.some.inj he)
  refine decode_of_candidate hw he hn ?_
  rw [candidate, hk]
  show some _ = _
  rw [flg_eq c _ _ e0, fld_eq d _ _ e1, fld_eq a _ _ e2, fld_eq q _ _ e3]

theorem RoundTrip.flog2 (c d a q) : RoundTrip.Statement (.flog2 c d a q) := by
  intro hw W he
  obtain ⟨hn, hk, e0, e1, e2, e3⟩ := lay_31w1_18w6_12w6_0w4 0x52 _ _ _ _ _ W (by decide) rfl c.toNat_lt d.isLt a.isLt q.isLt (Option.some.inj he)
  refine decode_of_candidate hw he hn ?_
  rw [candidate, hk]
  show some _ = _
  rw [flg_eq c _ _ e0, fld_eq d _ _ e1, fld_eq a _ _ e2, fld_eq q _ _ e3]

theorem RoundTrip.fsin (c d a q) : RoundTrip.Statement (.fsin c d a q) := by
  intro hw W he
  obtain ⟨hn, hk, e0, e1, e2, e3⟩ := lay_31w1_18w6_12w6_0w4 0x53 _ _ _ _ _ W (by decide) rfl c.toNat_lt d.isLt a.isLt q.isLt (Option.some.inj he)
  refine decode_of_candidate hw he hn ?_
  rw [candidate, hk]
  show some _ = _
  rw [flg_eq c _ _ e0, fld_eq d _ _ e1, fld_eq a _ _ e2, fld_eq q _ _ e3]

theorem RoundTrip.fcos (c d a q) : RoundTrip.Statement (.fcos c d a q) := by
  intro hw W he
  obtain ⟨hn, hk, e0, e1, e2, e3⟩ := lay_31w1_18w6_12w6_0w4 0x54 _ _ _ _ _ W (by decide) rfl c.toNat_lt d.isLt a.isLt q.isLt (Option.some.inj he)
  refine decode_of_candidate hw he hn ?_
  rw [candidate, hk]
  show some _ = _
  rw [flg_eq c _ _ e0, fld_eq d _ _ e1, fld_eq a _ _ e2, fld_eq q _ _ e3]

theorem RoundTrip.cvt (c d a t s r q) : RoundTrip.Statement (.cvt c d a t s r q) := by
  intro hw W he
  obtain ⟨hn, hk, e0, e1, e2, e3, e4, e5, e6⟩ := lay_31w1_18w6_12w6_9w3_6w3_4w2_0w4 0x55 _ _ _ _ _ _ _ _ W (by decide) rfl c.toNat_lt d.isLt a.isLt t.isLt s.isLt r.isLt q.isLt (Option.some.inj he)
  refine decode_of_candidate hw he hn ?_
  rw [candidate, hk]
  show some _ = _
  rw [flg_eq c _ _ e0, fld_eq d _ _ e1, fld_eq a _ _ e2, fld_eq t _ _ e3, fld_eq s _ _ e4, fld_eq r _ _ e5, fld_eq q _ _ e6]

theorem RoundTrip.cvtp (c d a b m q) : RoundTrip.Statement (.cvtp c d a b m q) := by
  intro hw W he
  obtain ⟨hn, hk, e0, e1, e2, e3, e4, e5⟩ := lay_31w1_18w6_12w6_6w6_4w1_0w4_r32 0x56 _ _ _ _ _ _ _ W (by decide) rfl c.toNat_lt d.isLt a.isLt b.isLt m.isLt q.isLt (Option.some.inj he)
  refine decode_of_candidate hw he hn ?_
  rw [candidate, hk]
  show some _ = _
  rw [flg_eq c _ _ e0, fld_eq d _ _ e1, fld_eq a _ _ e2, fld_eq b _ _ e3, fld_eq m _ _ e4, fld_eq q _ _ e5]

theorem RoundTrip.qenc (c d a b q) : RoundTrip.Statement (.qenc c d a b q) := by
  intro hw W he
  obtain ⟨hn, hk, e0, e1, e2, e3, e4⟩ := lay_31w1_18w6_12w6_6w6_0w4 0x57 _ _ _ _ _ _ W (by decide) rfl c.toNat_lt d.isLt a.isLt b.isLt q.isLt (Option.some.inj he)
  refine decode_of_candidate hw he hn ?_
  rw [candidate, hk]
  show some _ = _
  rw [flg_eq c _ _ e0, fld_eq d _ _ e1, fld_eq a _ _ e2, fld_eq b _ _ e3, fld_eq q _ _ e4]

theorem RoundTrip.qdec (c d a b q) : RoundTrip.Statement (.qdec c d a b q) := by
  intro hw W he
  obtain ⟨hn, hk, e0, e1, e2, e3, e4⟩ := lay_31w1_18w6_12w6_6w6_0w4 0x58 _ _ _ _ _ _ W (by decide) rfl c.toNat_lt d.isLt a.isLt b.isLt q.isLt (Option.some.inj he)
  refine decode_of_candidate hw he hn ?_
  rw [candidate, hk]
  show some _ = _
  rw [flg_eq c _ _ e0, fld_eq d _ _ e1, fld_eq a _ _ e2, fld_eq b _ _ e3, fld_eq q _ _ e4]

theorem RoundTrip.fscale (c d a b m q) : RoundTrip.Statement (.fscale c d a b m q) := by
  intro hw W he
  obtain ⟨hn, hk, e0, e1, e2, e3, e4, e5⟩ := lay_31w1_18w6_12w6_6w6_4w2_0w4 0x59 _ _ _ _ _ _ _ W (by decide) rfl c.toNat_lt d.isLt a.isLt b.isLt m.isLt q.isLt (Option.some.inj he)
  refine decode_of_candidate hw he hn ?_
  rw [candidate, hk]
  show some _ = _
  rw [flg_eq c _ _ e0, fld_eq d _ _ e1, fld_eq a _ _ e2, fld_eq b _ _ e3, fld_eq m _ _ e4, fld_eq q _ _ e5]

theorem RoundTrip.fdot2 (c d a b e) : RoundTrip.Statement (.fdot2 c d a b e) := by
  intro hw W he
  obtain ⟨hn, hk, e0, e1, e2, e3, e4⟩ := lay_31w1_18w6_12w6_6w6_0w6 0x5a _ _ _ _ _ _ W (by decide) rfl c.toNat_lt d.isLt a.isLt b.isLt e.isLt (Option.some.inj he)
  refine decode_of_candidate hw he hn ?_
  rw [candidate, hk]
  show some _ = _
  rw [flg_eq c _ _ e0, fld_eq d _ _ e1, fld_eq a _ _ e2, fld_eq b _ _ e3, fld_eq e _ _ e4]

theorem RoundTrip.fmovi (c d i) : RoundTrip.Statement (.fmovi c d i) := by
  intro hw W he
  obtain ⟨hn, hk, e0, e1, e2⟩ := lay_31w1_18w6_0w18 0x5b _ _ _ _ W (by decide) rfl c.toNat_lt d.isLt i.isLt (Option.some.inj he)
  refine decode_of_candidate hw he hn ?_
  rw [candidate, hk]
  show some _ = _
  rw [flg_eq c _ _ e0, fld_eq d _ _ e1, fld_eq i _ _ e2]

theorem RoundTrip.fsum (c d a m q) : RoundTrip.Statement (.fsum c d a m q) := by
  intro hw W he
  obtain ⟨hn, hk, e0, e1, e2, e3, e4⟩ := lay_31w1_18w6_12w6_4w1_0w4 0x5c _ _ _ _ _ _ W (by decide) rfl c.toNat_lt d.isLt a.isLt m.isLt q.isLt (Option.some.inj he)
  refine decode_of_candidate hw he hn ?_
  rw [candidate, hk]
  show some _ = _
  rw [flg_eq c _ _ e0, fld_eq d _ _ e1, fld_eq a _ _ e2, fld_eq m _ _ e3, fld_eq q _ _ e4]

theorem RoundTrip.fscan (c d a m q) : RoundTrip.Statement (.fscan c d a m q) := by
  intro hw W he
  obtain ⟨hn, hk, e0, e1, e2, e3, e4⟩ := lay_31w1_18w6_12w6_4w1_0w4 0x5d _ _ _ _ _ _ W (by decide) rfl c.toNat_lt d.isLt a.isLt m.isLt q.isLt (Option.some.inj he)
  refine decode_of_candidate hw he hn ?_
  rw [candidate, hk]
  show some _ = _
  rw [flg_eq c _ _ e0, fld_eq d _ _ e1, fld_eq a _ _ e2, fld_eq m _ _ e3, fld_eq q _ _ e4]

theorem RoundTrip.bra (q n i) : RoundTrip.Statement (.bra q n i) := by
  intro hw W he
  obtain ⟨hn, hk, e0, e1, e2⟩ := lay_20w4_19w1_0w19 0x60 _ _ _ _ W (by decide) rfl q.isLt n.isLt i.isLt (Option.some.inj he)
  refine decode_of_candidate hw he hn ?_
  rw [candidate, hk]
  show some _ = _
  rw [fld_eq q _ _ e0, fld_eq n _ _ e1, fld_eq i _ _ e2]

theorem RoundTrip.jmp (a q) : RoundTrip.Statement (.jmp a q) := by
  intro hw W he
  obtain ⟨hn, hk, e0, e1⟩ := lay_13w5_0w4 0x61 _ _ _ W (by decide) rfl a.isLt q.isLt (Option.some.inj he)
  refine decode_of_candidate hw he hn ?_
  rw [candidate, hk]
  show some _ = _
  rw [fld_eq a _ _ e0, fld_eq q _ _ e1]

theorem RoundTrip.call (q n i) : RoundTrip.Statement (.call q n i) := by
  intro hw W he
  obtain ⟨hn, hk, e0, e1, e2⟩ := lay_20w4_19w1_0w19 0x62 _ _ _ _ W (by decide) rfl q.isLt n.isLt i.isLt (Option.some.inj he)
  refine decode_of_candidate hw he hn ?_
  rw [candidate, hk]
  show some _ = _
  rw [fld_eq q _ _ e0, fld_eq n _ _ e1, fld_eq i _ _ e2]

theorem RoundTrip.calli (a q) : RoundTrip.Statement (.calli a q) := by
  intro hw W he
  obtain ⟨hn, hk, e0, e1⟩ := lay_13w5_0w4 0x63 _ _ _ W (by decide) rfl a.isLt q.isLt (Option.some.inj he)
  refine decode_of_candidate hw he hn ?_
  rw [candidate, hk]
  show some _ = _
  rw [fld_eq a _ _ e0, fld_eq q _ _ e1]

theorem RoundTrip.ret : RoundTrip.Statement (.ret) := by
  intro hw W he
  obtain ⟨hn, hk⟩ := lay_none 0x64 _ W (by decide) rfl (Option.some.inj he)
  refine decode_of_candidate hw he hn ?_
  rw [candidate, hk]
  show some _ = _
  rfl

theorem RoundTrip.regang (m) : RoundTrip.Statement (.regang m) := by
  intro hw W he
  obtain ⟨hn, hk, e0⟩ := lay_0w8 0x65 _ _ W (by decide) rfl m.isLt (Option.some.inj he)
  refine decode_of_candidate hw he hn ?_
  rw [candidate, hk]
  show some _ = _
  rw [fld_eq m _ _ e0]

theorem RoundTrip.exit : RoundTrip.Statement (.exit) := by
  intro hw W he
  obtain ⟨hn, hk⟩ := lay_none 0x66 _ W (by decide) rfl (Option.some.inj he)
  refine decode_of_candidate hw he hn ?_
  rw [candidate, hk]
  show some _ = _
  rfl

theorem RoundTrip.yield : RoundTrip.Statement (.yield) := by
  intro hw W he
  obtain ⟨hn, hk⟩ := lay_none 0x67 _ W (by decide) rfl (Option.some.inj he)
  refine decode_of_candidate hw he hn ?_
  rw [candidate, hk]
  show some _ = _
  rfl

theorem RoundTrip.sleep (n) : RoundTrip.Statement (.sleep n) := by
  intro hw W he
  obtain ⟨hn, hk, e0⟩ := lay_0w16 0x68 _ _ W (by decide) rfl n.isLt (Option.some.inj he)
  refine decode_of_candidate hw he hn ?_
  rw [candidate, hk]
  show some _ = _
  rw [fld_eq n _ _ e0]

theorem RoundTrip.rds (c d s) : RoundTrip.Statement (.rds c d s) := by
  intro hw W he
  have hg := (Bool.and_eq_true _ _).mp (show (rdsOk s.toNat && _) = true from hw)
  have hn := Option.some.inj he
  have := c.toNat_lt; have := d.isLt; have := s.isLt
  refine decode_of_candidate hw he (by omega) ?_
  have hk : W / 2 ^ 24 % 128 = 0x69 := by omega
  have hs : W / 2 ^ 8 % 1024 = s.toNat := by omega
  rw [candidate, hk]
  show (if W / 2 ^ 8 % 1024 = 0x015 then _ else if 0x042 ≤ W / 2 ^ 8 % 1024 ∧ W / 2 ^ 8 % 1024 ≤ 0x045 then _ else _) = _
  rw [hs]
  rw [if_neg (fun h => absurd (h ▸ hg.1) (by decide)), if_neg (rds_not_recv hg.1)]
  rw [flg_eq c, fld_eq d, fld_eq s] <;> omega

theorem RoundTrip.rdsMqRecv (c d n) : RoundTrip.Statement (.rdsMqRecv c d n) := by
  intro hw W he
  have hn := Option.some.inj he
  have := c.toNat_lt; have := d.isLt; have := n.isLt
  refine decode_of_candidate hw he (by omega) ?_
  have hk : W / 2 ^ 24 % 128 = 0x69 := by omega
  have hs : W / 2 ^ 8 % 1024 = 66 + n.toNat := by omega
  rw [candidate, hk]
  show (if W / 2 ^ 8 % 1024 = 0x015 then _ else if 0x042 ≤ W / 2 ^ 8 % 1024 ∧ W / 2 ^ 8 % 1024 ≤ 0x045 then _ else _) = _
  rw [hs]
  rw [if_neg (by omega), if_pos (by omega), show 66 + n.toNat - 0x042 = n.toNat by omega, BitVec.ofNat_toNat, BitVec.setWidth_eq]
  rw [flg_eq c, fld_eq d] <;> omega

theorem RoundTrip.rdsGangFpstat (c d) : RoundTrip.Statement (.rdsGangFpstat c d) := by
  intro hw W he
  have hn := Option.some.inj he
  have := c.toNat_lt; have := d.isLt
  refine decode_of_candidate hw he (by omega) ?_
  have hk : W / 2 ^ 24 % 128 = 0x69 := by omega
  have hs : W / 2 ^ 8 % 1024 = 21 := by omega
  rw [candidate, hk]
  show (if W / 2 ^ 8 % 1024 = 0x015 then _ else _) = _
  rw [hs]
  rw [if_pos rfl]
  rw [flg_eq c, fld_eq d] <;> omega

theorem RoundTrip.wrs (c d s) : RoundTrip.Statement (.wrs c d s) := by
  intro hw W he
  have hg := (Bool.and_eq_true _ _).mp (show (wrsOk s.toNat && _) = true from hw)
  have hn := Option.some.inj he
  have := c.toNat_lt; have := d.isLt; have := s.isLt
  refine decode_of_candidate hw he (by omega) ?_
  have hk : W / 2 ^ 24 % 128 = 0x6a := by omega
  have hs : W / 2 ^ 8 % 1024 = s.toNat := by omega
  rw [candidate, hk]
  show (if W / 2 ^ 8 % 1024 = 0x000 then _ else if W / 2 ^ 8 % 1024 = 0x015 then _ else if W / 2 ^ 8 % 1024 = 0x040 then _ else if W / 2 ^ 8 % 1024 = 0x051 then _ else if W / 2 ^ 8 % 1024 = 0x114 then _ else if W / 2 ^ 8 % 1024 = 0x138 then _ else if 0x150 ≤ W / 2 ^ 8 % 1024 ∧ W / 2 ^ 8 % 1024 ≤ 0x157 then _ else _) = _
  rw [hs]
  rw [if_neg (fun h => absurd (h ▸ hg.1) (by decide)), if_neg (fun h => absurd (h ▸ hg.1) (by decide)), if_neg (fun h => absurd (h ▸ hg.1) (by decide)), if_neg (fun h => absurd (h ▸ hg.1) (by decide)), if_neg (fun h => absurd (h ▸ hg.1) (by decide)), if_neg (fun h => absurd (h ▸ hg.1) (by decide)), if_neg (wrs_not_perf hg.1)]
  rw [flg_eq c, fld_eq d, fld_eq s] <;> omega

theorem RoundTrip.wrsMqSend (c d) : RoundTrip.Statement (.wrsMqSend c d) := by
  intro hw W he
  have hn := Option.some.inj he
  have := c.toNat_lt; have := d.isLt
  refine decode_of_candidate hw he (by omega) ?_
  have hk : W / 2 ^ 24 % 128 = 0x6a := by omega
  have hs : W / 2 ^ 8 % 1024 = 64 := by omega
  rw [candidate, hk]
  show (if W / 2 ^ 8 % 1024 = 0x000 then _ else if W / 2 ^ 8 % 1024 = 0x015 then _ else if W / 2 ^ 8 % 1024 = 0x040 then _ else _) = _
  rw [hs]
  rw [if_neg (by decide), if_neg (by decide), if_pos rfl]
  rw [flg_eq c, fld_eq d] <;> omega

theorem RoundTrip.wrsGangFpstat (c d) : RoundTrip.Statement (.wrsGangFpstat c d) := by
  intro hw W he
  have hn := Option.some.inj he
  have := c.toNat_lt; have := d.isLt
  refine decode_of_candidate hw he (by omega) ?_
  have hk : W / 2 ^ 24 % 128 = 0x6a := by omega
  have hs : W / 2 ^ 8 % 1024 = 21 := by omega
  rw [candidate, hk]
  show (if W / 2 ^ 8 % 1024 = 0x000 then _ else if W / 2 ^ 8 % 1024 = 0x015 then _ else _) = _
  rw [hs]
  rw [if_neg (by decide), if_pos rfl]
  rw [flg_eq c, fld_eq d] <;> omega

theorem RoundTrip.wrsSliceStatus (c d) : RoundTrip.Statement (.wrsSliceStatus c d) := by
  intro hw W he
  have hn := Option.some.inj he
  have := c.toNat_lt; have := d.isLt
  refine decode_of_candidate hw he (by omega) ?_
  have hk : W / 2 ^ 24 % 128 = 0x6a := by omega
  have hs : W / 2 ^ 8 % 1024 = 0 := by omega
  rw [candidate, hk]
  show (if W / 2 ^ 8 % 1024 = 0x000 then _ else _) = _
  rw [hs]
  rw [if_pos rfl]
  rw [flg_eq c, fld_eq d] <;> omega

theorem RoundTrip.wrsMxUe (c d) : RoundTrip.Statement (.wrsMxUe c d) := by
  intro hw W he
  have hn := Option.some.inj he
  have := c.toNat_lt; have := d.isLt
  refine decode_of_candidate hw he (by omega) ?_
  have hk : W / 2 ^ 24 % 128 = 0x6a := by omega
  have hs : W / 2 ^ 8 % 1024 = 81 := by omega
  rw [candidate, hk]
  show (if W / 2 ^ 8 % 1024 = 0x000 then _ else if W / 2 ^ 8 % 1024 = 0x015 then _ else if W / 2 ^ 8 % 1024 = 0x040 then _ else if W / 2 ^ 8 % 1024 = 0x051 then _ else _) = _
  rw [hs]
  rw [if_neg (by decide), if_neg (by decide), if_neg (by decide), if_pos rfl]
  rw [flg_eq c, fld_eq d] <;> omega

theorem RoundTrip.wrsPerfSel (c d n) : RoundTrip.Statement (.wrsPerfSel c d n) := by
  intro hw W he
  have hn := Option.some.inj he
  have := c.toNat_lt; have := d.isLt; have := n.isLt
  refine decode_of_candidate hw he (by omega) ?_
  have hk : W / 2 ^ 24 % 128 = 0x6a := by omega
  have hs : W / 2 ^ 8 % 1024 = 336 + n.toNat := by omega
  rw [candidate, hk]
  show (if W / 2 ^ 8 % 1024 = 0x000 then _ else if W / 2 ^ 8 % 1024 = 0x015 then _ else if W / 2 ^ 8 % 1024 = 0x040 then _ else if W / 2 ^ 8 % 1024 = 0x051 then _ else if W / 2 ^ 8 % 1024 = 0x114 then _ else if W / 2 ^ 8 % 1024 = 0x138 then _ else if 0x150 ≤ W / 2 ^ 8 % 1024 ∧ W / 2 ^ 8 % 1024 ≤ 0x157 then _ else _) = _
  rw [hs]
  rw [if_neg (by omega), if_neg (by omega), if_neg (by omega), if_neg (by omega), if_neg (by omega), if_neg (by omega), if_pos (by omega)]
  rw [flg_eq c, fld_eq d, fld_eq n] <;> omega

theorem RoundTrip.wrsTrapQ (c d) : RoundTrip.Statement (.wrsTrapQ c d) := by
  intro hw W he
  have hn := Option.some.inj he
  have := c.toNat_lt; have := d.isLt
  refine decode_of_candidate hw he (by omega) ?_
  have hk : W / 2 ^ 24 % 128 = 0x6a := by omega
  have hs : W / 2 ^ 8 % 1024 = 276 := by omega
  rw [candidate, hk]
  show (if W / 2 ^ 8 % 1024 = 0x000 then _ else if W / 2 ^ 8 % 1024 = 0x015 then _ else if W / 2 ^ 8 % 1024 = 0x040 then _ else if W / 2 ^ 8 % 1024 = 0x051 then _ else if W / 2 ^ 8 % 1024 = 0x114 then _ else _) = _
  rw [hs]
  rw [if_neg (by decide), if_neg (by decide), if_neg (by decide), if_neg (by decide), if_pos rfl]
  rw [flg_eq c, fld_eq d] <;> omega

theorem RoundTrip.wrsDbgCtl (c d) : RoundTrip.Statement (.wrsDbgCtl c d) := by
  intro hw W he
  have hn := Option.some.inj he
  have := c.toNat_lt; have := d.isLt
  refine decode_of_candidate hw he (by omega) ?_
  have hk : W / 2 ^ 24 % 128 = 0x6a := by omega
  have hs : W / 2 ^ 8 % 1024 = 312 := by omega
  rw [candidate, hk]
  show (if W / 2 ^ 8 % 1024 = 0x000 then _ else if W / 2 ^ 8 % 1024 = 0x015 then _ else if W / 2 ^ 8 % 1024 = 0x040 then _ else if W / 2 ^ 8 % 1024 = 0x051 then _ else if W / 2 ^ 8 % 1024 = 0x114 then _ else if W / 2 ^ 8 % 1024 = 0x138 then _ else _) = _
  rw [hs]
  rw [if_neg (by decide), if_neg (by decide), if_neg (by decide), if_neg (by decide), if_neg (by decide), if_pos rfl]
  rw [flg_eq c, fld_eq d] <;> omega

theorem RoundTrip.injectZFlipMma (x0 x1) : RoundTrip.Statement (.injectZFlipMma x0 x1) :=
  fun _ _ he => nomatch he

theorem RoundTrip.injectZFlipZst (x0 x1) : RoundTrip.Statement (.injectZFlipZst x0 x1) :=
  fun _ _ he => nomatch he

theorem RoundTrip.injectZUe (x0 x1) : RoundTrip.Statement (.injectZUe x0 x1) :=
  fun _ _ he => nomatch he

theorem RoundTrip.injectSlotUe (x0 x1) : RoundTrip.Statement (.injectSlotUe x0 x1) :=
  fun _ _ he => nomatch he

theorem RoundTrip.injectFatal (x0 x1) : RoundTrip.Statement (.injectFatal x0 x1) :=
  fun _ _ he => nomatch he

theorem RoundTrip.trap (k) : RoundTrip.Statement (.trap k) := by
  intro hw W he
  obtain ⟨hn, hk, e0⟩ := lay_0w8 0x6b _ _ W (by decide) rfl k.isLt (Option.some.inj he)
  refine decode_of_candidate hw he hn ?_
  rw [candidate, hk]
  show some _ = _
  rw [fld_eq k _ _ e0]

theorem RoundTrip.rte : RoundTrip.Statement (.rte) := by
  intro hw W he
  obtain ⟨hn, hk⟩ := lay_none 0x6c _ W (by decide) rfl (Option.some.inj he)
  refine decode_of_candidate hw he hn ?_
  rw [candidate, hk]
  show some _ = _
  rfl

theorem RoundTrip.brk (k) : RoundTrip.Statement (.brk k) := by
  intro hw W he
  obtain ⟨hn, hk, e0⟩ := lay_0w8 0x6d _ _ W (by decide) rfl k.isLt (Option.some.inj he)
  refine decode_of_candidate hw he hn ?_
  rw [candidate, hk]
  show some _ = _
  rw [fld_eq k _ _ e0]

theorem RoundTrip.mkpush (c q) : RoundTrip.Statement (.mkpush c q) := by
  intro hw W he
  obtain ⟨hn, hk, e0, e1⟩ := lay_31w1_0w4 0x6e _ _ _ W (by decide) rfl c.toNat_lt q.isLt (Option.some.inj he)
  refine decode_of_candidate hw he hn ?_
  rw [candidate, hk]
  show some _ = _
  rw [flg_eq c _ _ e0, fld_eq q _ _ e1]

theorem RoundTrip.mkctl (c o) : RoundTrip.Statement (.mkctl c o) := by
  intro hw W he
  obtain ⟨hn, hk, e0, e1⟩ := lay_31w1_0w1 0x6f _ _ _ W (by decide) rfl c.toNat_lt o.isLt (Option.some.inj he)
  refine decode_of_candidate hw he hn ?_
  rw [candidate, hk]
  show some _ = _
  rw [flg_eq c _ _ e0, fld_eq o _ _ e1]

theorem RoundTrip.ld (c d a f l s z) : RoundTrip.Statement (.ld c d a f l s z) := by
  intro hw W he
  obtain ⟨hn, hk, e0, e1, e2, e3, e4, e5, e6⟩ := lay_31w1_18w6_12w6_8w4_4w4_2w2_0w2 0x70 _ _ _ _ _ _ _ _ W (by decide) rfl c.toNat_lt d.isLt a.isLt f.isLt l.isLt s.isLt z.isLt (Option.some.inj he)
  refine decode_of_candidate hw he hn ?_
  rw [candidate, hk]
  show some _ = _
  rw [flg_eq c _ _ e0, fld_eq d _ _ e1, fld_eq a _ _ e2, fld_eq f _ _ e3, fld_eq l _ _ e4, fld_eq s _ _ e5, fld_eq z _ _ e6]

theorem RoundTrip.ldw (c d a f l s z) : RoundTrip.Statement (.ldw c d a f l s z) := by
  intro hw W he
  obtain ⟨hn, hk, e0, e1, e2, e3, e4, e5, e6⟩ := lay_31w1_18w6_12w6_8w4_4w4_3w1_0w2_r4 0x71 _ _ _ _ _ _ _ _ W (by decide) rfl c.toNat_lt d.isLt a.isLt f.isLt l.isLt s.isLt z.isLt (Option.some.inj he)
  refine decode_of_candidate hw he hn ?_
  rw [candidate, hk]
  show some _ = _
  rw [flg_eq c _ _ e0, fld_eq d _ _ e1, fld_eq a _ _ e2, fld_eq f _ _ e3, fld_eq l _ _ e4, fld_eq s _ _ e5, fld_eq z _ _ e6]

theorem RoundTrip.ldt (c d a f l s z) : RoundTrip.Statement (.ldt c d a f l s z) := by
  intro hw W he
  obtain ⟨hn, hk, e0, e1, e2, e3, e4, e5, e6⟩ := lay_31w1_18w6_12w6_8w4_4w4_3w1_0w2_r4 0x72 _ _ _ _ _ _ _ _ W (by decide) rfl c.toNat_lt d.isLt a.isLt f.isLt l.isLt s.isLt z.isLt (Option.some.inj he)
  refine decode_of_candidate hw he hn ?_
  rw [candidate, hk]
  show some _ = _
  rw [flg_eq c _ _ e0, fld_eq d _ _ e1, fld_eq a _ _ e2, fld_eq f _ _ e3, fld_eq l _ _ e4, fld_eq s _ _ e5, fld_eq z _ _ e6]

theorem RoundTrip.lda (c d a f l s z) : RoundTrip.Statement (.lda c d a f l s z) := by
  intro hw W he
  obtain ⟨hn, hk, e0, e1, e2, e3, e4, e5, e6⟩ := lay_31w1_18w6_12w6_8w4_4w4_2w2_0w2 0x73 _ _ _ _ _ _ _ _ W (by decide) rfl c.toNat_lt d.isLt a.isLt f.isLt l.isLt s.isLt z.isLt (Option.some.inj he)
  refine decode_of_candidate hw he hn ?_
  rw [candidate, hk]
  show some _ = _
  rw [flg_eq c _ _ e0, fld_eq d _ _ e1, fld_eq a _ _ e2, fld_eq f _ _ e3, fld_eq l _ _ e4, fld_eq s _ _ e5, fld_eq z _ _ e6]

theorem RoundTrip.ldx (c d a f l s z) : RoundTrip.Statement (.ldx c d a f l s z) := by
  intro hw W he
  obtain ⟨hn, hk, e0, e1, e2, e3, e4, e5, e6⟩ := lay_31w1_18w6_12w6_8w4_4w4_2w2_0w2 0x74 _ _ _ _ _ _ _ _ W (by decide) rfl c.toNat_lt d.isLt a.isLt f.isLt l.isLt s.isLt z.isLt (Option.some.inj he)
  refine decode_of_candidate hw he hn ?_
  rw [candidate, hk]
  show some _ = _
  rw [flg_eq c _ _ e0, fld_eq d _ _ e1, fld_eq a _ _ e2, fld_eq f _ _ e3, fld_eq l _ _ e4, fld_eq s _ _ e5, fld_eq z _ _ e6]

theorem RoundTrip.st (c d a f l s z) : RoundTrip.Statement (.st c d a f l s z) := by
  intro hw W he
  obtain ⟨hn, hk, e0, e1, e2, e3, e4, e5, e6⟩ := lay_31w1_18w6_12w6_8w4_4w4_2w2_0w2 0x75 _ _ _ _ _ _ _ _ W (by decide) rfl c.toNat_lt d.isLt a.isLt f.isLt l.isLt s.isLt z.isLt (Option.some.inj he)
  refine decode_of_candidate hw he hn ?_
  rw [candidate, hk]
  show some _ = _
  rw [flg_eq c _ _ e0, fld_eq d _ _ e1, fld_eq a _ _ e2, fld_eq f _ _ e3, fld_eq l _ _ e4, fld_eq s _ _ e5, fld_eq z _ _ e6]

theorem RoundTrip.stf (c d a f l s z) : RoundTrip.Statement (.stf c d a f l s z) := by
  intro hw W he
  obtain ⟨hn, hk, e0, e1, e2, e3, e4, e5, e6⟩ := lay_31w1_18w6_12w6_8w4_4w4_3w1_0w2_r4 0x76 _ _ _ _ _ _ _ _ W (by decide) rfl c.toNat_lt d.isLt a.isLt f.isLt l.isLt s.isLt z.isLt (Option.some.inj he)
  refine decode_of_candidate hw he hn ?_
  rw [candidate, hk]
  show some _ = _
  rw [flg_eq c _ _ e0, fld_eq d _ _ e1, fld_eq a _ _ e2, fld_eq f _ _ e3, fld_eq l _ _ e4, fld_eq s _ _ e5, fld_eq z _ _ e6]

theorem RoundTrip.strel (c d a f l s z) : RoundTrip.Statement (.strel c d a f l s z) := by
  intro hw W he
  obtain ⟨hn, hk, e0, e1, e2, e3, e4, e5, e6⟩ := lay_31w1_18w6_12w6_8w4_4w4_2w2_0w2 0x77 _ _ _ _ _ _ _ _ W (by decide) rfl c.toNat_lt d.isLt a.isLt f.isLt l.isLt s.isLt z.isLt (Option.some.inj he)
  refine decode_of_candidate hw he hn ?_
  rw [candidate, hk]
  show some _ = _
  rw [flg_eq c _ _ e0, fld_eq d _ _ e1, fld_eq a _ _ e2, fld_eq f _ _ e3, fld_eq l _ _ e4, fld_eq s _ _ e5, fld_eq z _ _ e6]

theorem RoundTrip.stx (c d a f l s z) : RoundTrip.Statement (.stx c d a f l s z) := by
  intro hw W he
  obtain ⟨hn, hk, e0, e1, e2, e3, e4, e5, e6⟩ := lay_31w1_18w6_12w6_8w4_4w4_2w2_0w1 0x78 _ _ _ _ _ _ _ _ W (by decide) rfl c.toNat_lt d.isLt a.isLt f.isLt l.isLt s.isLt z.isLt (Option.some.inj he)
  refine decode_of_candidate hw he hn ?_
  rw [candidate, hk]
  show some _ = _
  rw [flg_eq c _ _ e0, fld_eq d _ _ e1, fld_eq a _ _ e2, fld_eq f _ _ e3, fld_eq l _ _ e4, fld_eq s _ _ e5, fld_eq z _ _ e6]

theorem RoundTrip.gst (c d a f l z) : RoundTrip.Statement (.gst c d a f l z) := by
  intro hw W he
  obtain ⟨hn, hk, e0, e1, e2, e3, e4, e5⟩ := lay_31w1_18w6_13w5_8w4_4w4_0w2 0x79 _ _ _ _ _ _ _ W (by decide) rfl c.toNat_lt d.isLt a.isLt f.isLt l.isLt z.isLt (Option.some.inj he)
  refine decode_of_candidate hw he hn ?_
  rw [candidate, hk]
  show some _ = _
  rw [flg_eq c _ _ e0, fld_eq d _ _ e1, fld_eq a _ _ e2, fld_eq f _ _ e3, fld_eq l _ _ e4, fld_eq z _ _ e5]

theorem RoundTrip.atom (c d a t o p f) : RoundTrip.Statement (.atom c d a t o p f) := by
  intro hw W he
  obtain ⟨hn, hk, e0, e1, e2, e3, e4, e5, e6⟩ := lay_31w1_18w6_12w6_9w3_5w4_4w1_0w4 0x7a _ _ _ _ _ _ _ _ W (by decide) rfl c.toNat_lt d.isLt a.isLt t.isLt o.isLt p.isLt f.isLt (Option.some.inj he)
  refine decode_of_candidate hw he hn ?_
  rw [candidate, hk]
  show some _ = _
  rw [flg_eq c _ _ e0, fld_eq d _ _ e1, fld_eq a _ _ e2, fld_eq t _ _ e3, fld_eq o _ _ e4, fld_eq p _ _ e5, fld_eq f _ _ e6]

theorem RoundTrip.fence (c r k s) : RoundTrip.Statement (.fence c r k s) := by
  intro hw W he
  obtain ⟨hn, hk, e0, e1, e2, e3⟩ := lay_31w1_5w1_3w2_0w3 0x7b _ _ _ _ _ W (by decide) rfl c.toNat_lt r.isLt k.isLt s.isLt (Option.some.inj he)
  refine decode_of_candidate hw he hn ?_
  rw [candidate, hk]
  show some _ = _
  rw [flg_eq c _ _ e0, fld_eq r _ _ e1, fld_eq k _ _ e2, fld_eq s _ _ e3]

theorem RoundTrip.claim (c n t) : RoundTrip.Statement (.claim c n t) := by
  intro hw W he
  obtain ⟨hn, hk, hm, e0, e1, e2⟩ := lay_31w1_18w5_12w4_m 0x7c 0 _ _ _ _ W (by decide) (by decide) rfl c.toNat_lt n.isLt t.isLt (Option.some.inj he)
  refine decode_of_candidate hw he hn ?_
  rw [candidate, hk]
  show mxWord (W % 64) W = _
  rw [hm]
  show some _ = _
  rw [flg_eq c _ _ e0, fld_eq n _ _ e1, fld_eq t _ _ e2]

theorem RoundTrip.free (c n) : RoundTrip.Statement (.free c n) := by
  intro hw W he
  obtain ⟨hn, hk, hm, e0, e1⟩ := lay_31w1_18w5_m 0x7c 1 _ _ _ W (by decide) (by decide) rfl c.toNat_lt n.isLt (Option.some.inj he)
  refine decode_of_candidate hw he hn ?_
  rw [candidate, hk]
  show mxWord (W % 64) W = _
  rw [hm]
  show some _ = _
  rw [flg_eq c _ _ e0, fld_eq n _ _ e1]

theorem RoundTrip.tld (c n y z) : RoundTrip.Statement (.tld c n y z) := by
  intro hw W he
  obtain ⟨hn, hk, hm, e0, e1, e2, e3⟩ := lay_31w1_18w5_12w6_6w6_m 0x7c 2 _ _ _ _ _ W (by decide) (by decide) rfl c.toNat_lt n.isLt y.isLt z.isLt (Option.some.inj he)
  refine decode_of_candidate hw he hn ?_
  rw [candidate, hk]
  show mxWord (W % 64) W = _
  rw [hm]
  show some _ = _
  rw [flg_eq c _ _ e0, fld_eq n _ _ e1, fld_eq y _ _ e2, fld_eq z _ _ e3]

theorem RoundTrip.tldt (c n y z) : RoundTrip.Statement (.tldt c n y z) := by
  intro hw W he
  obtain ⟨hn, hk, hm, e0, e1, e2, e3⟩ := lay_31w1_18w5_12w6_6w6_m 0x7c 3 _ _ _ _ _ W (by decide) (by decide) rfl c.toNat_lt n.isLt y.isLt z.isLt (Option.some.inj he)
  refine decode_of_candidate hw he hn ?_
  rw [candidate, hk]
  show mxWord (W % 64) W = _
  rw [hm]
  show some _ = _
  rw [flg_eq c _ _ e0, fld_eq n _ _ e1, fld_eq y _ _ e2, fld_eq z _ _ e3]

theorem RoundTrip.tldm (c n y) : RoundTrip.Statement (.tldm c n y) := by
  intro hw W he
  obtain ⟨hn, hk, hm, e0, e1, e2⟩ := lay_31w1_18w5_12w6_m 0x7c 4 _ _ _ _ W (by decide) (by decide) rfl c.toNat_lt n.isLt y.isLt (Option.some.inj he)
  refine decode_of_candidate hw he hn ?_
  rw [candidate, hk]
  show mxWord (W % 64) W = _
  rw [hm]
  show some _ = _
  rw [flg_eq c _ _ e0, fld_eq n _ _ e1, fld_eq y _ _ e2]

theorem RoundTrip.zclr (c n) : RoundTrip.Statement (.zclr c n) := by
  intro hw W he
  obtain ⟨hn, hk, hm, e0, e1⟩ := lay_31w1_18w4_m 0x7c 5 _ _ _ W (by decide) (by decide) rfl c.toNat_lt n.isLt (Option.some.inj he)
  refine decode_of_candidate hw he hn ?_
  rw [candidate, hk]
  show mxWord (W % 64) W = _
  rw [hm]
  show some _ = _
  rw [flg_eq c _ _ e0, fld_eq n _ _ e1]

theorem RoundTrip.zld (c n y z) : RoundTrip.Statement (.zld c n y z) := by
  intro hw W he
  obtain ⟨hn, hk, hm, e0, e1, e2, e3⟩ := lay_31w1_18w4_12w6_6w6_m 0x7c 6 _ _ _ _ _ W (by decide) (by decide) rfl c.toNat_lt n.isLt y.isLt z.isLt (Option.some.inj he)
  refine decode_of_candidate hw he hn ?_
  rw [candidate, hk]
  show mxWord (W % 64) W = _
  rw [hm]
  show some _ = _
  rw [flg_eq c _ _ e0, fld_eq n _ _ e1, fld_eq y _ _ e2, fld_eq z _ _ e3]

theorem RoundTrip.zst (c m n y z) : RoundTrip.Statement (.zst c m n y z) := by
  intro hw W he
  obtain ⟨hn, hk, hm, e0, e1, e2, e3, e4⟩ := lay_31w1_22w2_18w4_12w6_6w6_m 0x7c 7 _ _ _ _ _ _ W (by decide) (by decide) rfl c.toNat_lt m.isLt n.isLt y.isLt z.isLt (Option.some.inj he)
  refine decode_of_candidate hw he hn ?_
  rw [candidate, hk]
  show mxWord (W % 64) W = _
  rw [hm]
  show some _ = _
  rw [flg_eq c _ _ e0, fld_eq m _ _ e1, fld_eq n _ _ e2, fld_eq y _ _ e3, fld_eq z _ _ e4]

theorem RoundTrip.mmabf (c n a b) : RoundTrip.Statement (.mmabf c n a b) := by
  intro hw W he
  obtain ⟨hn, hk, hm, e0, e1, e2, e3⟩ := lay_31w1_18w4_12w5_6w5_m 0x7c 8 _ _ _ _ _ W (by decide) (by decide) rfl c.toNat_lt n.isLt a.isLt b.isLt (Option.some.inj he)
  refine decode_of_candidate hw he hn ?_
  rw [candidate, hk]
  show mxWord (W % 64) W = _
  rw [hm]
  show some _ = _
  rw [flg_eq c _ _ e0, fld_eq n _ _ e1, fld_eq a _ _ e2, fld_eq b _ _ e3]

theorem RoundTrip.mmah (c n a b) : RoundTrip.Statement (.mmah c n a b) := by
  intro hw W he
  obtain ⟨hn, hk, hm, e0, e1, e2, e3⟩ := lay_31w1_18w4_12w5_6w5_m 0x7c 9 _ _ _ _ _ W (by decide) (by decide) rfl c.toNat_lt n.isLt a.isLt b.isLt (Option.some.inj he)
  refine decode_of_candidate hw he hn ?_
  rw [candidate, hk]
  show mxWord (W % 64) W = _
  rw [hm]
  show some _ = _
  rw [flg_eq c _ _ e0, fld_eq n _ _ e1, fld_eq a _ _ e2, fld_eq b _ _ e3]

theorem RoundTrip.mmai8 (c n a b) : RoundTrip.Statement (.mmai8 c n a b) := by
  intro hw W he
  obtain ⟨hn, hk, hm, e0, e1, e2, e3⟩ := lay_31w1_18w4_12w5_6w5_m 0x7c 10 _ _ _ _ _ W (by decide) (by decide) rfl c.toNat_lt n.isLt a.isLt b.isLt (Option.some.inj he)
  refine decode_of_candidate hw he hn ?_
  rw [candidate, hk]
  show mxWord (W % 64) W = _
  rw [hm]
  show some _ = _
  rw [flg_eq c _ _ e0, fld_eq n _ _ e1, fld_eq a _ _ e2, fld_eq b _ _ e3]

theorem RoundTrip.mmai16 (c n a b) : RoundTrip.Statement (.mmai16 c n a b) := by
  intro hw W he
  obtain ⟨hn, hk, hm, e0, e1, e2, e3⟩ := lay_31w1_19w3_12w5_6w5_m 0x7c 11 _ _ _ _ _ W (by decide) (by decide) rfl c.toNat_lt n.isLt a.isLt b.isLt (Option.some.inj he)
  refine decode_of_candidate hw he hn ?_
  rw [candidate, hk]
  show mxWord (W % 64) W = _
  rw [hm]
  show some _ = _
  rw [flg_eq c _ _ e0, fld_eq n _ _ e1, fld_eq a _ _ e2, fld_eq b _ _ e3]

theorem RoundTrip.mmaf64 (c n a b) : RoundTrip.Statement (.mmaf64 c n a b) := by
  intro hw W he
  obtain ⟨hn, hk, hm, e0, e1, e2, e3⟩ := lay_31w1_18w4_12w5_6w5_m 0x7c 12 _ _ _ _ _ W (by decide) (by decide) rfl c.toNat_lt n.isLt a.isLt b.isLt (Option.some.inj he)
  refine decode_of_candidate hw he hn ?_
  rw [candidate, hk]
  show mxWord (W % 64) W = _
  rw [hm]
  show some _ = _
  rw [flg_eq c _ _ e0, fld_eq n _ _ e1, fld_eq a _ _ e2, fld_eq b _ _ e3]

theorem RoundTrip.mmaq4 (c n a b) : RoundTrip.Statement (.mmaq4 c n a b) := by
  intro hw W he
  obtain ⟨hn, hk, hm, e0, e1, e2, e3⟩ := lay_31w1_19w3_12w5_6w5_m 0x7c 13 _ _ _ _ _ W (by decide) (by decide) rfl c.toNat_lt n.isLt a.isLt b.isLt (Option.some.inj he)
  refine decode_of_candidate hw he hn ?_
  rw [candidate, hk]
  show mxWord (W % 64) W = _
  rw [hm]
  show some _ = _
  rw [flg_eq c _ _ e0, fld_eq n _ _ e1, fld_eq a _ _ e2, fld_eq b _ _ e3]

theorem RoundTrip.mmasbf (c n a b) : RoundTrip.Statement (.mmasbf c n a b) := by
  intro hw W he
  obtain ⟨hn, hk, hm, e0, e1, e2, e3⟩ := lay_31w1_18w4_12w5_6w5_m 0x7c 14 _ _ _ _ _ W (by decide) (by decide) rfl c.toNat_lt n.isLt a.isLt b.isLt (Option.some.inj he)
  refine decode_of_candidate hw he hn ?_
  rw [candidate, hk]
  show mxWord (W % 64) W = _
  rw [hm]
  show some _ = _
  rw [flg_eq c _ _ e0, fld_eq n _ _ e1, fld_eq a _ _ e2, fld_eq b _ _ e3]

theorem RoundTrip.mmasi8 (c h n a b) : RoundTrip.Statement (.mmasi8 c h n a b) := by
  intro hw W he
  obtain ⟨hn, hk, hm, e0, e1, e2, e3, e4⟩ := lay_31w1_22w1_18w4_12w5_6w5_m 0x7c 15 _ _ _ _ _ _ W (by decide) (by decide) rfl c.toNat_lt h.isLt n.isLt a.isLt b.isLt (Option.some.inj he)
  refine decode_of_candidate hw he hn ?_
  rw [candidate, hk]
  show mxWord (W % 64) W = _
  rw [hm]
  show some _ = _
  rw [flg_eq c _ _ e0, fld_eq h _ _ e1, fld_eq n _ _ e2, fld_eq a _ _ e3, fld_eq b _ _ e4]

theorem RoundTrip.mgemm (c y) : RoundTrip.Statement (.mgemm c y) := by
  intro hw W he
  obtain ⟨hn, hk, hm, e0, e1⟩ := lay_31w1_12w6_m 0x7c 16 _ _ _ W (by decide) (by decide) rfl c.toNat_lt y.isLt (Option.some.inj he)
  refine decode_of_candidate hw he hn ?_
  rw [candidate, hk]
  show mxWord (W % 64) W = _
  rw [hm]
  show some _ = _
  rw [flg_eq c _ _ e0, fld_eq y _ _ e1]

theorem RoundTrip.tst (c n y z) : RoundTrip.Statement (.tst c n y z) := by
  intro hw W he
  obtain ⟨hn, hk, hm, e0, e1, e2, e3⟩ := lay_31w1_18w5_12w6_6w6_m 0x7c 17 _ _ _ _ _ W (by decide) (by decide) rfl c.toNat_lt n.isLt y.isLt z.isLt (Option.some.inj he)
  refine decode_of_candidate hw he hn ?_
  rw [candidate, hk]
  show mxWord (W % 64) W = _
  rw [hm]
  show some _ = _
  rw [flg_eq c _ _ e0, fld_eq n _ _ e1, fld_eq y _ _ e2, fld_eq z _ _ e3]

theorem RoundTrip.cpart (c y) : RoundTrip.Statement (.cpart c y) := by
  intro hw W he
  obtain ⟨hn, hk, hm, e0, e1⟩ := lay_31w1_12w6_m 0x7d 0 _ _ _ W (by decide) (by decide) rfl c.toNat_lt y.isLt (Option.some.inj he)
  refine decode_of_candidate hw he hn ?_
  rw [candidate, hk]
  show copyWord (W % 64) W = _
  rw [hm]
  show some _ = _
  rw [flg_eq c _ _ e0, fld_eq y _ _ e1]

theorem RoundTrip.cpmx (c y) : RoundTrip.Statement (.cpmx c y) := by
  intro hw W he
  obtain ⟨hn, hk, hm, e0, e1⟩ := lay_31w1_12w6_m 0x7d 1 _ _ _ W (by decide) (by decide) rfl c.toNat_lt y.isLt (Option.some.inj he)
  refine decode_of_candidate hw he hn ?_
  rw [candidate, hk]
  show copyWord (W % 64) W = _
  rw [hm]
  show some _ = _
  rw [flg_eq c _ _ e0, fld_eq y _ _ e1]

theorem RoundTrip.gather (c y) : RoundTrip.Statement (.gather c y) := by
  intro hw W he
  obtain ⟨hn, hk, hm, e0, e1⟩ := lay_31w1_12w6_m 0x7d 2 _ _ _ W (by decide) (by decide) rfl c.toNat_lt y.isLt (Option.some.inj he)
  refine decode_of_candidate hw he hn ?_
  rw [candidate, hk]
  show copyWord (W % 64) W = _
  rw [hm]
  show some _ = _
  rw [flg_eq c _ _ e0, fld_eq y _ _ e1]

theorem RoundTrip.scatter (c y) : RoundTrip.Statement (.scatter c y) := by
  intro hw W he
  obtain ⟨hn, hk, hm, e0, e1⟩ := lay_31w1_12w6_m 0x7d 3 _ _ _ W (by decide) (by decide) rfl c.toNat_lt y.isLt (Option.some.inj he)
  refine decode_of_candidate hw he hn ?_
  rw [candidate, hk]
  show copyWord (W % 64) W = _
  rw [hm]
  show some _ = _
  rw [flg_eq c _ _ e0, fld_eq y _ _ e1]

theorem RoundTrip.cred (c y) : RoundTrip.Statement (.cred c y) := by
  intro hw W he
  obtain ⟨hn, hk, hm, e0, e1⟩ := lay_31w1_12w6_m 0x7d 4 _ _ _ W (by decide) (by decide) rfl c.toNat_lt y.isLt (Option.some.inj he)
  refine decode_of_candidate hw he hn ?_
  rw [candidate, hk]
  show copyWord (W % 64) W = _
  rw [hm]
  show some _ = _
  rw [flg_eq c _ _ e0, fld_eq y _ _ e1]

theorem RoundTrip.chtest (c p y z) : RoundTrip.Statement (.chtest c p y z) := by
  intro hw W he
  obtain ⟨hn, hk, hm, e0, e1, e2, e3⟩ := lay_31w1_18w3_12w6_6w6_m 0x7d 5 _ _ _ _ _ W (by decide) (by decide) rfl c.toNat_lt p.isLt y.isLt z.isLt (Option.some.inj he)
  refine decode_of_candidate hw he hn ?_
  rw [candidate, hk]
  show copyWord (W % 64) W = _
  rw [hm]
  show some _ = _
  rw [flg_eq c _ _ e0, fld_eq p _ _ e1, fld_eq y _ _ e2, fld_eq z _ _ e3]

theorem RoundTrip.chreset (c y) : RoundTrip.Statement (.chreset c y) := by
  intro hw W he
  obtain ⟨hn, hk, hm, e0, e1⟩ := lay_31w1_12w6_m 0x7d 6 _ _ _ W (by decide) (by decide) rfl c.toNat_lt y.isLt (Option.some.inj he)
  refine decode_of_candidate hw he hn ?_
  rw [candidate, hk]
  show copyWord (W % 64) W = _
  rw [hm]
  show some _ = _
  rw [flg_eq c _ _ e0, fld_eq y _ _ e1]

theorem RoundTrip.feset (c x y s v) : RoundTrip.Statement (.feset c x y s v) := by
  intro hw W he
  obtain ⟨hn, hk, hm, e0, e1, e2, e3, e4⟩ := lay_31w1_18w6_12w6_7w1_6w1_m 0x7d 7 _ _ _ _ _ _ W (by decide) (by decide) rfl c.toNat_lt x.isLt y.isLt s.isLt v.isLt (Option.some.inj he)
  refine decode_of_candidate hw he hn ?_
  rw [candidate, hk]
  show copyWord (W % 64) W = _
  rw [hm]
  show some _ = _
  rw [flg_eq c _ _ e0, fld_eq x _ _ e1, fld_eq y _ _ e2, fld_eq s _ _ e3, fld_eq v _ _ e4]

theorem RoundTrip.bind (c k n y z) : RoundTrip.Statement (.bind c k n y z) := by
  intro hw W he
  obtain ⟨hn, hk, hm, e0, e1, e2, e3, e4⟩ := lay_31w1_21w3_18w3_12w6_7w5_m 0x7e 0 _ _ _ _ _ _ W (by decide) (by decide) rfl c.toNat_lt k.isLt n.isLt y.isLt z.isLt (Option.some.inj he)
  refine decode_of_candidate hw he hn ?_
  rw [candidate, hk]
  show queueWord (W % 64) W = _
  rw [hm]
  show some _ = _
  rw [flg_eq c _ _ e0, fld_eq k _ _ e1, fld_eq n _ _ e2, fld_eq y _ _ e3, fld_eq z _ _ e4]

theorem RoundTrip.unbind (c n) : RoundTrip.Statement (.unbind c n) := by
  intro hw W he
  obtain ⟨hn, hk, hm, e0, e1⟩ := lay_31w1_18w3_m 0x7e 1 _ _ _ W (by decide) (by decide) rfl c.toNat_lt n.isLt (Option.some.inj he)
  refine decode_of_candidate hw he hn ?_
  rw [candidate, hk]
  show queueWord (W % 64) W = _
  rw [hm]
  show some _ = _
  rw [flg_eq c _ _ e0, fld_eq n _ _ e1]

theorem RoundTrip.ginfo (c x s i) : RoundTrip.Statement (.ginfo c x s i) := by
  intro hw W he
  obtain ⟨hn, hk, hm, e0, e1, e2, e3⟩ := lay_31w1_18w6_12w2_6w3_m 0x7e 2 _ _ _ _ _ W (by decide) (by decide) rfl c.toNat_lt x.isLt s.isLt i.isLt (Option.some.inj he)
  refine decode_of_candidate hw he hn ?_
  rw [candidate, hk]
  show queueWord (W % 64) W = _
  rw [hm]
  show some _ = _
  rw [flg_eq c _ _ e0, fld_eq x _ _ e1, fld_eq s _ _ e2, fld_eq i _ _ e3]

theorem RoundTrip.launch (c n y) : RoundTrip.Statement (.launch c n y) := by
  intro hw W he
  obtain ⟨hn, hk, hm, e0, e1, e2⟩ := lay_31w1_18w6_12w6_m 0x7e 3 _ _ _ _ W (by decide) (by decide) rfl c.toNat_lt n.isLt y.isLt (Option.some.inj he)
  refine decode_of_candidate hw he hn ?_
  rw [candidate, hk]
  show queueWord (W % 64) W = _
  rw [hm]
  show some _ = _
  rw [flg_eq c _ _ e0, fld_eq n _ _ e1, fld_eq y _ _ e2]

theorem RoundTrip.chopen (c n m) : RoundTrip.Statement (.chopen c n m) := by
  intro hw W he
  obtain ⟨hn, hk, hm, e0, e1, e2⟩ := lay_31w1_18w4_12w6_m 0x7e 4 _ _ _ _ W (by decide) (by decide) rfl c.toNat_lt n.isLt m.isLt (Option.some.inj he)
  refine decode_of_candidate hw he hn ?_
  rw [candidate, hk]
  show queueWord (W % 64) W = _
  rw [hm]
  show some _ = _
  rw [flg_eq c _ _ e0, fld_eq n _ _ e1, fld_eq m _ _ e2]

theorem RoundTrip.chclose (c n) : RoundTrip.Statement (.chclose c n) := by
  intro hw W he
  obtain ⟨hn, hk, hm, e0, e1⟩ := lay_31w1_18w4_m 0x7e 5 _ _ _ W (by decide) (by decide) rfl c.toNat_lt n.isLt (Option.some.inj he)
  refine decode_of_candidate hw he hn ?_
  rw [candidate, hk]
  show queueWord (W % 64) W = _
  rw [hm]
  show some _ = _
  rw [flg_eq c _ _ e0, fld_eq n _ _ e1]

theorem RoundTrip.chsel (c n) : RoundTrip.Statement (.chsel c n) := by
  intro hw W he
  obtain ⟨hn, hk, hm, e0, e1⟩ := lay_31w1_18w4_m 0x7e 6 _ _ _ W (by decide) (by decide) rfl c.toNat_lt n.isLt (Option.some.inj he)
  refine decode_of_candidate hw he hn ?_
  rw [candidate, hk]
  show queueWord (W % 64) W = _
  rw [hm]
  show some _ = _
  rw [flg_eq c _ _ e0, fld_eq n _ _ e1]

theorem RoundTrip.wseed (c x) : RoundTrip.Statement (.wseed c x) := by
  intro hw W he
  obtain ⟨hn, hk, hm, e0, e1⟩ := lay_31w1_20w4_m 0x7f 0 _ _ _ W (by decide) (by decide) rfl c.toNat_lt x.isLt (Option.some.inj he)
  refine decode_of_candidate hw he hn ?_
  rw [candidate, hk]
  show checkWord (W % 64) W = _
  rw [hm]
  show some _ = _
  rw [flg_eq c _ _ e0, fld_eq x _ _ e1]

theorem RoundTrip.wemit (c i y z) : RoundTrip.Statement (.wemit c i y z) := by
  intro hw W he
  obtain ⟨hn, hk, hm, e0, e1, e2, e3⟩ := lay_31w1_18w4_12w6_7w5_m 0x7f 1 _ _ _ _ _ W (by decide) (by decide) rfl c.toNat_lt i.isLt y.isLt z.isLt (Option.some.inj he)
  refine decode_of_candidate hw he hn ?_
  rw [candidate, hk]
  show checkWord (W % 64) W = _
  rw [hm]
  show some _ = _
  rw [flg_eq c _ _ e0, fld_eq i _ _ e1, fld_eq y _ _ e2, fld_eq z _ _ e3]

theorem RoundTrip.wclose (c) : RoundTrip.Statement (.wclose c) := by
  intro hw W he
  obtain ⟨hn, hk, hm, e0⟩ := lay_31w1_m 0x7f 2 _ _ W (by decide) (by decide) rfl c.toNat_lt (Option.some.inj he)
  refine decode_of_candidate hw he hn ?_
  rw [candidate, hk]
  show checkWord (W % 64) W = _
  rw [hm]
  show some _ = _
  rw [flg_eq c _ _ e0]

theorem RoundTrip.sigrd (c x) : RoundTrip.Statement (.sigrd c x) := by
  intro hw W he
  obtain ⟨hn, hk, hm, e0, e1⟩ := lay_31w1_19w5_m 0x7f 3 _ _ _ W (by decide) (by decide) rfl c.toNat_lt x.isLt (Option.some.inj he)
  refine decode_of_candidate hw he hn ?_
  rw [candidate, hk]
  show checkWord (W % 64) W = _
  rw [hm]
  show some _ = _
  rw [flg_eq c _ _ e0, fld_eq x _ _ e1]

theorem RoundTrip.relreq (c x y) : RoundTrip.Statement (.relreq c x y) := by
  intro hw W he
  obtain ⟨hn, hk, hm, e0, e1, e2⟩ := lay_31w1_18w6_12w6_m 0x7f 4 _ _ _ _ W (by decide) (by decide) rfl c.toNat_lt x.isLt y.isLt (Option.some.inj he)
  refine decode_of_candidate hw he hn ?_
  rw [candidate, hk]
  show checkWord (W % 64) W = _
  rw [hm]
  show some _ = _
  rw [flg_eq c _ _ e0, fld_eq x _ _ e1, fld_eq y _ _ e2]

theorem RoundTrip.tlbinvPage (c y) : RoundTrip.Statement (.tlbinvPage c y) := by
  intro hw W he
  have hn := Option.some.inj he
  have := c.toNat_lt; have := y.isLt
  refine decode_of_candidate hw he (by omega) ?_
  have hk : W / 2 ^ 24 % 128 = 0x7f := by omega
  have hm : W % 64 = 5 := by omega
  have hs : W / 2 ^ 18 % 64 = 0 := by omega
  rw [candidate, hk]
  show checkWord (W % 64) W = _
  rw [hm]
  show (match W / 2 ^ 18 % 64 with | 0 => _ | 1 => _ | 2 => _ | 3 => _ | _ => none) = _
  rw [hs]
  show some _ = _
  rw [flg_eq c, fld_eq y] <;> omega

theorem RoundTrip.tlbinvRange (c y z) : RoundTrip.Statement (.tlbinvRange c y z) := by
  intro hw W he
  have hn := Option.some.inj he
  have := c.toNat_lt; have := y.isLt; have := z.isLt
  refine decode_of_candidate hw he (by omega) ?_
  have hk : W / 2 ^ 24 % 128 = 0x7f := by omega
  have hm : W % 64 = 5 := by omega
  have hs : W / 2 ^ 18 % 64 = 1 := by omega
  rw [candidate, hk]
  show checkWord (W % 64) W = _
  rw [hm]
  show (match W / 2 ^ 18 % 64 with | 0 => _ | 1 => _ | 2 => _ | 3 => _ | _ => none) = _
  rw [hs]
  show some _ = _
  rw [flg_eq c, fld_eq y, fld_eq z] <;> omega

theorem RoundTrip.tlbinvCtx (c) : RoundTrip.Statement (.tlbinvCtx c) := by
  intro hw W he
  have hn := Option.some.inj he
  have := c.toNat_lt
  refine decode_of_candidate hw he (by omega) ?_
  have hk : W / 2 ^ 24 % 128 = 0x7f := by omega
  have hm : W % 64 = 5 := by omega
  have hs : W / 2 ^ 18 % 64 = 2 := by omega
  rw [candidate, hk]
  show checkWord (W % 64) W = _
  rw [hm]
  show (match W / 2 ^ 18 % 64 with | 0 => _ | 1 => _ | 2 => _ | 3 => _ | _ => none) = _
  rw [hs]
  show some _ = _
  rw [flg_eq c] <;> omega

theorem RoundTrip.tlbinvAll (c) : RoundTrip.Statement (.tlbinvAll c) := by
  intro hw W he
  have hn := Option.some.inj he
  have := c.toNat_lt
  refine decode_of_candidate hw he (by omega) ?_
  have hk : W / 2 ^ 24 % 128 = 0x7f := by omega
  have hm : W % 64 = 5 := by omega
  have hs : W / 2 ^ 18 % 64 = 3 := by omega
  rw [candidate, hk]
  show checkWord (W % 64) W = _
  rw [hm]
  show (match W / 2 ^ 18 % 64 with | 0 => _ | 1 => _ | 2 => _ | 3 => _ | _ => none) = _
  rw [hs]
  show some _ = _
  rw [flg_eq c] <;> omega

theorem RoundTrip.cwb (c h v y z) : RoundTrip.Statement (.cwb c h v y z) := by
  intro hw W he
  obtain ⟨hn, hk, hm, e0, e1, e2, e3, e4⟩ := lay_31w1_19w1_18w1_13w5_6w6_m 0x7f 6 _ _ _ _ _ _ W (by decide) (by decide) rfl c.toNat_lt h.isLt v.isLt y.isLt z.isLt (Option.some.inj he)
  refine decode_of_candidate hw he hn ?_
  rw [candidate, hk]
  show checkWord (W % 64) W = _
  rw [hm]
  show some _ = _
  rw [flg_eq c _ _ e0, fld_eq h _ _ e1, fld_eq v _ _ e2, fld_eq y _ _ e3, fld_eq z _ _ e4]

theorem RoundTrip.evict (c) : RoundTrip.Statement (.evict c) := by
  intro hw W he
  obtain ⟨hn, hk, hm, e0⟩ := lay_31w1_m 0x7f 7 _ _ W (by decide) (by decide) rfl c.toNat_lt (Option.some.inj he)
  refine decode_of_candidate hw he hn ?_
  rw [candidate, hk]
  show checkWord (W % 64) W = _
  rw [hm]
  show some _ = _
  rw [flg_eq c _ _ e0]

theorem RoundTrip.schedulerCycle (x0 x1) : RoundTrip.Statement (.schedulerCycle x0 x1) :=
  fun _ _ he => nomatch he

theorem RoundTrip.ageingLevelRise (x0) : RoundTrip.Statement (.ageingLevelRise x0) :=
  fun _ _ he => nomatch he

theorem RoundTrip.sleepExpiry (x0 x1) : RoundTrip.Statement (.sleepExpiry x0 x1) :=
  fun _ _ he => nomatch he

theorem RoundTrip.handlerEntry (x0) : RoundTrip.Statement (.handlerEntry x0) :=
  fun _ _ he => nomatch he

theorem RoundTrip.scratchpadLoadComplete (x0 x1) : RoundTrip.Statement (.scratchpadLoadComplete x0 x1) :=
  fun _ _ he => nomatch he

theorem RoundTrip.scratchpadStoreComplete (x0 x1) : RoundTrip.Statement (.scratchpadStoreComplete x0 x1) :=
  fun _ _ he => nomatch he

theorem RoundTrip.gstComplete (x0 x1) : RoundTrip.Statement (.gstComplete x0 x1) :=
  fun _ _ he => nomatch he

theorem RoundTrip.atomComplete (x0 x1) : RoundTrip.Statement (.atomComplete x0 x1) :=
  fun _ _ he => nomatch he

theorem RoundTrip.postedAtomicPerform (x0) : RoundTrip.Statement (.postedAtomicPerform x0) :=
  fun _ _ he => nomatch he

theorem RoundTrip.walkEnd (x0 x1) : RoundTrip.Statement (.walkEnd x0 x1) :=
  fun _ _ he => nomatch he

theorem RoundTrip.mxCommandStart (x0) : RoundTrip.Statement (.mxCommandStart x0) :=
  fun _ _ he => nomatch he

theorem RoundTrip.microTileComplete (x0) : RoundTrip.Statement (.microTileComplete x0) :=
  fun _ _ he => nomatch he

theorem RoundTrip.mxCommandComplete (x0) : RoundTrip.Statement (.mxCommandComplete x0) :=
  fun _ _ he => nomatch he

theorem RoundTrip.mgemmStepComplete (x0) : RoundTrip.Statement (.mgemmStepComplete x0) :=
  fun _ _ he => nomatch he

theorem RoundTrip.mgemmEnd (x0) : RoundTrip.Statement (.mgemmEnd x0) :=
  fun _ _ he => nomatch he

theorem RoundTrip.collectiveStart (x0) : RoundTrip.Statement (.collectiveStart x0) :=
  fun _ _ he => nomatch he

theorem RoundTrip.chunkLanded (x0 x1 x2) : RoundTrip.Statement (.chunkLanded x0 x1 x2) :=
  fun _ _ he => nomatch he

theorem RoundTrip.copyFailure (x0 x1 x2) : RoundTrip.Statement (.copyFailure x0 x1 x2) :=
  fun _ _ he => nomatch he

theorem RoundTrip.collectiveEnd (x0 x1) : RoundTrip.Statement (.collectiveEnd x0 x1) :=
  fun _ _ he => nomatch he

theorem RoundTrip.fesetEffect (x0 x1) : RoundTrip.Statement (.fesetEffect x0 x1) :=
  fun _ _ he => nomatch he

theorem RoundTrip.fesetComplete (x0 x1) : RoundTrip.Statement (.fesetComplete x0 x1) :=
  fun _ _ he => nomatch he

theorem RoundTrip.chresetEffect (x0 x1) : RoundTrip.Statement (.chresetEffect x0 x1) :=
  fun _ _ he => nomatch he

theorem RoundTrip.flitPlacement (x0) : RoundTrip.Statement (.flitPlacement x0) :=
  fun _ _ he => nomatch he

theorem RoundTrip.flitResend (x0) : RoundTrip.Statement (.flitResend x0) :=
  fun _ _ he => nomatch he

theorem RoundTrip.bindingPending (x0 x1) : RoundTrip.Statement (.bindingPending x0 x1) :=
  fun _ _ he => nomatch he

theorem RoundTrip.timerBindingExpiry (x0 x1) : RoundTrip.Statement (.timerBindingExpiry x0 x1) :=
  fun _ _ he => nomatch he

theorem RoundTrip.brokenTaskTimeout (x0) : RoundTrip.Statement (.brokenTaskTimeout x0) :=
  fun _ _ he => nomatch he

theorem RoundTrip.samplingChoice (x0 x1 x2) : RoundTrip.Statement (.samplingChoice x0 x1 x2) :=
  fun _ _ he => nomatch he

theorem RoundTrip.samplingRecord (x0 x1 x2) : RoundTrip.Statement (.samplingRecord x0 x1 x2) :=
  fun _ _ he => nomatch he

theorem RoundTrip.taskRecordArrival (x0) : RoundTrip.Statement (.taskRecordArrival x0) :=
  fun _ _ he => nomatch he

theorem RoundTrip.blockAdmission : RoundTrip.Statement (.blockAdmission) :=
  fun _ _ he => nomatch he

theorem RoundTrip.blockEvictionSave (x0) : RoundTrip.Statement (.blockEvictionSave x0) :=
  fun _ _ he => nomatch he

theorem RoundTrip.blockRestore (x0) : RoundTrip.Statement (.blockRestore x0) :=
  fun _ _ he => nomatch he

theorem RoundTrip.witnessItemStore (x0 x1) : RoundTrip.Statement (.witnessItemStore x0 x1) :=
  fun _ _ he => nomatch he

theorem RoundTrip.sigrdReply (x0 x1) : RoundTrip.Statement (.sigrdReply x0 x1) :=
  fun _ _ he => nomatch he

theorem RoundTrip.relreqReply (x0 x1) : RoundTrip.Statement (.relreqReply x0 x1) :=
  fun _ _ he => nomatch he

theorem RoundTrip.witnessTest (x0) : RoundTrip.Statement (.witnessTest x0) :=
  fun _ _ he => nomatch he

theorem RoundTrip.operatorRelease (x0) : RoundTrip.Statement (.operatorRelease x0) :=
  fun _ _ he => nomatch he

theorem RoundTrip.replayStart (x0) : RoundTrip.Statement (.replayStart x0) :=
  fun _ _ he => nomatch he

theorem RoundTrip.replayEnd (x0) : RoundTrip.Statement (.replayEnd x0) :=
  fun _ _ he => nomatch he

theorem RoundTrip.replayAbandon (x0) : RoundTrip.Statement (.replayAbandon x0) :=
  fun _ _ he => nomatch he

theorem RoundTrip.unitRetirement (x0 x1 x2) : RoundTrip.Statement (.unitRetirement x0 x1 x2) :=
  fun _ _ he => nomatch he

theorem RoundTrip.errorCountAgeing (x0 x1 x2) : RoundTrip.Statement (.errorCountAgeing x0 x1 x2) :=
  fun _ _ he => nomatch he

theorem RoundTrip.dieFatalError (x0) : RoundTrip.Statement (.dieFatalError x0) :=
  fun _ _ he => nomatch he

theorem RoundTrip.linkFlitReceive (x0 x1 x2 x3) : RoundTrip.Statement (.linkFlitReceive x0 x1 x2 x3) :=
  fun _ _ he => nomatch he

theorem RoundTrip.linkAck (x0 x1 x2) : RoundTrip.Statement (.linkAck x0 x1 x2) :=
  fun _ _ he => nomatch he

theorem RoundTrip.linkRetrain (x0) : RoundTrip.Statement (.linkRetrain x0) :=
  fun _ _ he => nomatch he

theorem RoundTrip.requestTimeout (x0) : RoundTrip.Statement (.requestTimeout x0) :=
  fun _ _ he => nomatch he

theorem RoundTrip.probe (x0 x1) : RoundTrip.Statement (.probe x0 x1) :=
  fun _ _ he => nomatch he

theorem RoundTrip.probeReply (x0 x1) : RoundTrip.Statement (.probeReply x0 x1) :=
  fun _ _ he => nomatch he

theorem RoundTrip.routeWrite (x0) : RoundTrip.Statement (.routeWrite x0) :=
  fun _ _ he => nomatch he

theorem RoundTrip.routeRecompute : RoundTrip.Statement (.routeRecompute) :=
  fun _ _ he => nomatch he

theorem RoundTrip.readRequest (x0 x1) : RoundTrip.Statement (.readRequest x0 x1) :=
  fun _ _ he => nomatch he

theorem RoundTrip.ownRequest (x0 x1) : RoundTrip.Statement (.ownRequest x0 x1) :=
  fun _ _ he => nomatch he

theorem RoundTrip.forwardedRequest (x0 x1 x2 x3) : RoundTrip.Statement (.forwardedRequest x0 x1 x2 x3) :=
  fun _ _ he => nomatch he

theorem RoundTrip.tokensArrive (x0 x1 x2 x3 x4 x5 x6) : RoundTrip.Statement (.tokensArrive x0 x1 x2 x3 x4 x5 x6) :=
  fun _ _ he => nomatch he

theorem RoundTrip.dieCacheEviction (x0 x1) : RoundTrip.Statement (.dieCacheEviction x0 x1) :=
  fun _ _ he => nomatch he

theorem RoundTrip.transientRetryTimeout (x0 x1) : RoundTrip.Statement (.transientRetryTimeout x0 x1) :=
  fun _ _ he => nomatch he

theorem RoundTrip.persistentActivate (x0 x1 x2) : RoundTrip.Statement (.persistentActivate x0 x1 x2) :=
  fun _ _ he => nomatch he

theorem RoundTrip.persistentDeactivate (x0 x1) : RoundTrip.Statement (.persistentDeactivate x0 x1) :=
  fun _ _ he => nomatch he

theorem RoundTrip.deactivateAcknowledge (x0 x1) : RoundTrip.Statement (.deactivateAcknowledge x0 x1) :=
  fun _ _ he => nomatch he

theorem RoundTrip.nackEndpointAbsent (x0) : RoundTrip.Statement (.nackEndpointAbsent x0) :=
  fun _ _ he => nomatch he

theorem RoundTrip.carriageTransitFlit (x0 x1 x2) : RoundTrip.Statement (.carriageTransitFlit x0 x1 x2) :=
  fun _ _ he => nomatch he

theorem RoundTrip.carriageTrainingDone : RoundTrip.Statement (.carriageTrainingDone) :=
  fun _ _ he => nomatch he

theorem RoundTrip.heartbeat : RoundTrip.Statement (.heartbeat) :=
  fun _ _ he => nomatch he

theorem RoundTrip.heartbeatMiss : RoundTrip.Statement (.heartbeatMiss) :=
  fun _ _ he => nomatch he

theorem RoundTrip.quiesce (x0) : RoundTrip.Statement (.quiesce x0) :=
  fun _ _ he => nomatch he

theorem RoundTrip.carriageReset : RoundTrip.Statement (.carriageReset) :=
  fun _ _ he => nomatch he

theorem RoundTrip.governorLevelChange (x0 x1) : RoundTrip.Statement (.governorLevelChange x0 x1) :=
  fun _ _ he => nomatch he

theorem RoundTrip.hostWindowSend (x0 x1) : RoundTrip.Statement (.hostWindowSend x0 x1) :=
  fun _ _ he => nomatch he

theorem RoundTrip.hostWindowRecv (x0) : RoundTrip.Statement (.hostWindowRecv x0) :=
  fun _ _ he => nomatch he

theorem RoundTrip.hostApertureRead (x0 x1 x2) : RoundTrip.Statement (.hostApertureRead x0 x1 x2) :=
  fun _ _ he => nomatch he

theorem RoundTrip.hostApertureWrite (x0 x1 x2) : RoundTrip.Statement (.hostApertureWrite x0 x1 x2) :=
  fun _ _ he => nomatch he

theorem RoundTrip.powerOn : RoundTrip.Statement (.powerOn) :=
  fun _ _ he => nomatch he

theorem RoundTrip.computeRailFall (x0) : RoundTrip.Statement (.computeRailFall x0) :=
  fun _ _ he => nomatch he

theorem RoundTrip.packageRailFall (x0) : RoundTrip.Statement (.packageRailFall x0) :=
  fun _ _ he => nomatch he

theorem RoundTrip.vcarFall : RoundTrip.Statement (.vcarFall) :=
  fun _ _ he => nomatch he

theorem RoundTrip.packageReset : RoundTrip.Statement (.packageReset) :=
  fun _ _ he => nomatch he

theorem RoundTrip.thermalStepDown (x0) : RoundTrip.Statement (.thermalStepDown x0) :=
  fun _ _ he => nomatch he

theorem RoundTrip.thermalStepUp (x0) : RoundTrip.Statement (.thermalStepUp x0) :=
  fun _ _ he => nomatch he

theorem RoundTrip.thermalTrip (x0) : RoundTrip.Statement (.thermalTrip x0) :=
  fun _ _ he => nomatch he

theorem RoundTrip.mctpPacket (x0 x1 x2) : RoundTrip.Statement (.mctpPacket x0 x1 x2) :=
  fun _ _ he => nomatch he

theorem RoundTrip.setEndpointId (x0 x1) : RoundTrip.Statement (.setEndpointId x0 x1) :=
  fun _ _ he => nomatch he

theorem RoundTrip.getVersion : RoundTrip.Statement (.getVersion) :=
  fun _ _ he => nomatch he

theorem RoundTrip.getCapabilities : RoundTrip.Statement (.getCapabilities) :=
  fun _ _ he => nomatch he

theorem RoundTrip.negotiateAlgorithms (x0 x1 x2) : RoundTrip.Statement (.negotiateAlgorithms x0 x1 x2) :=
  fun _ _ he => nomatch he

theorem RoundTrip.getDigests : RoundTrip.Statement (.getDigests) :=
  fun _ _ he => nomatch he

theorem RoundTrip.getCertificate (x0 x1 x2) : RoundTrip.Statement (.getCertificate x0 x1 x2) :=
  fun _ _ he => nomatch he

theorem RoundTrip.challenge (x0) : RoundTrip.Statement (.challenge x0) :=
  fun _ _ he => nomatch he

theorem RoundTrip.getMeasurements (x0 x1) : RoundTrip.Statement (.getMeasurements x0 x1) :=
  fun _ _ he => nomatch he

theorem RoundTrip.keyExchange (x0 x1) : RoundTrip.Statement (.keyExchange x0 x1) :=
  fun _ _ he => nomatch he

theorem RoundTrip.finish (x0 x1) : RoundTrip.Statement (.finish x0 x1) :=
  fun _ _ he => nomatch he

theorem RoundTrip.endSession (x0) : RoundTrip.Statement (.endSession x0) :=
  fun _ _ he => nomatch he

theorem RoundTrip.ctxwrite (x0 x1 x2) : RoundTrip.Statement (.ctxwrite x0 x1 x2) :=
  fun _ _ he => nomatch he

theorem RoundTrip.grant (x0 x1 x2 x3 x4 x5) : RoundTrip.Statement (.grant x0 x1 x2 x3 x4 x5) :=
  fun _ _ he => nomatch he

theorem RoundTrip.winbind (x0 x1 x2) : RoundTrip.Statement (.winbind x0 x1 x2) :=
  fun _ _ he => nomatch he

theorem RoundTrip.pkgnum (x0) : RoundTrip.Statement (.pkgnum x0) :=
  fun _ _ he => nomatch he

theorem RoundTrip.fwdtab (x0 x1 x2) : RoundTrip.Statement (.fwdtab x0 x1 x2) :=
  fun _ _ he => nomatch he

theorem RoundTrip.screen (x0) : RoundTrip.Statement (.screen x0) :=
  fun _ _ he => nomatch he

theorem RoundTrip.window (x0 x1) : RoundTrip.Statement (.window x0 x1) :=
  fun _ _ he => nomatch he

theorem RoundTrip.keyload (x0 x1 x2) : RoundTrip.Statement (.keyload x0 x1 x2) :=
  fun _ _ he => nomatch he

theorem RoundTrip.retireRemove (x0 x1 x2 x3) : RoundTrip.Statement (.retireRemove x0 x1 x2 x3) :=
  fun _ _ he => nomatch he

theorem RoundTrip.injlock (x0 x1) : RoundTrip.Statement (.injlock x0 x1) :=
  fun _ _ he => nomatch he

theorem RoundTrip.halt (x0 x1 x2) : RoundTrip.Statement (.halt x0 x1 x2) :=
  fun _ _ he => nomatch he

theorem RoundTrip.tlbi (x0 x1 x2) : RoundTrip.Statement (.tlbi x0 x1 x2) :=
  fun _ _ he => nomatch he

theorem RoundTrip.savepool (x0 x1 x2) : RoundTrip.Statement (.savepool x0 x1 x2) :=
  fun _ _ he => nomatch he

theorem RoundTrip.faultread : RoundTrip.Statement (.faultread) :=
  fun _ _ he => nomatch he

theorem RoundTrip.countread (x0) : RoundTrip.Statement (.countread x0) :=
  fun _ _ he => nomatch he

theorem RoundTrip.reset (x0) : RoundTrip.Statement (.reset x0) :=
  fun _ _ he => nomatch he

theorem RoundTrip.coreinit (x0 x1 x2) : RoundTrip.Statement (.coreinit x0 x1 x2) :=
  fun _ _ he => nomatch he

theorem RoundTrip.carreset (x0) : RoundTrip.Statement (.carreset x0) :=
  fun _ _ he => nomatch he

theorem RoundTrip.taskend (x0 x1) : RoundTrip.Statement (.taskend x0 x1) :=
  fun _ _ he => nomatch he

theorem RoundTrip.imgqueue (x0 x1) : RoundTrip.Statement (.imgqueue x0 x1) :=
  fun _ _ he => nomatch he

theorem RoundTrip.aperbind (x0 x1 x2) : RoundTrip.Statement (.aperbind x0 x1 x2) :=
  fun _ _ he => nomatch he

theorem RoundTrip.hostrange (x0 x1 x2 x3) : RoundTrip.Statement (.hostrange x0 x1 x2 x3) :=
  fun _ _ he => nomatch he

theorem RoundTrip.fwwrite (x0 x1 x2) : RoundTrip.Statement (.fwwrite x0 x1 x2) :=
  fun _ _ he => nomatch he

theorem RoundTrip.fwselect (x0) : RoundTrip.Statement (.fwselect x0) :=
  fun _ _ he => nomatch he

theorem RoundTrip.vcarPowerOn : RoundTrip.Statement (.vcarPowerOn) :=
  fun _ _ he => nomatch he

theorem RoundTrip.linkReplayRequest (x0 x1 x2) : RoundTrip.Statement (.linkReplayRequest x0 x1 x2) :=
  fun _ _ he => nomatch he

theorem RoundTrip.linkRetrainingEnd (x0 x1) : RoundTrip.Statement (.linkRetrainingEnd x0 x1) :=
  fun _ _ he => nomatch he

end Sys2Proof.Laws
end

