-- ==== Sys2Proof/Safety.lean ====
section
/-! DEFINITION. Safety.lean: the terms in which claims about the machine are stated: which registers a word may
name, what a word leaves in the registers, the predicates and the flags and that it leaves everything else as it
was, where a completed step leaves the gangs that it does not concern. -/

namespace Sys2Proof.Machine

open Sys2Proof

/-! ## Operands -/

/-- Every operand, given by its number of registers and its first register, is allocated and of one shape (R46, R72). -/
def Readable (s : State) (ops : List (Nat × Nat)) : Prop := ∀ p ∈ ops, s.src.regOk p.1 p.2 = true

/-- Destination and operands are allocated, and the destination is general or uniform (R46, R72, R75). -/
def Writable (s : State) (n d : Nat) (ops : List (Nat × Nat)) : Prop :=
  Readable s ((n, d) :: ops) ∧ s.isAffine d = false

/-- Element e of a register value cut into elements of w bits (R80). -/
def elem (w e : Nat) {n : Nat} (v : BitVec n) : BitVec w := v.extractLsb' (w * e) w

/-! ## What a word writes -/

/-- The value of register r in lane L after n registers from d have been written, register d + j in lane L with
f j L: a general register in the executing lanes, a uniform one with the value of the leader (R71, R76). -/
def written (g : Gang) (n d : Nat) (lanes : List Nat) (f : Nat → Nat → Word) (r L : Nat) : Word :=
  if d ≤ r ∧ r < d + n then
    match g.shape r, lanes with
    | .general, _ => if L ∈ lanes then f (r - d) L else g.val r L
    | .uniform _, K :: _ => f (r - d) K
    | _, _ => g.val r L
  else g.val r L

/-- The state t is s with n registers from d written in some lanes; every other register and every other part
of the package is as it was. -/
def Wrote (s t : State) (n d : Nat) (lanes : List Nat) (f : Nat → Nat → Word) : Prop :=
  t = { s with g := { s.g with gen := t.g.gen, uni := t.g.uni } }
    ∧ ∀ r L, L < 32 → t.g.val r L = written s.g n d lanes f r L

/-- As `Wrote`, with floating-point flags merged into GANG.FPSTAT (R114). -/
def WroteFp (s t : State) (n d : Nat) (lanes : List Nat) (f : Nat → Nat → Word) (fl : BitVec 5) : Prop :=
  t = { s with
      g := { s.g with gen := t.g.gen, uni := t.g.uni, fpstat := s.g.fpstat ||| fl }
      iss := { s.iss with fp := s.iss.fp ||| fl } }
    ∧ ∀ r L, L < 32 → t.g.val r L = written s.g n d lanes f r L

/-- The state t is s with predicate k written in some lanes; p7 is never written (R78). -/
def WrotePred (s t : State) (k : Nat) (lanes : List Nat) (f : Nat → Bool) : Prop :=
  t = { s with g := { s.g with preds := t.g.preds } }
    ∧ ∀ j L, L < 32 → t.g.pred j L = if j = k ∧ k ≠ 7 ∧ L ∈ lanes then f L else s.g.pred j L

/-- The word i stops before its chain with CODE 3, OPR (R46, R72, R75). -/
def Opr (i : Instr) (s : State) : Prop := exec i s = .next (s.fault 3 0 0)

/-- The word i writes n registers from d in some lanes wherever its operands allow it, and raises OPR wherever they
do not (R46, R72, R75). -/
def Writes (i : Instr) (s : State) (n d : Nat) (ops : List (Nat × Nat)) (lanes : List Nat) (f : Nat → Nat → Word) : Prop :=
  (Writable s n d ops → ∃ t, exec i s = .next t ∧ Wrote s t n d lanes f) ∧ (¬Writable s n d ops → Opr i s)

/-- As `Writes`, for a word whose destination may be affine where R74 admits it: what it does to a destination that
is not affine. -/
def WritesGen (i : Instr) (s : State) (n d : Nat) (ops : List (Nat × Nat)) (lanes : List Nat) (f : Nat → Nat → Word) : Prop :=
  (Writable s n d ops → ∃ t, exec i s = .next t ∧ Wrote s t n d lanes f) ∧ (¬Readable s ((n, d) :: ops) → Opr i s)

/-- As `Writes`, for a floating-point word and its flags. -/
def WritesFp (i : Instr) (s : State) (n d : Nat) (ops : List (Nat × Nat)) (lanes : List Nat) (f : Nat → Nat → Word)
    (fl : BitVec 5) : Prop :=
  (Writable s n d ops → ∃ t, exec i s = .next t ∧ WroteFp s t n d lanes f fl) ∧ (¬Writable s n d ops → Opr i s)

/-- The word i writes predicate k in some lanes, and raises OPR where an operand is not allocated or spans shapes. -/
def WritesPred (i : Instr) (s : State) (k : Nat) (ops : List (Nat × Nat)) (lanes : List Nat) (f : Nat → Bool) : Prop :=
  (Readable s ops → ∃ t, exec i s = .next t ∧ WrotePred s t k lanes f) ∧ (¬Readable s ops → Opr i s)

/-- A 32-bit result, as `Writes` takes it. -/
def one (f : Nat → Word) : Nat → Nat → Word := fun _ L => f L

/-- A 64-bit result: the low word in the even register (R8). -/
def two (f : Nat → DWord) : Nat → Nat → Word := fun j L => elem 32 j (f L)

/-- An arithmetic word in the modes 32, 64, 16x2 and 8x4, with a general or uniform destination (R53, R80): in the
packed modes each element is computed by itself. -/
def WritesModes (i : Instr) (s : State) (d a b : BitVec 6) (m : BitVec 2) (lanes : List Nat)
    (op : (w : Nat) → BitVec w → BitVec w → BitVec w) : Prop :=
  let x (L : Nat) : Word := s.src.val a.toNat L
  let y (L : Nat) : Word := s.src.val b.toNat L
  let packed (w n : Nat) : Prop :=
    ∃ v, WritesGen i s 1 d.toNat [(1, a.toNat), (1, b.toNat)] lanes (one v)
      ∧ ∀ L e, e < n → elem w e (v L) = op w (elem w e (x L)) (elem w e (y L))
  match m.toNat with
  | 0 => WritesGen i s 1 d.toNat [(1, a.toNat), (1, b.toNat)] lanes (one fun L => op 32 (x L) (y L))
  | 1 => WritesGen i s 2 d.toNat [(2, a.toNat), (2, b.toNat)] lanes
      (two fun L => op 64 (s.src.val64 a.toNat L) (s.src.val64 b.toNat L))
  | 2 => packed 16 2
  | _ => packed 8 4

/-- A two-operand word over 32 bits or a pair whose destination is not affine (R93, R95, R98): each lane's result
stands in the relation `r` to its operands. -/
def WritesWide (i : Instr) (s : State) (d a b : BitVec 6) (wide : Bool) (lanes : List Nat)
    (r : (w : Nat) → BitVec w → BitVec w → BitVec w → Prop) : Prop :=
  if wide then ∃ v, Writes i s 2 d.toNat [(2, a.toNat), (2, b.toNat)] lanes (two v)
    ∧ ∀ L, r 64 (s.src.val64 a.toNat L) (s.src.val64 b.toNat L) (v L)
  else ∃ v, Writes i s 1 d.toNat [(1, a.toNat), (1, b.toNat)] lanes (one v)
    ∧ ∀ L, r 32 (s.src.val a.toNat L) (s.src.val b.toNat L) (v L)

/-- The condition number c of R89, over integers: signed unless `uns`. -/
def cmpHolds (c : Nat) (uns : Bool) {w : Nat} (a b : BitVec w) : Prop :=
  let x : Int := if uns then a.toNat else a.toInt
  let y : Int := if uns then b.toNat else b.toInt
  match c with
  | 0 => a = b
  | 1 => a ≠ b
  | 2 => x < y
  | 3 => y ≤ x
  | 4 => x ≤ y
  | 5 => y < x
  | 6 => a &&& b ≠ 0
  | _ => a &&& b = 0

/-- A floating-point word in the four types (R53, R108): each element of a packed type by itself, the flags of all
executing lanes and elements together (R114). -/
def WritesFpModes (i : Instr) (s : State) (d a b : BitVec 6) (m : Nat) (lanes : List Nat) (f : Fmt → Nat → Nat → FRes) : Prop :=
  let x (L : Nat) : Word := s.src.val a.toNat L
  let y (L : Nat) : Word := s.src.val b.toNat L
  match m with
  | 0 =>
    let r (L : Nat) : FRes := f f32 (x L).toNat (y L).toNat
    WritesFp i s 1 d.toNat [(1, a.toNat), (1, b.toNat)] lanes (one fun L => BitVec.ofNat 32 (r L).bits)
      (orFlags lanes fun L => (r L).fl)
  | 1 =>
    let r (L : Nat) : FRes := f f64 (s.src.val64 a.toNat L).toNat (s.src.val64 b.toNat L).toNat
    WritesFp i s 2 d.toNat [(2, a.toNat), (2, b.toNat)] lanes (two fun L => BitVec.ofNat 64 (r L).bits)
      (orFlags lanes fun L => (r L).fl)
  | _ =>
    let r (L e : Nat) : FRes := f (if m = 2 then bf16 else f16) (elem 16 e (x L)).toNat (elem 16 e (y L)).toNat
    ∃ v, WritesFp i s 1 d.toNat [(1, a.toNat), (1, b.toNat)] lanes (one v) (orFlags lanes fun L => (r L 0).fl ||| (r L 1).fl)
      ∧ ∀ L e, e < 2 → elem 16 e (v L) = BitVec.ofNat 16 (r L e).bits

/-- Register r of a gang gives a base and a stride to a word with an affine destination (R74). -/
def AffOperand (g : Gang) (r : Nat) (base stride : Word) : Prop :=
  (∃ i, g.shape r = .affine i ∧ base = Store.get 0 g.affB i ∧ stride = Store.get 0 g.affS i)
    ∨ ∃ i, g.shape r = .uniform i ∧ base = g.val r 0 ∧ stride = 0

/-- The pair r, r + 1 of a gang gives a 64-bit base and stride (R73, R74). -/
def AffOperand64 (g : Gang) (r : Nat) (base stride : DWord) : Prop :=
  (∃ i, g.shape r = .affine i ∧ base = g.affBase64 i ∧ stride = g.affStride64 i)
    ∨ ∃ i, g.shape r = .uniform i ∧ base = g.val64 r 0 ∧ stride = 0

/-- The state t is s with n affine registers from number k holding a base and a stride cut into words, if any lane
executes the word (R73, R75). -/
def WroteAff (s t : State) (n k : Nat) (lanes : List Nat) (base stride : DWord) : Prop :=
  t = { s with g := { s.g with affB := t.g.affB, affS := t.g.affS } }
    ∧ ∀ j, Store.get 0 t.g.affB j = (if k ≤ j ∧ j < k + n ∧ lanes ≠ [] then elem 32 (j - k) base else Store.get 0 s.g.affB j)
      ∧ Store.get 0 t.g.affS j = (if k ≤ j ∧ j < k + n ∧ lanes ≠ [] then elem 32 (j - k) stride else Store.get 0 s.g.affS j)

/-! ## Slices -/

/-- The slices of the gang g' are those of g, slice i being what `f` says. -/
def SlicesAre (g g' : Gang) (f : Nat → Slice) : Prop :=
  g'.slices.length = g.slices.length ∧ ∀ i, i < g.slices.length → g'.slice i = f i

/-- The state t is s with the slices of the gang in focus changed as `f` says, and nothing else. -/
def SlicesOnly (s t : State) (f : Nat → Slice) : Prop :=
  t = { s with g := { s.g with slices := t.g.slices } } ∧ SlicesAre s.g t.g f

/-- As `SlicesOnly`, for a word that sets the program counters of some slices of the issuing group. -/
def SlicesMoved (s t : State) (l : Nat → Bool) (f : Nat → Slice → Slice) : Prop :=
  t = { s with g := { s.g with slices := t.g.slices }, iss := { s.iss with moved := t.iss.moved } }
    ∧ (∀ i, i < 8 → t.iss.moved.getLsbD i = (s.iss.moved.getLsbD i || (s.group.contains i && l i)))
    ∧ SlicesAre s.g t.g fun i => if i ∈ s.group ∧ l i = true then f i (s.g.slice i) else s.g.slice i

/-- Whether a slice takes a transfer: with `any` when some active lane's guard is true, else when every active lane's
is (R154). -/
def takesTransfer (g : Gang) (q : BitVec 4) (any : Bool) (i : Nat) : Bool :=
  let active (k : Nat) : Bool := (g.slice i).active.getLsbD k
  let guard (k : Nat) : Bool := g.guardAt q (4 * i + k)
  if any then (List.range 4).any fun k => active k && guard k else (List.range 4).all fun k => !active k || guard k

/-- The lane whose pair gives a slice its target: the lowest active one, or the slice's first lane (R157). -/
def targetLane (g : Gang) (i : Nat) : Nat :=
  4 * i + (((List.range 4).find? fun k => (g.slice i).active.getLsbD k).getD 0)

/-- A register or link value at which a transfer may land: a multiple of 12 below 2^48 (R38). -/
def Lands (x : DWord) : Prop := x.toNat % 12 = 0 ∧ x.toNat < 2 ^ 48

/-! ## Exceptions -/

/-- A stop of the gang in focus is complete at once: it has no other stop pending, is not halted, and awaits no
ATOM and no word whose accesses are all performed (R309, R310). -/
def StopsAtOnce (g : Gang) : Prop :=
  g.mode ≠ .halted ∧ g.stop = none ∧ ∀ f ∈ g.flights, f.cause ≠ 0 ∨ (f.op.kind ≠ .atom ∧ f.remain ≠ 0)

/-- The slices of a set are unprivileged (R321). -/
def Unprivileged (g : Gang) (l : List Nat) : Prop := ∀ i ∈ l, (g.slice i).priv = false

/-- The word at hand is the last of its chain, and no word of the chain has moved a slice, made one wait or ended
one. -/
def AtLastWord (s : State) : Prop :=
  s.iss.wpc = s.iss.last ∧ s.iss.moved = 0 ∧ s.g.slices.length = 8 ∧ s.g.live = s.src.live
    ∧ (∀ i, (s.g.slice i).grp = (s.src.slice i).grp) ∧ (∀ i ∈ s.group, (s.g.slice i).wait = .none) ∧ s.group ≠ []

/-- The gang t has entered a handler from the gang g (R313 to R316): the registers of TRAP.CAUSE, TRAP.PC and
TRAP.ADDR hold the report, the frame holds the slices and the words still in flight as they were, and the slices of
the set T stand at the entry, privileged; the other slices and every register, predicate and flag are as they were. -/
def Entered (g t : Gang) (cycle : Nat) (T : List Nat) (entry : DWord) (code info slice : Nat) (pc addr : DWord) : Prop :=
  t = { g with
      slices := t.slices, frame := t.frame, flights := [], trapCause := t.trapCause, trapPc := pc, trapAddr := addr
      stop := none, hslices := sliceMask T, mode := if 17 ≤ code then .inDebug else .inTrap }
    ∧ t.trapCause.extractLsb' 0 8 = BitVec.ofNat 8 code ∧ t.trapCause.extractLsb' 8 8 = BitVec.ofNat 8 info
    ∧ t.trapCause.extractLsb' 16 8 = BitVec.ofNat 8 slice
    ∧ (∃ fr, t.frame = some fr ∧ fr.slices = g.slices.map (Slice.stopped cycle)
        ∧ fr.entries.map Flight.id = g.flights.map Flight.id ∧ fr.entries.map Flight.remain = g.flights.map Flight.remain)
    ∧ SlicesAre g t fun i =>
        if i ∈ T then { g.slice i with
          pc := entry, priv := true, step := false, stack := [], active := ~~~(g.killed.extractLsb' (4 * i) 4)
          flags := [], wait := .none, sync := [], backs := [] }
        else g.slice i

/-- No slice outside the issuing group waits at a REGANG. -/
def NoneRejoins (s : State) : Prop := ∀ j, j < 8 → j ∉ s.group → (s.g.slice j).regangAt = none

/-- No slice of the gang waits in WAITANY. -/
def NoneAwaitsAny (g : Gang) : Prop := ∀ i, i < 8 → ∀ m, (g.slice i).wait ≠ .waitany m

/-- The armed bindings that a mask of WAITANY names (R299). -/
def armedIn (g : Gang) (m : BitVec 8) : List (Nat × Binding) :=
  (g.binds : List (Nat × Binding)).filter fun p => decide (p.1 < 8) && m.getLsbD p.1

/-- The chain of the word at hand has ended at this word, and only slices, the chain's bookkeeping and the core's
counters changed besides what `f` changes in the gang. -/
def ChainEnded (s t : State) (f : Gang → Gang) : Prop :=
  t = { s with g := t.g, c := t.c, iss := t.iss }
    ∧ t.g = f { s.g with slices := t.g.slices, exempt := t.g.exempt, lastGrp := t.g.lastGrp, cached := t.g.cached }
    ∧ t.c = { s.c with perfCnt := t.c.perfCnt } ∧ t.iss.ended = true


/-! ## Outstanding words -/

/-- A word may enter the outstanding words of the gang: its flag is not pending in a slice of the issuing group, and
the gang holds fewer than sixteen words (R56, R311). -/
def MayLaunch (s : State) (flag : Nat) : Prop :=
  (flag < 12 → ∀ i ∈ s.group, ∀ r ∈ (s.src.slice i).flags, r.flag ≠ flag) ∧ s.src.flights.length < 16

/-- The word in flight `fl` was captured from the state s, with an identity, an operation, a flag and the lanes that
are to perform it (R190, R317). -/
def Captured (s : State) (fl : Flight) (id : Nat) (op : MemOp) (flag : Nat) (lanes : List Nat) : Prop :=
  fl.id = id ∧ fl.op = op ∧ fl.pc = s.iss.wpc ∧ fl.slice = s.group.headD 0 ∧ fl.flag = flag ∧ fl.cause = 0
    ∧ (∀ L < 32, fl.remain.getLsbD L = true ↔ L ∈ lanes) ∧ fl.exec = fl.remain

/-- The slices of the issuing group have the word's flag pending with its window, or wait for a word without a flag;
the other slices are as they were, but for lanes killed meanwhile (R56, R58, R180). -/
def FlagOpened (s t : State) (flag look id : Nat) : Prop :=
  SlicesAre s.g t.g fun i =>
    let sl := s.g.slice i
    { sl with
      active := (t.g.slice i).active, stack := (t.g.slice i).stack
      flags := if i ∈ s.group ∧ flag < 12 then sl.flags ++ [{ flag := flag, op := id, win := look + s.iss.idx + 1 }] else sl.flags
      sync := if i ∈ s.group ∧ 12 ≤ flag then sl.sync ++ [id] else sl.sync }

/-- The lanes that a word kills are switched off in the slices and recorded; no other lane changes (R148, R180). -/
def Killed (s t : State) (lanes : List Nat) (cause : Nat → Nat) : Prop :=
  (∀ L < 32, t.g.killed.getLsbD L = true ↔ s.g.killed.getLsbD L = true ∨ L ∈ lanes)
    ∧ (∀ i, i < s.g.slices.length → i < 8 → ∀ k < 4,
        (t.g.slice i).active.getLsbD k = ((s.g.slice i).active.getLsbD k && !lanes.contains (4 * i + k)))
    ∧ t.g.killCause = if s.g.killed = 0 ∧ lanes ≠ [] then BitVec.ofNat 3 (cause (lanes.headD 0)) else s.g.killCause

/-- The state t is s with an outstanding word more and the step that goes on with it; besides the slices, the lanes
killed and the core's counters nothing else changed. -/
def Launched (s t : State) (fl : Flight) (n : Nat) (g : Gang) : Prop :=
  t = { s with
      g := { g with slices := t.g.slices, killed := t.g.killed, killCause := t.g.killCause, frame := t.g.frame, flights := s.g.flights ++ [fl] }
      c := { s.c with perfCnt := t.c.perfCnt }, next := s.next + n, agenda := t.agenda }
    ∧ fl.event s.g.uid ∈ t.agenda ∧ ∀ i ∈ s.agenda, i ∈ t.agenda


/-! ## Matrix commands -/

/-- A command but for the note of when it became ready (R241). -/
def MxCmd.unnoted (c : MxCmd) : MxCmd := { c with readyAt := none }

/-- Two queues hold the same commands, but for the notes of when they became ready. -/
def SameQueue (q q' : List MxCmd) : Prop := q'.map MxCmd.unnoted = q.map MxCmd.unnoted

/-- A command may take its part of the unit: no other has it, and none became ready for it earlier, or as early and was
accepted earlier (R241). -/
def HasTurn (q : List MxCmd) (c : MxCmd) : Prop :=
  c.lane = 2 ∨ ∀ x ∈ q, x.id = c.id ∨ x.lane ≠ c.lane
    ∨ (x.holdsLane = false ∧ (x.readyAt = none
      ∨ ∃ a b, x.readyAt = some a ∧ c.readyAt = some b ∧ (b < a ∨ (b = a ∧ ∀ y ∈ acceptedBefore q c.id, y.id ≠ x.id))))

/-- No word is parked in a granule wait table (R177). -/
def NoneParked (s : State) : Prop := ∀ g ∈ s.allGangs, ∀ f ∈ g.flights, f.parked = none

/-- The command `cmd` stands at the end of its core's queue and counts one operation in k3; nothing else has changed
but the block's binding table, which is that of `b` (R218, R223). -/
def Accepted (s t : State) (cmd : MxCmd) (b : Block) : Prop :=
  t = { s with
      g := { s.g with kops := s.g.kops ++ [{ id := s.next, cls := 3 }] }
      b := b, c := { s.c with mxq := t.c.mxq }, next := s.next + 2, agenda := t.agenda }
    ∧ SameQueue (s.c.mxq ++ [cmd]) t.c.mxq
    ∧ Instr.mxCommandStart cmd.id ∈ t.agenda ∧ (∀ i ∈ s.agenda, i ∈ t.agenda)
    ∧ cmd.id = s.next + 1 ∧ cmd.kid = s.next ∧ cmd.gang = s.g.uid ∧ cmd.block = s.b.uid
    ∧ cmd.started = false ∧ cmd.ready = true ∧ cmd.tiles = 0 ∧ cmd.step = 0 ∧ cmd.coll = none

/-- The address an MXF raised by the checks on an image of S names, if one fails (R222). -/
def ImageFault (s : State) (base rows rowbytes pitch : Nat) : Option Nat :=
  let p := if pitch = 0 then rowbytes else pitch
  if s.b.sbytes < base + ((rows - 1) * p + rowbytes) then some base
  else if base % 16 ≠ 0 ∨ pitch % 16 ≠ 0 ∨ (pitch ≠ 0 ∧ pitch < rowbytes) then some 0
  else none


/-! ## Operations of an engine class -/

/-- The operation with an identity has completed in a gang: operations leave the gang's list only when they and every
older operation of their class have completed, and nothing else of the gang changed (R198). -/
def OpDone (g g' : Gang) (kid : Nat) : Prop :=
  g' = { g with kops := g'.kops }
    ∧ (∀ k ∈ g'.kops, ∃ o ∈ g.kops, k = o ∨ (o.id = kid ∧ k = { o with done := true }))
    ∧ (∀ k ∈ g.kops, k.id ≠ kid → k.done = false → k ∈ g'.kops)
    ∧ ∀ k ∈ g'.kops, k.id = kid → ∃ o ∈ g'.kops, o.cls = k.cls ∧ o.done = false

/-- The state t is s with an operation counted for the gang in focus, the steps of `l` to come, and what `f` does to the
gang besides. -/
def Counted (s t : State) (cls : Nat) (work : KWork) (l : List Instr) : Prop :=
  t = { s with
      g := { s.g with kops := s.g.kops ++ [{ id := s.next, cls := cls, work := work }] }
      next := s.next + 1, agenda := t.agenda }
    ∧ (∀ i ∈ l, i ∈ t.agenda) ∧ ∀ i ∈ s.agenda, i ∈ t.agenda

/-! ## Messages -/

/-- A message is on its way: its step may take place, it stands in a link's replay buffer, or it waits for the tables to
have changed (R361, R362, R366). -/
def OnWay (t : State) (i : Instr) : Prop :=
  i ∈ t.agenda ∨ (∃ l ∈ t.fab.links, ∃ x ∈ l.buf0 ++ l.buf1, x.deliver = i) ∨ ∃ x ∈ t.fab.held, x.deliver = i

/-- A flit may go on from a node toward another: no topology has been published yet, or the node's table leads to a link
(R364, R366). -/
def HasWay (s : State) (node dst : Nat) (down : Bool) : Prop :=
  node = dst ∨ s.fab.gen = 0
    ∨ ∃ p q, Store.find (s.fab.node node).routes (routeEntry dst down) = some p ∧ s.fab.linkAt node p = some q

/-- A flit sent from a node to another is on its way: while the tables change it waits at its node, else there is a route
(R364, R366). -/
def CanSend (s : State) (src dst : Nat) : Prop := s.fab.paused = true ∨ HasWay s src dst false

/-- The steps of `l` may take place, and every step that might before still may. -/
def Awaits (s t : State) (l : List Instr) : Prop := (∀ i ∈ l, i ∈ t.agenda) ∧ ∀ i ∈ s.agenda, i ∈ t.agenda

/-- The gang in focus has sent a flit with a payload through capability n on a channel: a unit of the allowance is taken,
an operation counts in k4, the channel's sequence goes on, and the flit, or the task record, is on its way (R270, R272,
R274, R286). -/
def Sent (s t : State) (n chan : Nat) (payload : List Byte) : Prop :=
  let task := s.task s.g.task
  let cap := task.cap n
  let dispatch : Prop := cap.kind = 2
  ∃ f : Flit, f.id = s.next ∧ f.payload = payload ∧ f.tenant = task.tenant ∧ f.task = task.id ∧ f.sender = some s.g.uid
    ∧ f.window = none ∧ f.cap = n ∧ f.chan = chan ∧ f.seqno = (s.g.chan chan).seqno ∧ f.dst = cap.endpoint task
    ∧ f.reply = cap.replyTo task ∧ f.kid = some (s.next + 1) ∧ f.refused = none ∧ f.reserved = false
    ∧ t = { s with
        g := { s.g with kops := s.g.kops ++ [{ id := s.next + 1, cls := 4 }], allow := t.g.allow, chans := t.g.chans }
        c := { s.c with perfCnt := t.c.perfCnt }, fab := { s.fab with links := t.fab.links, held := t.fab.held }
        flits := t.flits, records := t.records, next := t.next, agenda := t.agenda }
    ∧ (∀ i ∈ s.agenda, i ∈ t.agenda)
    ∧ (∀ m, t.g.allowance m = if m = n then s.g.allowance n - 1 else s.g.allowance m)
    ∧ (∀ m, t.g.chan m
        = if m = chan ∧ chan ≠ 0 then { s.g.chan m with seqno := ((s.g.chan m).seqno + 1) % 65536 } else s.g.chan m)
    ∧ (dispatch → t.fab = s.fab ∧ t.flits = s.flits ∧ t.records = s.records ++ [{ id := s.next + 2, bytes := payload, ctx := cap.f8, flit := f }]
        ∧ t.next = s.next + 3 ∧ Instr.taskRecordArrival (s.next + 2) ∈ t.agenda)
    ∧ (¬dispatch → t.flits = s.flits ++ [f] ∧ t.records = s.records ∧ t.next = s.next + 2 ∧ OnWay t (.flitPlacement s.next))

/-! ## The end of an outstanding word -/

/-- The word in flight f has ended in the gang in focus: it is gone, its flag is clear, no slice awaits it, its operation
is done, and the orders that have nothing left to wait for are gone, but for a draining FENCE that has an abort to raise;
the gang's registers and its register cache are those of t, the rest is as it was (R56, R194, R198, R204). -/
def FlightEnded (u t : State) (f : Flight) : Prop :=
  t.g = { u.g with
      gen := t.g.gen, uni := t.g.uni, cached := t.g.cached, flights := u.g.flights.filter (fun x => x.id != f.id)
      slices := t.g.slices, fences := t.g.fences, kops := t.g.kops }
    ∧ (SlicesAre u.g t.g fun i => { u.g.slice i with
        flags := (u.g.slice i).flags.filter (fun r => r.op != f.id), sync := (u.g.slice i).sync.filter fun o => o != f.id })
    ∧ (∀ r, r ∈ t.g.fences ↔ r ∈ u.g.fences ∧ ((∃ w ∈ r.waits, t.isOut w = true) ∨ r.drain.map Drain.hit = some true))
    ∧ (f.kid = none → t.g.kops = u.g.kops) ∧ ∀ k, f.kid = some k → OpDone { t.g with kops := u.g.kops } t.g k

/-- The word in flight f has written n registers from its destination in the lanes that executed it (R71, R76, R184). With a
general destination it has ended; with a uniform one it ends at a step of its own, until which a word in its window may
still read the value before (R58). -/
def Delivered (u t : State) (f : Flight) (n : Nat) (v : Nat → Nat → Word) : Prop :=
  (∀ r K, K < 32 → t.g.val r K = written u.g n f.op.reg (maskLanes f.exec) v r K)
    ∧ (u.g.shape f.op.reg = .general → FlightEnded u t f)
    ∧ ∀ i, u.g.shape f.op.reg = .uniform i → ∃ f' : Flight, f'.half = true ∧ f'.remain = 0
        ∧ f' = { f with half := true, got := f'.got, remain := 0, parked := f'.parked }
        ∧ t.g = { u.g with
            uni := t.g.uni, cached := t.g.cached, flights := u.g.flights.map fun x => if x.id = f.id then f' else x }
        ∧ Awaits u t [f'.event u.g.uid]

/-- The n bytes from a physical address have been written under the key of a slot: they read as `byte` says under that
key, under which every other byte reads as before; the blocks of 16 bytes that hold none of them are as they were (R347). -/
def WroteUnder (u t : State) (slot a n : Nat) (byte : Nat → Byte) : Prop :=
  (∀ i < n, t.seenGet slot (a + i) = byte i)
    ∧ (∀ k, k < a ∨ a + n ≤ k → t.seenGet slot k = u.seenGet slot k ∧ memGet t.mem k = memGet u.mem k)
    ∧ ∀ b, 16 * b + 16 ≤ a ∨ a + n ≤ 16 * b → t.sealOf b = u.sealOf b

/-- The word in flight f may perform the accesses of its remaining lanes now: no order and no earlier word of its gang
keeps it back, it has no fault, and no data it could meet is uncorrectable (R181, R193, R194). -/
def Performs (u : State) (f : Flight) : Prop :=
  f.cause = 0 ∧ u.mayPerform f = true ∧ (∀ L ∈ maskLanes f.remain, u.g.blockedLane f L = false) ∧ u.ue = []

/-- The new value of an atomic operation on w bits with the old value, the operand and the value of CAS (R207); the
floating-point operations act on each element (R206). -/
def AtomValue (aop ty w old x nv v : Nat) : Prop :=
  let sx (v : Nat) : Int := (BitVec.ofNat w v).toInt
  let each (f : Fmt → Nat → Nat → FRes) : Prop :=
    let fm := if ty = 3 then f64 else if ty = 4 then bf16 else f32
    let ew := if ty = 3 then 64 else if ty = 4 then 16 else 32
    v < 2 ^ w ∧ ∀ e, ew * e < w → v / 2 ^ (ew * e) % 2 ^ ew = (f fm (old / 2 ^ (ew * e) % 2 ^ ew) (x / 2 ^ (ew * e) % 2 ^ ew)).bits % 2 ^ ew
  let typed : Prop := (ty = 2 ∧ w = 32) ∨ (ty = 3 ∧ w = 64) ∨ (ty = 4 ∧ w = 32) ∨ (ty = 5 ∧ w = 64)
  match aop with
  | 0 => v = (old + x) % 2 ^ w
  | 1 => v < 2 ^ w ∧ (v + x) % 2 ^ w = old
  | 2 => (v = old ∨ v = x) ∧ sx v = min (sx old) (sx x)
  | 3 => (v = old ∨ v = x) ∧ sx v = max (sx old) (sx x)
  | 4 => v = min old x
  | 5 => v = max old x
  | 6 => v = old &&& x
  | 7 => v = old ||| x
  | 8 => v = old ^^^ x
  | 9 => v = x
  | 10 => v = if old = x then nv else old
  | 11 => typed → each fadd
  | 12 => typed → each fun fm => fminmax fm false
  | _ => typed → each fun fm => fminmax fm true

/-! ## The end of a flit's way -/

/-- A flit of the gang has reached its endpoint, or has been discarded with its allowance unit returned (`back` 1): its
operation in k4 is done, each CHCLOSE waits for it no longer, and the gang's other operations stay (R198, R270, R287). -/
def FlitGone (g g' : Gang) (f : Flit) (back : Nat) : Prop :=
  g' = { g with kops := g'.kops, allow := g'.allow }
    ∧ (∀ m, g'.allowance m = g.allowance m + if m = f.cap then back else 0)
    ∧ (∀ k ∈ g.kops, k.done = false → some k.id ≠ f.kid →
        ((∀ l, k.work ≠ .chclose l) → k ∈ g'.kops)
        ∧ ∀ l, k.work = .chclose l → (∃ x ∈ l, x ≠ f.id) → { k with work := .chclose (l.filter (· != f.id)) } ∈ g'.kops)
    ∧ ∀ k ∈ g'.kops, some k.id = f.kid → ∃ o ∈ g'.kops, o.cls = k.cls ∧ o.done = false

end Sys2Proof.Machine
end

