-- ==== Sys2Proof/Certificates/Slice0/Obligations.lean ====
section
/-! DEFINITION. Certificates/Slice0/Obligations.lean: the statements about the machine, for the provers. The words
come first, family by family, then taking an exception and returning from one, then the steps that are not words, then
the machine as a whole. -/

open Sys2Proof Sys2Proof.Machine

/-! ## Words of the integer pipe -/

/-- R83, R84, R86: moves, constants, lane identities and SEL, with the destination general or uniform. R85, R87, R88, R92:
the words that take values from other lanes; their participants are the lanes that execute. That SHFL takes its distance as
an unsigned number is the model's reading (DEDUCED, log 22). -/
def Obligations.MovesAndLaneExchange : Prop :=
  (∀ (s : State) (c : Bool) (d a b : BitVec 6) (m : BitVec 2) (q : BitVec 4) (i18 : BitVec 18) (i14 : BitVec 14),
     WritesGen (.mov c d a q) s 1 d.toNat [(1, a.toNat)] (s.exec q) (one fun L => s.src.val a.toNat L)
     ∧ Writes (.movi c d i18) s 1 d.toNat [] s.lanes (one fun _ => BitVec.ofInt 32 i18.toInt)
     ∧ (∃ v, Writes (.movhi c d i14) s 1 d.toNat [] s.lanes (one v)
         ∧ ∀ L, (v L).extractLsb' 18 14 = i14 ∧ (v L).extractLsb' 0 18 = (s.src.val d.toNat L).extractLsb' 0 18)
     ∧ WritesGen (.laneid c d m q) s 1 d.toNat [] (s.exec q)
         (one fun L => BitVec.ofNat 32 (match m.toNat with
           | 0 => L
           | 1 => L / 4
           | 2 => L % 4
           | _ => s.src.width))
     ∧ Writes (.sel c d a b m q) s 1 d.toNat [(1, a.toNat), (1, b.toNat)] (s.exec q)
         (one fun L => if s.src.pred m.toNat L then s.src.val a.toNat L else s.src.val b.toNat L))
  ∧ (∀ (s : State) (c : Bool) (d a b : BitVec 6) (p : BitVec 3) (m : BitVec 2) (q : BitVec 4),
       (∃ v, Writes (.shfl c d a b m q) s 1 d.toNat [(1, a.toNat), (1, b.toNat)] (s.exec q) (one v)
         ∧ ∀ L, ∃ src : Int,
           (match m.toNat with
             | 0 => src = (s.src.val b.toNat L).toNat % 32
             | 1 => src = (L : Int) - (s.src.val b.toNat L).toNat
             | 2 => src = (L : Int) + (s.src.val b.toNat L).toNat
             | _ => src = (L ^^^ ((s.src.val b.toNat L).toNat % 32) : Nat))
           ∧ (∀ P ∈ s.exec q, (P : Int) = src → v L = s.src.val a.toNat P)
           ∧ ((∀ P ∈ s.exec q, (P : Int) ≠ src) → v L = s.src.val a.toNat L))
       ∧ (∃ v, Writes (.bcast c d a b q) s 1 d.toNat [(1, a.toNat), (1, b.toNat)] (s.exec q) (one fun _ => v)
         ∧ let j := (s.src.val b.toNat (leader (s.exec q))).toNat % 32
           v = if j ∈ s.exec q then s.src.val a.toNat j else s.src.val a.toNat (leader (s.exec q)))
       ∧ Writes (.unif c d a q) s 1 d.toNat [(1, a.toNat)] (s.exec q) (one fun _ => s.src.val a.toNat (leader (s.exec q)))
       ∧ (∃ v, Writes (.voteBallot c d p q) s 1 d.toNat [] (s.exec q) (one fun _ => v)
         ∧ ∀ L < 32, v.getLsbD L = true ↔ L ∈ s.exec q ∧ s.src.pred p.toNat L = true))

/-- R78, R89 to R92: the words that write predicates, and those that move predicates to registers and back. -/
def Obligations.PredicateWords : Prop :=
  ∀ (s : State) (c : Bool) (d a b : BitVec 3) (va vb : BitVec 6) (m : BitVec 2) (m1 : BitVec 1) (q : BitVec 4) (i : BitVec 12),
    (let n := if m.toNat < 2 then 1 else 2
     ∃ v, WritesPred (.icmp c d va vb m q) s d.toNat [(n, va.toNat), (n, vb.toNat)] s.lanes v
      ∧ ∀ L, v L = true ↔
        (if n = 1 then cmpHolds (q.toNat % 8) (m.getLsbD 0) (s.src.val va.toNat L) (s.src.val vb.toNat L)
          else cmpHolds (q.toNat % 8) (m.getLsbD 0) (s.src.val64 va.toNat L) (s.src.val64 vb.toNat L))
        ∧ (q.getLsbD 3 = true → s.src.pred d.toNat L = true))
    ∧ (∃ v, WritesPred (.icmpi c a d va i) s d.toNat [(1, va.toNat)] s.lanes v
      ∧ ∀ L, v L = true ↔
        let x := s.src.val va.toNat L
        let y : Word := BitVec.ofInt 32 i.toInt
        match a.toNat with
        | 4 => cmpHolds 2 true x y
        | 5 => cmpHolds 3 true x y
        | k => cmpHolds k false x y)
    ∧ (∃ v, WritesPred (.plog c d a b m q) s d.toNat [] (s.exec q) v
      ∧ ∀ L, v L = true ↔
        let x := s.src.pred a.toNat L = true
        let y := s.src.pred b.toNat L = true
        match m.toNat with
        | 0 => x ∧ y
        | 1 => x ∨ y
        | 2 => ¬(x ↔ y)
        | _ => x ∧ ¬y)
    ∧ (∃ v, WritesPred (.voteAnyAll c d a m1 q) s d.toNat [] (s.exec q) v
      ∧ ∀ L, v L = true ↔
        if m1 = 0 then ∃ P ∈ s.exec q, s.src.pred a.toNat P = true else ∀ P ∈ s.exec q, s.src.pred a.toNat P = true)
    ∧ (∃ v, Writes (.p2v c va q) s 1 va.toNat [] (s.exec q) (one v)
      ∧ ∀ L k, (v L).getLsbD k = (decide (k < 8) && s.src.pred k L))
    ∧ ((Readable s [(1, va.toNat)] → ∃ t, exec (.v2p c va q) s = .next t
        ∧ t = { s with g := { s.g with preds := t.g.preds } }
        ∧ ∀ k L, L < 32 → t.g.pred k L = if k < 7 ∧ L ∈ s.exec q then (s.src.val va.toNat L).getLsbD k else s.g.pred k L)
      ∧ (¬Readable s [(1, va.toNat)] → Opr (.v2p c va q) s))

/-- R93: the arithmetic words in the modes 32, 64, 16x2 and 8x4, with the destination general or uniform. R98: the logical
words, bit by bit. -/
def Obligations.IntegerAndLogic : Prop :=
  (∀ (s : State) (c : Bool) (d a b : BitVec 6) (m : BitVec 2) (q : BitVec 4) (i : BitVec 12),
     WritesModes (.iadd c d a b m q) s d a b m (s.exec q) (fun _ x y => x + y)
     ∧ WritesModes (.isub c d a b m q) s d a b m (s.exec q) (fun _ x y => x - y)
     ∧ WritesModes (.imul c d a b m q) s d a b m (s.exec q) (fun _ x y => x * y)
     ∧ WritesModes (.iabs c d a m q) s d a a m (s.exec q) (fun w x _ => BitVec.ofInt w x.toInt.natAbs)
     ∧ WritesModes (.ineg c d a m q) s d a a m (s.exec q) (fun w x _ => BitVec.ofInt w (0 - x.toInt))
     ∧ (m.toNat = 2 ∨ m.toNat = 3 → s.isAffine d.toNat = true →
         Opr (.iadd c d a b m q) s ∧ Opr (.isub c d a b m q) s ∧ Opr (.imul c d a b m q) s)
     ∧ (s.isAffine d.toNat = true → Opr (.iabs c d a m q) s ∧ Opr (.ineg c d a m q) s)
     ∧ Writes (.iaddi c d a i) s 1 d.toNat [(1, a.toNat)] s.lanes (one fun L => s.src.val a.toNat L + BitVec.ofInt 32 i.toInt))
  ∧ (∀ (s : State) (c : Bool) (d a b : BitVec 6) (m : BitVec 1) (q : BitVec 4) (i : BitVec 12),
       let bits (op : Bool → Bool → Bool) (w : Nat) (x y v : BitVec w) : Prop :=
         ∀ k < w, v.getLsbD k = op (x.getLsbD k) (y.getLsbD k)
       let imm (op : Bool → Bool → Bool) (w : Instr) : Prop :=
         ∃ v, Writes w s 1 d.toNat [(1, a.toNat)] s.lanes (one v)
           ∧ ∀ L, bits op 32 (s.src.val a.toNat L) (BitVec.ofInt 32 i.toInt) (v L)
       WritesWide (.and c d a b m q) s d a b (m == 1) (s.exec q) (bits and)
       ∧ WritesWide (.or c d a b m q) s d a b (m == 1) (s.exec q) (bits or)
       ∧ WritesWide (.xor c d a b m q) s d a b (m == 1) (s.exec q) (bits fun x y => x != y)
       ∧ WritesWide (.andn c d a b m q) s d a b (m == 1) (s.exec q) (bits fun x y => x && !y)
       ∧ WritesWide (.not c d a m q) s d a a (m == 1) (s.exec q) (bits fun x _ => !x)
       ∧ imm and (.andi c d a i) ∧ imm or (.ori c d a i) ∧ imm (fun x y => x != y) (.xori c d a i))

/-- R93, R95: high products, minima and maxima, quotients and remainders, by their integer values. R94, R96, R97:
multiply-accumulate, widening accumulation and address arithmetic, modulo the destination's width. -/
def Obligations.WideAndAccumulate : Prop :=
  (∀ (s : State) (c : Bool) (d a b : BitVec 6) (m : BitVec 2) (m1 : BitVec 1) (q : BitVec 4),
     let uns := m.getLsbD 0
     let wide := m.getLsbD 1
     WritesWide (.imulhs c d a b m1 q) s d a b (m1 == 1) (s.exec q) (fun w x y v => v.toInt = x.toInt * y.toInt / 2 ^ w)
     ∧ WritesWide (.imulhn c d a b m1 q) s d a b (m1 == 1) (s.exec q) (fun w x y v => v.toNat = x.toNat * y.toNat / 2 ^ w)
     ∧ WritesWide (.imin c d a b m q) s d a b wide (s.exec q) (fun _ x y v =>
         if uns then v.toNat = min x.toNat y.toNat else v.toInt = min x.toInt y.toInt)
     ∧ WritesWide (.imax c d a b m q) s d a b wide (s.exec q) (fun _ x y v =>
         if uns then v.toNat = max x.toNat y.toNat else v.toInt = max x.toInt y.toInt)
     ∧ WritesWide (.idiv c d a b m q) s d a b wide (s.exec q) (fun w x y v =>
         if y = 0 then v = BitVec.allOnes w
         else if uns then v.toNat = x.toNat / y.toNat
         else if x.toInt = -2 ^ (w - 1) ∧ y.toInt = -1 then v = x
         else v.toInt = x.toInt.tdiv y.toInt)
     ∧ WritesWide (.irem c d a b m q) s d a b wide (s.exec q) (fun _ x y v =>
         if y = 0 then v = x
         else if uns then v.toNat = x.toNat % y.toNat
         else v.toInt = x.toInt.tmod y.toInt))
  ∧ (∀ (s : State) (c : Bool) (d a b e : BitVec 6) (pd pe pa : BitVec 5) (m : BitVec 2) (q : BitVec 4) (i : BitVec 12),
       let x (L : Nat) : Word := s.src.val a.toNat L
       let y (L : Nat) : Word := s.src.val b.toNat L
       Writes (.imad c d a b e) s 1 d.toNat [(1, a.toNat), (1, b.toNat), (1, e.toNat)] s.lanes
           (one fun L => BitVec.ofInt 32 ((x L).toInt * (y L).toInt + (s.src.val e.toNat L).toInt))
       ∧ Writes (.imadw c pd a b pe) s 2 (2 * pd.toNat) [(1, a.toNat), (1, b.toNat), (2, 2 * pe.toNat)] s.lanes
           (two fun L => BitVec.ofInt 64 ((x L).toInt * (y L).toInt + (s.src.val64 (2 * pe.toNat) L).toInt))
       ∧ Writes (.imadwn c pd a b pe) s 2 (2 * pd.toNat) [(1, a.toNat), (1, b.toNat), (2, 2 * pe.toNat)] s.lanes
           (two fun L => BitVec.ofNat 64 ((x L).toNat * (y L).toNat + (s.src.val64 (2 * pe.toNat) L).toNat))
       ∧ Writes (.iaccw c pd a m q) s 2 (2 * pd.toNat) [(1, a.toNat)] (s.exec q)
           (two fun L => s.src.val64 (2 * pd.toNat) L + BitVec.ofInt 64 (match m.toNat with
             | 0 => (x L).toInt
             | 1 => (x L).toNat
             | 2 => (elem 16 0 (x L)).toInt
             | _ => (elem 16 0 (x L)).toNat))
       ∧ WritesGen (.addr c pd pa b m q) s 2 (2 * pd.toNat) [(2, 2 * pa.toNat), (1, b.toNat)] (s.exec q)
           (two fun L => s.src.val64 (2 * pa.toNat) L + BitVec.ofInt 64 ((y L).toInt * 2 ^ m.toNat))
       ∧ WritesGen (.addri c pd pa i) s 2 (2 * pd.toNat) [(2, 2 * pa.toNat)] s.lanes
           (two fun L => s.src.val64 (2 * pa.toNat) L + BitVec.ofInt 64 i.toInt))

/-- R99: shifts of every element width by any count, with the destination general or uniform. R100, R101: bit fields, bit
counts and the bit reversal. -/
def Obligations.ShiftsAndBitFields : Prop :=
  (∀ (s : State) (c : Bool) (d a b : BitVec 6) (m : BitVec 2) (w1 : BitVec 1) (n : BitVec 6) (q : BitVec 4),
     let left (w : Nat) (x : BitVec w) (k : Nat) (v : BitVec w) : Prop :=
       ∀ j < w, v.getLsbD j = (decide (k ≤ j) && x.getLsbD (j - k))
     let right (fill : Bool) (w : Nat) (x : BitVec w) (k : Nat) (v : BitVec w) : Prop :=
       ∀ j < w, v.getLsbD j = if j + k < w then x.getLsbD (j + k) else fill && x.msb
     let var (i : Instr) (r : (w : Nat) → BitVec w → Nat → BitVec w → Prop) : Prop :=
       let packed (w k : Nat) : Prop :=
         ∃ v, Writes i s 1 d.toNat [(1, a.toNat), (1, b.toNat)] (s.exec q) (one v)
           ∧ ∀ L e, e < k → r w (elem w e (s.src.val a.toNat L)) (elem w e (s.src.val b.toNat L)).toNat (elem w e (v L))
       match m.toNat with
       | 1 => ∃ v, Writes i s 2 d.toNat [(2, a.toNat), (1, b.toNat)] (s.exec q) (two v)
           ∧ ∀ L, r 64 (s.src.val64 a.toNat L) (s.src.val b.toNat L).toNat (v L)
       | 0 => packed 32 1
       | 2 => packed 16 2
       | _ => packed 8 4
     let imm (gen : Bool) (i : Instr) (r : (w : Nat) → BitVec w → Nat → BitVec w → Prop) : Prop :=
       let holds (k : Nat) (f : Nat → Nat → Word) : Prop :=
         if gen then WritesGen i s k d.toNat [(k, a.toNat)] s.lanes f else Writes i s k d.toNat [(k, a.toNat)] s.lanes f
       if w1 = 1 then ∃ v, holds 2 (two v) ∧ ∀ L, r 64 (s.src.val64 a.toNat L) n.toNat (v L)
       else ∃ v, holds 1 (one v) ∧ ∀ L, r 32 (s.src.val a.toNat L) n.toNat (v L)
     var (.shl c d a b m q) left ∧ var (.shr c d a b m q) (right false) ∧ var (.sar c d a b m q) (right true)
     ∧ imm true (.shli c d a w1 n) left ∧ imm false (.shri c d a w1 n) (right false) ∧ imm false (.sari c d a w1 n) (right true))
  ∧ (∀ (s : State) (c : Bool) (d a : BitVec 6) (l p : BitVec 5) (m : BitVec 2) (q : BitVec 4),
       let x (L k : Nat) : Bool := (s.src.val a.toNat L).getLsbD k
       (∃ v, Writes (.bfx c d a l p) s 1 d.toNat [(1, a.toNat)] s.lanes (one v)
         ∧ ∀ L, ∀ k < 32, (v L).getLsbD k = (decide (k ≤ l.toNat) && x L (p.toNat + k)))
       ∧ (∃ v, Writes (.bfxs c d a l p) s 1 d.toNat [(1, a.toNat)] s.lanes (one v)
         ∧ ∀ L, ∀ k < 32, (v L).getLsbD k = x L (p.toNat + min k l.toNat))
       ∧ (∃ v, Writes (.bfi c d a l p) s 1 d.toNat [(1, a.toNat)] s.lanes (one v)
         ∧ ∀ L, ∀ k < 32, (v L).getLsbD k
           = if p.toNat ≤ k ∧ k ≤ p.toNat + l.toNat then x L (k - p.toNat) else (s.src.val d.toNat L).getLsbD k)
       ∧ (∃ v : Nat → Word, Writes (.bitop c d a m q) s 1 d.toNat [(1, a.toNat)] (s.exec q) (one v)
         ∧ ∀ L, match m.toNat with
           | 0 => (v L).toNat = ((List.range 32).filter (x L)).length
           | 1 => (v L).toNat ≤ 32 ∧ (∀ k < 32, 32 - (v L).toNat ≤ k → x L k = false) ∧ ((v L).toNat < 32 → x L (31 - (v L).toNat) = true)
           | 2 => (v L).toNat ≤ 32 ∧ (∀ k < (v L).toNat, x L k = false) ∧ ((v L).toNat < 32 → x L (v L).toNat = true)
           | _ => ∀ k < 32, (v L).getLsbD k = x L (31 - k)))

/-- R102, R103: prefixes and reductions over the participants. -/
def Obligations.ScanWords : Prop :=
  ∀ (s : State) (c : Bool) (d a : BitVec 6) (m : BitVec 2) (q : BitVec 4),
    let part := s.exec q
    let x (P : Nat) : Word := s.src.val a.toNat P
    let sum32 (l : List Nat) : Word := BitVec.ofInt 32 (l.map fun P => (x P).toInt).sum
    let sum64 (l : List Nat) : DWord := BitVec.ofInt 64 (l.map fun P => (x P).toInt).sum
    let greatest (l : List Nat) (v : Word) : Prop := (∃ P ∈ l, v = x P) ∧ ∀ P ∈ l, (x P).toInt ≤ v.toInt
    let least (l : List Nat) (v : Word) : Prop := (∃ P ∈ l, v = x P) ∧ ∀ P ∈ l, v.toInt ≤ (x P).toInt
    let upTo (L : Nat) : List Nat := part.filter fun P => decide (P ≤ L)
    let below (L : Nat) : List Nat := part.filter fun P => decide (P < L)
    (match m.toNat with
      | 0 => Writes (.scan c d a m q) s 1 d.toNat [(1, a.toNat)] part (one fun L => sum32 (upTo L))
      | 1 => Writes (.scan c d a m q) s 1 d.toNat [(1, a.toNat)] part (one fun L => sum32 (below L))
      | 2 => Writes (.scan c d a m q) s 2 d.toNat [(1, a.toNat)] part (two fun L => sum64 (upTo L))
      | _ => ∃ v, Writes (.scan c d a m q) s 1 d.toNat [(1, a.toNat)] part (one v) ∧ ∀ L ∈ part, greatest (upTo L) (v L))
    ∧ (match m.toNat with
      | 0 => Writes (.ired c d a m q) s 1 d.toNat [(1, a.toNat)] part (one fun _ => sum32 part)
      | 1 => Writes (.ired c d a m q) s 2 d.toNat [(1, a.toNat)] part (two fun _ => sum64 part)
      | 2 => ∃ v, Writes (.ired c d a m q) s 1 d.toNat [(1, a.toNat)] part (one fun _ => v) ∧ (part ≠ [] → greatest part v)
      | _ => ∃ v, Writes (.ired c d a m q) s 1 d.toNat [(1, a.toNat)] part (one fun _ => v) ∧ (part ≠ [] → least part v))

/-- R73 to R75: the words that may write an affine register, each with the base and the stride of R74. LANEID
in another mode, a general operand of a word over 32 bits, and IMUL of two affine operands raise OPR. -/
def Obligations.AffineWords : Prop :=
  ∀ (s : State) (c : Bool) (d a b : BitVec 6) (pd pa : BitVec 5) (m : BitVec 2) (w1 : BitVec 1) (n : BitVec 6) (q : BitVec 4)
    (i : BitVec 12) (k : Nat) (x1 s1 x2 s2 : Word) (y1 t1 y2 t2 : DWord),
    let e := s.exec q
    let src := s.src
    let does (w : Instr) (n : Nat) (lanes : List Nat) (base stride : DWord) : Prop :=
      ∃ t, exec w s = .next t ∧ WroteAff s t n k lanes base stride
    (src.shape d.toNat = .affine k → Readable s [(1, d.toNat), (1, a.toNat), (1, b.toNat)] →
      (if m = 0 then does (.laneid c d m q) 1 e 0 1 else Opr (.laneid c d m q) s)
      ∧ (AffOperand src a.toNat x1 s1 →
          does (.mov c d a q) 1 e (x1.setWidth 64) (s1.setWidth 64)
          ∧ (w1 = 0 → does (.shli c d a w1 n) 1 s.lanes ((x1 <<< n.toNat).setWidth 64) ((s1 <<< n.toNat).setWidth 64)))
      ∧ (AffOperand src a.toNat x1 s1 → AffOperand src b.toNat x2 s2 → m = 0 →
          does (.iadd c d a b m q) 1 e ((x1 + x2).setWidth 64) ((s1 + s2).setWidth 64)
          ∧ does (.isub c d a b m q) 1 e ((x1 - x2).setWidth 64) ((s1 - s2).setWidth 64)
          ∧ ((src.shape a.toNat).same (.uniform 0) = true ∨ (src.shape b.toNat).same (.uniform 0) = true →
              does (.imul c d a b m q) 1 e ((x1 * x2).setWidth 64) ((s1 * x2 + x1 * s2).setWidth 64))
          ∧ ((src.shape a.toNat).same (.affine 0) = true → (src.shape b.toNat).same (.affine 0) = true → Opr (.imul c d a b m q) s))
      ∧ (src.shape a.toNat = .general → Opr (.mov c d a q) s
          ∧ (m = 0 → Opr (.iadd c d a b m q) s ∧ Opr (.isub c d a b m q) s ∧ Opr (.imul c d a b m q) s)
          ∧ (w1 = 0 → Opr (.shli c d a w1 n) s)))
    ∧ (src.shape d.toNat = .affine k → Readable s [(2, d.toNat), (2, a.toNat), (2, b.toNat)] → AffOperand64 src a.toNat y1 t1 →
      (w1 = 1 → does (.shli c d a w1 n) 2 s.lanes (y1 <<< n.toNat) (t1 <<< n.toNat))
      ∧ (AffOperand64 src b.toNat y2 t2 → m = 1 →
          does (.iadd c d a b m q) 2 e (y1 + y2) (t1 + t2)
          ∧ does (.isub c d a b m q) 2 e (y1 - y2) (t1 - t2)
          ∧ ((src.shape a.toNat).same (.uniform 0) = true ∨ (src.shape b.toNat).same (.uniform 0) = true →
              does (.imul c d a b m q) 2 e (y1 * y2) (t1 * y2 + y1 * t2))))
    ∧ (src.shape (2 * pd.toNat) = .affine k → Readable s [(2, 2 * pd.toNat), (2, 2 * pa.toNat), (1, b.toNat)] →
      AffOperand64 src (2 * pa.toNat) y1 t1 →
      does (.addri c pd pa i) 2 s.lanes (y1 + BitVec.ofInt 64 i.toInt) t1
      ∧ (AffOperand src b.toNat x2 s2 →
          does (.addr c pd pa b m q) 2 e (y1 + BitVec.ofInt 64 (x2.toInt * 2 ^ m.toNat)) (t1 + BitVec.ofInt 64 (s2.toInt * 2 ^ m.toNat)))
      ∧ (src.shape b.toNat = .general → Opr (.addr c pd pa b m q) s))

/-! ## Floating-point words -/

/-- R121, R124, R125, R128, R130: the words over the four types; FDIV and FSQRT over two. R131, R132, R135 to R137: the
functions of XF, the floating-point constant, packing, Q4N codes. Which admitted result a function of R131 gives, and
the flag of QENC for a NaN, are the model's (log 6). -/
def Obligations.FloatArithmeticAndFunctions : Prop :=
  (∀ (s : State) (c : Bool) (d a b : BitVec 6) (m r : BitVec 2) (m1 : BitVec 1) (q : BitVec 4),
     let e := s.exec q
     WritesFpModes (.fadd c d a b m q) s d a b m.toNat e fadd
     ∧ WritesFpModes (.fsub c d a b m q) s d a b m.toNat e fsub
     ∧ WritesFpModes (.fmul c d a b m q) s d a b m.toNat e fmul
     ∧ WritesFpModes (.fmin c d a b m q) s d a b m.toNat e (fun f => fminmax f false)
     ∧ WritesFpModes (.fmax c d a b m q) s d a b m.toNat e (fun f => fminmax f true)
     ∧ WritesFpModes (.fsgn c d a b m q) s d a b m.toNat e fsgn
     ∧ WritesFpModes (.frnd c d a r m q) s d a a m.toNat e (fun f x _ => frnd f (Rm.ofBits r) x)
     ∧ WritesFpModes (.fdiv c d a b m1 q) s d a b m1.toNat e fdiv
     ∧ WritesFpModes (.fsqrt c d a m1 q) s d a a m1.toNat e (fun f x _ => fsqrt f x))
  ∧ (∀ (s : State) (c : Bool) (d a b : BitVec 6) (m1 : BitVec 1) (q : BitVec 4) (i : BitVec 18),
       let x (r : BitVec 6) (L : Nat) : Nat := (s.src.val r.toNat L).toNat
       let xf (w : Instr) (f : Nat → FRes) : Prop :=
         WritesFp w s 1 d.toNat [(1, a.toNat)] (s.exec q) (one fun L => BitVec.ofNat 32 (f (x a L)).bits)
           (orFlags (s.exec q) fun L => (f (x a L)).fl)
       xf (.frcp c d a q) frcp ∧ xf (.frsq c d a q) frsq ∧ xf (.fexp2 c d a q) fexp2 ∧ xf (.flog2 c d a q) flog2
       ∧ xf (.fsin c d a q) fsin ∧ xf (.fcos c d a q) fcos
       ∧ (∃ v, Writes (.fmovi c d i) s 1 d.toNat [] s.lanes (one fun _ => v) ∧ v.extractLsb' 14 18 = i ∧ v.extractLsb' 0 14 = 0)
       ∧ (let f := if m1 = 0 then bf16 else f16
          let r (L : Nat) (o : BitVec 6) : FRes := roundF f .rn (f32.val (x o L))
          ∃ v, WritesFp (.cvtp c d a b m1 q) s 1 d.toNat [(1, a.toNat), (1, b.toNat)] (s.exec q) (one v)
             (orFlags (s.exec q) fun L => (r L a).fl ||| (r L b).fl)
           ∧ ∀ L, elem 16 0 (v L) = BitVec.ofNat 16 (r L a).bits ∧ elem 16 1 (v L) = BitVec.ofNat 16 (r L b).bits)
       ∧ WritesFp (.qenc c d a b q) s 1 d.toNat [(1, a.toNat), (1, b.toNat)] (s.exec q)
           (one fun L => BitVec.ofNat 32 (qenc (x a L) (x b L)).1) (orFlags (s.exec q) fun L => (qenc (x a L) (x b L)).2)
       ∧ WritesFp (.qdec c d a b q) s 1 d.toNat [(1, a.toNat), (1, b.toNat)] (s.exec q)
           (one fun L => BitVec.ofNat 32 (qdec (x a L) (x b L)).bits) (orFlags (s.exec q) fun L => (qdec (x a L) (x b L)).fl))

/-- R122, R123, R129: the fused words and FSCALE. That infinities of both signs do not meet beside a NaN in FDOT2 is the
model's choice (log 6). -/
def Obligations.FusedWords : Prop :=
  ∀ (s : State) (c : Bool) (d a b e : BitVec 6) (pd pa pb pe : BitVec 5) (m : BitVec 2) (q : BitVec 4),
    let x (r : BitVec 6) (L : Nat) : Nat := (s.src.val r.toNat L).toNat
    let y (r : BitVec 5) (L : Nat) : Nat := (s.src.val64 (2 * r.toNat) L).toNat
    let h (r : BitVec 6) (L k : Nat) : Nat := (elem 16 k (s.src.val r.toNat L)).toNat
    let ops := [(1, a.toNat), (1, b.toNat), (1, e.toNat)]
    let packed (i : Instr) (f : Fmt) : Prop :=
      let r (L k : Nat) : FRes := ffma f (h a L k) (h b L k) (h e L k)
      ∃ v, WritesFp i s 1 d.toNat ops s.lanes (one v) (orFlags s.lanes fun L => (r L 0).fl ||| (r L 1).fl)
        ∧ ∀ L k, k < 2 → elem 16 k (v L) = BitVec.ofNat 16 (r L k).bits
    WritesFp (.ffma32 c d a b e) s 1 d.toNat ops s.lanes (one fun L => BitVec.ofNat 32 (ffma f32 (x a L) (x b L) (x e L)).bits)
        (orFlags s.lanes fun L => (ffma f32 (x a L) (x b L) (x e L)).fl)
    ∧ WritesFp (.ffma64 c pd pa pb pe) s 2 (2 * pd.toNat) [(2, 2 * pa.toNat), (2, 2 * pb.toNat), (2, 2 * pe.toNat)] s.lanes
        (two fun L => BitVec.ofNat 64 (ffma f64 (y pa L) (y pb L) (y pe L)).bits)
        (orFlags s.lanes fun L => (ffma f64 (y pa L) (y pb L) (y pe L)).fl)
    ∧ packed (.ffmabf c d a b e) bf16 ∧ packed (.ffmah c d a b e) f16
    ∧ (let r (L : Nat) : FRes := fdot f32 [(bf16.val (h a L 0), bf16.val (h b L 0)), (bf16.val (h a L 1), bf16.val (h b L 1))]
          [f32.val (x e L)]
       WritesFp (.fdot2 c d a b e) s 1 d.toNat ops s.lanes (one fun L => BitVec.ofNat 32 (r L).bits) (orFlags s.lanes fun L => (r L).fl))
    ∧ (match m.toNat with
      | 0 =>
        let r (L : Nat) : FRes := fscale f32 (x a L) (s.src.val b.toNat L).toInt
        WritesFp (.fscale c d a b m q) s 1 d.toNat [(1, a.toNat), (1, b.toNat)] (s.exec q) (one fun L => BitVec.ofNat 32 (r L).bits)
          (orFlags (s.exec q) fun L => (r L).fl)
      | 1 =>
        let r (L : Nat) : FRes := fscale f64 (s.src.val64 a.toNat L).toNat (s.src.val b.toNat L).toInt
        WritesFp (.fscale c d a b m q) s 2 d.toNat [(2, a.toNat), (1, b.toNat)] (s.exec q) (two fun L => BitVec.ofNat 64 (r L).bits)
          (orFlags (s.exec q) fun L => (r L).fl)
      | k =>
        let r (L j : Nat) : FRes := fscale (if k = 2 then bf16 else f16) (h a L j) (elem 16 j (s.src.val b.toNat L)).toInt
        ∃ v, WritesFp (.fscale c d a b m q) s 1 d.toNat [(1, a.toNat), (1, b.toNat)] (s.exec q) (one v)
            (orFlags (s.exec q) fun L => (r L 0).fl ||| (r L 1).fl)
          ∧ ∀ L j, j < 2 → elem 16 j (v L) = BitVec.ofNat 16 (r L j).bits)

/-- R126, R127, R134, R138, R139: compares, classes, conversions, gang sums and prefixes. -/
def Obligations.ConvertWords : Prop :=
  ∀ (s : State) (c : Bool) (p : BitVec 3) (d a b : BitVec 6) (t r3 : BitVec 3) (m r : BitVec 2) (m1 : BitVec 1) (q : BitVec 4),
    let x (o : BitVec 6) (L : Nat) : Nat := (s.src.val o.toNat L).toNat
    let y (o : BitVec 6) (L : Nat) : Nat := (s.src.val64 o.toNat L).toNat
    (let n := if m1 = 1 then 2 else 1
     let f (L : Nat) : Bool × FpFlags :=
        if m1 = 1 then fcmp f64 (q.toNat % 8) (y a L) (y b L) else fcmp f32 (q.toNat % 8) (x a L) (x b L)
     (Readable s [(n, a.toNat), (n, b.toNat)] → ∃ u, exec (.fcmp c p a b m1 q) s = .next u
        ∧ u = { s with
            g := { s.g with preds := u.g.preds, fpstat := s.g.fpstat ||| orFlags s.lanes fun L => (f L).2 }
            iss := { s.iss with fp := s.iss.fp ||| orFlags s.lanes fun L => (f L).2 } }
        ∧ ∀ j L, L < 32 → u.g.pred j L =
            if j = p.toNat ∧ p.toNat ≠ 7 ∧ L ∈ s.lanes then (f L).1 && (!q.getLsbD 3 || s.src.pred p.toNat L) else s.g.pred j L)
     ∧ (¬Readable s [(n, a.toNat), (n, b.toNat)] → Opr (.fcmp c p a b m1 q) s))
    ∧ Writes (.fclass c d a m q) s 1 d.toNat [(if m = 1 then 2 else 1, a.toNat)] (s.exec q)
        (one fun L => BitVec.ofNat 32 (match m.toNat with
          | 0 => fclass f32 (x a L)
          | 1 => fclass f64 (y a L)
          | k =>
            let h (j : Nat) : Nat := fclass (if k = 2 then bf16 else f16) (elem 16 j (s.src.val a.toNat L)).toNat
            h 0 + 2 ^ 16 * h 1))
    ∧ (let wideSrc := r3 = 1 ∨ r3 = 5
       let ops := [(if wideSrc then 2 else 1, a.toNat)]
       let res (L : Nat) : Fp64 := convert (Rm.ofBits r) t.toNat
          (cvtSource r3.toNat (if wideSrc then s.src.val64 a.toNat L else (s.src.val a.toNat L).setWidth 64))
       let fl := orFlags (s.exec q) fun L => (res L).fl
       if t = 1 ∨ t = 5 then WritesFp (.cvt c d a t r3 r q) s 2 d.toNat ops (s.exec q) (two fun L => (res L).bits) fl
       else WritesFp (.cvt c d a t r3 r q) s 1 d.toNat ops (s.exec q) (one fun L => elem 32 0 (res L).bits) fl)
    ∧ (if m1 = 1 then
        WritesFp (.fsum c d a m1 q) s 2 d.toNat [(2, a.toNat)] (s.exec q)
          (two fun _ => BitVec.ofNat 64 (fsumOver f64 (s.exec q) (y a)).bits) (orFlags (s.exec q) fun _ => (fsumOver f64 (s.exec q) (y a)).fl)
        ∧ WritesFp (.fscan c d a m1 q) s 2 d.toNat [(2, a.toNat)] (s.exec q)
          (two fun L => BitVec.ofNat 64 (fscanAt f64 (y a) none (s.exec q) L).bits)
          (orFlags (s.exec q) fun L => (fscanAt f64 (y a) none (s.exec q) L).fl)
      else
        WritesFp (.fsum c d a m1 q) s 1 d.toNat [(1, a.toNat)] (s.exec q)
          (one fun _ => BitVec.ofNat 32 (fsumOver f32 (s.exec q) (x a)).bits) (orFlags (s.exec q) fun _ => (fsumOver f32 (s.exec q) (x a)).fl)
        ∧ WritesFp (.fscan c d a m1 q) s 1 d.toNat [(1, a.toNat)] (s.exec q)
          (one fun L => BitVec.ofNat 32 (fscanAt f32 (x a) none (s.exec q) L).bits)
          (orFlags (s.exec q) fun L => (fscanAt f32 (x a) none (s.exec q) L).fl))

/-- R109: rounding m × 2^-k to an integer in each mode, and when it is inexact. R106 to R111: a number of a format rounds
to itself in every mode and raises no flag; a NaN becomes the canonical NaN of the format, and raises IV if it was
signalling. R110 to R112, R121: sums and products do not depend on the order of their operands, and an operation on a NaN
gives the canonical NaN, with IV exactly when an operand is signalling. -/
def Obligations.Rounding : Prop :=
  (∀ (rm : Rm) (neg : Bool) (m k : Nat),
     let r := roundInt rm neg m k false
     let q := r.1
     (r.2 = true ↔ q * 2 ^ k ≠ m ∨ m % 2 ^ k ≠ 0)
     ∧ (m % 2 ^ k = 0 → q = m / 2 ^ k)
     ∧ (q = m / 2 ^ k ∨ q = m / 2 ^ k + 1)
     ∧ (match rm with
       | .rn => 2 * (q * 2 ^ k - m) ≤ 2 ^ k ∧ 2 * (m - q * 2 ^ k) ≤ 2 ^ k
           ∧ (2 * (q * 2 ^ k - m) = 2 ^ k ∨ 2 * (m - q * 2 ^ k) = 2 ^ k → q % 2 = 0 ∨ k = 0)
       | .rz => q = m / 2 ^ k
       | .ru => if neg then q = m / 2 ^ k else m ≤ q * 2 ^ k
       | .rd => if neg then m ≤ q * 2 ^ k else q = m / 2 ^ k))
  ∧ (∀ (f : Fmt) (rm : Rm) (x : Nat), f ∈ [f16, bf16, f32, f64] → x < 2 * f.signBit →
       ((f.val x).isNan = false → roundF f rm (f.val x) = { bits := x, fl := 0 })
       ∧ ((f.val x).isNan = true → roundF f rm (f.val x) = { bits := f.nan, fl := if (f.val x).isSnan then flagIV else 0 }))
  ∧ (∀ (f : Fmt) (x y : Nat),
       fadd f x y = fadd f y x ∧ fmul f x y = fmul f y x
       ∧ ((f.val x).isNan = true ∨ (f.val y).isNan = true →
           let r : FRes := { bits := f.nan, fl := if (f.val x).isSnan || (f.val y).isSnan then flagIV else 0 }
           fadd f x y = r ∧ fsub f x y = r ∧ fmul f x y = r ∧ fdiv f x y = r))

/-! ## Control words -/

/-- R38, R154, R156: BRA and CALL send the slices that take them to a packet relative to their own, a call leaving its
return address in the link; nothing else of the package changes. R38, R157, R158: JMP, CALLI and RET go where a pair
or the link says; the first target in slice order that is no packet start raises ILL with that target in TRAP.ADDR,
and then no slice transfers. A target of BRA or CALL beyond the addresses is taken as computed (the model's choice,
log 37). -/
def Obligations.Transfers : Prop :=
  (∀ (s : State) (q : BitVec 4) (n : BitVec 1) (i : BitVec 19),
     let here := packetOf s.iss.wpc
     let target := here + BitVec.ofInt 64 (12 * i.toInt)
     (∃ t, exec (.bra q n i) s = .next t
       ∧ SlicesMoved s t (takesTransfer s.src q (n == 1)) fun _ sl => { sl with pc := target })
     ∧ (∃ t, exec (.call q n i) s = .next t
       ∧ SlicesMoved s t (takesTransfer s.src q (n == 1)) fun _ sl => { sl with pc := target, link := here + 12 }))
  ∧ (∀ (s : State) (a : BitVec 5) (q : BitVec 4),
       let pair (i : Nat) : DWord := s.src.val64 (2 * a.toNat) (targetLane s.src i)
       let link (i : Nat) : DWord := (s.src.slice i).link
       let takes := takesTransfer s.src q false
       let here := packetOf s.iss.wpc
       let bad (l : Nat → Bool) (target : Nat → DWord) (i : Nat) : Prop :=
         i ∈ s.group ∧ l i = true ∧ ¬Lands (target i) ∧ ∀ j ∈ s.group, l j = true → j < i → Lands (target j)
       let goes (w : Instr) (l : Nat → Bool) (target : Nat → DWord) (f : Nat → Slice → Slice) : Prop :=
         ((∀ i ∈ s.group, l i = true → Lands (target i)) → ∃ t, exec w s = .next t ∧ SlicesMoved s t l f)
         ∧ ∀ i, bad l target i → exec w s = .next (s.fault 1 0 (target i))
       goes .ret (fun _ => true) link (fun i sl => { sl with pc := link i })
       ∧ (Readable s [(2, 2 * a.toNat)] →
           goes (.jmp a q) takes pair (fun i sl => { sl with pc := pair i })
           ∧ goes (.calli a q) takes pair (fun i sl => { sl with pc := pair i, link := here + 12 }))
       ∧ (¬Readable s [(2, 2 * a.toNat)] → Opr (.jmp a q) s ∧ Opr (.calli a q) s))

/-- R159, R180: the mask stack; lanes that an earlier word of the chain has killed stay off; a push on a full stack or a use
of an empty one raises MSTK before any slice has changed. -/
def Obligations.MaskStack : Prop :=
  ∀ (s : State) (c : Bool) (q : BitVec 4) (o : BitVec 1),
    let old (i : Nat) : Slice := s.src.slice i
    let now (i : Nat) : Slice := s.g.slice i
    let top (i : Nat) : BitVec 4 := (now i).stack.getLastD 0
    ((∀ i ∈ s.group, (old i).stack.length < 4) → ∃ (t : State) (m : Nat → BitVec 4), exec (.mkpush c q) s = .next t
      ∧ (∀ i k, k < 4 → (m i).getLsbD k = ((old i).active.getLsbD k && (now i).active.getLsbD k && s.src.guardAt q (4 * i + k)))
      ∧ SlicesOnly s t fun i =>
          if i ∈ s.group then { now i with stack := (now i).stack ++ [(now i).active], active := m i } else now i)
    ∧ ((∃ i ∈ s.group, 4 ≤ (old i).stack.length) → exec (.mkpush c q) s = .next (s.fault 4 0 0))
    ∧ ((∀ i ∈ s.group, (old i).stack ≠ []) → ∃ t, exec (.mkctl c o) s = .next t
      ∧ SlicesOnly s t fun i =>
          if i ∈ s.group then
            (if o = 0 then { now i with active := top i &&& ~~~(now i).active }
              else { now i with active := top i, stack := (now i).stack.dropLast })
          else now i)
    ∧ ((∃ i ∈ s.group, (old i).stack = []) → exec (.mkctl c o) s = .next (s.fault 4 0 0))

/-- R163, R164, R202, R203: the words that only hold the issuing group back. WAITF and WAITC leave each slice at its word;
WAITC awaits the operations of its class that have not retired, but for the n youngest. R191, R194, R204, R210: FENCE
orders the words before it, those of a trap frame among them, and the accesses after it within its scope; it ends at
once, and a draining one with nothing to wait for raises an abort that its gang has recorded. What is seen outside a
scope is the model's (log 10), and that an aborted draining FENCE raises once (DEDUCED, log 35). -/
def Obligations.WaitsAndFences : Prop :=
  (∀ (s : State) (m : BitVec 12) (k : BitVec 3) (n : BitVec 6) (n16 : BitVec 16),
     (∃ t, exec (.waitf m) s = .next t
       ∧ SlicesMoved s t (fun _ => true) fun _ sl => { sl with pc := s.iss.wpc, wait := .waitf m })
     ∧ (∃ t ops young, exec (.waitc k n) s = .next t
       ∧ ops ++ young = (s.g.kops.filter fun o => o.cls == k.toNat).map KOp.id
       ∧ young.length = min n.toNat (s.g.kops.filter fun o => o.cls == k.toNat).length
       ∧ SlicesMoved s t (fun _ => true) fun _ sl => { sl with pc := s.iss.wpc, wait := .waitc k.toNat n.toNat ops })
     ∧ (∃ t u, exec (.sleep n16) s = .next t
       ∧ t = { u with agenda := t.agenda }
       ∧ SlicesOnly s u (fun i =>
           if i ∈ s.group then { s.g.slice i with wait := .sleep n16.toNat n16.toNat (s.c.cycle + 16 * n16.toNat + 1) }
           else s.g.slice i)
       ∧ (∀ i ∈ s.group, Instr.sleepExpiry s.g.uid i ∈ t.agenda)
       ∧ (∀ x ∈ s.agenda, x ∈ t.agenda)
       ∧ ∀ x ∈ t.agenda, x ∈ s.agenda ∨ ∃ i ∈ s.group, x = .sleepExpiry s.g.uid i)
     ∧ exec .yield s = .next { s with
         g := { s.g with key := s.next, waits := 0, yielded := some s.grp }
         next := s.next + 1 })
  ∧ (∀ (s : State) (c : Bool) (r : BitVec 1) (k : BitVec 2) (sc : BitVec 3),
       let before : List Nat := (s.g.outstanding.filter fun f =>
         f.op.kind != .gst && (f.op.kind != .atom || f.op.ret)
           && (k.toNat != 1 || f.op.kind == .atom || [MemKind.ld, .ldw, .ldt, .lda, .ldx].contains f.op.kind)).map (·.id)
       let record : FenceRec := { at_ := s.next, waits := before, writesOnly := k.toNat == 2, scope := sc.toNat }
       ∃ t drains, exec (.fence c r k sc) s = .next t
         ∧ (r = 0 → drains = [])
         ∧ (r = 1 → ∃ x : FenceRec, drains = [x] ∧ x.at_ = s.next ∧ x.writesOnly = false ∧ x.scope = sc.toNat
             ∧ (∃ d, x.drain = some d ∧ d.pc = s.iss.wpc ∧ d.slice = s.group.headD 0 ∧ (d.hit = true ↔ s.g.abort ≠ none))
             ∧ ∀ w, w ∈ x.waits ↔ (∃ f ∈ s.g.outstanding, f.op.kind = .atom ∧ f.op.ret = false ∧ f.id = w)
                 ∨ ∃ p ∈ s.posted, p.gang = s.g.uid ∧ p.word = w)
         ∧ (r = 0 ∨ s.g.abort = none ∨ s.postedWords ≠ [] → t = { s with g := { s.g with fences := s.g.fences ++ record :: drains }, next := s.next + 1 })
         ∧ (r = 1 → s.postedWords = [] → ∀ x, s.g.abort = some x → s.iss.wpc ≠ s.iss.last →
             t.g.abort = none ∧ ∃ st, t.iss.after = some st ∧ st.code = 7 ∧ st.info = 2 ∧ st.pc = s.iss.wpc ∧ st.addr = x))

/-! ## Taking an exception and returning from one -/

/-- R310, R313 to R316, R321: a fault of a word takes the gang to its context's trap entry; in privileged code, or without an
entry, it halts the gang, whose unfinished words become replay entries, and the host complex is told. R319: TRAP and BRK, after the other words of their chain, stop the
gang with their code byte as INFO; the saved program counters are at the word after the chain. -/
def Obligations.TakingAnException : Prop :=
  (∀ (s : State) (code info : Nat) (addr : DWord),
     1 ≤ code → code ≤ 11 → info < 256 → StopsAtOnce s.g → s.group ≠ [] →
     let c := s.ctx (s.task s.g.task).ctx
     let t := s.fault code info addr
     (c.valid = true → c.trapent ≠ 0 → Unprivileged s.g s.group →
       Entered s.g t.g s.c.cycle s.group c.trapent code info (s.group.headD 0) s.iss.wpc addr
       ∧ t = { s with g := t.g, c := t.c, iss := { s.iss with trapped := true } }
       ∧ t.c = { s.c with perfCnt := t.c.perfCnt })
     ∧ (Unprivileged s.g s.group → c.valid = false ∨ c.trapent = 0 →
       t.g.mode = .halted ∧ t.plat.unsolicited = (0, s.g.uid) :: s.plat.unsolicited)
     ∧ (¬Unprivileged s.g s.group →
       t = { s with
         g := { s.g with mode := .halted, stop := none, flights := [], hlist := t.g.hlist }
         plat := { s.plat with unsolicited := (0, s.g.uid) :: s.plat.unsolicited }
         iss := { s.iss with trapped := true } }
       ∧ t.g.hlist.map Flight.id = s.g.hlist.map Flight.id ++ s.g.flights.map Flight.id))
  ∧ (∀ (s : State) (k : BitVec 8),
       AtLastWord s → StopsAtOnce s.g → Unprivileged s.g s.group →
       let c := s.ctx (s.task s.g.task).ctx
       let stops (w : Instr) (code : Nat) (entry : DWord) : Prop :=
         c.valid = true → entry ≠ 0 → ∃ t g, exec w s = .next t
           ∧ g = { s.g with slices := g.slices, exempt := g.exempt, lastGrp := s.group.headD 0, cached := g.cached }
           ∧ SlicesAre s.g g (fun i => if i ∈ s.group then
               { s.g.slice i with pc := nextWord s.iss.last, flags := (g.slice i).flags } else s.g.slice i)
           ∧ Entered g t.g s.c.cycle s.group entry code k.toNat (s.group.headD 0) s.iss.wpc 0
           ∧ t = { s with g := t.g, c := t.c, iss := { s.iss with ended := true } }
           ∧ t.c = { s.c with perfCnt := t.c.perfCnt }
       stops (.trap k) 16 c.trapent ∧ stops (.brk k) 17 c.dbgent)

/-- R311, R316, R320, R321: RTE gives every live slice its saved state, puts the replay entries back in flight ahead of
the handler's own words and empties the frame; while these are more than sixteen together its chain waits; a saved
program counter that may not be restored halts the gang; unprivileged code takes PRV. Which saved program counters may
be restored beyond the tests of R320 is the model's choice (log 37). -/
def Obligations.ReturnFromException : Prop :=
  ∀ (s : State),
    let restorable (x : DWord) : Prop := x.extractLsb' 0 2 ≠ 3 ∧ x.toNat < 2 ^ 48
    let full : Prop := 16 < s.src.flights.length + ((s.src.frame.map fun fr => fr.entries.length).getD 0)
    (Unprivileged s.src s.group → s.group ≠ [] → exec .rte s = .next (s.fault 2 0 0))
    ∧ ((∀ i ∈ s.group, (s.src.slice i).priv = true) → full → exec .rte s = .next s.hold)
    ∧ ((∀ i ∈ s.group, (s.src.slice i).priv = true) → ¬full →
      (∀ fr, s.g.frame = some fr → s.g.slices.length = 8 → (∀ i < 8, s.g.live.getLsbD i = true → restorable (nth {} fr.slices i).pc) →
        (∀ i < 8, s.g.live.getLsbD i = true → (nth {} fr.slices i).regangAt = none) →
        ∃ t, exec .rte s = .next t
          ∧ t.g = { s.g with
              slices := t.g.slices, frame := none, past := fr.slices, flights := fr.entries.map reinject ++ s.g.flights
              mode := .running, hslices := 0, exempt := s.g.live, cached := t.g.cached }
          ∧ SlicesAre s.g t.g (fun i =>
              if s.g.live.getLsbD i then
                let o := (nth {} fr.slices i).resumed s.c.cycle
                { o with link := (s.g.slice i).link, cause := (s.g.slice i).cause, closed := (s.g.slice i).closed }
              else s.g.slice i)
          ∧ t = { s with g := t.g, c := t.c, agenda := t.agenda, next := t.next, iss := { s.iss with ended := true } }
          ∧ ∀ f ∈ t.g.flights, f.event s.g.uid ∈ t.agenda)
      ∧ (∀ fr i, s.g.frame = some fr → i < 8 → s.g.live.getLsbD i = true → ¬restorable (nth {} fr.slices i).pc →
        ∃ t, exec .rte s = .next t ∧ t.g.mode = .halted ∧ (0, s.g.uid) ∈ t.plat.unsolicited))

/-! ## Rejoining, ending, barriers and events -/

/-- R160, R161: REGANG. When every live slice that the mask names stands in the issuing group or waits at the same word
with the same mask, all of them form one issue group at the following word; while one is elsewhere the group waits;
where every live slice waits and no named set is all at one word with one mask, SYNC is raised, and names the lowest
slice's REGANG. A mask that names no live slice lets each slice go on alone. R25, R162, R322: EXIT ends the slices of
its group, and in a handler every slice. While another slice of the gang is live, only those slices leave; with the
last slice the gang retires: its bindings are released and its frame is gone. R29: with the last gang its block
retires. That named sets which share slices complete together is the model's reading (DEDUCED, log 21). -/
def Obligations.RejoiningAndEnding : Prop :=
  (∀ (s : State) (m : BitVec 8),
     (∃ t, exec (.regang m) s = .next t ∧ t.mem = s.mem ∧ t.g.gen = s.g.gen ∧ t.g.affB = s.g.affB ∧ t.g.affS = s.g.affS
       ∧ t.g.uni = s.g.uni ∧ t.g.preds = s.g.preds ∧ t.g.live = s.g.live ∧ t.iss.ended = true)
     ∧ (AtLastWord s → s.iss.wpc.extractLsb' 0 2 ≠ 3 →
     let here (j : Nat) : Prop := j ∈ s.group ∨ (s.g.live.getLsbD j = true ∧ (s.g.slice j).regangAt = some (m, s.iss.wpc))
     let named (j : Nat) : Prop := m.getLsbD j = true ∧ s.g.live.getLsbD j = true
     -- where a slice waits once the group has come, and whether it or the set it waits for is not all there
     let at_ (j : Nat) : Option (BitVec 8 × DWord) := if j ∈ s.group then some (m, s.iss.wpc) else (s.g.slice j).regangAt
     let awaits (i : Nat) (p : Nat → Prop) : Prop := ∃ k w j, at_ i = some (k, w) ∧ j < 8 ∧ k.getLsbD j = true ∧ s.g.live.getLsbD j = true ∧ p j
     ((∀ j < 8, j ∉ s.group → s.g.live.getLsbD j = true → at_ j = some (m, s.iss.wpc)
           ∨ (¬named j ∧ (at_ j = none ∨ awaits j fun k => at_ k = none ∨ here k))) →
       (∃ j < 8, named j) →
       ∃ t low, exec (.regang m) s = .next t ∧ here low ∧ (∀ j < 8, here j → low ≤ j)
         ∧ ChainEnded { s with next := s.next + 1 } t (fun g => { g with fences := t.g.fences })
         ∧ ∀ j < 8, (here j → (t.g.slice j).grp = low ∧ (t.g.slice j).wait = .none ∧ (t.g.slice j).active = (s.g.slice j).active
               ∧ (t.g.slice j).stack = (s.g.slice j).stack ∧ (t.g.slice j).link = (s.g.slice j).link
               ∧ (j ∈ s.group → (t.g.slice j).pc = nextWord s.iss.wpc))
             ∧ (¬here j → t.g.slice j = s.g.slice j))
     ∧ ((∀ j < 8, ¬named j) → NoneRejoins s → ∃ t, exec (.regang m) s = .next t
         ∧ ∀ j < 8, if j ∈ s.group then (t.g.slice j).grp = j ∧ (t.g.slice j).wait = .none ∧ (t.g.slice j).pc = nextWord s.iss.wpc
             else t.g.slice j = s.g.slice j)
     ∧ ((∀ i < 8, i ∈ s.group ∨ s.g.live.getLsbD i = true → at_ i = none ∨ awaits i fun j => at_ j = none) →
       ∃ t, exec (.regang m) s = .next t
         ∧ ChainEnded { s with next := s.next + 1 } t id
         ∧ ∀ j < 8, t.g.slice j = if j ∈ s.group then
             { s.g.slice j with pc := s.iss.wpc, wait := .regang m s.iss.wpc, flags := (t.g.slice j).flags } else s.g.slice j)
     ∧ (StopsAtOnce s.g → (∀ j < 8, s.g.live.getLsbD j = true → at_ j ≠ none ∧ awaits j fun k => at_ k ≠ at_ j) →
       (∀ j < 8, s.g.live.getLsbD j = true → (s.g.slice j).priv = false) →
       let c := s.ctx (s.task s.g.task).ctx
       c.valid = true → c.trapent ≠ 0 →
       ∃ t low, exec (.regang m) s = .next t ∧ low < 8 ∧ s.g.live.getLsbD low = true
         ∧ (∀ j < 8, s.g.live.getLsbD j = true → low ≤ j)
         ∧ t.g.trapCause.extractLsb' 0 8 = 5 ∧ t.g.trapPc = (if low ∈ s.group then s.iss.wpc else (s.g.slice low).pc)
         ∧ (t.g.slice low).pc = c.trapent ∧ (t.g.slice low).priv = true)))
  ∧ (∀ (s : State),
       let stays (j : Nat) : Prop := s.g.live.getLsbD j = true ∧ j ∉ s.group ∧ s.g.killed.extractLsb' (4 * j) 4 ≠ 15
       let retires : Prop := (∀ j < 8, ¬stays j) ∨ (s.g.frame ≠ none ∧ ∀ i ∈ s.group, (s.src.slice i).priv = true)
       let others : Prop := ∃ h ∈ s.gangs, h.uid ≠ 0 ∧ h.block = s.b.uid ∧ h.live ≠ 0
       s.g.slices.length = 8 → s.group ≠ [] → s.g.live = s.src.live →
       ((∃ j < 8, stays j) → s.g.frame = none → (∀ t, (s.tasks.find? fun x => x.id == s.b.task) = some t → s.allRetired t = false) →
         ∃ t, exec .exit s = .next t ∧ t.g.uid = s.g.uid ∧ t.mem = s.mem ∧ t.g.gen = s.g.gen ∧ t.g.uni = s.g.uni ∧ t.g.preds = s.g.preds
           ∧ ∀ j < 8, t.g.live.getLsbD j = true ↔ stays j)
       ∧ (retires → others → (∀ t, (s.tasks.find? fun x => x.id == s.b.task) = some t → s.allRetired t = false) →
         ∃ t, exec .exit s = .next t ∧ t.g.uid = s.g.uid ∧ t.g.live = 0 ∧ t.g.binds = [] ∧ t.g.frame = none ∧ t.g.stop = none
           ∧ t.mem = s.mem ∧ t.b = s.b)
       ∧ (retires → ¬others →
         (∀ t, (s.tasks.find? fun x => x.id == s.b.task) = some t → t.failing = false ∧ t.retired.length + 1 < t.record.gangs / t.record.home) →
         ∃ t, exec .exit s = .next t ∧ t.g.uid = s.g.uid ∧ t.g.live = 0 ∧ t.b.uid = s.b.uid ∧ t.b.gone = true ∧ t.b.queues = []
           ∧ t.mem = s.mem))
  ∧ (∀ (s : State),
       s.g.slices.length = 8 → s.group ≠ [] → s.g.live = s.src.live → s.g.killed = 0 → s.g.frame = none →
       (∀ t, (s.tasks.find? fun x => x.id == s.b.task) = some t → s.allRetired t = false) →
       (∀ k, s.groupOf s.g k = none) → (∀ j < 8, (s.g.slice j).regangAt = none) →
       (∃ j < 8, s.g.live.getLsbD j = true ∧ j ∉ s.group) →
         ∃ t, exec .exit s = .next t
           ∧ t = { s with g := t.g, c := t.c, iss := t.iss, next := s.next + 1 }
           ∧ t.g = { s.g with slices := t.g.slices, live := t.g.live, exempt := t.g.exempt, lastGrp := t.g.lastGrp, cached := t.g.cached }
           ∧ (∀ j < 8, t.g.live.getLsbD j = (s.g.live.getLsbD j && !s.group.contains j))
           ∧ (∀ j < 8, j ∉ s.group → t.g.slice j = s.g.slice j)
           ∧ ∀ j ∈ s.group, (t.g.slice j).flags = [] ∧ (t.g.slice j).sync = [] ∧ (t.g.slice j).wait = .none)

/-- R302, R303: BAR. An arrival marks the slices of the group; the gang arrives with its last live slice, and the last
gang expected completes the phase; a broken group lets the slices go with BRK; an arrival still outstanding holds the
chain back; a slot that names no group raises OPR. That an outstanding arrival holds a BAR back is the model's reading
(DEDUCED, log 21). -/
def Obligations.Barriers : Prop :=
  ∀ (s : State) (w : BitVec 1) (sl : BitVec 2),
    let slot := sl.toNat
    (s.groupOf s.g slot = none → Opr (.bar w sl) s)
    ∧ ∀ num, s.groupOf s.g slot = some num →
      let b := s.barrier s.g.task num
      let mine := s.arrival s.g slot
      (b.broken = true → ∃ t, exec (.bar w sl) s = .next t ∧ SlicesOnly s t fun i =>
          if i ∈ s.group then { s.g.slice i with brk := true, cause := 0x10FE } else s.g.slice i)
      ∧ (b.broken = false → mine.arrived = true ∨ (∃ i ∈ s.group, mine.slices.getLsbD i = true) →
          exec (.bar w sl) s = .next s.hold)
      ∧ (b.broken = false → mine.arrived = false → (∀ i ∈ s.group, mine.slices.getLsbD i = false) → AtLastWord s →
          (∃ i < 8, s.g.live.getLsbD i = true ∧ mine.slices.getLsbD i = false ∧ i ∉ s.group) →
          ∃ t, exec (.bar w sl) s = .next t
            ∧ ChainEnded s t (fun g => { g with arrivals := t.g.arrivals })
            ∧ (Store.get {} t.g.arrivals slot).arrived = false ∧ (Store.get {} t.g.arrivals slot).phase = b.phase
            ∧ (∀ i < 8, (Store.get {} t.g.arrivals slot).slices.getLsbD i = (mine.slices.getLsbD i || s.group.contains i))
            ∧ (∀ i ∈ s.group, (t.g.slice i).wait = (if w = 0 then .bar slot b.phase else .none)
                ∧ (t.g.slice i).pc = (if w = 0 then s.iss.wpc else nextWord s.iss.wpc))
            ∧ ∀ i < 8, i ∉ s.group → t.g.slice i = s.g.slice i)
      ∧ (b.broken = false → mine.arrived = false → (∀ i ∈ s.group, mine.slices.getLsbD i = false) → AtLastWord s →
          (∀ i < 8, s.g.live.getLsbD i = true → mine.slices.getLsbD i = true ∨ i ∈ s.group) →
          (∃ x ∈ (s.task s.g.task).barriers, x.num = num) → (s.tasks.find? fun t => t.id == s.g.task).isSome = true →
          (∀ x ∈ s.tasks, ∀ y ∈ s.tasks, x.id = y.id → x = y) → b.wide = false → b.expected ≠ 0 →
          ∃ t, exec (.bar w sl) s = .next t ∧ t.mem = s.mem ∧ t.g.gen = s.g.gen ∧ t.g.uni = s.g.uni ∧ t.g.preds = s.g.preds
            ∧ (Store.get {} t.g.arrivals slot).arrived = true
            ∧ (let after := t.barrier s.g.task num
               if b.arrived.length + 1 < b.expected then after.phase = b.phase ∧ after.arrived = b.arrived ++ [s.g.uid]
               else after.phase = b.phase + 1 ∧ after.arrived = []))

/-- R299, R300: WAITANY, without an armed binding in its mask, with armed ones of which none is pending, and with one
pending, which a group of one slice consumes. That a binding is consumed when it is latched is the model's reading
(DEDUCED, log 21). -/
def Obligations.WaitingForEvents : Prop :=
  ∀ (s : State) (p : BitVec 1) (m : BitVec 8),
    AtLastWord s →
    let on (w : Instr) (f : Nat → Slice → Slice) (g : Gang → Gang) : Prop :=
      ∃ t, exec w s = .next t ∧ ChainEnded s t g
        ∧ ∀ i < 8, ∃ sl, t.g.slice i = { sl with grp := (t.g.slice i).grp, flags := (t.g.slice i).flags }
          ∧ sl = if i ∈ s.group then f i (s.g.slice i) else s.g.slice i
    (armedIn s.g m = [] → on (.waitany p m)
      (fun _ sl => { sl with wait := .none, pc := nextWord s.iss.wpc, cause := 0xFF }) id)
    ∧ (armedIn s.g m ≠ [] → (∀ b ∈ armedIn s.g m, b.2.pending = false) → on (.waitany p m)
      (fun _ sl => if p = 1 then { sl with wait := .none, pc := nextWord s.iss.wpc, cause := 0xFD }
        else { sl with pc := s.iss.wpc, wait := .waitany m }) id)
    ∧ (∀ k x, s.group = [k] → (armedIn s.g m).find? (fun b => b.2.pending) = some x →
      on (.waitany p m) (fun _ sl =>
          let st := s.bindStatus x.2
          { sl with
            wait := .none, pc := x.2.handler, cause := BitVec.ofNat 32 (x.1 + 256 * x.2.kind + 4096 * st)
            brk := sl.brk || (x.2.kind == 0 && st == 1) })
        (fun g => { g with binds := Store.del g.binds x.1 }))

/-- R297, R298, R306: BIND arms a binding with its source looked at at once, UNBIND makes one unarmed, GINFO reads an item
of a group. -/
def Obligations.BindingWords : Prop :=
  ∀ (s : State) (c : Bool) (k n : BitVec 3) (y : BitVec 6) (z : BitVec 5) (x : BitVec 6) (sl : BitVec 2) (i : BitVec 3),
    let ops := [(1, y.toNat), (2, 2 * z.toNat)]
    let L := leader s.lanes
    let arg := s.src.val y.toNat L
    let h := s.src.val64 (2 * z.toNat) L
    let regrouped (t : State) : Prop :=
      t = { s with g := { s.g with binds := t.g.binds, slices := t.g.slices } }
        ∧ SlicesAre s.g t.g fun i => { s.g.slice i with grp := (t.g.slice i).grp }
    (¬Readable s ops → Opr (.bind c k n y z) s)
    ∧ (Readable s ops → s.lanes = [] → exec (.bind c k n y z) s = .next s)
    ∧ (Readable s ops → s.lanes ≠ [] →
      (¬Lands h → exec (.bind c k n y z) s = .next (s.fault 1 0 h))
      ∧ (Lands h → s.argFault k.toNat arg ≠ 0 → exec (.bind c k n y z) s = .next (s.fault (s.argFault k.toNat arg) 0 0))
      ∧ (Lands h → s.argFault k.toNat arg = 0 → NoneAwaitsAny s.g → ∃ t b, exec (.bind c k n y z) s = .next t ∧ regrouped t
        ∧ Store.find t.g.binds n.toNat = some b ∧ b.kind = k.toNat ∧ b.arg = arg ∧ b.handler = h
        ∧ b.deadline = s.ns + arg.toNat ∧ b.broken = false ∧ (b.pending = true ↔ s.satisfied s.g s.b { b with pending := false } = true)
        ∧ ∀ j, j ≠ n.toNat → Store.find t.g.binds j = Store.find s.g.binds j))
    ∧ (s.lanes = [] → exec (.unbind c n) s = .next s)
    ∧ (s.lanes ≠ [] → NoneAwaitsAny s.g → ∃ t, exec (.unbind c n) s = .next t ∧ regrouped t
        ∧ ∀ j, Store.find t.g.binds j = if j = n.toNat then none else Store.find s.g.binds j)
    ∧ Writes (.ginfo c x sl i) s 1 x.toNat [] s.lanes (one fun _ =>
        match s.groupOf s.g sl.toNat with
        | none => 0xFFFFFFFF
        | some num =>
          let b := s.barrier s.g.task num
          match i.toNat with
          | 0 => BitVec.ofNat 32 num
          | 1 => BitVec.ofNat 32 b.size
          | 2 => BitVec.ofNat 32 b.expected
          | 3 => BitVec.ofNat 32 (nth 0 (nth {} (s.task s.g.task).members s.g.id).rank sl.toNat)
          | 4 => b.phase
          | 5 => BitVec.ofNat 32 b.scope
          | _ => if b.broken then 1 else 0)

/-! ## Special registers -/

/-- R142 to R152: RDS of each register, and NOP. Each lane receives the copy of its own slice; a privileged register
read by unprivileged code raises PRV. -/
def Obligations.SpecialRegisterReads : Prop :=
  ∀ (s : State) (c : Bool) (d : BitVec 6),
    let g := s.src
    let r := (s.task g.task).record
    let word (n : Nat) (v : Nat → Word) : Prop :=
      n < 256 ∨ (∀ i ∈ s.group, (g.slice i).priv = true) →
        Writes (.rds c d (BitVec.ofNat 10 n)) s 1 d.toNat [] s.lanes (one fun L => v (L / 4))
    let pair (n : Nat) (v : Nat → DWord) : Prop :=
      n < 256 ∨ (∀ i ∈ s.group, (g.slice i).priv = true) →
        Writes (.rds c d (BitVec.ofNat 10 n)) s 2 d.toNat [] s.lanes (two fun L => v (L / 4))
    exec (.nop c) s = .next s
    ∧ (∀ n : BitVec 10, 256 ≤ n.toNat → (∃ i ∈ s.group, (g.slice i).priv = false) →
        exec (.rds c d n) s = .next (s.fault 2 0 0))
    ∧ ((∀ i, (g.slice i).stack.length ≤ 4) → ∃ v, word 0x000 v ∧ ∀ i < 8,
        (v i).extractLsb' 0 4 = (g.slice i).active ∧ ((v i).extractLsb' 4 4).toNat = (g.slice i).stack.length
        ∧ (v i).getLsbD 8 = (g.slice i).priv ∧ (v i).getLsbD 9 = (g.slice i).step ∧ (v i).getLsbD 10 = (g.slice i).brk
        ∧ ((v i).extractLsb' 16 16).toNat = i)
    ∧ pair 0x001 (fun _ => s.iss.wpc) ∧ pair 0x002 (fun i => (g.slice i).link)
    ∧ word 0x010 (fun _ => BitVec.ofNat 32 g.id) ∧ word 0x011 (fun _ => BitVec.ofNat 32 g.width)
    ∧ (∃ v, word 0x012 (fun _ => v) ∧ v.extractLsb' 0 8 = g.live ∧ v.extractLsb' 8 24 = 0)
    ∧ (∃ v : DWord, pair 0x014 (fun _ => v) ∧ v.extractLsb' 0 32 = g.killed ∧ v.extractLsb' 32 3 = g.killCause ∧ v.extractLsb' 35 29 = 0)
    ∧ (∃ v, Writes (.rdsGangFpstat c d) s 1 d.toNat [] s.lanes (one fun _ => v)
        ∧ v.extractLsb' 0 5 = g.fpstat ∧ v.extractLsb' 5 27 = 0)
    ∧ (s.b.replay = none → word 0x020 (fun _ => BitVec.ofNat 32 g.task))
    ∧ pair 0x021 (fun _ => BitVec.ofNat 64 (r.param % 2 ^ 48)) ∧ word 0x022 (fun _ => BitVec.ofNat 32 r.prio)
    ∧ word 0x023 (fun _ => BitVec.ofNat 32 r.opid) ∧ word 0x031 (fun i => (g.slice i).cause)
    ∧ word 0x041 (fun _ => g.mqDest.setWidth 32) ∧ word 0x051 (fun _ => g.mxUe.setWidth 32)
    ∧ word 0x052 (fun _ => g.mxUeLoc.setWidth 32) ∧ word 0x058 (fun _ => g.chCur.setWidth 32)
    ∧ pair 0x060 (fun _ => BitVec.ofNat 64 s.c.cycle) ∧ pair 0x061 (fun _ => BitVec.ofNat 64 s.ns)
    ∧ (∀ n < 8, pair (0x088 + n) (fun _ => Store.get 0 s.c.perfCnt n)) ∧ (∀ n < 8, pair (0x130 + n) (fun _ => Store.get 0 s.c.dbgPc n))
    ∧ (∀ n < 8, word (0x150 + n) (fun _ => Store.get 0 s.c.perfSel n))
    ∧ (s.c.idx < 112 → s.c.die < 4 → g.sched < 4 → ∃ v, word 0x101 (fun _ => v) ∧ (v.extractLsb' 0 8).toNat = s.c.idx
        ∧ (v.extractLsb' 8 2).toNat = s.c.die ∧ (v.extractLsb' 10 22).toNat = g.sched)
    ∧ (s.c.lostSlots ≤ 32 → s.c.lostZt ≤ 16 → 128 * s.c.lostSegs ≤ 2048 → 64 * s.c.lostS ≤ 512 →
        ∃ v : DWord, pair 0x100 (fun _ => v) ∧ v.extractLsb' 0 16 = 0x10 ∧ (v.extractLsb' 16 6).toNat = 32 - s.c.lostSlots
          ∧ (v.extractLsb' 22 10).toNat = 16 - s.c.lostZt ∧ (v.extractLsb' 32 16).toNat = 2048 - 128 * s.c.lostSegs
          ∧ (v.extractLsb' 48 16).toNat = 512 - 64 * s.c.lostS)
    ∧ pair 0x102 (fun _ => s.c.saveBase)
    ∧ ((∀ i, (g.slice i).stack.length ≤ 4) → ∃ v, word 0x103 v ∧ ∀ i < 8, ∀ j < 4,
        (v i).extractLsb' (4 * j) 4 = (g.slice i).stack.getD j 0 ∧ (v i).extractLsb' 16 16 = 0)
    ∧ word 0x110 (fun _ => g.trapCause) ∧ pair 0x111 (fun _ => g.trapPc) ∧ pair 0x112 (fun _ => g.trapAddr)
    ∧ word 0x138 (fun _ => s.c.dbgCtl.setWidth 32) ∧ word 0x140 (fun _ => s.c.sampPeriod.setWidth 32)
    ∧ pair 0x141 (fun _ => s.c.sampRec) ∧ word 0x148 (fun _ => s.c.errInj)

/-- R145, R146, R153, R236, R324, R417, R418: WRS. A slice register takes the lowest executing lane of each slice, every
other register the leader's value; fields that may only be read keep theirs, and bits that 1 clears are cleared. -/
def Obligations.SpecialRegisterWrites : Prop :=
  ∀ (s : State) (c : Bool) (d : BitVec 6) (n3 : BitVec 3),
    let privileged : Prop := ∀ i ∈ s.group, (s.src.slice i).priv = true
    let L := leader s.lanes
    let v := s.src.val d.toNat L
    let vv := s.src.val64 d.toNat L
    let first (i : Nat) : Option Nat := s.lanes.find? fun K => K / 4 == i
    let sliceWise (w : Instr) (k : Nat) (f : Nat → Slice → Slice) : Prop :=
      (Readable s [(k, d.toNat)] → ∃ t, exec w s = .next t ∧ SlicesOnly s t fun i =>
        match first i with
        | some K => if i ∈ s.group then f K (s.g.slice i) else s.g.slice i
        | none => s.g.slice i)
      ∧ (¬Readable s [(k, d.toNat)] → Opr w s)
    let sets (w : Instr) (k : Nat) (t : State) : Prop :=
      (Readable s [(k, d.toNat)] → exec w s = .next (if s.lanes = [] then s else t)) ∧ (¬Readable s [(k, d.toNat)] → Opr w s)
    let wr (n : BitVec 10) : Instr := .wrs c d n
    let inGang (g : Gang) : State := { s with g := g }
    let inCore (x : Core) : State := { s with c := x }
    (∀ w ∈ [wr 0x102, wr 0x110, wr 0x111, wr 0x112, wr 0x113, wr 0x130, wr 0x140, wr 0x141, wr 0x148, .wrsSliceStatus c d,
        .wrsPerfSel c d n3, .wrsTrapQ c d, .wrsDbgCtl c d],
      (∃ i ∈ s.group, (s.src.slice i).priv = false) → exec w s = .next (s.fault 2 0 0))
    ∧ sliceWise (wr 0x002) 2 (fun K sl => { sl with link := s.src.val64 d.toNat K })
    ∧ (privileged → sliceWise (.wrsSliceStatus c d) 1 fun K sl =>
        { sl with step := (s.src.val d.toNat K).getLsbD 9, brk := sl.brk && !(s.src.val d.toNat K).getLsbD 10 })
    ∧ sets (wr 0x041) 1 (inGang { s.g with mqDest := v.extractLsb' 0 6 })
    ∧ sets (wr 0x058) 1 (inGang { s.g with chCur := v.extractLsb' 0 4 })
    ∧ sets (.wrsGangFpstat c d) 1 (inGang { s.g with fpstat := v.extractLsb' 0 5 ||| s.iss.fp })
    ∧ sets (.wrsMxUe c d) 1 (inGang { s.g with
        mxUe := s.g.mxUe &&& ~~~(v.extractLsb' 0 5)
        mxUeLoc := if v.getLsbD 0 then 0 else s.g.mxUeLoc })
    ∧ (privileged →
      sets (wr 0x110) 1 (inGang { s.g with trapCause := v &&& 0x0107FFFF })
      ∧ sets (wr 0x111) 2 (inGang { s.g with trapPc := vv &&& 0xFFFFFFFFFFFF })
      ∧ sets (wr 0x112) 2 (inGang { s.g with trapAddr := vv })
      ∧ sets (wr 0x113) 1 (inGang { s.g with trapSel := v.extractLsb' 8 7 })
      ∧ sets (wr 0x140) 1 (inCore { s.c with sampPeriod := v.extractLsb' 0 20 })
      ∧ sets (wr 0x102) 2 (inCore { s.c with saveBase := vv &&& 0xFF00FFFFFFFFFFFF })
      ∧ (∀ k < 8, sets (wr (BitVec.ofNat 10 (0x130 + k))) 2 (inCore { s.c with dbgPc := Store.put s.c.dbgPc k vv }))
      ∧ sets (.wrsPerfSel c d n3) 1
          { s with
            c := { s.c with
              perfSel := Store.put s.c.perfSel n3.toNat (v &&& 0x801FFFFF), perfCnt := Store.put s.c.perfCnt n3.toNat 0 }
            iss := { s.iss with zeroed := s.iss.zeroed ||| (1#8 <<< n3.toNat) } }
      ∧ (let put (f : Frame) : Frame := f.writeWord s.g.trapSel.toNat v
         let left : List Slice := (put { slices := s.g.past, entries := [] }).slices
         sets (.wrsTrapQ c d) 1 (inGang { s.g with
           frame := s.g.frame.map put, past := if s.g.frame.isSome then s.g.past else left }))
      ∧ (s.c.dbgCtl.getLsbD 16 = v.getLsbD 16 → sets (.wrsDbgCtl c d) 1 (inCore { s.c with dbgCtl := v.extractLsb' 0 18 })))

/-- R406, R435: the five injections. ERR.INJ takes the leader's value with the kind of the word; a locked register ignores
it, a unit that does not exist only clears ARM, kinds 3 and 4 mark the word at once, and kind 5 raises the die's fatal
error. When a kind takes effect is the model's reading (DEDUCED, log 32). -/
def Obligations.ErrorInjection : Prop :=
  ∀ (s : State) (c : Bool) (d : BitVec 6),
    (∀ i ∈ s.group, (s.src.slice i).priv = true) → Readable s [(1, d.toNat)] → s.lanes ≠ [] →
    let v := s.src.val d.toNat (leader s.lanes)
    let reg (k : Word) : Word := (v &&& 0x83FFFFF0) ||| k
    let unit := (v.extractLsb' 21 5).toNat
    let wordNo := (v.extractLsb' 9 12).toNat
    let armed (k : Word) (phys : Nat) : Core := { s.c with errInj := reg k, injPhys := phys, injBlock := s.b.uid }
    let words : List Instr := [.injectZFlipMma c d, .injectZFlipZst c d, .injectZUe c d, .injectSlotUe c d, .injectFatal c d]
    let spent (w : Instr) (k : Word) : Prop :=
      exec w s = .next { s with c := { s.c with errInj := reg k &&& 0x7FFFFFFF } }
    (∀ w ∈ words, s.ck.injLock = true → exec w s = .next s)
    ∧ (s.ck.injLock = false → v.getLsbD 31 = true →
      (unit < s.b.zt →
        exec (.injectZFlipMma c d) s = .next { s with c := armed 1 unit }
        ∧ exec (.injectZFlipZst c d) s = .next { s with c := armed 2 unit }
        ∧ ∃ t, exec (.injectZUe c d) s = .next t ∧ t.ue = insertNat s.ue (atZ s.b.uid unit (4 * wordNo) / 4)
          ∧ t.c.errInj = reg 3 &&& 0x7FFFFFFF ∧ t.mem = s.mem ∧ t.g = s.g ∧ t.b = s.b)
      ∧ (s.b.zt ≤ unit → spent (.injectZFlipMma c d) 1 ∧ spent (.injectZFlipZst c d) 2 ∧ spent (.injectZUe c d) 3)
      ∧ (s.b.bound unit = none → spent (.injectSlotUe c d) 4)
      ∧ (∀ x, s.b.bound unit = some x → ∃ t, exec (.injectSlotUe c d) s = .next t
          ∧ t.ue = insertNat s.ue (atSlot s.b.uid x.phys (4 * wordNo) / 4)
          ∧ t.c.errInj = reg 4 &&& 0x7FFFFFFF ∧ t.mem = s.mem ∧ t.g = s.g ∧ t.b = s.b)
      ∧ ∃ t, exec (.injectFatal c d) s = .next t ∧ t = { s with c := armed 5 0, urgent := t.urgent }
          ∧ Instr.dieFatalError s.c.die ∈ t.urgent ∧ ∀ i ∈ s.urgent, i ∈ t.urgent)

/-! ## Memory words -/

/-- R54 to R58, R167, R174, R177, R179, R180, R184, R185: the scratchpad words. A word whose flag is pending, or that
would be the seventeenth outstanding one, holds its chain back; a lane out of range, misaligned or on bytes of an active
copy is killed; every other lane is captured with its address, its place and, for a store, its data. -/
def Obligations.ScratchpadWords : Prop :=
  ∀ (s : State) (c : Bool) (d a : BitVec 6) (f l : BitVec 4) (sp z : BitVec 2) (sd z1 : BitVec 1),
    let n := 2 ^ z.toNat
    let space : Space :=
      match sp.toNat with
      | 0 => .l
      | 1 => .s
      | 2 => .c
      | _ => .d
    let spaceSd : Space := if sd = 0 then .s else .d
    let off (L : Nat) : Nat := (s.src.val a.toNat L).toNat
    let word (w : Instr) (k : MemKind) (x : Space) (size regs : Nat) (signed : Bool) : Prop :=
      let stores : Bool := k == .st || k == .stf || k == .strel || k == .stx
      let waits : Bool := k == .ldw || k == .ldt
      let place (L : Nat) : Option Nat := s.spadAt s.g s.b x (if stores then 3 else 2) L (off L) size
      let cause (L : Nat) : Nat :=
        match place L with
        | none => 1
        | some p => if off L % size ≠ 0 then 2 else if x ≠ .l ∧ s.activeCopy p size waits = true then 3 else 0
      let op : MemOp := { kind := k, space := x, size := size, reg := d.toNat, signed := signed }
      let allowed : Prop :=
        if stores then Readable s [(regs, d.toNat), (1, a.toNat)] else Writable s regs d.toNat [(1, a.toNat)]
      let room : Prop := MayLaunch s f.toNat ∧ (waits = true → s.parkedHere < 32)
      (¬MayLaunch s f.toNat → exec w s = .next s.hold)
      ∧ (room → ¬allowed → Opr w s)
      ∧ (room → allowed → ∃ t fl, exec w s = .next t
          ∧ Captured s fl s.next op f.toNat (s.lanes.filter fun L => cause L = 0)
          ∧ (∀ L ∈ s.lanes, cause L = 0 → Store.get 0 fl.addr L = BitVec.ofNat 64 (off L) ∧ place L = some (Store.get 0 fl.place L)
              ∧ (stores = true → Store.get 0 fl.data L = s.src.valN regs d.toNat L))
          ∧ Launched s t fl 1 { s.g with fences := t.g.fences }
          ∧ t.g.fences = (if k = .lda then s.g.fences ++ [{ at_ := s.next, waits := [s.next], writesOnly := false, scope := x.scope }] else s.g.fences)
          ∧ FlagOpened s t f.toNat l.toNat s.next
          ∧ Killed s t (s.lanes.filter fun L => cause L ≠ 0) cause)
    (z ≠ 3 →
      word (.ld c d a f l sp z) .ld space (4 * n) n false ∧ word (.ldw c d a f l sd z) .ldw spaceSd (4 * n) n false
      ∧ word (.ldt c d a f l sd z) .ldt spaceSd (4 * n) n false ∧ word (.lda c d a f l sp z) .lda space (4 * n) n false
      ∧ word (.st c d a f l sp z) .st space (4 * n) n false ∧ word (.stf c d a f l sd z) .stf spaceSd (4 * n) n false
      ∧ word (.strel c d a f l sp z) .strel space (4 * n) n false)
    ∧ word (.ldx c d a f l sp z) .ldx space (if z.toNat < 2 then 1 else 2) 1 (z.toNat % 2 = 0)
    ∧ word (.stx c d a f l sp z1) .stx space (if z1 = 0 then 1 else 2) 1 false

/-- R186, R198, R207, R210: GST and ATOM. A G address that is not canonical or not a multiple of the size takes XLT and
names the lowest such lane; a GST counts in k1, a returning ATOM in k2; a no-return ATOM of S enters the posted-atomic
buffer at once. -/
def Obligations.GlobalWords : Prop :=
  ∀ (s : State) (c : Bool) (d a : BitVec 6) (pa : BitVec 5) (f l : BitVec 4) (z : BitVec 2) (ty : BitVec 3) (o : BitVec 4) (p : BitVec 1),
    let below (cls : Nat) : Prop := (s.src.kops.filter fun k => k.cls == cls).length < 63
    let bad (r size L : Nat) : Prop := (s.src.val64 r L).extractLsb' 48 16 ≠ 0 ∨ (s.src.val64 r L).toNat % size ≠ 0
    let lowestBad (r size L : Nat) : Prop := L ∈ s.lanes ∧ bad r size L ∧ ∀ K ∈ s.lanes, K < L → ¬bad r size K
    let counted (cls : Nat) : Gang := { s.g with kops := s.g.kops ++ [{ id := s.next, cls := cls }] }
    (let n := 2 ^ z.toNat
     let w : Instr := .gst c d pa f l z
     let ops := [(n, d.toNat), (2, 2 * pa.toNat)]
     z ≠ 3 →
      (¬(MayLaunch s f.toNat ∧ below 1) → exec w s = .next s.hold)
      ∧ (MayLaunch s f.toNat → below 1 →
        (¬Readable s ops → Opr w s)
        ∧ (Readable s ops → ∀ L, lowestBad (2 * pa.toNat) (4 * n) L → exec w s = .next (s.fault 6 0 (s.src.val64 (2 * pa.toNat) L)))
        ∧ (Readable s ops → (∀ L ∈ s.lanes, ¬bad (2 * pa.toNat) (4 * n) L) → ∃ t fl, exec w s = .next t
            ∧ Captured s fl (s.next + 1) { kind := .gst, space := .g, size := 4 * n, reg := d.toNat } f.toNat s.lanes
            ∧ fl.kid = some s.next
            ∧ (∀ L ∈ s.lanes, Store.get 0 fl.addr L = s.src.val64 (2 * pa.toNat) L ∧ Store.get 0 fl.data L = s.src.valN n d.toNat L)
            ∧ Launched s t fl 2 (counted 1) ∧ FlagOpened s t f.toNat l.toNat (s.next + 1) ∧ Killed s t [] fun _ => 0)))
    ∧ (let n := atomRegs ty.toNat
       let w : Instr := .atom c d a ty o p f
       let ret := f ≠ 15
       let gl := p = 1
       let ops := ((if gl then 2 else 1), a.toNat) :: (if o = 10 then [(n, d.toNat + n)] else [])
       let allowed : Prop := if ret then Writable s n d.toNat ops else Readable s ((n, d.toNat) :: ops)
       let va (L : Nat) : DWord := if gl then s.src.val64 a.toNat L else (s.src.val a.toNat L).setWidth 64
       let place (L : Nat) : Option Nat := s.spadAt s.g s.b .s 3 L (va L).toNat (4 * n)
       let cause (L : Nat) : Nat :=
         if gl then 0
         else match place L with
           | none => 1
           | some q => if (va L).toNat % (4 * n) ≠ 0 then 2 else if s.activeCopy q (4 * n) false = true then 3 else 0
       let op : MemOp := { kind := .atom, space := if gl then .g else .s, size := 4 * n, reg := d.toNat, aop := o.toNat, aty := ty.toNat, ret := f != 15 }
       let taken (fl : Flight) : Prop := ∀ L ∈ s.lanes, cause L = 0 → Store.get 0 fl.addr L = va L
         ∧ Store.get 0 fl.data L = s.src.valN n d.toNat L ∧ (o = 10 → Store.get 0 fl.casv L = s.src.valN n (d.toNat + n) L)
       let good := s.lanes.filter fun L => cause L = 0
       let room : Prop := s.src.flights.length < 16 ∧ if ret then MayLaunch s f.toNat ∧ below 2 else s.lanes.length ≤ s.postedRoom
       (¬room → exec w s = .next s.hold)
       ∧ (room →
        (¬allowed → Opr w s)
        ∧ (allowed → gl → ∀ L, lowestBad a.toNat (4 * n) L → exec w s = .next (s.fault 6 0 (s.src.val64 a.toNat L)))
        ∧ (allowed → (gl → ∀ L ∈ s.lanes, ¬bad a.toNat (4 * n) L) →
          (ret → ∃ t fl, exec w s = .next t ∧ Captured s fl (s.next + 1) op f.toNat good ∧ fl.kid = some s.next ∧ taken fl
              ∧ Launched s t fl 2 (counted 2) ∧ FlagOpened s t f.toNat 15 (s.next + 1) ∧ Killed s t (s.lanes.filter fun L => cause L ≠ 0) cause)
          ∧ (¬ret → gl → s.lanes = [] → exec w s = .next s)
          ∧ (¬ret → gl → s.lanes ≠ [] → ∃ t fl, exec w s = .next t ∧ Captured s fl s.next op f.toNat good ∧ fl.kid = none ∧ taken fl
              ∧ Launched s t fl 1 s.g ∧ t.g.slices = s.g.slices)
          ∧ (¬ret → ¬gl → ∃ t new old, exec w s = .next t ∧ t.posted = old ++ new
              ∧ old.map Posted.id = s.posted.map Posted.id ∧ old.map Posted.lane = s.posted.map Posted.lane
              ∧ new.map Posted.lane = good ∧ (∀ q ∈ new, place q.lane = some q.phys ∧ q.data = s.src.valN n d.toNat q.lane
                  ∧ q.addr = va q.lane ∧ q.op = op ∧ q.gang = s.g.uid ∧ q.block = s.b.uid ∧ q.leaf = 0 ∧ Instr.postedAtomicPerform q.id ∈ t.agenda)
              ∧ (s.postedIn s.b.die s.b.core + good.length ≤ 4096 → t.mem = s.mem) ∧ t.g.flights = s.g.flights
              ∧ Killed s t (s.lanes.filter fun L => cause L ≠ 0) cause))))

/-! ## Matrix words -/

/-- R198, R213, R214, R218, R222 to R230, R238: the MX words at issue. With k3 at 63 or a full queue the chain is held
back; without an executing lane nothing happens; a check that fails raises MXF; else the command is accepted with the
leader's values and the slots and tiles it reads and writes. CLAIM binds a free physical slot, FREE unbinds at once.
Which check gives the address where several fail is the model's choice (log 30). -/
def Obligations.MatrixWords : Prop :=
  ∀ (s : State) (c : Bool) (n a b : BitVec 5) (ty zn : BitVec 4) (zp : BitVec 3) (m : BitVec 2) (h : BitVec 1) (y z : BitVec 6),
    let vy := s.src.val y.toNat (leader s.lanes)
    let vz := s.src.val z.toNat (leader s.lanes)
    let pitch := vz.toNat % 65536
    let bound (k : BitVec 5) : Option SlotBind := Store.find s.b.slotTab k.toNat
    let room : Prop := (s.src.kops.filter fun k => k.cls == 3).length < 63 ∧ s.c.mxq.length < 32
    let word (w : Instr) (regs : List (BitVec 6)) (go : Prop) : Prop :=
      let ops := regs.map fun r => (1, r.toNat)
      (s.lanes ≠ [] → ¬room → exec w s = .next s.hold)
      ∧ (room → ¬Readable s ops → Opr w s)
      ∧ (Readable s ops → s.lanes = [] → exec w s = .next s)
      ∧ (room → Readable s ops → s.lanes ≠ [] → go)
    let mxf (w : Instr) (x : Nat) : Prop := exec w s = .next (s.fault 10 0 (BitVec.ofNat 64 x))
    let takes (w w0 : Instr) (vy vz : Word) (fault : Option Nat) (slotsR slotsW zR zW : List Nat) : Prop :=
      match fault with
      | some x => mxf w x
      | none => ∃ t cmd, exec w s = .next t ∧ Accepted s t cmd s.b ∧ cmd.word = w0 ∧ cmd.y = vy ∧ cmd.z = vz
          ∧ cmd.slotsR = slotsR ∧ cmd.slotsW = slotsW ∧ cmd.zR = zR ∧ cmd.zW = zW
    let slot (k : BitVec 5) (f : SlotBind → Option Nat) : Option Nat :=
      match bound k with
      | none => some 0
      | some x => f x
    let phys (k : BitVec 5) : Nat := ((bound k).map SlotBind.phys).getD 0
    let tile (k : Nat) (r : Option Nat) : Option Nat := if s.b.zt ≤ k then some 0 else r
    let mma (w w0 : Instr) (ta tb : Nat) (tiles : List Nat) : Prop :=
      word w [] (takes w w0 0 0
        (match bound a, bound b with
          | some x, some x' => if x.ty = ta ∧ x'.ty = tb ∧ ∀ k ∈ tiles, k < s.b.zt then none else some 0
          | _, _ => some 0)
        [phys a, phys b] [] [] tiles)
    let pair := [2 * zp.toNat, 2 * zp.toNat + 1]
    word (.claim c n ty) [] (
      let free (p : Nat) : Prop := p < s.b.slots ∧ ∀ x ∈ (s.b.slotTab : List (Nat × SlotBind)), x.2.phys ≠ p
      (bound n ≠ none ∨ (∀ p, ¬free p) → mxf (.claim c n ty) 0)
      ∧ (bound n = none → ∀ p, free p → ∃ t cmd q, exec (.claim c n ty) s = .next t ∧ free q
          ∧ Accepted s t cmd { s.b with slotTab := Store.put s.b.slotTab n.toNat { phys := q, ty := ty.toNat } }
          ∧ cmd.word = .claim false n ty ∧ cmd.slotsW = [q]))
    ∧ word (.free c n) [] (
      (bound n = none → mxf (.free c n) 0)
      ∧ (bound n ≠ none → ∃ t cmd, exec (.free c n) s = .next t ∧ cmd.word = .free false n
          ∧ Accepted s t cmd { s.b with slotTab := Store.del s.b.slotTab n.toNat }))
    ∧ word (.tld c n y z) [y, z] (takes (.tld c n y z) (.tld false n y z) vy vz
        (slot n fun x => if x.ty = 5 ∧ pitch ≠ 0 then some 0 else ImageFault s vy.toNat (slotGeom x.ty).1 (slotGeom x.ty).2 pitch)
        [] [phys n] [] [])
    ∧ ((∀ x, bound n = some x → x.ty ≤ 8) → word (.tldt c n y z) [y, z] (takes (.tldt c n y z) (.tldt false n y z) vy vz
        (slot n fun x =>
          if x.ty = 5 ∨ x.ty = 7 ∨ x.ty = 8 then some 0
          else ImageFault s vy.toNat (if x.ty = 3 then 128 else if x.ty = 4 then 64 else (slotGeom x.ty).1)
            (if x.ty = 3 then 64 else if x.ty = 4 then 128 else (slotGeom x.ty).2) pitch)
        [] [phys n] [] []))
    ∧ word (.tldm c n y) [y] (takes (.tldm c n y) (.tldm false n y) vy 0
        (slot n fun x => if x.ty = 7 ∨ x.ty = 8 then ImageFault s vy.toNat 1 512 0 else some 0) [] [phys n] [] [])
    ∧ word (.zclr c zn) [] (takes (.zclr c zn) (.zclr false zn) 0 0 (tile zn.toNat none) [] [] [] [zn.toNat])
    ∧ word (.zld c zn y z) [y, z] (takes (.zld c zn y z) (.zld false zn y z) vy vz
        (tile zn.toNat (ImageFault s vy.toNat 64 256 pitch)) [] [] [] [zn.toNat])
    ∧ (let rows := if m = 3 then 32 else 64
       let bytes := if m = 2 then 128 else 256
       let scale := vz.toNat / 65536 * 16
       word (.zst c m zn y z) [y, z] (takes (.zst c m zn y z) (.zst false m zn y z) vy vz
        (tile zn.toNat (match ImageFault s vy.toNat rows bytes pitch with
          | some x => some x
          | none => if m = 1 ∧ s.b.sbytes < scale + 256 then some scale else none))
        [] [] [zn.toNat] []))
    ∧ word (.tst c n y z) [y, z] (takes (.tst c n y z) (.tst false n y z) vy vz
        (slot n fun x => if x.ty = 5 ∧ pitch ≠ 0 then some 0 else ImageFault s vy.toNat (slotGeom x.ty).1 (slotGeom x.ty).2 pitch)
        [phys n] [] [] [])
    ∧ mma (.mmabf c zn a b) (.mmabf false zn a b) 0 0 [zn.toNat] ∧ mma (.mmah c zn a b) (.mmah false zn a b) 1 1 [zn.toNat]
    ∧ mma (.mmai8 c zn a b) (.mmai8 false zn a b) 3 4 [zn.toNat] ∧ mma (.mmai16 c zp a b) (.mmai16 false zp a b) 2 2 pair
    ∧ mma (.mmaf64 c zn a b) (.mmaf64 false zn a b) 6 6 [zn.toNat] ∧ mma (.mmaq4 c zp a b) (.mmaq4 false zp a b) 3 5 pair
    ∧ mma (.mmasbf c zn a b) (.mmasbf false zn a b) 7 0 [zn.toNat] ∧ mma (.mmasi8 c h zn a b) (.mmasi8 false h zn a b) 8 4 [zn.toNat]
    ∧ (s.storesPending vy.toNat 56 = false → word (.mgemm c y) [y] (
        (vy.toNat % 64 ≠ 0 → mxf (.mgemm c y) 0)
        ∧ (vy.toNat % 64 = 0 → s.b.sbytes < vy.toNat + 64 → mxf (.mgemm c y) vy.toNat)
        ∧ (vy.toNat % 64 = 0 → vy.toNat + 64 ≤ s.b.sbytes → ∃ t cmd, exec (.mgemm c y) s = .next t ∧ Accepted s t cmd s.b
            ∧ cmd.word = .mgemm false y ∧ cmd.y = vy ∧ cmd.params = memBytes s.mem (atS s.b.uid vy.toNat) 56)))

/-! ## Steps of the matrix unit -/

/-- R218, R219, R226, R233, R235, R238 to R241: a command starts when it is ready, meets no earlier command and its part
of the unit is free; micro-tiles write their elements in order; ZCLR and ZLD end with their tile written; a MGEMM goes
through its steps and ends with its STATUS; a command that ends leaves the queue and retires from k3. Of the commands
that are ready for a part of the unit the one that became ready first has the turn. That a command does not wait for
replay entries is the model's reading (DEDUCED, log 30). -/
def Obligations.MatrixSteps : Prop :=
  ∀ (s u : State) (cmd : Nat) (c : MxCmd),
    s.focusCmd cmd = some (c, u) → Memory.wf s.mem = true →
    let p := parseGemm c.params
    let q' (f : MxCmd → MxCmd) : List MxCmd := u.c.mxq.map fun x => if x.id = cmd then f x else x
    let kept (t : State) (l : List Instr) : Prop := (∀ i ∈ l, i ∈ t.agenda) ∧ ∀ i ∈ u.agenda, i ∈ t.agenda
    let ended (t : State) : Prop :=
      t.c = { u.c with mxq := t.c.mxq } ∧ SameQueue (u.c.mxq.filter fun x => x.id != cmd) t.c.mxq ∧ t.b = u.b
        ∧ (u.g.uid = c.gang → OpDone u.g t.g c.kid)
    let startable : Prop := c.started = false ∧ c.ready = true ∧ u.b.evicting = false
      ∧ (∀ x ∈ acceptedBefore u.c.mxq cmd, x.conflicts c = false ∧ (c.isGemm = true → x.isGemm = false)) ∧ HasTurn u.c.mxq c
    let unmarked : Prop := u.ue = [] ∧ u.c.arrayUe = [] ∧ u.c.errInj.getLsbD 31 = false ∧ (∀ w ∈ c.after, u.unperformed w = false) ∧ c.id = cmd ∧ c.coll = none
    (startable → c.id = cmd →
      (c.isGemm = false → ∃ t, exec (.mxCommandStart cmd) s = .next t
        ∧ t = { u with c := { u.c with mxq := q' fun x => { x with started := true } }, agenda := t.agenda }
        ∧ kept t [if c.isMma ∧ c.tiles < 16 then .microTileComplete cmd else .mxCommandComplete cmd])
      ∧ (c.isGemm = true → c.step = 0 → c.tiles = 0 → c.status = 0 →
        (p.resv ≠ 0 ∨ 1 < p.flags ∨ 5 < p.kind ∨ p.mt = 0 ∨ p.nt = 0 ∨ p.kt = 0 ∨ u.b.sbytes < p.stage + 73728 →
          ∃ t, exec (.mxCommandStart cmd) s = .next t
            ∧ t = { u with c := { u.c with mxq := t.c.mxq }, agenda := t.agenda }
            ∧ t.c.mxq = q' (fun x => { x with started := true, status := 3 }) ∧ kept t [.mgemmEnd cmd])
        ∧ (u.gemmBad p = false → ∃ t, exec (.mxCommandStart cmd) s = .next t ∧ t.mem = u.mem ∧ t.g = u.g
            ∧ (∀ i < 4, ∀ x, Store.find u.b.slotTab (p.slotb + i) = some x →
                Store.find t.b.slotTab (p.slotb + i) = some (if c.slotsW.length = 4 ∧ c.slotsW[i]? ≠ some x.phys then x
                  else { x with ty := if i % 2 = 0 then p.mma.types.1 else p.mma.types.2 }))
            ∧ (∀ n, n < p.slotb ∨ p.slotb + 3 < n → Store.find t.b.slotTab n = Store.find u.b.slotTab n)
            ∧ kept t [.mgemmStepComplete cmd])))
    ∧ (∀ n a b, c.word = .mmai8 false n a b → unmarked → c.started = true → c.tiles < 16 →
        ∃ t, exec (.microTileComplete cmd) s = .next t
          ∧ t = { u with mem := t.mem, c := t.c, agenda := t.agenda }
          ∧ t.c = { u.c with mxq := q' (fun x => { x with tiles := x.tiles + 1 }), perfCnt := t.c.perfCnt }
          ∧ kept t [if c.tiles = 15 then .mxCommandComplete cmd else .microTileComplete cmd]
          ∧ let z (m : List Host.Cell) (i j : Nat) : Nat := memNat m (atZ u.b.uid n.toNat (4 * (64 * i + j))) 4
            let mine (i j : Nat) : Prop := i / 16 = c.tiles / 4 ∧ j / 16 = c.tiles % 4
            let x (i k : Nat) : Int := signed 8 (memNat u.mem (atSlot u.b.uid (nth 0 c.slotsR 0) (128 * i + k)) 1)
            let y (k j : Nat) : Int := signed 8 (memNat u.mem (atSlot u.b.uid (nth 0 c.slotsR 1) (64 * k + j)) 1)
            (∀ i j, i < 64 → j < 64 → mine i j →
              ((z t.mem i j : Int) - z u.mem i j - ((List.range 128).map fun k => x i k * y k j).sum) % 2 ^ 32 = 0)
            ∧ ∀ e, (∀ i j, i < 64 → j < 64 → mine i j → e < atZ u.b.uid n.toNat (4 * (64 * i + j))
                ∨ atZ u.b.uid n.toNat (4 * (64 * i + j)) + 4 ≤ e) → memGet t.mem e = memGet u.mem e)
    ∧ (∀ n, c.word = .zclr false n → unmarked → c.started = true → ∃ t, exec (.mxCommandComplete cmd) s = .next t
        ∧ t = { u with mem := t.mem, g := t.g, gangs := t.gangs, images := t.images, c := t.c } ∧ ended t
        ∧ ∀ e, memGet t.mem e
          = if atZ u.b.uid n.toNat 0 ≤ e ∧ e < atZ u.b.uid n.toNat 16384 then 0 else memGet u.mem e)
    ∧ (∀ n y z, c.word = .zld false n y z → unmarked → c.started = true → ∃ t, exec (.mxCommandComplete cmd) s = .next t
        ∧ t = { u with mem := t.mem, g := t.g, gangs := t.gangs, images := t.images, c := t.c } ∧ ended t
        ∧ let pitch := if c.z.toNat % 65536 = 0 then 256 else c.z.toNat % 65536
          (∀ r e, r < 64 → e < 256 → memGet t.mem (atZ u.b.uid n.toNat (256 * r + e)) = memGet u.mem (atS u.b.uid (c.y.toNat + r * pitch + e)))
          ∧ ∀ e, e < atZ u.b.uid n.toNat 0 ∨ atZ u.b.uid n.toNat 16384 ≤ e → memGet t.mem e = memGet u.mem e)
    ∧ (∀ q, c.isGemm = true → c.started = true → unmarked → HasTurn u.c.mxq c → p.stepAt c.step = .zclr q →
        ∃ t, exec (.mgemmStepComplete cmd) s = .next t
          ∧ t = { u with mem := t.mem, c := { u.c with mxq := t.c.mxq }, agenda := t.agenda }
          ∧ SameQueue (q' fun x => { x with step := c.step + 1, tiles := 0 }) t.c.mxq
          ∧ (∀ e, memGet t.mem e
              = if atZ u.b.uid (p.zb + q) 0 ≤ e ∧ e < atZ u.b.uid (p.zb + q) 16384 then 0 else memGet u.mem e)
          ∧ kept t [if p.steps ≤ c.step + 1 then .mgemmEnd cmd else .mgemmStepComplete cmd])
    ∧ (c.isGemm = true → c.started = true → unmarked → NoneParked u → c.status < 256 → ∃ t, exec (.mgemmEnd cmd) s = .next t
        ∧ t = { u with mem := t.mem, empty := t.empty, g := t.g, gangs := t.gangs, images := t.images, c := t.c } ∧ ended t
        ∧ memNat t.mem (atS u.b.uid (c.y.toNat + 56)) 1 = c.status ∧ memNat t.mem (atS u.b.uid (c.y.toNat + 57)) 1 = 0
        ∧ memNat t.mem (atS u.b.uid (c.y.toNat + 58)) 6 = c.faddr.toNat % 2 ^ 48
        ∧ ∀ e, e < atS u.b.uid (c.y.toNat + 56) ∨ atS u.b.uid (c.y.toNat + 64) ≤ e → memGet t.mem e = memGet u.mem e)

/-! ## Words of the copy engine -/

/-- R187, R244 to R247, R258, R263, R264: the collective words, CHTEST, CHRESET and FESET at issue. R32: a descriptor or an
object that holds uncorrectable data raises ABRT (log 36). -/
def Obligations.CopyWords : Prop :=
  ∀ (s : State) (c : Bool) (y z x : BitVec 6) (p : BitVec 3) (sd v : BitVec 1),
    let L := leader s.lanes
    let off := (s.src.val y.toNat L).toNat
    let below (cls : Nat) : Prop := (s.src.kops.filter fun k => k.cls == cls).length < 63
    let quiet (n : Nat) : Prop := s.lanes = [] ∨ s.storesPending off n = false
    let bad (n : Nat) : List Nat := s.markedIn [(atS s.b.uid off, n)]
    let abrt (w : Instr) (n : Nat) : Prop := exec w s = .next ((s.reportAll (bad n) s.b.task).fault 7 0 (BitVec.ofNat 64 off))
    let cpf (w : Instr) : Prop := exec w s = .next (s.fault 11 0 (BitVec.ofNat 64 off))
    let bytes := memBytes s.mem (atS s.b.uid off) 128
    let d := parseDesc bytes
    let objBad : Prop := d.chobj % 64 ≠ 0 ∨ s.b.sbytes < d.chobj + 64
    let isPart (q : Part) (minor : Nat) (desc : Option (List Byte)) : Prop :=
      q.coll = s.g.collN ∧ q.rank = s.g.rank0 ∧ q.gang = s.g.uid ∧ q.minor = minor ∧ q.desc = desc
    let part (w : Instr) (minor cls : Nat) (desc : Option (List Byte)) : Prop :=
      ∃ t q, exec w s = .next t ∧ isPart q minor desc ∧ q.kid = s.next ∧ q.kid3 = none
        ∧ t = { s with
            g := { s.g with kops := s.g.kops ++ [{ id := s.next, cls := cls }], collN := s.g.collN + 1 }
            b := { s.b with parts := s.b.parts ++ [q] }, next := s.next + 1, agenda := t.agenda }
        ∧ Instr.collectiveStart s.b.uid ∈ t.agenda ∧ ∀ i ∈ s.agenda, i ∈ t.agenda
    let part3 (w : Instr) (desc : Option (List Byte)) : Prop :=
      ∃ t q k, exec w s = .next t ∧ isPart q 1 desc ∧ q.kid = k ∧ q.kid3 = some (k + 1)
        ∧ t = { s with
            g := { s.g with kops := s.g.kops ++ [{ id := k, cls := 0 }, { id := k + 1, cls := 3 }], collN := s.g.collN + 1 }
            b := { s.b with parts := s.b.parts ++ [q] }, c := { s.c with mxq := t.c.mxq }, next := k + 2, agenda := t.agenda }
        ∧ (s.lanes = [] ∨ s.hasEntry s.g.collN = true → t.c.mxq = s.c.mxq)
        ∧ (s.lanes ≠ [] → s.hasEntry s.g.collN = false → ∃ cmd, t.c.mxq = s.c.mxq ++ [cmd] ∧ cmd.coll = some s.g.collN
            ∧ cmd.ready = false ∧ cmd.block = s.b.uid ∧ some cmd.word = followOf d.follow)
        ∧ Instr.collectiveStart s.b.uid ∈ t.agenda ∧ ∀ i ∈ s.agenda, i ∈ t.agenda
    let word (w : Instr) (minor cls : Nat) : Prop :=
      (¬(below cls ∧ quiet 128) → exec w s = .next s.hold)
      ∧ (below cls → quiet 128 →
        (¬Readable s [(1, y.toNat)] → Opr w s)
        ∧ (Readable s [(1, y.toNat)] →
          (s.lanes = [] → part w minor cls none)
          ∧ (s.lanes ≠ [] → off % 128 ≠ 0 ∨ s.b.sbytes < off + 128 → cpf w)
          ∧ (s.lanes ≠ [] → off % 128 = 0 → off + 128 ≤ s.b.sbytes →
            (bad 128 ≠ [] → abrt w 128)
            ∧ (bad 128 = [] → (objBad → cpf w) ∧ (¬objBad → part w minor cls (some bytes))))))
    word (.cpart c y) 0 0 ∧ word (.gather c y) 2 1 ∧ word (.scatter c y) 3 1 ∧ word (.cred c y) 4 5
    ∧ (below 0 → below 3 → quiet 128 → s.c.mxq.length < 32 → Readable s [(1, y.toNat)] →
        (s.lanes = [] → part3 (.cpmx c y) none)
        ∧ (s.lanes ≠ [] → off % 128 = 0 → off + 128 ≤ s.b.sbytes → bad 128 = [] → ¬objBad →
          (followOf d.follow = none → cpf (.cpmx c y))
          ∧ ∀ i m zn a b, followOf d.follow = some i → mmaOf i = some (m, zn, a, b) →
            (Store.find s.b.slotTab d.dslot = none ∨ s.mmaSlots m zn a b = none → exec (.cpmx c y) s = .next (s.fault 10 0 0))
            ∧ (Store.find s.b.slotTab d.dslot ≠ none → s.mmaSlots m zn a b ≠ none → part3 (.cpmx c y) (some bytes))))
    ∧ (quiet 64 →
        (¬Readable s [(1, y.toNat), (1, z.toNat)] → Opr (.chtest c p y z) s)
        ∧ (Readable s [(1, y.toNat), (1, z.toNat)] →
          (s.lanes = [] → exec (.chtest c p y z) s = .next s)
          ∧ (s.lanes ≠ [] → off % 64 ≠ 0 ∨ s.b.sbytes < off + 64 → cpf (.chtest c p y z))
          ∧ (s.lanes ≠ [] → off % 64 = 0 → off + 64 ≤ s.b.sbytes → bad 64 ≠ [] → abrt (.chtest c p y z) 64)
          ∧ (s.lanes ≠ [] → off % 64 = 0 → off + 64 ≤ s.b.sbytes → bad 64 = [] → ∃ t f, exec (.chtest c p y z) s = .next t
              ∧ WrotePred s t p.toNat s.lanes f
              ∧ ∀ K, f K = true ↔
                let r := s.src.val z.toNat K
                let first := (r.extractLsb' 0 8).toNat
                let n := (r.extractLsb' 8 8).toNat + 1
                let bit (k : Nat) : Prop := k < 256 ∧ (memGet s.mem (atS s.b.uid (off + k / 8))).getLsbD (k % 8) = true
                let status := (memGet s.mem (atS s.b.uid (off + 32))).toNat
                match (r.extractLsb' 16 2).toNat with
                | 0 => ∀ i < n, bit (first + i)
                | 1 => ∃ i < n, bit (first + i)
                | 2 => 2 ≤ status ∧ status ≤ 6
                | _ => 3 ≤ status ∧ status ≤ 6)))
    ∧ ((s.lanes ≠ [] → ¬below 0 → exec (.chreset c y) s = .next s.hold)
      ∧ (below 0 →
        (¬Readable s [(1, y.toNat)] → Opr (.chreset c y) s)
        ∧ (Readable s [(1, y.toNat)] →
          (s.lanes = [] → exec (.chreset c y) s = .next s)
          ∧ (s.lanes ≠ [] → off % 64 ≠ 0 ∨ s.b.sbytes < off + 64 → cpf (.chreset c y))
          ∧ (s.lanes ≠ [] → off % 64 = 0 → off + 64 ≤ s.b.sbytes → ∃ t, exec (.chreset c y) s = .next t
              ∧ Counted s t 0 (.chreset off) [.chresetEffect s.g.uid s.next]))))
    ∧ (s.lanes ≠ [] → ¬below 0 → exec (.feset c x y sd v) s = .next s.hold)
    ∧ (below 0 →
        let start := (s.src.val x.toNat L).toNat
        (¬Readable s [(1, x.toNat), (1, y.toNat)] → Opr (.feset c x y sd v) s)
        ∧ (Readable s [(1, x.toNat), (1, y.toNat)] →
          let range := s.spadAt s.g s.b (if sd = 0 then .s else .d) 3 L start off
          let wrong : Prop := start % 16 ≠ 0 ∨ off % 16 ≠ 0 ∨ off = 0 ∨ 1048576 < off ∨ range = none
          (s.lanes = [] → exec (.feset c x y sd v) s = .next s)
          ∧ (s.lanes ≠ [] → wrong → Opr (.feset c x y sd v) s)
          ∧ (s.lanes ≠ [] → ¬wrong → ∃ t base, range = some base ∧ exec (.feset c x y sd v) s = .next t
              ∧ Counted s t 0 (.feset base off (v == 1) false) [.fesetEffect s.g.uid s.next])))

/-- R21, R179, R187, R244, R251 to R253, R255, R264, R265: the copy engine. A collective starts when its parts are in and
none that could start reached the engine earlier, and is discarded, malformed or running; a chunk writes its bytes and
then sets its bit; the first failure fixes the status; the end writes STATUS and FADDR while GEN holds, and completes
the parts; FESET and CHRESET take effect after the earlier operations of k0. Statuses of corner descriptors and the
address of a far abort are the model's (logs 14, 30). -/
def Obligations.CopySteps : Prop :=
  ∀ (s : State) (block coll k gang op : Nat), Memory.wf s.mem = true → NoneParked s →
    let u := s.atBlock block
    let kept (t : State) (l : List Instr) : Prop := (∀ i ∈ l, i ∈ t.agenda) ∧ ∀ i ∈ u.agenda, i ∈ t.agenda
    (u.b.uid = block → ∀ p d, u.b.parts = [p] → p.coll = u.b.nextColl → p.minor = 0 → p.kid3 = none → p.desc.map parseDesc = some d →
        u.g.uid = p.gang → u.partsIn = true → u.servedFirst = true →
        let status := memNat u.mem (atS block (d.chobj + 32)) 1
        let gen := memNat u.mem (atS block (d.chobj + 36)) 4
        let total := d.count * 2 ^ d.esize
        (status ≠ 0 ∨ gen ≠ d.gen → ∃ t, exec (.collectiveStart block) s = .next t
          ∧ t = { u with
              g := t.g, b := { u.b with parts := [], nextColl := u.b.nextColl + 1 }, c := t.c }
          ∧ OpDone u.g t.g p.kid)
        ∧ (status = 0 → gen = d.gen → u.collBad [p] = true → ∃ t cl, exec (.collectiveStart block) s = .next t
          ∧ t = { u with
              b := { u.b with parts := [], nextColl := u.b.nextColl + 1, colls := u.b.colls ++ [cl] }
              c := { u.c with perfCnt := t.c.perfCnt }, agenda := t.agenda }
          ∧ cl.num = u.b.nextColl ∧ cl.fail = some (6, 0) ∧ cl.landed = [] ∧ kept t [.collectiveEnd block u.b.nextColl])
        ∧ (status = 0 → gen = d.gen → u.collBad [p] = false → 0 < total → ∃ t cl, exec (.collectiveStart block) s = .next t
          ∧ t = { u with
              b := { u.b with parts := [], nextColl := u.b.nextColl + 1, colls := u.b.colls ++ [cl] }
              c := { u.c with perfCnt := t.c.perfCnt }, mem := t.mem, ue := t.ue, empty := t.empty, ck := t.ck, agenda := t.agenda }
          ∧ (d.ssp ≠ 0 → t.ck = u.ck) ∧ cl.num = u.b.nextColl ∧ cl.fail = none ∧ cl.landed = [] ∧ cl.expect = (total + 511) / 512
          ∧ memNat t.mem (atS block (d.chobj + 32)) 1 = 1
          ∧ memNat t.mem (atS block (d.chobj + 48)) 4 = ((total + 511) / 512) % 2 ^ 32
          ∧ memNat t.mem (atS block (d.chobj + 52)) 4 = total % 2 ^ 32
          ∧ (∀ a, a ≠ atS block (d.chobj + 32) → (a < atS block (d.chobj + 48) ∨ atS block (d.chobj + 56) ≤ a) → memGet t.mem a = memGet u.mem a)
          ∧ kept t ((List.range ((total + 511) / 512)).map fun i => .chunkLanded block u.b.nextColl i)))
    ∧ (∀ c rs, u.b.uid = block → u.b.colls.find? (fun x => x.num == coll) = some c → c.fail = none → c.kill = false → c.landed.contains k = false →
        k < 256 → (∀ r ∈ s.fab.requests, r.block ≠ block ∨ r.coll ≠ coll) → (∀ x ∈ u.c.mxq, x.coll = none) →
        (∀ e ∈ wholeElems (c.elems k), e.d.dsp ≠ 4 ∧ e.part.minor ≤ 3) → u.chunkWaits c (c.elems k) k = false →
        u.chunkEnds coll (wholeElems (c.elems k)) = (rs, []) →
        ∀ (src dst : Ready → Nat), (∀ r ∈ rs, r.src = .flat (src r) ∧ r.dst = .flat (dst r)) →
        let first (r : Ready) : Nat := dst r + r.e.first
        let n (r : Ready) : Nat := r.e.last + 1 - r.e.first
        let writes (a : Nat) : Prop := ∃ r ∈ rs, first r ≤ a ∧ a < first r + n r
        (∀ a, atS block c.obj ≤ a → a < atS block (c.obj + 64) → ¬writes a) → memNat u.mem (atS block (c.obj + 36)) 4 = c.gen.toNat →
        ∃ t, exec (.chunkLanded block coll k) s = .next t
          ∧ t = { u with
              b := { u.b with colls := t.b.colls }
              c := { u.c with perfCnt := t.c.perfCnt }, mem := t.mem, ue := t.ue, empty := t.empty, agenda := t.agenda }
          ∧ t.b.colls = u.b.colls.map (fun x => if x.num = coll then { c with landed := insertNat c.landed k } else x)
          ∧ memGet t.mem (atS block (c.obj + k / 8)) = memGet u.mem (atS block (c.obj + k / 8)) ||| (1#8 <<< (k % 8))
          ∧ (∀ a, a ≠ atS block (c.obj + k / 8) → ¬writes a → memGet t.mem a = memGet u.mem a)
          -- a source that has not changed since the start, nor changes in the chunk, is copied as it is
          ∧ (∀ r ∈ rs, (∀ a, writes a → a < src r ∨ src r + r.e.d.ssz ≤ a) → r.e.d.ssz ≤ 16 → r.e.last < r.e.d.ssz →
              (∀ x ∈ c.orig, x.1 = r.e.part.rank → x.2.1 = r.e.k → x.2.2 = u.sourceValue (.flat (src r))) →
              (∀ x ∈ rs, x = r ∨ first x + n x ≤ first r ∨ first r + n r ≤ first x) →
              ∀ i < n r, memGet t.mem (first r + i) = memGet u.mem (src r + r.e.first + i))
          ∧ kept t (if c.expect ≤ c.landed.length + 1 then [.collectiveEnd block coll] else []))
    ∧ (∀ c rs a, u.b.uid = block → u.b.colls.find? (fun x => x.num == coll) = some c → c.fail = none → c.kill = false → c.landed.contains k = false →
        (∀ r ∈ u.fab.requests, r.block ≠ block ∨ r.coll ≠ coll) →
        u.chunkEnds coll (wholeElems (c.elems k)) = (rs, [.range a]) → (∀ n, u.noReply u.b.die n = false) →
        (∀ r ∈ rs, ∃ q e, r.dst = .remote q e) → ∃ t, exec (.copyFailure block coll k) s = .next t
          ∧ t = { u with b := { u.b with colls := t.b.colls }, agenda := t.agenda }
          ∧ t.b.colls = u.b.colls.map (fun x => if x.num = coll ∧ x.fail = none then { x with fail := some (3, BitVec.ofNat 64 a) } else x)
          ∧ kept t [.collectiveEnd block coll])
    ∧ (∀ c p, u.b.uid = block → u.b.colls.find? (fun x => x.num == coll) = some c → c.kill = false → c.followed = false → c.parts = [p] →
        p.kid3 = none → u.g.uid = p.gang → (∀ x ∈ u.c.mxq, x.coll = none) →
        (∀ r ∈ u.fab.requests, r.block = block → r.coll = coll → r.expired = true) →
        let status := (c.fail.map Prod.fst).getD 2
        let faddr := (c.fail.map Prod.snd).getD 0
        status < 256 → ∃ t, exec (.collectiveEnd block coll) s = .next t
          ∧ t = { u with
              g := t.g, b := { u.b with colls := u.b.colls.filter fun x => x.num != coll }
              mem := t.mem, ue := t.ue, empty := t.empty, agenda := t.agenda }
          ∧ OpDone u.g t.g p.kid
          ∧ (if memNat u.mem (atS block (c.obj + 36)) 4 = c.gen.toNat then
              memNat t.mem (atS block (c.obj + 32)) 1 = status ∧ memNat t.mem (atS block (c.obj + 40)) 8 = faddr.toNat
              ∧ ∀ a, a ≠ atS block (c.obj + 32) → (a < atS block (c.obj + 40) ∨ atS block (c.obj + 48) ≤ a) → memGet t.mem a = memGet u.mem a
            else t.mem = u.mem)
          ∧ ∀ i ∈ t.agenda, i ∈ u.agenda)
    ∧ (∀ base len full, s.g.uid = gang → gang ≠ 0 → (s.g.kop op).map KOp.work = some (.feset base len full false) → base % 16 = 0 → len % 16 = 0 →
        (∀ o ∈ s.g.kops, o.cls = 0 → o.id < op → o.done = true) → ∃ t, exec (.fesetEffect gang op) s = .next t
          ∧ t = { s with g := { s.g with kops := t.g.kops }, empty := t.empty, agenda := t.agenda }
          ∧ (∀ gr, gr ∈ t.empty ↔ if base ≤ 16 * gr ∧ 16 * gr < base + len then full = false else gr ∈ s.empty)
          ∧ t.g.kops = s.g.kops.map (fun o => if o.id = op then { o with work := .feset base len full true } else o)
          ∧ Instr.fesetComplete gang op ∈ t.agenda ∧ ∀ i ∈ s.agenda, i ∈ t.agenda)
    ∧ (s.g.uid = gang → ∃ t, exec (.fesetComplete gang op) s = .next t ∧ t = { s with g := t.g } ∧ OpDone s.g t.g op)
    ∧ (∀ off, s.g.uid = gang → gang ≠ 0 → s.g.block = s.b.uid → s.b.die = s.c.die → s.b.core = s.c.idx →
        (s.g.kop op).map KOp.work = some (.chreset off) →
        (∀ o ∈ s.g.kops, o.cls = 0 → o.id < op → o.done = true) → ∃ t, exec (.chresetEffect gang op) s = .next t
          ∧ t = { s with g := t.g, mem := t.mem, ue := t.ue, empty := t.empty } ∧ OpDone s.g t.g op
          ∧ (∀ a, a < atS s.b.uid off ∨ atS s.b.uid (off + 56) ≤ a → memGet t.mem a = memGet s.mem a)
          ∧ (∀ i, i < 36 → memGet t.mem (atS s.b.uid (off + i)) = 0)
          ∧ (∀ i, 40 ≤ i → i < 56 → memGet t.mem (atS s.b.uid (off + i)) = 0)
          ∧ memNat t.mem (atS s.b.uid (off + 36)) 4 = (memNat s.mem (atS s.b.uid (off + 36)) 4 + 1) % 2 ^ 32)

/-! ## Words of the queue engine, the checker and the tables -/

/-- R153, R269 to R272, R274, R286, R287: sending, receiving, launching and the channel words. Order is kept by channel
and capability (DEDUCED, log 34). -/
def Obligations.QueueWords : Prop :=
  ∀ (s : State) (c : Bool) (d y n6 : BitVec 6) (n4 : BitVec 4) (n2 : BitVec 2),
    let task := s.task s.g.task
    let below : Prop := (s.src.kops.filter fun k => k.cls == 4).length < 63
    let L := leader s.lanes
    (let cur := s.src.chCur.toNat
     let ch := s.src.chan cur
     let n := if cur = 0 then s.src.mqDest.toNat else ch.cap
     let ok := s.capOk task (task.cap n) [1, if cur = 0 then 2 else 3] 0
     let w : Instr := .wrsMqSend c d
     (¬Readable s [(1, d.toNat)] → Opr w s)
     ∧ (Readable s [(1, d.toNat)] →
       (cur ≠ 0 → ch.opened = false → exec w s = .next (s.fault 9 0 0))
       ∧ (cur = 0 ∨ ch.opened = true →
         (ok = false → exec w s = .next (s.fault 8 0 0))
         ∧ (ok = true → ¬(below ∧ s.g.allowance n ≠ 0) → exec w s = .next s.hold)
         ∧ (ok = true → below → s.g.allowance n ≠ 0 → s.b.replay = none → ∃ t payload, exec w s = .next t ∧ Sent s t n cur payload
             ∧ payload.length = 128
             ∧ ∀ K < 32, fieldAt payload (4 * K) 4 = if K ∈ s.lanes then (s.src.val d.toNat K).toNat else 0))))
    ∧ (let n := n2.toNat
       let w : Instr := .rdsMqRecv c d n2
       (¬Writable s 1 d.toNat [] → Opr w s)
       ∧ (Writable s 1 d.toNat [] →
         (s.b.rq ≤ n → exec w s = .next (s.fault 8 0 0))
         ∧ (n < s.b.rq → s.queue n = [] → exec w s = .next s.hold)
         ∧ (n < s.b.rq → ∀ f rest, s.queue n = f :: rest → ∃ t, exec w s = .next t
             ∧ t = { s with
                 g := { s.g with gen := t.g.gen, uni := t.g.uni, allow := t.g.allow }, b := { s.b with queues := t.b.queues }
                 gangs := t.gangs, images := t.images, windows := t.windows, flits := t.flits, agenda := t.agenda }
             ∧ (∀ r K, K < 32 → t.g.val r K = written s.g 1 d.toNat s.lanes (one fun K => BitVec.ofNat 32 (fieldAt f.payload (4 * K) 4)) r K)
             ∧ (∀ m, t.queue m = if m = n then rest else s.queue m)
             ∧ t.flits.map Flit.id = s.flits.map Flit.id ∧ (∀ i ∈ s.agenda, i ∈ t.agenda)
             ∧ (f.sender = some s.g.uid → (∀ m, t.g.allowance m = s.g.allowance m + if m = f.cap then 1 else 0)
                 ∧ t.gangs = s.gangs ∧ t.windows = s.windows)
             ∧ (∀ g, f.sender = some g → g ≠ s.g.uid → t.g.allow = s.g.allow ∧ t.windows = s.windows
                 ∧ t.gangs = s.gangs.map fun h =>
                     if h.uid = g then { h with allow := Store.put h.allow f.cap (Store.get 0 h.allow f.cap + 1) } else h)
             ∧ (∀ v, f.sender = none → f.window = some v → t.g.allow = s.g.allow ∧ t.gangs = s.gangs
                 ∧ (Store.get {} t.windows v).left = (Store.get {} s.windows v).left + 1))))
    ∧ (let n := n6.toNat
       let off := (s.src.val y.toNat L).toNat
       let ok := s.capOk task (task.cap n) [2] 1
       let w : Instr := .launch c n6 y
       (¬Readable s [(1, y.toNat)] → Opr w s)
       ∧ (Readable s [(1, y.toNat)] →
         (s.lanes = [] → exec w s = .next s)
         ∧ (s.lanes ≠ [] → off % 128 ≠ 0 ∨ s.b.sbytes < off + 128 → Opr w s)
         ∧ (s.lanes ≠ [] → off % 128 = 0 → off + 128 ≤ s.b.sbytes →
           (ok = false → exec w s = .next (s.fault 8 0 0))
           ∧ (ok = true → ¬(below ∧ s.g.allowance n ≠ 0 ∧ s.storesPending off 128 = false) → exec w s = .next s.hold)
           ∧ (ok = true → below → s.g.allowance n ≠ 0 → s.storesPending off 128 = false →
             let bad := s.markedIn [(atS s.b.uid off, 128)]
             (bad ≠ [] → exec w s = .next ((s.reportAll bad s.b.task).fault 7 0 (BitVec.ofNat 64 off)))
             ∧ (bad = [] → s.b.replay = none → ∃ t, exec w s = .next t ∧ Sent s t n 0 (memBytes s.mem (atS s.b.uid off) 128))))))
    ∧ (let n := n4.toNat
       let isOpen := (s.g.chan n).opened
       let chans (w : Instr) (x : Chan) (f : Gang → Gang → Gang) (k : Nat) : Prop :=
         ∃ t, exec w s = .next t ∧ t = { s with g := f t.g { s.g with chans := t.g.chans }, next := s.next + k }
           ∧ ∀ m, t.g.chan m = if m = n then x else s.g.chan m
       let closed (t g : Gang) : Gang := { g with chCur := if s.g.chCur = n4 then 0 else s.g.chCur, kops := t.kops }
       let mine : List Nat := (s.flits.filter fun f => f.sender == some s.g.uid && f.chan == n).map Flit.id
       let op : KOp := { id := s.next, cls := 4, work := .chclose mine }
       (isOpen = true → exec (.chopen c n4 y) s = .next (s.fault 9 0 0))
       ∧ (isOpen = false → s.capOk task (task.cap y.toNat) [1, 3] 0 = false → exec (.chopen c n4 y) s = .next (s.fault 8 0 0))
       ∧ (isOpen = false → s.capOk task (task.cap y.toNat) [1, 3] 0 = true →
           chans (.chopen c n4 y) { opened := true, cap := y.toNat } (fun _ g => g) 0)
       ∧ (isOpen = false → exec (.chclose c n4) s = .next (s.fault 9 0 0))
       ∧ (isOpen = true → ¬below → exec (.chclose c n4) s = .next s.hold)
       ∧ (isOpen = true → below → chans (.chclose c n4) { s.g.chan n with opened := false } closed 1
           ∧ ∀ t, exec (.chclose c n4) s = .next t →
               (mine ≠ [] → t.g.kops = s.g.kops ++ [op])
               ∧ (mine = [] → OpDone { t.g with kops := s.g.kops ++ [op] } t.g s.next))
       ∧ (n4 ≠ 0 → isOpen = false → exec (.chsel c n4) s = .next (s.fault 9 0 0))
       ∧ (n4 = 0 ∨ isOpen = true → exec (.chsel c n4) s = .next { s with g := { s.g with chCur := n4 } }))

/-- R408 to R412: the witness words. WSEED writes the operator's seed; WEMIT sends elements as an operation of k4;
WCLOSE closes the slices of the group and waits; SIGRD and RELREQ ask the checker and wait for its reply. -/
def Obligations.WitnessWords : Prop :=
  ∀ (s : State) (c : Bool) (x y : BitVec 6) (x5 z : BitVec 5) (i : BitVec 4),
    let seed : BitVec 128 := (s.oper.map Oper.seed).getD 0
    let L := leader s.lanes
    let asked (w : Instr) (oper : Option Nat) (reg : Nat) (e : Instr) : Prop :=
      ∃ t r, exec w s = .next t ∧ r = { id := s.next, oper := oper, reg := reg, exec := laneMask s.lanes }
        ∧ t = { s with
            g := { s.g with slices := t.g.slices, replies := s.g.replies ++ [r] }, next := s.next + 1, agenda := t.agenda }
        ∧ (SlicesAre s.g t.g fun i => if i ∈ s.group then { s.g.slice i with wait := .reply s.next } else s.g.slice i)
        ∧ Awaits s t [e]
    Writes (.wseed c i) s 4 (4 * i.toNat) [] s.lanes (fun j _ => elem 32 j seed)
    ∧ (let item := i.toNat
       let size := if item = 5 then 40 else if item = 0 then 64 else 8
       let off := (s.src.val y.toNat L).toNat
       let first := (s.src.val (2 * z.toNat) L).toNat
       let n := (s.src.val (2 * z.toNat + 1) L).toNat
       let bad : Prop := off % 16 ≠ 0 ∨ s.b.sbytes < off + n * size ∨ n = 0 ∨ 4096 < n ∨ (item = 0 ∧ (first ≠ 0 ∨ n ≠ 1))
       let below : Prop := (s.src.kops.filter fun k => k.cls == 4).length < 63
       let operator : Prop := (s.task s.g.task).record.wclass ≠ 0
       let quiet : Prop := s.storesPending off (n * size) = false
       let w : Instr := .wemit c i y z
       (¬Readable s [(1, y.toNat), (2, 2 * z.toNat)] → Opr w s)
       ∧ (Readable s [(1, y.toNat), (2, 2 * z.toNat)] →
         (s.lanes = [] → exec w s = .next s)
         ∧ (s.lanes ≠ [] → bad → Opr w s)
         ∧ (s.lanes ≠ [] → ¬bad → ¬operator → exec w s = .next s)
         ∧ (s.lanes ≠ [] → ¬bad → operator → ¬(below ∧ quiet) → exec w s = .next s.hold)
         ∧ (s.lanes ≠ [] → ¬bad → operator → below → quiet →
             let marked := s.markedIn [(atS s.b.uid off, n * size)]
             (marked ≠ [] → exec w s = .next ((s.reportAll marked s.b.task).fault 7 0 (BitVec.ofNat 64 off)))
             ∧ (marked = [] → ∃ t, exec w s = .next t
               ∧ Counted s t 4 (.wemit item first size (memBytes s.mem (atS s.b.uid off) (n * size)))
                   [.witnessItemStore s.g.uid s.next]))))
    ∧ (∃ t kids posted, exec (.wclose c) s = .next t
        ∧ (SlicesOnly s t fun i =>
            if i ∈ s.group then { s.g.slice i with closed := true, wait := .wclose (decide (s.iss.idx + 1 < s.iss.len)) kids posted }
            else s.g.slice i)
        ∧ (∀ k, k ∈ kids ↔ ∃ o ∈ s.g.kops, o.id = k ∧ o.cls ≠ 4)
        ∧ ∀ w, w ∈ posted ↔ (∃ f ∈ s.g.outstanding, f.op.kind = .atom ∧ f.op.ret = false ∧ f.id = w)
            ∨ ∃ p ∈ s.posted, p.gang = s.g.uid ∧ p.word = w)
    ∧ ((¬Writable s 2 (2 * x5.toNat) [] → Opr (.sigrd c x5) s)
      ∧ (Writable s 2 (2 * x5.toNat) [] →
        (s.lanes = [] → exec (.sigrd c x5) s = .next s)
        ∧ (s.lanes ≠ [] → asked (.sigrd c x5) none (2 * x5.toNat) (.sigrdReply s.g.uid s.next))))
    ∧ ((¬Writable s 1 x.toNat [(1, y.toNat)] → Opr (.relreq c x y) s)
      ∧ (Writable s 1 x.toNat [(1, y.toNat)] →
        (s.lanes = [] → exec (.relreq c x y) s = .next s)
        ∧ (s.lanes ≠ [] → asked (.relreq c x y) (some (s.src.val y.toNat L).toNat) x.toNat (.relreqReply s.g.uid s.next))))

/-- R33, R288, R355 to R357: TLBINV, CWB and EVICT. Unprivileged code takes PRV; TLBINV drops the entries of its set;
CWB goes through its lines in increasing address, awaits their write-backs, and stops with XLT at one that does not
translate. -/
def Obligations.TableWords : Prop :=
  ∀ (s : State) (c : Bool) (h v : BitVec 1) (y : BitVec 5) (z : BitVec 6),
    let L := leader s.lanes
    let va := (s.src.val64 (2 * y.toNat) L).toNat
    let n := (s.src.val z.toNat L).toNat
    let ctx := s.ctxOf s.b
    let prv (w : Instr) : Prop := s.priv = false → exec w s = .next (s.fault 2 0 0)
    let overlaps (k : Nat) (e : TlbEntry) : Prop := e.holder ≠ apertureCache ∧ e.ctx = ctx ∧ e.va < va + k ∧ va < e.va + e.size
    let leads (k : Nat) (p : WalkEntry) : Prop :=
      p.ctx = ctx ∧ p.tag * 2 ^ (12 + 9 * p.lvl) < va + k ∧ va < (p.tag + 1) * 2 ^ (12 + 9 * p.lvl)
    let dropped (w : Instr) (set : TlbEntry → Prop) (ptr : WalkEntry → Prop) : Prop :=
      let covered (x a : Nat) : Prop := ∃ e ∈ s.tlb, set e ∧ e.ctx = x ∧ e.va ≤ a ∧ a < e.va + e.size
      ∃ t waits, exec w s = .next t
        ∧ t = { s with tlb := t.tlb, walks := t.walks, g := { s.g with slices := t.g.slices } }
        ∧ (∀ e, e ∈ t.tlb ↔ e ∈ s.tlb ∧ ¬set e) ∧ (∀ p, p ∈ t.walks ↔ p ∈ s.walks ∧ ¬ptr p)
        ∧ (SlicesAre s.g t.g fun i => if i ∈ s.group then { s.g.slice i with sync := (s.g.slice i).sync ++ waits } else s.g.slice i)
        ∧ ∀ w, w ∈ waits ↔ (∃ p ∈ s.posted, p.word = w ∧ p.op.space = .g ∧ covered p.ctx p.addr.toNat)
            ∨ ∃ g ∈ s.allGangs, ∃ b f L, s.findBlock g.block = some b ∧ f ∈ g.flights ∧ f.id = w ∧ L ∈ maskLanes f.remain
                ∧ Store.find f.held L ≠ none ∧ covered (s.ctxOf b) (Store.get 0 f.addr L).toNat
    let addressed (w : Instr) (ops : List (Nat × Nat)) (bad : Prop) (done : Prop) : Prop :=
      s.priv = true →
        (¬Readable s ops → Opr w s)
        ∧ (Readable s ops → (s.lanes = [] → exec w s = .next s) ∧ (s.lanes ≠ [] → (bad → Opr w s) ∧ (¬bad → done)))
    let badVa : Prop := 2 ^ 48 ≤ va ∨ va % 4096 ≠ 0
    prv (.tlbinvPage c y) ∧ prv (.tlbinvRange c y z) ∧ prv (.tlbinvCtx c) ∧ prv (.tlbinvAll c) ∧ prv (.cwb c h v y z) ∧ prv (.evict c)
    ∧ addressed (.tlbinvPage c y) [(2, 2 * y.toNat)] badVa (dropped (.tlbinvPage c y) (overlaps 4096) (leads 4096))
    ∧ addressed (.tlbinvRange c y z) [(2, 2 * y.toNat), (1, z.toNat)] (badVa ∨ n = 0 ∨ 1048576 < n)
        (dropped (.tlbinvRange c y z) (overlaps (4096 * n)) (leads (4096 * n)))
    ∧ (s.priv = true → s.lanes = [] → exec (.tlbinvCtx c) s = .next s ∧ exec (.tlbinvAll c) s = .next s)
    ∧ (s.priv = true → s.lanes ≠ [] → dropped (.tlbinvCtx c) (fun e => e.ctx = ctx) (fun p => p.ctx = ctx)
        ∧ dropped (.tlbinvAll c) (fun _ => True) fun _ => True)
    ∧ addressed (.cwb c h v y z) [(2, 2 * y.toNat), (1, z.toNat)]
        (va % 128 ≠ 0 ∨ n % 128 ≠ 0 ∨ n = 0 ∨ 1048576 < n ∨ 2 ^ 48 ≤ va)
        (exec (.cwb c h v y z) s = .next (State.cwbLines (v == 1) (h == 1) (n / 128) va s))
    ∧ (∀ (inv hbm : Bool) (a k : Nat),
        State.cwbLines inv hbm 0 a s = s
        ∧ (∀ e, s.cwbXlat a = .error e → State.cwbLines inv hbm (k + 1) a s
            = if e = 3 then (s.reportWalk (s.ctxOf s.b) a s.g.task).stopAfter 7 0 (BitVec.ofNat 64 a)
              else s.stopAfter 6 e (BitVec.ofNat 64 a))
        ∧ (∀ x, s.cwbXlat a = .ok x → ∃ u, State.cwbLines inv hbm (k + 1) a s = State.cwbLines inv hbm k (a + 128) u
            ∧ u = { s with
                tlb := u.tlb, walks := u.walks, g := { s.g with slices := u.g.slices }
                fab := { s.fab with lines := u.fab.lines, links := u.fab.links, held := u.fab.held }, agenda := u.agenda }
            ∧ (SlicesAre s.g u.g fun i =>
                if i ∈ s.group then { s.g.slice i with backs := (s.g.slice i).backs ++ x.bothLines } else s.g.slice i)
            ∧ (∀ m, m ∉ x.bothLines → u.line m = s.line m)
            ∧ ∀ m ∈ x.bothLines, (hbm = true → ((u.line m).of 4).dirty = false)
                ∧ ∀ d < 4, CanSend s d (homeNode m) →
                    let was := (s.line m).of d
                    let now := (u.line m).of d
                    if inv = true ∨ was.dirty = true then
                      now.tokens = 0 ∧ (was.tokens ≠ 0 → OnWay u (.tokensArrive 4 d m was.tokens was.owner was.dirty was.valid))
                    else now = was))
    ∧ (s.priv = true →
        (s.poolFree s.b.die s.b.core = 0 → exec (.evict c) s = .next s.hold)
        ∧ (s.poolFree s.b.die s.b.core ≠ 0 → ∃ t, exec (.evict c) s = .next t
            ∧ t = { s with b := { s.b with evicting := true }, agenda := t.agenda }
            ∧ Awaits s t [.blockEvictionSave s.b.uid]))

/-! ## Steps of the schedulers and of memory -/

/-- R20, R164, R284, R313: a scheduler's turn, the choice among ready gangs, ageing, the end of a sleep and the entry of a
handler once its stop is complete. How much time passes is free (log 2). -/
def Obligations.SchedulingSteps : Prop :=
  ∀ (s : State) (die core gang slice : Nat),
    (∃ v : State,
      (let u := s.focusCore die core
       v = { u with c := { u.c with cycle := v.c.cycle, perfCnt := v.c.perfCnt, turn := (u.c.turn + 1) % 4 } }
       ∧ (if u.c.turn = 0 then u.c.cycle < v.c.cycle else v.c.cycle = u.c.cycle)
       ∧ (v.gangsOf u.c.turn = [] → exec (.schedulerCycle die core) s = .next v)
       ∧ (v.gangsOf u.c.turn = [gang] → v.focus gang = v → v.g.uid = gang → gang ≠ 0 → v.overSlices = [] → NoneAwaitsAny v.g →
          v.g.fences = [] → (∀ i < 8, (v.g.slice i).sync = [] ∧ (v.g.slice i).backs = []) →
          (∀ i < 8, ∀ j < 8, (v.g.slice i).grp = (v.g.slice j).grp →
            (v.g.slice i).pc = (v.g.slice j).pc ∧ ((v.g.slice i).wait = .none ↔ (v.g.slice j).wait = .none)) →
          ∃ t, exec (.schedulerCycle die core) s = .next t
            ∧ ((t = { v with g := { v.g with yielded := none }, c := { v.c with perfCnt := t.c.perfCnt } })
              ∨ ∃ k w, w = { v with c := { v.c with perfCnt := t.c.perfCnt } } ∧ w.groupFree k = true ∧ (w.select k).chainReady = true
                ∧ t = { v with
                    g := { v.g with yielded := none, level := v.b.prio, waits := 0 }
                    c := { v.c with perfCnt := t.c.perfCnt }, sel := some (gang, k) }))))
    ∧ (∀ l : List Contender, match Contender.best l with
        | none => l = []
        | some x => x ∈ l ∧ ∀ y ∈ l, y.level < x.level ∨ (y.level = x.level ∧ x.key ≤ y.key))
    ∧ (let u := s.focus gang
       u.g.uid = gang →
        (256 ≤ u.g.waits → ∃ t, exec (.ageingLevelRise gang) s = .next t
          ∧ t = { u with g := { u.g with level := min 7 (u.g.level + 1), waits := 0 }, c := { u.c with perfCnt := t.c.perfCnt } })
        ∧ (u.g.waits < 256 → exec (.ageingLevelRise gang) s = .next u)
        ∧ (∀ n k till, (u.g.slice slice).wait = .sleep n k till → u.g.mode ≠ .halted → u.g.frame = none ∨ u.g.hslices.getLsbD slice = true →
            u.c.dbgCtl.getLsbD 16 = false →
            (till ≤ u.c.cycle → ∃ t, exec (.sleepExpiry gang slice) s = .next t
              ∧ SlicesOnly u t fun i => if i = slice then { u.g.slice i with wait := .none } else u.g.slice i)
            ∧ (u.c.cycle < till → ∃ t, exec (.sleepExpiry gang slice) s = .next t
              ∧ t = { u with agenda := t.agenda } ∧ Awaits u t [.sleepExpiry gang slice]))
        ∧ ∀ st, u.g.stop = some st →
            ((∃ f ∈ u.g.flights, (f.op.kind = .atom ∨ f.remain = 0) ∧ f.cause = 0) → ∃ t, exec (.handlerEntry gang) s = .next t
              ∧ t = { u with agenda := t.agenda } ∧ Awaits u t [.handlerEntry gang])
            ∧ ((∀ f ∈ u.g.flights, (f.op.kind ≠ .atom ∧ f.remain ≠ 0) ∨ f.cause ≠ 0) → Unprivileged u.g (bitsOf 8 st.group.toNat) →
              st.code < 256 → st.info < 256 → st.slice < 256 →
              let c := u.ctx (u.task u.g.task).ctx
              let entry := if 17 ≤ st.code then c.dbgent else c.trapent
              c.valid = true → entry ≠ 0 → ∃ t, exec (.handlerEntry gang) s = .next t
                ∧ Entered u.g t.g u.c.cycle (bitsOf 8 st.group.toNat) entry st.code st.info st.slice st.pc st.addr
                ∧ t = { u with g := t.g, c := { u.c with perfCnt := t.c.perfCnt } }))

/-- R58, R174, R176 to R178, R184, R185: a scratchpad word performs. A load leaves the values read in its destination, LDT
empties the granules it read, LDW and LDT wait in the table for granules that are not full, without an entry while it
holds as many as it can (the model's choice, log 38); of two lanes that store to one byte the higher one's value stays,
and STF sets the granules full. -/
def Obligations.ScratchpadSteps : Prop :=
  ∀ (s : State) (gang op : Nat) (f : Flight),
    let u := s.focus gang
    let lanes := maskLanes f.remain
    let place (L : Nat) : Nat := Store.get 0 f.place L
    let size := f.op.size
    let n := if size = 16 then 4 else if size = 8 then 2 else 1
    let waits : Prop := f.op.kind = .ldw ∨ f.op.kind = .ldt
    Memory.wf s.mem = true → u.g.uid = gang → u.g.flight op = some f → f.id = op → size ∈ [1, 2, 4, 8, 16] →
    (f.cause = 0 → lanes = [] → f.half = true → ∀ i, u.g.shape f.op.reg = .uniform i →
      ∃ t, exec (.scratchpadLoadComplete gang op) s = .next t ∧ t = { u with g := t.g } ∧ FlightEnded u t f
        ∧ t.g.gen = u.g.gen ∧ t.g.uni = u.g.uni)
    ∧ (Performs u f → lanes ≠ [] →
    (f.op.kind ∈ [MemKind.ld, .ldw, .ldt, .lda, .ldx] → f.exec = f.remain → f.got = [] →
      (∀ i < u.g.slices.length, ∀ r ∈ (u.g.slice i).flags, r.op = op → r.win = 0) → f.half = false →
      u.g.regOk n f.op.reg = true → (∀ i, u.g.shape f.op.reg ≠ .affine i) →
      let value (L : Nat) : BitVec 128 :=
        let v := memNat u.mem (place L) size
        if f.op.signed = true ∧ 2 ^ (8 * size - 1) ≤ v then ((BitVec.ofInt 32 ((v : Int) - 2 ^ (8 * size)) : Word).setWidth 128) else BitVec.ofNat 128 v
      ((f.op.signed = true → size ≤ 2) →
        (waits → ∀ L ∈ lanes, granFull u.empty (place L) = true ∧ u.olderWaiter f (place L / 16) = false) →
        ∃ t, exec (.scratchpadLoadComplete gang op) s = .next t
          ∧ t = { u with g := t.g, c := { u.c with perfCnt := t.c.perfCnt }, empty := t.empty, agenda := t.agenda }
          ∧ Delivered u t f n (fun j L => elem 32 j (value L))
          ∧ ∀ gr, gr ∈ t.empty ↔ gr ∈ u.empty ∨ (f.op.kind = .ldt ∧ ∃ L ∈ lanes, gr ∈ granules (place L) size))
      ∧ (waits → (∀ L ∈ lanes, granFull u.empty (place L) = false) → f.parked ≠ none ∨ 32 ≤ u.parkedHere →
        ∃ t, exec (.scratchpadLoadComplete gang op) s = .next t
          ∧ t = { u with g := { u.g with flights := u.g.flights.map fun x => if x.id = op then f else x }, agenda := t.agenda }
          ∧ Awaits u t [f.event gang])
      ∧ (waits → (∀ L ∈ lanes, granFull u.empty (place L) = false) → f.parked = none → u.parkedHere < 32 →
        ∃ t, exec (.scratchpadLoadComplete gang op) s = .next t
          ∧ t = { u with
              g := { u.g with flights := u.g.flights.map fun x => if x.id = op then { f with parked := some u.next } else x }
              c := { u.c with perfCnt := t.c.perfCnt }, next := u.next + 1, agenda := t.agenda }
          ∧ Awaits u t [{ f with parked := some u.next }.event gang]))
    ∧ (f.op.kind ∈ [MemKind.st, .stf, .strel, .stx] → ∃ t, exec (.scratchpadStoreComplete gang op) s = .next t
        ∧ (∀ L ∈ lanes, ∀ i < size, (∀ K ∈ lanes, L < K → place L + i < place K ∨ place K + size ≤ place L + i) →
            memGet t.mem (place L + i) = (Store.get 0 f.data L).extractLsb' (8 * i) 8)
        ∧ (∀ a, (∀ L ∈ lanes, a < place L ∨ place L + size ≤ a) → memGet t.mem a = memGet u.mem a)
        ∧ (f.op.kind ≠ .stf ∨ NoneParked u →
          t = { u with g := t.g, c := { u.c with perfCnt := t.c.perfCnt }, empty := t.empty, mem := t.mem }
          ∧ FlightEnded u t f ∧ t.g.gen = u.g.gen ∧ t.g.uni = u.g.uni ∧ t.g.cached = u.g.cached
          ∧ ∀ gr, gr ∈ t.empty ↔ gr ∈ u.empty ∧ (f.op.kind = .stf → ∀ L ∈ lanes, 16 * gr + 16 ≤ place L ∨ place L + size ≤ 16 * gr))))

/-- R58, R181, R186, R207, R347, R353, R362, R368, R379: the words of G and the atomics perform. A translation that fails
stops the word with XLT, or with ABRT where the walk meets an abort completion; a GST lane writes where its die owns the
line, and asks for it where it does not; an ATOM returns the old value and leaves the new one. A miss enters the walker's
table or merges into the walk for its page, and the words of a walk are served when it ends. -/
def Obligations.GlobalSteps : Prop :=
  ∀ (s : State) (gang op : Nat) (f : Flight) (L : Nat),
    let u := s.focus gang
    let size := f.op.size
    let va := Store.get 0 f.addr L
    let n := if size = 16 then 4 else if size = 8 then 2 else 1
    let need : Need := if f.op.kind = .atom then .atom else .write
    let stops (v : State) (w : Instr) : Prop := ∀ K e, v.xlatFault need f = some (K, e) →
      let a := Store.get 0 f.addr K
      let info := if f.op.kind = .gst then 0 else if f.op.ret then 1 else 2
      exec w s = .next (
        if e = 3 then (v.reportWalk (v.ctxOf v.b) a.toNat v.g.task).faultWord f 7 info a else v.faultWord f 6 e a)
    let writable : Prop := (∀ i < u.g.slices.length, ∀ r ∈ (u.g.slice i).flags, r.op = op → r.win = 0)
      ∧ f.exec = f.remain ∧ f.got = [] ∧ f.half = false ∧ u.g.regOk n f.op.reg = true ∧ ∀ i, u.g.shape f.op.reg ≠ .affine i
    Memory.wf s.mem = true → u.g.uid = gang → u.g.flight op = some f → f.id = op → Performs u f → maskLanes f.remain = [L] → size ∈ [4, 8, 16] →
    (f.op.kind = .gst → f.walked = true → f.late = false →
      stops u (.gstComplete gang op)
      ∧ ∀ x, u.laneXlat .write f L = .ok x → x.ver = false → u.isReplay u.b.uid = false → u.b.replay = none → u.b.gone = false →
          let line := lineOf x.writePhys
          u.reachable x.writePhys = true → u.fab.lost.contains line = false → u.noReply u.b.die line = false → u.b.die ∉ u.fab.bufUe →
          ((u.line line).enough u.b.die true = true → u.findBlock u.b.uid = some u.b →
            ∃ t, exec (.gstComplete gang op) s = .next t
              ∧ t = { u with
                  g := t.g, b := { u.b with sig := t.b.sig }, mem := t.mem, seals := t.seals
                  fab := { u.fab with lines := t.fab.lines, links := t.fab.links, held := t.fab.held }, agenda := t.agenda }
              ∧ FlightEnded u t f ∧ t.g.gen = u.g.gen ∧ t.g.uni = u.g.uni ∧ t.g.cached = u.g.cached
              ∧ t.b.sig = u.b.sig + sigTerm va.toNat size 0 0 ((Store.get 0 f.data L).toNat % 2 ^ (8 * size)) 0
              ∧ WroteUnder u t x.key x.writePhys size (fun i => (Store.get 0 f.data L).extractLsb' (8 * i) 8)
              ∧ (∀ m, m ≠ line → t.line m = u.line m)
              ∧ (t.line line).of u.b.die = { (u.line line).of u.b.die with dirty := true, valid := true })
          ∧ ((u.line line).enough u.b.die true = false → u.fab.paused = false → Store.find (u.line line).wants u.b.die = none →
            ∃ t h, exec (.gstComplete gang op) s = .next t ∧ t.mem = u.mem ∧ t.b = u.b
              ∧ t.g = { u.g with flights := u.g.flights.map fun y => if y.id = op then { f with held := h } else y }
              ∧ (u.b.die < 4 → HasWay u u.b.die (homeNode line) false → OnWay t (.ownRequest u.b.die line))
              ∧ Awaits u t [.transientRetryTimeout u.b.die line, lineTimeout u.b.die line, f.event gang]))
    ∧ (f.op.kind = .atom → f.op.space = .s → f.op.ret = true → writable →
      let p := Store.get 0 f.place L
      let old := memNat u.mem p size
      ∃ t, exec (.atomComplete gang op) s = .next t
        ∧ t = { u with g := t.g, c := { u.c with perfCnt := t.c.perfCnt }, mem := t.mem, agenda := t.agenda }
        ∧ Delivered u t f n (fun j _ => elem 32 j (BitVec.ofNat 128 old))
        ∧ AtomValue f.op.aop f.op.aty (8 * size) old ((Store.get 0 f.data L).toNat % 2 ^ (8 * size))
            ((Store.get 0 f.casv L).toNat % 2 ^ (8 * size)) (memNat t.mem p size)
        ∧ ∀ a, a < p ∨ p + size ≤ a → memGet t.mem a = memGet u.mem a)
    ∧ (f.op.kind = .atom → f.op.space = .g → f.op.ret = true → f.late = false → f.walked = true → writable →
      stops u (.atomComplete gang op)
      ∧ ∀ x, u.laneXlat .atom f L = .ok x → x.ver = false → x.pend = false → u.b.replay = none → u.b.gone = false →
          u.findBlock u.b.uid = some u.b →
          let line := lineOf x.writePhys
          let old := leNat (u.seen x size)
          let data := (Store.get 0 f.data L).toNat % 2 ^ (8 * size)
          let nv := (Store.get 0 f.casv L).toNat % 2 ^ (8 * size)
          u.reachable x.writePhys = true → u.fab.lost.contains line = false → u.noReply 4 line = false → (u.line line).enough 4 true = true →
          ∃ t v, exec (.atomComplete gang op) s = .next t
            ∧ t = { u with
                g := t.g, b := { u.b with sig := t.b.sig }, mem := t.mem, seals := t.seals
                fab := { u.fab with lines := t.fab.lines, links := t.fab.links, held := t.fab.held }, agenda := t.agenda }
            ∧ Delivered u t f n (fun j _ => elem 32 j (BitVec.ofNat 128 old))
            ∧ t.b.sig = u.b.sig + sigTerm va.toNat size (1 + f.op.aop) f.op.aty data nv
            ∧ AtomValue f.op.aop f.op.aty (8 * size) old data nv v
            ∧ WroteUnder u t x.key x.writePhys size (fun i => BitVec.ofNat 8 (v / 256 ^ i))
            ∧ (∀ m, m ≠ line → t.line m = u.line m)
            ∧ (t.line line).of 4 = { (u.line line).of 4 with dirty := true, valid := true })
    ∧ (f.walked = false → f.op.kind = .gst ∨ (f.op.kind = .atom ∧ f.op.ret = true) →
      let w : Instr := .walkEnd gang op
      let ctx := u.ctxOf u.b
      let page := va.toNat / 4096
      let ms := u.misses.filter u.awaited
      let v : State := { u with misses := ms }
      let mine := ms.filter fun m => m.has gang op
      let served (v : State) (back : State → State) : Prop := v.xlatFault need f = none → ∃ t, exec w s = .next (back t)
          ∧ t = { v with
              g := { v.g with flights := v.g.flights.map fun x => if x.id = op then { f with walked := true } else x }
              tlb := t.tlb, walks := t.walks, agenda := t.agenda }
          ∧ Awaits v t [{ f with walked := true }.event gang]
      -- the caches translate the page by now
      (mine = [] → u.missing f = [] → stops v w ∧ served v id)
      -- a miss
      ∧ (mine = [] → u.missing f = [page] → ∃ t, exec w s = .next t ∧ t = { u with misses := t.misses, agenda := t.agenda }
        ∧ Awaits u t [w]
        ∧ ((∃ m ∈ ms, m.of u.b.die ctx page = true) → t.misses = ms.map fun m =>
            if m.of u.b.die ctx page = true ∧ m.has gang op = false then { m with who := m.who ++ [(gang, op)] } else m)
        ∧ ((∀ m ∈ ms, m.of u.b.die ctx page = false) →
            t.misses = if 4096 ≤ (ms.filter fun m => m.die == u.b.die).length then ms
              else ms ++ [{ die := u.b.die, ctx := ctx, page := page, who := [(gang, op)] }]))
      -- its walk is not among the first 48 of the die
      ∧ (mine ≠ [] → (∀ m ∈ mine, m ∉ (ms.filter fun m => m.die == u.b.die).take 48) → ∃ t, exec w s = .next t
        ∧ t = { v with agenda := t.agenda } ∧ Awaits u t [w])
      -- its walk ends, and serves it
      ∧ ∀ m, mine = [m] → m ∈ (ms.filter fun m => m.die == u.b.die).take 48 → m.who = [(gang, op)] → ∃ v : State,
          v = { u with tlb := v.tlb, walks := v.walks, misses := ms.filter (fun x => x != m), agenda := v.agenda }
          ∧ (∀ i ∈ u.agenda, i ∈ v.agenda) ∧ served v fun t => t.focus gang)

/-- R204, R208, R210: a posted atomic performs once no lower lane of its word has the same target: the new value stands at
its place, for G at the home of its line, and it leaves the buffer. One that meets an abort completion records it with
its gang, the first one met (the model's choice, log 35), and a FENCE .drain that awaits its word raises ABRT once that word has
ended. -/
def Obligations.PostedSteps : Prop :=
  ∀ (s : State) (op : Nat) (p : Posted),
    Memory.wf s.mem = true → s.posted.find? (fun q => q.id == op) = some p → p.op.size ∈ [4, 8, 16] →
    s.g.uid = p.gang → s.g.block = s.b.uid → s.b.die = s.c.die → s.b.core = s.c.idx → s.ue = [] →
    let size := p.op.size
    let data := p.data.toNat % 2 ^ (8 * size)
    let left := s.posted.filter fun q => q.id != op
    let first : Prop := ∀ q ∈ s.posted, q.word ≠ p.word ∨ q.addr ≠ p.addr ∨ p.lane ≤ q.lane
    let calm : Prop := ∀ r ∈ s.g.fences, ∀ d, r.drain = some d → d.hit = false
    let w : Instr := .postedAtomicPerform op
    (¬first → ∃ t, exec w s = .next t ∧ t = { s with agenda := t.agenda } ∧ Awaits s t [w])
    ∧ (first → calm → p.op.space ≠ .g → ∃ t, exec w s = .next t ∧ t = { s with mem := t.mem, posted := left }
        ∧ AtomValue p.op.aop p.op.aty (8 * size) (memNat s.mem p.phys size) data 0 (memNat t.mem p.phys size)
        ∧ ∀ a, a < p.phys ∨ p.phys + size ≤ a → memGet t.mem a = memGet s.mem a)
    ∧ (first → p.op.space = .g → p.block = s.b.uid → s.findBlock s.b.uid = some s.b → s.b.replay = none → s.b.gone = false → p.late = false →
        let x := s.postedXlat p
        let line := lineOf x.writePhys
        x.ver = false → x.pend = false →
        (calm → s.reachable x.writePhys = true → s.fab.lost.contains line = false → s.noReply 4 line = false →
          (s.line line).enough 4 true = true →
          ∃ t v, exec w s = .next t
            ∧ t = { s with
                mem := t.mem, seals := t.seals, posted := left, b := { s.b with sig := t.b.sig }
                fab := { s.fab with lines := t.fab.lines, links := t.fab.links, held := t.fab.held }, agenda := t.agenda }
            ∧ AtomValue p.op.aop p.op.aty (8 * size) (leNat (s.seen x size)) data 0 v
            ∧ WroteUnder s t x.key x.writePhys size (fun i => BitVec.ofNat 8 (v / 256 ^ i))
            ∧ t.b.sig = s.b.sig + sigTerm p.addr.toNat size (1 + p.op.aop) p.op.aty data 0
            ∧ (t.line line).of 4 = { (s.line line).of 4 with dirty := true, valid := true })
        ∧ (s.reachable x.writePhys = false → s.noReply 4 line = false → s.g.uid ≠ 0 → s.g.live ≠ 0 →
          let a := s.g.abort.getD p.addr
          (s.g.fences = [] → exec w s = .next { s with posted := left, g := { s.g with abort := some a } })
          ∧ ∀ r d, s.g.fences = [r] → r.drain = some d → r.waits = [p.word] → (∀ f ∈ s.g.outstanding, f.id ≠ p.word) →
              (∀ q ∈ left, q.word ≠ p.word) → (∀ h ∈ s.gangs ++ s.images.flatMap Image.gangs, ∀ f ∈ h.outstanding, f.id ≠ p.word) →
              s.g.stop = none → s.b.evicting = false → s.g.mode = .running →
              ∃ grp, exec w s = .next (State.raise { s with posted := left, g := { s.g with abort := none, fences := [] } }
                { code := 7, info := 2, pc := d.pc, addr := a, slice := d.slice, group := grp })))

/-! ## Steps of the queue engine, the bindings and the samplers -/

/-- R198, R270, R271, R274: a flit is placed where there is room, refused where there is none, and discarded where its
endpoint is gone; a refused flit goes again once room has been reserved for it. That a refused flit keeps its place
among those of its channel is the model's reading (DEDUCED, log 34). -/
def Obligations.FlitSteps : Prop :=
  ∀ (s : State) (flit : Nat) (f : Flit),
    s.flits.find? (fun x => x.id == flit) = some f → f.sender = some s.g.uid →
    let f' : Flit := { f with refused := none, reserved := false }
    let left := s.flits.filter fun x => x.id != flit
    let placed (w : Instr) : Prop :=
      (∀ task num q b, f.dst = .queue task num q → s.destBlock task num = some b → b.uid = s.b.uid → ∃ t, exec w s = .next t
          ∧ t = { s with g := t.g, b := { s.b with queues := t.b.queues }, flits := left }
          ∧ (∀ m, t.queue m = if m = q then s.queue q ++ [f'] else s.queue m) ∧ FlitGone s.g t.g f 0)
      ∧ (∀ v, f.dst = .window v → ∃ t, exec w s = .next t
          ∧ t = { s with g := t.g, windows := t.windows, flits := left }
          ∧ (∀ m, Store.get {} t.windows m
              = let x := Store.get ({} : Window) s.windows m
                if m = v then { x with recv := x.recv ++ [f'] } else x)
          ∧ FlitGone s.g t.g f 0)
    let discarded (w : Instr) : Prop := ∃ t, exec w s = .next t
      ∧ t = { s with g := t.g, flits := left, c := { s.c with perfCnt := t.c.perfCnt }, cores := t.cores }
      ∧ FlitGone s.g t.g f 1
    let busy : Prop := f.chan ≠ 0 ∧ ∃ x ∈ s.flits, x.sender = f.sender ∧ x.chan = f.chan ∧ x.cap = f.cap ∧ x.id < f.id
    let gone : Prop := s.endpointGone f.dst = true
    let freed := s.modFlit flit fun x => { x with reserved := false }
    (f.refused = none →
      (busy → ∃ t, exec (.flitPlacement flit) s = .next t ∧ t = { s with agenda := t.agenda } ∧ Awaits s t [.flitPlacement flit])
      ∧ (¬busy → gone → discarded (.flitPlacement flit))
      ∧ (¬busy → ¬gone → freed.roomAt f.dst = 0 → ∃ t, exec (.flitPlacement flit) s = .next t
          ∧ t = { s with
              flits := left ++ [{ f with refused := some s.next, reserved := false }], next := s.next + 1
              c := { s.c with perfCnt := t.c.perfCnt }, cores := t.cores })
      ∧ (¬busy → ¬gone → freed.roomAt f.dst ≠ 0 → placed (.flitPlacement flit)))
    ∧ (f.refused ≠ none → (∀ x ∈ s.flits, x.id = flit → x = f) →
      (gone → discarded (.flitResend flit))
      ∧ (¬gone → freed.roomAt f.dst = 0 → exec (.flitResend flit) s = .next freed)
      ∧ (¬gone → freed.roomAt f.dst ≠ 0 → f.reserved = false → exec (.flitResend flit) s = .next s)
      ∧ (¬gone → freed.roomAt f.dst ≠ 0 → f.reserved = true → ∃ t, exec (.flitResend flit) s = .next t
        ∧ t = { s with
            flits := s.flits.map fun x => if x.id = flit then { f with refused := none } else x
            fab := { s.fab with links := t.fab.links, held := t.fab.held }, agenda := t.agenda }
        ∧ (∀ i ∈ s.agenda, i ∈ t.agenda) ∧ OnWay t (.flitPlacement flit)))

/-- R292, R293, R299, R303: a binding whose source is satisfied becomes pending, and a slice that waits for it goes to its
handler; a task whose group has broken has its gangs ended 1,000,000 ns later. -/
def Obligations.BindingSteps : Prop :=
  ∀ (s : State) (gang bind task : Nat),
    (let u := s.focus gang
     let step (w : Instr) : Prop :=
       ∀ x, u.g.uid = gang → Store.find u.g.binds bind = some x →
         (x.pending = true ∨ u.satisfied u.g u.b x = false → exec w s = .next u)
         ∧ (x.pending = false → u.satisfied u.g u.b x = true →
           (NoneAwaitsAny u.g → ∃ t, exec w s = .next t
             ∧ t = { u with g := { u.g with binds := t.g.binds, slices := t.g.slices } }
             ∧ (∀ m, Store.find t.g.binds m = if m = bind then some { x with pending := true } else Store.find u.g.binds m)
             ∧ SlicesAre u.g t.g fun i => { u.g.slice i with grp := (t.g.slice i).grp })
           ∧ (∀ k < 8, ∀ m : BitVec 8, bind < 8 → k < u.g.slices.length → (u.g.slice k).wait = .waitany m → m.getLsbD bind = true →
               (∀ i < 8, i ≠ k → ∀ m, (u.g.slice i).wait ≠ .waitany m) → u.mayWake k = true →
               (∀ b ∈ (u.g.binds : List (Nat × Binding)), b.2.pending = false) →
               let y : Binding := { x with pending := true }
               let st := u.bindStatus y
               ∃ t, exec w s = .next t
                 ∧ t = { u with g := { u.g with binds := t.g.binds, slices := t.g.slices } }
                 ∧ (∀ m, Store.find t.g.binds m = if m = bind then none else Store.find u.g.binds m)
                 ∧ SlicesAre u.g t.g fun i =>
                     let sl := u.g.slice i
                     if i = k then { sl with
                       wait := .none, pc := x.handler, cause := BitVec.ofNat 32 (bind + 256 * x.kind + 4096 * st)
                       brk := sl.brk || (x.kind == 0 && st == 1), grp := (t.g.slice i).grp }
                     else { sl with grp := (t.g.slice i).grp }))
     step (.bindingPending gang bind) ∧ step (.timerBindingExpiry gang bind))
    ∧ ((s.task task).brokenAt = none → exec (.brokenTaskTimeout task) s = .next s)
    ∧ ∀ t0, (s.task task).brokenAt = some t0 →
        (s.ns < t0 + 1000000 → ∃ t, exec (.brokenTaskTimeout task) s = .next t
          ∧ t = { s with agenda := t.agenda } ∧ Awaits s t [.brokenTaskTimeout task])
        ∧ (t0 + 1000000 ≤ s.ns → (∀ im ∈ s.images, im.block.task ≠ task) →
          ((∀ g ∈ s.allGangs, g.task = task → g.live = 0) → exec (.brokenTaskTimeout task) s = .next (s.settleTask task))
          ∧ (s.g.task = task → s.g.uid ≠ 0 → s.g.live ≠ 0 → (∀ g ∈ s.gangs, g.task ≠ task) →
            ∃ u : State, exec (.brokenTaskTimeout task) s = .next (u.settleTask task)
              ∧ u.g.uid = s.g.uid ∧ u.g.live = 0 ∧ u.g.binds = [] ∧ u.mem = s.mem))

/-- R326: a chain chosen for sampling has its record built, or is skipped while a record is being built; the record is
written to the next place of the trace buffer. The times and levels of a record are free (logs 2, 16). -/
def Obligations.SamplingSteps : Prop :=
  ∀ (s : State) (die core sched : Nat) (b : List Byte),
    Memory.wf s.mem = true →
    let u := s.focusCore die core
    let x := u.sampler sched
    let become (t : State) (y : Sampler) : Prop := ∀ k, t.sampler k = if k = sched then y else u.sampler k
    (x.chosen = some b →
      (x.building = none → ∃ t, exec (.samplingChoice die core sched) s = .next t
        ∧ t = { u with c := { u.c with samplers := t.c.samplers }, agenda := t.agenda }
        ∧ become t { x with chosen := none, building := some b } ∧ Awaits u t [.samplingRecord die core sched])
      ∧ (x.building ≠ none → ∃ t, exec (.samplingChoice die core sched) s = .next t
        ∧ t = { u with c := { u.c with samplers := t.c.samplers, perfCnt := t.c.perfCnt } }
        ∧ become t { x with chosen := none }))
    ∧ (x.building = some b → b.length = 34 →
      let base := (u.c.sampRec.extractLsb' 0 32).toNat
      let count := (u.c.sampRec.extractLsb' 32 16).toNat
      let next := (u.c.sampRec.extractLsb' 48 16).toNat
      let at_ := atD die (base + 64 * next)
      count ≠ 0 → base + 64 * next + 64 ≤ 33554432 → ∃ t, exec (.samplingRecord die core sched) s = .next t
        ∧ t = { u with
            c := { u.c with samplers := t.c.samplers, perfCnt := t.c.perfCnt, sampRec := t.c.sampRec }, mem := t.mem }
        ∧ become t { x with building := none }
        ∧ t.c.sampRec.extractLsb' 0 48 = u.c.sampRec.extractLsb' 0 48
        ∧ (t.c.sampRec.extractLsb' 48 16).toNat = (next + 1) % count
        ∧ (∀ i < 22, memGet t.mem (at_ + i) = b.getD i 0) ∧ (memGet t.mem (at_ + 22)).toNat < 8 ∧ memGet t.mem (at_ + 23) = 0
        ∧ (∀ i < 12, memGet t.mem (at_ + 44 + i) = b.getD (22 + i) 0) ∧ (∀ i < 8, memGet t.mem (at_ + 56 + i) = 0)
        ∧ ∀ a, a < at_ ∨ at_ + 64 ≤ a → memGet t.mem a = memGet s.mem a)

/-! ## Steps of the dispatcher -/

/-- R270, R275 to R279: a record waits while the dispatcher is closed or full; a good one becomes a task at the end of its
level, a bad one is answered with the lowest reason that applies, and its unit returns either way. The number of a
task is the model's choice (log 12), some reasons are its reading (log 28). -/
def Obligations.RecordArrival : Prop :=
  ∀ (s : State) (record : Nat) (r : Record),
    s.records.find? (fun x => x.id == record) = some r → r.flit.sender = some s.g.uid →
    let w : Instr := .taskRecordArrival record
    let left := s.records.filter fun x => x.id != record
    let reasons := s.recordFaults r.bytes r.ctx
    let rec_ := parseRecord r.bytes
    let v := s.reportAll (s.imagePlaces r.ctx rec_.gtab (4096 + 16 * rec_.gangs)
      ++ if rec_.ctab = 0 then [] else s.imagePlaces r.ctx rec_.ctab 32) 0
    (s.accepting = false ∨ 4096 ≤ s.queued → ∃ t, exec w s = .next t ∧ t = { s with agenda := t.agenda } ∧ Awaits s t [w])
    ∧ (s.accepting = true → s.queued < 4096 →
      (reasons = [] → ∃ t x, exec w s = .next t
        ∧ t = { v with
            g := t.g, records := left, tasks := v.tasks ++ [x], nextTask := t.nextTask, levels := t.levels, agenda := t.agenda }
        ∧ FlitGone v.g t.g r.flit 1
        ∧ x.record = rec_ ∧ x.ctx = r.ctx ∧ x.tenant = (s.ctx r.ctx).tenant ∧ x.reply = r.flit.reply ∧ x.members.length = rec_.gangs
        ∧ (s.nextTask ≠ 0 → s.nextTask < 2 ^ 32 → (∀ y ∈ s.tasks, y.id ≠ s.nextTask) → x.id = s.nextTask)
        ∧ (∀ p, Store.get [] t.levels p = Store.get [] s.levels p ++ if p = rec_.prio then [QEntry.task x.id] else [])
        ∧ Awaits v t [.blockAdmission])
      ∧ (reasons ≠ [] → r.flit.reply = none → ∃ t, exec w s = .next t ∧ t = { v with g := t.g, records := left }
        ∧ FlitGone v.g t.g r.flit 1)
      ∧ (∀ ep, reasons ≠ [] → r.flit.reply = some ep → ∃ t f m, exec w s = .next t
        ∧ t = { v with
            g := t.g, records := left, flits := v.flits ++ [f], next := v.next + 1, agenda := t.agenda
            fab := { v.fab with links := t.fab.links, held := t.fab.held } }
        ∧ FlitGone v.g t.g r.flit 1
        ∧ f.id = v.next ∧ f.dst = ep ∧ f.tenant = r.flit.tenant ∧ f.payload.length = 128
        ∧ fieldAt f.payload 0 4 = 0 ∧ fieldAt f.payload 8 1 = 1 ∧ fieldAt f.payload 9 1 = m ∧ m ∈ reasons ∧ (∀ x ∈ reasons, m ≤ x)
        ∧ (∀ i ∈ v.agenda, i ∈ t.agenda) ∧ OnWay t (.flitPlacement v.next)))

/-- R23, R28, R280 to R282, R377: the dispatcher admits the next block of the task at the head to the first core it fits,
with its gangs at the record's address; it drops a task that fails, and has a block of lower priority evicted where
that makes room. Until a block that waits has been admitted, nothing else is, and only to the core on which blocks have
been evicted for it. -/
def Obligations.BlockAdmission : Prop :=
  ∀ (s : State),
    let waits (e : QEntry) (cores : List (Nat × Nat)) (b : Block) : Prop :=
      (∀ p, s.evictAt = some p → p ∈ cores → exec .blockAdmission s = .next s)
      ∧ (∀ p, s.evictAt = some p → p ∉ cores → ∃ t, exec .blockAdmission s = .next t
          ∧ t = { s with evictAt := none, agenda := t.agenda } ∧ Awaits s t [.blockAdmission])
      ∧ (s.evictAt = none → (∀ p ∈ cores, s.evictionFor b p.1 p.2 = none) → exec .blockAdmission s = .next { s with evictFor := some e })
      ∧ ∀ before p after, s.evictAt = none → cores = before ++ p :: after → (∀ q ∈ before, s.evictionFor b q.1 q.2 = none) →
          s.evictionFor b p.1 p.2 = some [s.b.uid] → ∃ t, exec .blockAdmission s = .next t
            ∧ t = { s with evictFor := some e, evictAt := some p, b := { s.b with evicting := true }, agenda := t.agenda }
            ∧ Awaits s t [.blockEvictionSave s.b.uid]
    (∀ e, s.evictFor = some e → s.headEntry = some e)
    ∧ (∀ cores b, (s.evictAt = none → s.coreFor cores b = s.chooseCore cores b)
        ∧ ∀ p q, s.evictAt = some p → s.coreFor cores b = some q → q = p ∧ p ∈ cores)
    ∧ (s.headEntry = none → exec .blockAdmission s = .next s)
    ∧ (∀ id, s.headEntry = some (.task id) →
        let x := s.task id
        let b := x.record.block
        let cores := s.coreOrder x b
        (x.id = 0 ∨ x.failing = true ∨ x.blocks ≤ x.nextBlock → ∃ t, exec .blockAdmission s = .next t
          ∧ t = { s with evictFor := none, evictAt := none, levels := t.levels, agenda := t.agenda }
          ∧ (∀ p, Store.get [] t.levels p = (Store.get [] s.levels p).filter (· != QEntry.task id)) ∧ Awaits s t [.blockAdmission])
        ∧ (x.id ≠ 0 → x.failing = false → x.nextBlock < x.blocks →
          (s.operWaits x = true → exec .blockAdmission s = .next s)
          ∧ (s.operWaits x = false → ∀ d c, s.coreFor cores b = some (d, c) → ∃ t y gs, exec .blockAdmission s = .next t
              ∧ t.evictFor = none ∧ t.evictAt = none ∧ t.g = s.g ∧ t.b = s.b ∧ t.mem = s.mem ∧ t.blocks = s.blocks ++ [y] ∧ t.gangs = s.gangs ++ gs
              ∧ y = { b with
                  num := x.nextBlock, uid := y.uid, task := x.id, die := d, core := c, admitted := y.uid, attempt := x.attempt }
              ∧ s.next ≤ y.uid ∧ y.uid + b.home < t.next
              ∧ gs.length = b.home
              ∧ (∀ i g, gs[i]? = some g → g.uid = y.uid + 1 + i ∧ g.task = x.id ∧ g.block = y.uid ∧ g.id = x.nextBlock * b.home + i
                  ∧ g.rank0 = i ∧ g.sched = ((s.freeOf d c []).start + i) % 4 ∧ g.width = b.width ∧ g.level = b.prio
                  ∧ g.ngen = b.ngen ∧ g.naff = b.naff ∧ g.nuni = b.nuni ∧ g.mode = .running
                  ∧ (∀ k < b.width / 4, (g.slice k).pc = BitVec.ofNat 64 x.record.code ∧ (g.slice k).active = 15 ∧ (g.slice k).priv = false)
                  ∧ ∀ r K, g.val r K = 0)
              ∧ (x.record.wclass = 0 → t.ck = s.ck)
              ∧ (x.record.wclass ≠ 0 → s.operOf x.id = none → ∃ o, t.ck.opers = s.ck.opers ++ [o]
                  ∧ o.task = x.id ∧ o.opid = x.record.opid ∧ o.tenant = x.tenant ∧ o.cls = x.record.wclass ∧ o.state = .running)
              ∧ ((∃ z ∈ s.tasks, z.id = id) → (t.task id).nextBlock = x.nextBlock + 1))
          ∧ (s.operWaits x = false → s.coreFor cores b = none → waits (.task id) cores b)))
    ∧ ∀ id im, s.headEntry = some (.image id) → s.images.find? (fun im => im.id == id) = some im →
        let cores := s.imageCores im
        (s.coreFor cores im.block ≠ none ∨ s.fitsEmpty s.presentDies im.block = false → ∃ t, exec .blockAdmission s = .next t
          ∧ t = { s with agenda := t.agenda } ∧ Awaits s t [.blockRestore id])
        ∧ (s.coreFor cores im.block = none → s.fitsEmpty s.presentDies im.block = true → waits (.image id) cores im.block)

/-- R281, R283, R327, R328, R333, R335: a block is saved to a slot of its core's pool once its operations have been
brought to an end, and leaves its core; an image is restored to a core it fits and its slot is free; one that may not
be read stays, and the host complex is told. A lane without a place on the new die is killed, and reserved bytes are
passed over (the model's, logs 23, 24). -/
def Obligations.SaveAndRestore : Prop :=
  ∀ (s : State) (block image : Nat) (b : Block) (im : Image),
    Memory.wf s.mem = true →
    (s.allBlocks.find? (fun x => x.uid == block) = some b →
      (b.evicting = false → exec (.blockEvictionSave block) s = .next s)
      ∧ (b.evicting = true → s.blockBusy b = true ∨ s.freeSlot b.die b.core = none → ∃ t, exec (.blockEvictionSave block) s = .next t
          ∧ t = { s with agenda := t.agenda } ∧ Awaits s t [.blockEvictionSave block])
      ∧ (∀ k, b.evicting = true → s.blockBusy b = false → s.freeSlot b.die b.core = some k → ∃ t x before after,
          exec (.blockEvictionSave block) s = .next t
          ∧ t.images = s.images ++ [x] ∧ x.id = s.next ∧ x.block = b ∧ x.die = b.die ∧ x.core = b.core ∧ x.slot = some k
          ∧ x.addr = ((s.coreAt b.die b.core).saveBase.extractLsb' 0 48).toNat + k * 4194304
          ∧ (∀ g ∈ s.allGangs, g.block = block → (∀ h ∈ s.allGangs, h.block = block → h.rank0 = g.rank0 → h = g) →
              ∃ h ∈ x.gangs, h.uid = g.uid ∧ h.gen = g.gen ∧ h.uni = g.uni ∧ h.preds = g.preds ∧ h.kops = g.kops ∧ h.live = g.live)
          ∧ (∀ y ∈ t.allBlocks, y.uid ≠ block) ∧ (∀ g ∈ t.allGangs, g.block ≠ block)
          ∧ Store.get [] s.levels b.prio = before ++ after ∧ Store.get [] t.levels b.prio = before ++ QEntry.image s.next :: after
          ∧ (∀ e ∈ before, ∃ n, e = .image n) ∧ (∀ n, after.head? ≠ some (.image n))
          ∧ memNat t.mem x.addr 2 = 1 ∧ memNat t.mem (x.addr + 2) 2 = 64 ∧ memNat t.mem (x.addr + 12) 4 = b.num % 2 ^ 32
          ∧ ∀ a, a < x.addr → memGet t.mem a = memGet s.mem a))
    ∧ (s.images.find? (fun x => x.id == image) = some im →
      (memNat s.mem im.addr 2 ≠ 1 → ∃ t, exec (.blockRestore image) s = .next t
        ∧ t = { s with evictFor := t.evictFor, evictAt := t.evictAt, levels := t.levels, plat := t.plat, agenda := t.agenda }
        ∧ t.plat.unsolicited = (1, image) :: s.plat.unsolicited
        ∧ ∀ p, Store.get [] t.levels p = (Store.get [] s.levels p).filter (· != QEntry.image image))
      ∧ (memNat s.mem im.addr 2 = 1 → s.coreFor (s.imageCores im) im.block = none → s.fitsEmpty s.presentDies im.block = true →
          ∃ t, exec (.blockRestore image) s = .next t ∧ t = { s with agenda := t.agenda } ∧ Awaits s t [.blockAdmission])
      ∧ (∀ d c, memNat s.mem im.addr 2 = 1 → s.coreFor (s.imageCores im) im.block = some (d, c) →
          im.block.uid ≠ 0 → im.block.gone = false → (∀ x ∈ s.b :: s.blocks, x.uid ≠ im.block.uid) →
          (∀ g ∈ im.gangs, g.flights = [] ∧ g.frame = none ∧ ∀ x, (g.readImage x s.mem im.addr s.ns).killed = 0) →
          ∃ t x, exec (.blockRestore image) s = .next t
            ∧ t.images = s.images.filter (fun y => y.id != image)
            ∧ x ∈ t.allBlocks ∧ x.uid = im.block.uid ∧ x.die = d ∧ x.core = c ∧ x.evicting = false ∧ x.num = im.block.num
            ∧ (∀ a, sectionAt s.mem im.addr 7 255 0 = some a → im.block.zt = 0 → im.block.slotTab = [] →
                ∀ i < im.block.sbytes, memGet t.mem (atS im.block.uid i) = memGet s.mem (a + i))))

/-! ## Steps of the checker -/

/-- R382, R409, R411, R412: the checker keeps the elements emitted by the running attempt, the first of an index and not
a second, and answers SIGRD and RELREQ. -/
def Obligations.CheckerReplies : Prop :=
  ∀ (s : State) (gang op : Nat),
    (∀ item first size bytes b, s.g.uid = gang → gang ≠ 0 → (s.g.kop op).map KOp.work = some (.wemit item first size bytes) →
      s.findBlock s.g.block = some b →
      (∀ o, s.operOf s.g.task = some o → b.replay = none → b.attempt = o.attempt → ∃ t o', exec (.witnessItemStore gang op) s = .next t
        ∧ t = { s with g := t.g, ck := { s.ck with opers := t.ck.opers } }
        ∧ OpDone s.g t.g op ∧ (∀ x ∈ s.ck.opers, x.id ≠ o.id → x ∈ t.ck.opers)
        ∧ o' ∈ t.ck.opers ∧ o' = { o with items := o'.items, dups := o'.dups }
        ∧ (let n := bytes.length / size
           (∀ i < n, (o.item item (first + i) = none → o'.item item (first + i) = some ((bytes.drop (size * i)).take size))
              ∧ (o.item item (first + i) ≠ none → o'.item item (first + i) = o.item item (first + i)
                    ∧ (item, (bytes.drop (size * i)).take size) ∈ o'.dups))
           ∧ ∀ k x, k ≠ item ∨ x < first ∨ first + n ≤ x → o'.item k x = o.item k x))
      ∧ (s.operOf s.g.task = none ∨ (∃ r, b.replay = some r ∧ ∀ o, s.operOf s.g.task = some o → o.attempt ≠ 0) →
          ∃ t, exec (.witnessItemStore gang op) s = .next t ∧ t = { s with g := t.g } ∧ OpDone s.g t.g op))
    ∧ (let u := s.focus gang
       ∀ r, u.reply op = some r →
        let replied (w : Instr) (n : Nat) (f : Nat → Nat → Word) : Prop :=
          u.g.regOk n r.reg = true → (∀ i, u.g.shape r.reg ≠ .affine i) → ∃ t, exec w s = .next t
            ∧ t = { u with g := t.g }
            ∧ t.g = { u.g with
                gen := t.g.gen, uni := t.g.uni, slices := t.g.slices, frame := t.g.frame
                replies := u.g.replies.filter fun x => x.id != op }
            ∧ (∀ k K, K < 32 → t.g.val k K = written u.g n r.reg (maskLanes r.exec) f k K)
            ∧ (SlicesAre u.g t.g fun i =>
                if (u.g.slice i).wait = .reply op then { u.g.slice i with wait := .none } else u.g.slice i)
            ∧ (u.g.frame = none → t.g.frame = none)
        replied (.sigrdReply gang op) 2 (two fun _ => u.b.sig)
        ∧ (let tenant := (u.task u.g.task).tenant
           let id := if r.oper.getD 0 = 0 then (u.task u.g.task).record.opid else r.oper.getD 0
           let entry := u.ck.opers.find? fun o => o.tenant == tenant && o.opid == id
           let past := u.ck.hist.find? fun h => h.tenant == tenant && h.opid == id
           let value (code attempt tag : Nat) : Nat → Nat → Word := one fun _ => BitVec.ofNat 32 (code + 256 * (attempt % 256) + 65536 * tag)
           (∀ o, entry = some o → replied (.relreqReply gang op) 1 (match o.state with
              | .released => value 1 o.attempt o.rtag
              | .discarded => value 2 o.attempt 0
              | _ => value 0 o.attempt 0))
           ∧ (∀ h, entry = none → past = some h → replied (.relreqReply gang op) 1
                (if h.released then value 1 h.attempt h.rtag else value 2 h.attempt 0))
           ∧ (entry = none → past = none → replied (.relreqReply gang op) 1 (one fun _ => 3))))

/-- R377, R390, R393, R394, R400: the test of a closed operator and the release of one that has passed. Draws are free,
and a PROJ operator without a descriptor holds no NaN (the model's choice, log 13). -/
def Obligations.Verdicts : Prop :=
  ∀ (s : State) (oper : Nat) (o : Oper),
    s.ck.opers.find? (fun x => x.id == oper) = some o → (∀ x ∈ s.ck.opers, x.id = oper → x = o) →
    (o.state ≠ .closed → exec (.witnessTest oper) s = .next s)
    ∧ ((o.ue ≠ none → (s.verdict o).1 = 1)
      ∧ (o.ue = none → (o.noclose = true → (s.verdict o).1 = 2) ∧ (o.noclose = false → o.late = true → (s.verdict o).1 = 3)))
    ∧ (o.state = .closed →
      (s.emitting o.task = true → ∃ t, exec (.witnessTest oper) s = .next t ∧ t = { s with agenda := t.agenda }
        ∧ Awaits s t [.witnessTest oper])
      ∧ (s.emitting o.task = false → (s.verdict o).1 = 0 → o.cls ≠ 5 ∨ o.repl ≠ none → ∃ t, exec (.witnessTest oper) s = .next t
        ∧ t = { s with
            ck := { s.ck with opers := s.ck.opers.map fun x => if x.id = oper then { x with state := .passed } else x }
            agenda := t.agenda }
        ∧ Awaits s t [.operatorRelease oper])
      ∧ (s.emitting o.task = false → (s.verdict o).1 ≠ 0 → ∃ t more r, exec (.witnessTest oper) s = .next t
        ∧ t.ck.receipts = s.ck.receipts ++ more ∧ r ∈ more
        ∧ fieldAt r 0 4 = o.opid % 2 ^ 32 ∧ fieldAt r 11 1 = 1 ∧ fieldAt r 12 1 = (s.verdict o).1 % 256))
    ∧ (o.state ≠ .passed ∨ s.ck.releaseSet o = none → exec (.operatorRelease oper) s = .next s)
    ∧ ∀ set, o.state = .passed → s.ck.releaseSet o = some set → s.ck.mint (set.map Oper.tenant).eraseDups ≠ none →
        ∃ t, exec (.operatorRelease oper) s = .next t
          ∧ (∀ r ∈ s.ck.receipts, r ∈ t.ck.receipts)
          ∧ ∀ x ∈ set, (∀ y ∈ t.ck.opers, y.id ≠ x.id) ∧ (∀ y ∈ t.tasks, y.id ≠ x.task)
              ∧ ∃ r ∈ t.ck.receipts, fieldAt r 0 4 = x.opid % 2 ^ 32 ∧ fieldAt r 11 1 = 0

/-- R397 to R399: a replay starts on a core of a die it may use, ends by the comparison of signatures, and is given up
after 1 s. Draws are free (log 13). -/
def Obligations.ReplaySteps : Prop :=
  ∀ (s : State) (replay : Nat) (r : Replay),
    (s.ck.replays.find? (fun x => x.id == replay) = some r →
      (r.uid ≠ none → exec (.replayStart replay) s = .next s)
      ∧ (r.uid = none → s.replayDies r ≠ [] →
        let x := s.replayedTask r
        let cores := (s.coreOrder x x.record.block).filter fun p => (s.replayDies r).contains p.1
        (s.evictAt ≠ none ∨ s.chooseCore cores x.record.block = none → ∃ t, exec (.replayStart replay) s = .next t ∧ t = { s with agenda := t.agenda }
          ∧ Awaits s t [.replayStart replay])
        ∧ (∀ d c, s.evictAt = none → s.chooseCore cores x.record.block = some (d, c) → ∃ t y gs, exec (.replayStart replay) s = .next t
          ∧ t.blocks = s.blocks ++ [y] ∧ t.gangs = s.gangs ++ gs ∧ t.g = s.g ∧ t.b = s.b ∧ t.mem = s.mem
          ∧ y.replay = some replay ∧ y.num = r.block ∧ y.die = d ∧ y.core = c ∧ gs.length = x.record.home
          ∧ (∀ g ∈ gs, g.block = y.uid ∧ ∀ k < g.width / 4, (g.slice k).pc = BitVec.ofNat 64 x.record.code)
          ∧ t.ck.replays = s.ck.replays.map (fun z => if z.id = replay then { z with uid := some y.uid, die := d, start := s.ns } else z)
          ∧ Awaits s t [.replayAbandon replay]))
      ∧ (∀ uid, r.uid = some uid →
        (s.ns < r.start + 1000000000 → ∃ t, exec (.replayAbandon replay) s = .next t ∧ t = { s with agenda := t.agenda }
          ∧ Awaits s t [.replayAbandon replay])
        ∧ (r.start + 1000000000 ≤ s.ns → r.screen = true → (∀ g ∈ s.allGangs, g.block = uid → g.live = 0) →
          ∃ t, exec (.replayAbandon replay) s = .next t
            ∧ t = { s with
                ck := { s.ck with replays := s.ck.replays.filter (fun x => x.id != replay), opers := t.ck.opers }
                fab := { s.fab with cnt := t.fab.cnt }, agenda := t.agenda }
            ∧ Store.get 0 t.fab.cnt (1024 * 12 + 32 * 17) = Store.get 0 s.fab.cnt (1024 * 12 + 32 * 17) + 1)))
    ∧ (s.replayOf replay = none → exec (.replayEnd replay) s = .next s)
    ∧ ∀ b, s.replayOf replay = some b → s.ck.replays.find? (fun x => x.id == replay && x.uid == some b.uid) = some r →
        let original := (s.originalOf r.task r.block).map Block.uid
        (s.blockQuiet b.uid = false ∨ (∃ u, original = some u ∧ s.blockQuiet u = false) → ∃ t, exec (.replayEnd replay) s = .next t
          ∧ t = { s with agenda := t.agenda } ∧ Awaits s t [.replayEnd replay])
        ∧ (s.blockQuiet b.uid = true → (∀ u, original = some u → s.blockQuiet u = true) → r.sigs = [] →
          ∀ o, s.ck.opers.find? (fun o => o.id == r.oper) = some o →
            ∃ t, exec (.replayEnd replay) s = .next t ∧ t.mem = s.mem
              ∧ (∀ x ∈ t.tasks, x.id ≠ b.task) ∧ (∀ x ∈ t.blocks, x.uid ≠ b.uid) ∧ (∀ g ∈ t.gangs, g.block ≠ b.uid)
              ∧ (Store.get 0 o.sigs r.block = b.sig → ∀ x ∈ t.ck.replays, x.id ≠ replay)
              ∧ (Store.get 0 o.sigs r.block ≠ b.sig → Instr.replayStart replay ∈ t.agenda
                  ∧ ∃ x ∈ t.ck.replays, x = { r with uid := none, sigs := [(b.die, b.core, b.sig)] }))

/-- R401 to R404, R421: a lasting unit retires once its core holds no block, a pseudo-channel once its frames have been
reported to the host, counted errors leave their window with time, and a compute die that has failed is excluded. The
time of a retirement and the unit of some errors are the model's (logs 25, 27). -/
def Obligations.ErrorSteps : Prop :=
  ∀ (s : State) (node kind index die : Nat),
    let same (u : UnitErr) : Bool := u.node == node && u.kind == kind && u.index == index
    ((∀ u ∈ s.ck.units, same u = true → u.lasting = false) → exec (.unitRetirement node kind index) s = .next s)
    ∧ ((∃ u ∈ s.ck.units, same u = true ∧ u.lasting = true) →
      let retired (t : State) : Prop :=
        t.ck = { s.ck with retired := t.ck.retired, units := t.ck.units } ∧ (node, kind, index) ∈ t.ck.retired
          ∧ ∀ u ∈ t.ck.units, same u = true → u.lasting = false
      (∀ p, unitCore kind index = some p → node < 4 → s.ck.coreNumber node p = none → ∃ t, exec (.unitRetirement node kind index) s = .next t
          ∧ t = { s with ck := t.ck } ∧ retired t)
      ∧ (∀ p k, unitCore kind index = some p → (if node < 4 then s.ck.coreNumber node p = some k else k = p) →
        (node < 4 → s.coreBlocks node k ≠ [] → ∃ t, exec (.unitRetirement node kind index) s = .next t
          ∧ t = { s with agenda := t.agenda } ∧ Awaits s t [.unitRetirement node kind index])
        ∧ (4 ≤ node ∨ s.coreBlocks node k = [] → ∃ t, exec (.unitRetirement node kind index) s = .next t
          ∧ t = { s with c := t.c, cores := t.cores, ck := t.ck, agenda := t.agenda } ∧ retired t
          ∧ t.coreAt node k
            = (let x := s.coreAt node k
               { x with
                 lostSegs := x.lostSegs + if kind = 1 then 1 else 0
                 lostSlots := x.lostSlots + if kind = 2 then 1 else 0
                 lostZt := x.lostZt + if kind = 3 then 1 else 0
                 lostS := x.lostS + if kind = 4 then 1 else 0
                 retired := x.retired || kind == 5 })
          ∧ Awaits s t [.blockAdmission]))
      ∧ (unitCore kind index = none → kind ≠ 7 → kind ≠ 8 → ∃ t, exec (.unitRetirement node kind index) s = .next t
          ∧ t = { s with ck := t.ck } ∧ retired t)
      ∧ (kind = 7 → ∃ t, exec (.unitRetirement node kind index) s = .next t ∧ t = { s with ck := t.ck, plat := t.plat } ∧ retired t
          ∧ t.plat = { s.plat with unsolicited := (5, 256 * node + index) :: s.plat.unsolicited })
      ∧ (∀ k side, kind = 8 → s.fab.linkAt node index = some (k, side) → ∃ t, exec (.unitRetirement node kind index) s = .next t
          ∧ t = { s with ck := t.ck, fab := { s.fab with links := t.fab.links }, agenda := t.agenda } ∧ retired t
          ∧ (∀ l, s.fab.links[k]? = some l → t.fab.links[k]? = some { l with state := .dead })
          ∧ (∀ j, j ≠ k → t.fab.links[j]? = s.fab.links[j]?) ∧ Awaits s t [.routeRecompute]))
    ∧ (∃ t : State, exec (.errorCountAgeing node kind index) s = .next t
        ∧ t = { s with ck := { s.ck with units := t.ck.units }, agenda := t.agenda } ∧ Awaits s t []
        ∧ t.ck.units.length = s.ck.units.length
        ∧ ∀ (k : Nat) (u : UnitErr), s.ck.units[k]? = some u → ∃ v : UnitErr, t.ck.units[k]? = some v ∧ v = { u with times := v.times }
            ∧ ∀ x, x ∈ v.times ↔ x ∈ u.times ∧ (same u = true → s.ns < x + 2592000000000000))
    ∧ (4 ≤ die ∨ s.presentDies.contains die = false → exec (.dieFatalError die) s = .next s)
    ∧ (die < 4 → s.presentDies.contains die = true → ∃ t, exec (.dieFatalError die) s = .next t
        ∧ (Store.get {} t.fab.nodes die).excluded = true ∧ (2, die) ∈ t.plat.unsolicited
        ∧ (∀ p ∈ t.posted, p.die ≠ die) ∧ Instr.routeRecompute ∈ t.agenda
        ∧ ((∀ b ∈ s.allBlocks, b.die ≠ die) → ∃ e, t.ck.faults.getLast? = some e ∧ e.node = die ∧ (e.cls = 4 ∨ e.cls = 5) ∧ e.ns = s.ns))

/-! ## Steps of the fabric -/

/-- R361, R362, R364, R365: a link delivers each flit once and in order, asks again for one that fails a check, keeps it
until it is acknowledged, retrains after 8 replays of one flit, runs at the version it then negotiates, and is dead
after three failed retrainings. The numbers of scale-out links are the model's choice (log 31). -/
def Obligations.LinkSteps : Prop :=
  ∀ (s : State) (link side seqno : Nat) (raw : List Byte) (l : Link),
    s.fab.links[link]? = some l → side < 2 →
    let become (t : State) (f : Link → Link) : Prop := t.fab.links[link]? = some (f l) ∧ ∀ j, j ≠ link → t.fab.links[j]? = s.fab.links[j]?
    let only (t : State) : Prop := t = { s with fab := { s.fab with links := t.fab.links }, agenda := t.agenda }
    let found (x : LinkFlit) : Prop := (l.buf side).find? (fun y => y.seqno == seqno) = some x
    let receive : Instr := .linkFlitReceive link side seqno raw
    (l.state ≠ .live ∨ (l.buf side).find? (fun y => y.seqno == seqno) = none → exec receive s = .next s)
    ∧ (∀ x, l.state = .live → found x →
      (flitGood l.version raw = false → exec receive s = .next { s with agenda := s.agenda ++ [.linkReplayRequest link side seqno] })
      ∧ (flitGood l.version raw = true →
        (seqno < l.rx side → ∃ t, exec receive s = .next t ∧ t = { s with agenda := t.agenda } ∧ Awaits s t [.linkAck link side seqno])
        ∧ (l.rx side < seqno → ∃ t, exec receive s = .next t ∧ t = { s with agenda := t.agenda } ∧ Awaits s t [x.event link side])
        ∧ (l.rx side = seqno →
          let v := l.far side
          let here : Prop := v = x.dstn ∨ (x.dstn = awayNode ∧ v = 13)
          let entry := routeEntry x.dstn ((fieldAt x.raw 11 1).testBit 2)
          let link' (t : State) : Prop := ∃ l', t.fab.links[link]? = some l' ∧ l'.rx side = seqno + 1 ∧ l'.state = .live
          -- it is there, or goes on by the table of the node, DOWN set by a down hop, or has no route and goes no further
          (here → ∃ t, exec receive s = .next t ∧ only t ∧ Awaits s t [.linkAck link side seqno, x.deliver] ∧ link' t)
          ∧ (¬here → ∀ p k sd m, Store.find (s.fab.node v).routes entry = some p → s.fab.linkAt v p = some (k, sd) →
              s.fab.links[k]? = some m → ∃ t m' y, exec receive s = .next t ∧ only t ∧ Awaits s t [.linkAck link side seqno] ∧ link' t
                ∧ t.fab.links[k]? = some m' ∧ y ∈ m'.buf sd ∧ y.seqno = m.nextSeq sd ∧ y.dstn = x.dstn ∧ y.deliver = x.deliver
                ∧ (s.fab.key v < s.fab.key (m.far sd) → (fieldAt y.raw 11 1).testBit 2 = true))
          ∧ (¬here → s.fab.gen ≠ 0 → (Store.find (s.fab.node v).routes entry).bind (s.fab.linkAt v) = none →
              ∃ t, exec receive s = .next t ∧ Awaits s t [.linkAck link side seqno] ∧ link' t
                ∧ ∀ j, j ≠ link → t.fab.links[j]? = s.fab.links[j]?))))
    ∧ (l.rx side ≤ seqno → exec (.linkAck link side seqno) s = .next s)
    ∧ (seqno < l.rx side → ∃ t, exec (.linkAck link side seqno) s = .next t ∧ only t
        ∧ become t (fun l => l.setBuf side ((l.buf side).filter fun x => decide (seqno < x.seqno))))
    ∧ (∀ x, found x → l.state = .live →
      (x.replays < 8 → ∃ t, exec (.linkReplayRequest link side seqno) s = .next t
        ∧ t = { s with fab := { s.fab with links := t.fab.links, cnt := t.fab.cnt }, agenda := t.agenda }
        ∧ become t (fun l => l.setBuf side ((l.buf side).map fun y => if y.seqno = seqno then { y with replays := y.replays + 1 } else y))
        ∧ Awaits s t [x.event link side])
      ∧ (8 ≤ x.replays → ∃ t, exec (.linkReplayRequest link side seqno) s = .next t ∧ t = { s with urgent := t.urgent }
        ∧ Instr.linkRetrain link ∈ t.urgent))
    ∧ (l.state ≠ .live → exec (.linkRetrain link) s = .next s)
    ∧ (l.state = .live → ∃ t, exec (.linkRetrain link) s = .next t
        ∧ t = { s with
            fab := { s.fab with links := t.fab.links, cnt := t.fab.cnt }, ck := { s.ck with faults := t.ck.faults, units := t.ck.units }
            agenda := t.agenda }
        ∧ become t (fun l => { l with state := .training, retrains := 0 }) ∧ Awaits s t [.linkRetrainingEnd link true]
        ∧ ∃ e, t.ck.faults.getLast? = some e ∧ e.cls = 1 ∧ e.node = l.nodeB ∧ e.kind = 8 ∧ e.index = l.portB)
    ∧ (l.state ≠ .training → ∀ b, exec (.linkRetrainingEnd link b) s = .next s)
    ∧ (l.state = .training →
      (∀ v, s.fab.trainedVersion l = some v →
        let fresh (x : LinkFlit) : LinkFlit := { x with replays := 0, raw := { l with version := v }.stamp x.raw }
        ∃ t, exec (.linkRetrainingEnd link true) s = .next t ∧ only t
        ∧ become t (fun l => { l with state := .live, retrains := 0, version := v, buf0 := l.buf0.map fresh, buf1 := l.buf1.map fresh })
        ∧ ∀ sd < 2, ∀ x ∈ (l.buf sd).take 64, (fresh x).event link sd ∈ t.agenda)
      ∧ (s.fab.trainedVersion l = none → ∃ t, exec (.linkRetrainingEnd link true) s = .next t ∧ only t
        ∧ become t (fun l => { l with state := .unusable, retrains := 0 }) ∧ Awaits s t [.routeRecompute])
      ∧ (2 ≤ l.retrains → ∃ t, exec (.linkRetrainingEnd link false) s = .next t ∧ only t
        ∧ become t (fun l => { l with state := .dead, retrains := l.retrains + 1 }) ∧ Awaits s t [.routeRecompute])
      ∧ (l.retrains < 2 → ∃ t, exec (.linkRetrainingEnd link false) s = .next t
        ∧ t = { s with fab := { s.fab with links := t.fab.links, cnt := t.fab.cnt }, agenda := t.agenda }
        ∧ become t (fun l => { l with retrains := l.retrains + 1 }) ∧ Awaits s t [.linkRetrainingEnd link true]))

/-- R362 to R364, R366, R367, R373: discovery finds the dies behind live links, new tables are written once the fabric has
drained and the topology is then published; a request that is not answered in time, or whose far side is away, meets
an abort completion. The payload of a probe reply and where flits without a route end are the model's choice (logs 20,
31). -/
def Obligations.RouteSteps : Prop :=
  ∀ (s : State) (node port request : Nat),
    let quiet (l : Link) : Prop := l.buf0 = [] ∧ l.buf1 = []
    let probed := s.fab.probed.filter (· != (node, port))
    let done (w : Instr) : Prop := ∃ t, exec w s = .next t
      ∧ t = { s with fab := { s.fab with probed := probed }, agenda := t.agenda } ∧ Awaits s t (if probed = [] then [.routeRecompute] else [])
    let link := (s.fab.linkAt node port).bind fun p => (s.fab.links[p.1]?).map fun l => (p.1, p.2, l)
    (link = none → done (.probe node port) ∧ done (.probeReply node port))
    ∧ (∀ i sd l, link = some (i, sd, l) →
      let v := l.far sd
      -- the die reached answers over the link by which the probe has come, with its identity and its link map
      (∃ t l' y, exec (.probe node port) s = .next t ∧ t = { s with fab := { s.fab with links := t.fab.links }, agenda := t.agenda }
        ∧ t.fab.links[i]? = some l' ∧ (∀ j, j ≠ i → t.fab.links[j]? = s.fab.links[j]?) ∧ y ∈ l'.buf (1 - sd)
        ∧ y.deliver = .probeReply node port ∧ y.dstn = node ∧ y.raw.drop 32 = (s.probePayload v ++ List.replicate 128 0).take 128)
      ∧ ((s.fab.node v).found = true → done (.probeReply node port))
      ∧ ((s.fab.node v).found = false → ∃ t, exec (.probeReply node port) s = .next t
        ∧ t = { s with fab := { s.fab with nodes := t.fab.nodes, links := t.fab.links, probed := t.fab.probed }, agenda := t.agenda }
        ∧ (∀ m, t.fab.node m = if m = v then { s.fab.node v with found := true } else s.fab.node m) ∧ (node, port) ∉ t.fab.probed
        ∧ (∀ (k : Nat) (m : Link), s.fab.links[k]? = some m → ∃ m' : Link, t.fab.links[k]? = some m'
            ∧ m'.cost = if m.nodeA = v ∨ m.nodeB = v then (4000 + m.bw - 1) / m.bw else m.cost)
        ∧ ∀ p k d m, p < 13 → s.fab.linkAt v p = some (k, d) → s.fab.links[k]? = some m → m.state = .live → (v, p) ∉ s.fab.probed →
            ((v, p) ≠ (node, port) → (v, p) ∈ t.fab.probed)
              ∧ ∃ m' y, t.fab.links[k]? = some m' ∧ y ∈ m'.buf d ∧ y.deliver = .probe v p ∧ y.dstn = m.far d))
    -- a table is written when its flit arrives, the next one follows, and after the last the new topology is published
    ∧ (s.fab.writes.contains node = false → exec (.routeWrite node) s = .next s)
    ∧ (s.fab.writes.contains node = true →
      let left := s.fab.writes.filter (· != node)
      let nodes := Store.put s.fab.nodes node { s.fab.node node with routes := s.fab.routeTable node }
      let s' : State := { s with fab := { s.fab with nodes := nodes } }
      (∀ n, left.head? = some n → HasWay s' 12 n false → ∃ t, exec (.routeWrite node) s = .next t
        ∧ t = { s' with fab := { s'.fab with writes := left, links := t.fab.links }, agenda := t.agenda } ∧ OnWay t (.routeWrite n))
      ∧ (left = [] → s.plat.booting = false → ∃ t, exec (.routeWrite node) s = .next t
        ∧ t.fab.paused = false ∧ t.fab.held = [] ∧ t.fab.writes = [] ∧ t.fab.nodes = nodes ∧ t.fab.gen = s.fab.gen + 1
        ∧ t.plat = { s.plat with
            hostWrites := (Config.topologyAddr, t.fab.topology) :: s.plat.hostWrites
            unsolicited := (4, s.fab.gen + 1) :: s.plat.unsolicited }
        ∧ fieldAt t.fab.topology 4 4 = (s.fab.gen + 1) % 2 ^ 32 ∧ Awaits s t [.blockAdmission]
        ∧ (s.fab.held = [] → t = { s with
            fab := { s.fab with nodes := nodes, writes := [], paused := false, gen := s.fab.gen + 1, topology := t.fab.topology }
            plat := t.plat, agenda := t.agenda }))
      ∧ (left = [] → s.plat.booting = true → ∃ t, exec (.routeWrite node) s = .next t
        ∧ t.accepting = true ∧ t.plat.booting = false ∧ t.fab.paused = false ∧ t.fab.car.ready = true
        ∧ Store.find t.ck.keys 0 = some 0 ∧ Awaits s t [.heartbeat, .blockAdmission]))
    -- new tables: requests stop, flits of dead links wait for the tables, and nothing is written until the links are empty
    ∧ (let dead (l : Link) : Bool := l.state == .dead || l.state == .unusable || (s.fab.node l.nodeA).excluded || (s.fab.node l.nodeB).excluded
       ((∃ l ∈ s.fab.links, dead l = false ∧ ¬quiet l) → ∃ t, exec .routeRecompute s = .next t
         ∧ t = { s with fab := { s.fab with paused := true, links := t.fab.links, held := t.fab.held }, agenda := t.agenda }
         ∧ Awaits s t [.routeRecompute] ∧ (∀ x ∈ s.fab.held, x ∈ t.fab.held)
         ∧ (∀ (k : Nat) (l : Link), s.fab.links[k]? = some l → t.fab.links[k]? = some (if dead l then { l with buf0 := [], buf1 := [] } else l))
         ∧ ∀ l ∈ s.fab.links, dead l = true → ∀ sd < 2, ∀ x ∈ l.buf sd, l.rx sd ≤ x.seqno →
             ∃ h ∈ t.fab.held, h.src = l.near sd ∧ h.dst = x.dstn ∧ h.deliver = x.deliver)
       ∧ ((∀ l ∈ s.fab.links, quiet l) → s.fab.held = [] → (∀ n, (s.fab.node n).excluded = false) →
         (s.fab.probed ≠ [] → exec .routeRecompute s = .next { s with fab := { s.fab with paused := true } })
         ∧ (s.fab.probed = [] → ∃ t, exec .routeRecompute s = .next t
           ∧ t = { s with
               fab := { s.fab with paused := true, links := t.fab.links, nodes := t.fab.nodes, cutAt := t.fab.cutAt, writes := t.fab.writes }
               agenda := t.agenda }
           ∧ (∀ n, n ∈ t.fab.writes ↔ n < 14 ∧ s.fab.inGraph n = true ∧ (Store.find s.fab.levels n).isSome = true)
           ∧ (∀ d, d ∈ t.fab.cutAt.map Prod.fst ↔ d < 4 ∧ (s.fab.node d).found = true ∧ Store.find s.fab.levels d = none)
           ∧ (s.fab.inGraph 12 = true → Instr.routeWrite 12 ∈ t.agenda))))
    -- a request for a line, 100 µs after it was sent
    ∧ (∀ n h, h < 8 → request = 2 ^ 64 + 8 * n + h →
      let w : Instr := .requestTimeout request
      (Store.find (s.line n).asked h = none → exec w s = .next s)
      ∧ ∀ sent, Store.find (s.line n).asked h = some sent →
        (s.ns < sent + 100000 → ∃ t, exec w s = .next t ∧ t = { s with agenda := t.agenda } ∧ Awaits s t [w])
        ∧ (sent + 100000 ≤ s.ns → ∃ t, exec w s = .next t
          ∧ t = { s with fab := { s.fab with lines := t.fab.lines, links := t.fab.links, held := t.fab.held }, agenda := t.agenda }
          ∧ t.noReply h n = true ∧ Store.find (t.line n).wants h = none ∧ ∀ m, m ≠ n → t.line m = s.line m))
    -- a request to another package
    ∧ ∀ r, s.fab.requests.find? (fun x => x.id == request) = some r →
        let u := s.atBlock r.block
        let aborts (w : Instr) (requests : List Request) : Prop :=
          ∀ c, u.b.uid = r.block → u.b.colls.find? (fun x => x.num == r.coll) = some c → c.fail = none → c.kill = false →
            ∃ t a, exec w s = .next t
              ∧ t = { u with
                  b := { u.b with colls := u.b.colls.map fun x =>
                    if x.num = r.coll ∧ x.fail.isSome = false then { x with fail := some (4, a) } else x }
                  fab := { u.fab with requests := requests }, agenda := t.agenda }
              ∧ Instr.collectiveEnd r.block r.coll ∈ t.agenda
        (r.expired = false → request < 2 ^ 64 →
          (s.ns < r.sentNs + 10000000 → ∃ t, exec (.requestTimeout request) s = .next t ∧ t = { s with agenda := t.agenda }
            ∧ Awaits s t [.requestTimeout request])
          ∧ (r.sentNs + 10000000 ≤ s.ns →
            aborts (.requestTimeout request) (s.fab.requests.map fun x => if x.id = request then { x with expired := true } else x)))
        ∧ (r.expired = false → aborts (.nackEndpointAbsent request) (s.fab.requests.filter fun x => x.id != request))
        ∧ (r.expired = true → ∃ t, exec (.nackEndpointAbsent request) s = .next t
          ∧ t = { s with fab := { s.fab with requests := s.fab.requests.filter (fun x => x.id != request), cnt := t.fab.cnt } })

/-- R368 to R371: what each step of the token protocol does to a line: a request at the home, one forwarded to a die,
tokens that arrive, an eviction, the retries of a request, and the life of a persistent entry, which the home tells the
dies of. -/
def Obligations.TokenSteps : Prop :=
  ∀ (s : State) (die n : Nat) (own : Bool), die < 4 →
    let l := s.line n
    let x := l.of die
    let home := l.of 4
    let only (t : State) : Prop := t = { s with
        fab := { s.fab with lines := t.fab.lines, links := t.fab.links, held := t.fab.held }, agenda := t.agenda }
      ∧ ∀ m, m ≠ n → t.line m = s.line m
    let onlyLine (t : State) (l' : Line) : Prop := only t ∧ t.line n = l'
    let holders (t : State) (f : Nat → Holding) : Prop := ∀ k, (t.line n).of k = f k
    -- a flit between holders is on its way wherever there is one
    let way (src dst : Nat) : Prop := CanSend s (holderNode src n) (holderNode dst n)
    let sends (w : Instr) (src dst : Nat) (c : Carried) : Prop := way src dst → ∃ t, exec w s = .next t ∧ only t
      ∧ holders t (fun k => if k = src then (l.of src).less c else l.of k)
      ∧ (t.line n).waiting = l.waiting ∧ OnWay t (.tokensArrive dst src n c.tokens c.owner c.dirty c.data)
    let waits (w : Instr) (own : Bool) : Prop := ∃ t, exec w s = .next t ∧ only t
      ∧ (∃ o, (die, o) ∈ (t.line n).waiting) ∧ (∀ y ∈ l.waiting, y ∈ (t.line n).waiting)
      ∧ ∀ d < 4, d ≠ die → l.hint.getLsbD d = true → way 4 d → OnWay t (.forwardedRequest d n die own)
    let mine : Prop := ∃ o, l.active = some (die, o)
    -- the home answers a read with one token, a write with all 64 or with what it has, and asks the dies of the hint
    (0 < home.tokens → home.valid = true → sends (.readRequest die n) 4 die home.one)
    ∧ (home.tokens = 0 ∨ home.valid = false → waits (.readRequest die n) false)
    ∧ (home.tokens = 64 → sends (.ownRequest die n) 4 die home.all)
    ∧ (home.tokens ≠ 64 → waits (.ownRequest die n) true)
    -- a die gives a write all it holds, a read one token if it has another or the owner token; an eviction gives all
    ∧ (∀ req, req ≠ die → 0 < x.tokens →
      sends (.forwardedRequest die n req true) die req x.all
      ∧ (1 < x.tokens ∨ x.owner = true → sends (.forwardedRequest die n req false) die req x.one)
      ∧ (x.tokens = 1 → x.owner = false → exec (.forwardedRequest die n req false) s = .next s))
    ∧ (0 < x.tokens → sends (.dieCacheEviction die n) die 4 x.all)
    ∧ (x.tokens = 0 → exec (.dieCacheEviction die n) s = .next s)
    -- tokens that arrive stay, or go on to the holder of the active entry, the oldest waiting request, or the home
    ∧ (∀ (h src k : Nat) (owner dirty data : Bool), h < 5 → src ≠ h → 0 < k → h ∉ l.late →
      let old := l.of h
      let y : Holding :=
        { tokens := old.tokens + k, owner := old.owner || owner, dirty := (old.dirty || dirty) && !(h == 4 && l.hbm), valid := old.valid || data }
      let stays : Prop := ∃ t, exec (.tokensArrive h src n k owner dirty data) s = .next t ∧ only t
        ∧ holders t fun j => if j = h then y else l.of j
      let goesTo (r : Nat) : Prop := way h r → ∃ t, exec (.tokensArrive h src n k owner dirty data) s = .next t ∧ only t
        ∧ holders t (fun j => if j = h then y.less y.all else l.of j)
        ∧ OnWay t (.tokensArrive r h n y.tokens y.owner y.dirty y.valid)
      (∀ r, l.sink h = some r → (r = h → stays) ∧ (r ≠ h → goesTo r))
      ∧ (l.sink h = none → h = 4 → l.waiting = [] → stays)
      ∧ (l.sink h = none → h = 4 → ∀ r o rest, l.waiting = (r, o) :: rest → (r = 4 → stays) ∧ (r ≠ 4 → goesTo r))
      ∧ (l.sink h = none → h < 4 → (s.fab.node h).excluded = false → old.tokens ≠ 0 ∨ Store.find l.wants h ≠ none → stays)
      ∧ (l.sink h = none → h < 4 → (old.tokens = 0 ∧ Store.find l.wants h = none) ∨ (s.fab.node h).excluded = true → goesTo 4))
    -- a request is sent three more times, then a persistent entry is asked for, and given up once its access is performed
    ∧ (let retry : Instr := .transientRetryTimeout die n
       let gives (t : State) : Prop := exec retry s = .next t ∧ (way die 4 → OnWay t (.persistentDeactivate die n))
       (Store.find l.wants die = none → (¬mine → exec retry s = .next s) ∧ (mine → ∃ t, gives t ∧ onlyLine t l))
       ∧ (Store.find l.wants die = some own →
         (mine → l.enough die own = false → exec retry s = .next s)
         ∧ ((mine ∧ l.enough die own = true ∧ s.wanted die n = true) ∨ (¬mine ∧ s.fab.paused = true) →
           ∃ t, exec retry s = .next t ∧ t = { s with agenda := t.agenda } ∧ Awaits s t [retry])
         ∧ (mine → l.enough die own = true → s.wanted die n = false → ∃ t, gives t
           ∧ onlyLine t { l with wants := Store.del l.wants die, tries := Store.del l.tries die })
         ∧ (¬mine → s.fab.paused = false →
           let k := Store.get 1 l.tries die
           let l' : Line := { l with tries := Store.put l.tries die (k + 1), waiting := l.waiting.filter fun w => w.1 != die }
           ∃ t, exec retry s = .next t ∧ onlyLine t (if k ≤ 4 then { l' with asked := Store.put l.asked die s.ns } else l')
             ∧ (k ≤ 4 → lineTimeout die n ∈ t.agenda)
             ∧ (k < 4 → retry ∈ t.agenda ∧ (way die 4 → OnWay t (if own then .ownRequest die n else .readRequest die n)))
             ∧ (k = 4 → way die 4 → OnWay t (.persistentActivate die n own)))))
    -- a persistent entry at its home: sixteen at a time, the others in their order; the home's tokens go to the requester
    ∧ (Store.find l.wants die = none → exec (.persistentActivate die n own) s = .next s)
    ∧ (Store.find l.wants die ≠ none →
      let busy : Prop := l.active ≠ none ∨ l.acks ≠ [] ∨ 16 ≤ s.persistentEntries (homeNode n)
      (busy → ∃ t, exec (.persistentActivate die n own) s = .next t
        ∧ t = { s with fab := { s.fab with lines := t.fab.lines }, next := s.next + 1 }
        ∧ ∀ m, t.line m = if m = n then { l with queue := l.queue ++ [(s.next, die, own)] } else s.line m)
      ∧ (¬busy → ∃ t, exec (.persistentActivate die n own) s = .next t
        ∧ t = { s with
            fab := { s.fab with lines := t.fab.lines, links := t.fab.links, held := t.fab.held, cnt := t.fab.cnt }, agenda := t.agenda }
        ∧ (∀ m, m ≠ n → t.line m = s.line m) ∧ (t.line n).active = some (die, own)
        ∧ (∀ d ∈ s.tokenDies, way 4 d → OnWay t (.persistentActivate (forDie d die) n own))
        ∧ (0 < home.tokens → way 4 die → ((t.line n).of 4).tokens = 0 ∧ (t.line n).of die = x
            ∧ OnWay t (.tokensArrive die 4 n home.tokens home.owner home.dirty home.valid))))
    ∧ (¬mine → exec (.persistentDeactivate die n) s = .next s)
    ∧ (mine → s.tokenDies ≠ [] → ∃ t, exec (.persistentDeactivate die n) s = .next t
        ∧ onlyLine t { l with active := none, acks := s.tokenDies } ∧ ∀ d ∈ s.tokenDies, way 4 d → OnWay t (.persistentDeactivate (forDie d die) n))
    -- and at a die: it sends what it has to the requester, and acknowledges the end
    ∧ (∀ h < 4,
      let told := l.told.filter fun t => t.1 != h
      (h = die ∨ (l.of h).tokens = 0 → exec (.persistentActivate (forDie h die) n own) s = .next (s.putLine n { l with told := (h, die) :: told }))
      ∧ (h ≠ die → 0 < (l.of h).tokens → sends (.persistentActivate (forDie h die) n own) h die (l.of h).all
          ∧ (way h die → ∃ t, exec (.persistentActivate (forDie h die) n own) s = .next t ∧ (t.line n).told = (h, die) :: told))
      ∧ ∃ t, exec (.persistentDeactivate (forDie h die) n) s = .next t ∧ onlyLine t { l with told := told }
          ∧ (way h 4 → OnWay t (.deactivateAcknowledge h n)))
    ∧ (let left := l.acks.filter (· != die)
       let s1 := s.putLine n { l with acks := left }
       let ack : Instr := .deactivateAcknowledge die n
       (left ≠ [] ∨ s1.nextPersistent (homeNode n) = none → exec ack s = .next s1)
       ∧ ∀ k m d o, (s.fab.lines.map Prod.fst).Pairwise (· < ·) → left = [] → s1.nextPersistent (homeNode n) = some (k, m, d, o) → s1.persistentEntries (homeNode n) < 16 →
          Store.find (s1.line m).wants d ≠ none →
          ∃ t, exec ack s = .next t
            ∧ t = { s with
                fab := { s.fab with lines := t.fab.lines, links := t.fab.links, held := t.fab.held, cnt := t.fab.cnt }, agenda := t.agenda }
            ∧ (t.line m).active = some (d, o))

/-- R362, R365, R368, R373 to R375, R404: the Carriage forwards transit flits with one hop more, lets those of this
package out, performs or refuses those for it, settles its requests by the replies, answers for the local side when
that goes away, quiesces and resets; its ports retrain as links do; a governor moves a level at a time. What a request
of another package does at its home is partly the model's choice (log 17). -/
def Obligations.CarriageSteps : Prop :=
  ∀ (s : State) (dst hops port depth node : Nat) (raw : List Byte),
    let car := s.fab.car
    let cls := fieldAt raw 1 1
    let tag := fieldAt raw 12 4
    let isReply : Prop := cls = 9 ∨ cls = 10 ∨ cls = 14
    let count (t : State) (node index n : Nat) : Prop := ∀ k, Store.get 0 t.fab.cnt k
      = Store.get 0 s.fab.cnt k + if k = 1024 * node + 32 * index then BitVec.ofNat 64 n else 0
    let carOnly (t : State) : Prop := t = { s with fab := { s.fab with car := t.fab.car } }
    let up : Prop := car.state = .forward ∨ car.state = .isolateLocal
    let transit : Instr := .carriageTransitFlit dst hops raw
    -- the port toward a package: the primary, or the alternate when that is quiesced or dead
    let out : Option Nat := (Store.find car.fwd dst).bind fun p =>
      if p.1 ∉ car.quiesced ∧ p.1 ∉ car.dead then some p.1 else if p.2 ∉ car.quiesced ∧ p.2 ∉ car.dead then some p.2 else none
    let leaves (x : List Byte) (hops : Nat) : Prop := x.length = 160 ∧ (∀ i, i ≠ 11 → i < 28 ∨ 32 ≤ i → x[i]? = raw[i]?)
      ∧ fieldAt x 11 1 = fieldAt raw 11 1 % 16 + 16 * hops ∧ fieldAt x 28 4 = (crc32c (x.take 28)).toNat
    -- an answer of the Carriage to a request from outside: by the forwarding table, with the request's tag
    let answers (sent : List (Nat × List Byte)) (k : Nat) (o : Nat × Nat × Nat) : Prop := ∀ p, car.portFor o.1 = some p →
      ∃ x, (p, x) ∈ sent ∧ flitGood 1 x = true ∧ fieldAt x 1 1 = k ∧ fieldAt x 2 1 = 13 ∧ fieldAt x 3 1 = o.2.1 % 256
        ∧ fieldAt x 4 2 = s.fab.pkg % 65536 ∧ fieldAt x 6 2 = o.1 % 65536 ∧ fieldAt x 12 4 = o.2.2 % 2 ^ 32
    let origin : Nat × Nat × Nat := (fieldAt raw 4 2, fieldAt raw 2 1, tag)
    (¬up → exec transit s = .next s)
    ∧ (up → dst ≠ s.fab.pkg → fieldAt raw 4 2 ≠ s.fab.pkg →
      (15 ≤ hops → ∃ t, exec transit s = .next t ∧ t = { s with fab := { s.fab with cnt := t.fab.cnt } } ∧ count t 13 11 1)
      ∧ (hops < 15 → out = none → exec transit s = .next s)
      ∧ (hops < 15 → raw.length = 160 → ∀ q, out = some q → ∃ t x, exec transit s = .next t
        ∧ t = { s with fab := { s.fab with car := { car with sent := (q, x) :: car.sent } } } ∧ leaves x (hops + 1)))
    -- a flit of this package leaves in FORWARD only; its request can be answered once all its flits have left
    ∧ (up → dst ≠ s.fab.pkg → fieldAt raw 4 2 = s.fab.pkg →
      (car.state = .isolateLocal ∨ out = none → exec transit s = .next s)
      ∧ (car.state = .forward → raw.length = 160 → ∀ q, out = some q → ∃ t x, exec transit s = .next t
        ∧ t = { s with
            fab := { s.fab with car := { car with sent := (q, x) :: car.sent }, requests := t.fab.requests }, agenda := t.agenda }
        ∧ leaves x 1
        ∧ (s.fab.requests.find? (fun r => r.id == tag && !r.expired) = none → t.fab.requests = s.fab.requests ∧ t.agenda = s.agenda)
        ∧ ∀ r, s.fab.requests.find? (fun r => r.id == tag && !r.expired) = some r →
            t.fab.requests = s.fab.requests.map (fun x => if x.id = tag then { x with unsent := x.unsent - 1 } else x)
            ∧ (1 < r.unsent → t.agenda = s.agenda)
            ∧ (r.unsent ≤ 1 → Awaits s t [.chunkLanded r.block r.coll r.chunk, .copyFailure r.block r.coll r.chunk])))
    -- replies to the requests of this package
    ∧ (up → dst = s.fab.pkg → isReply →
      (s.fab.requests.find? (fun x => x.id == tag) = none → exec transit s = .next s)
      ∧ ∀ r, s.fab.requests.find? (fun x => x.id == tag) = some r →
        let reply (i : Instr) : Prop := ∃ t, exec transit s = .next t ∧ t = { s with urgent := t.urgent } ∧ i ∈ t.urgent
        (r.expired = true → ∃ t, exec transit s = .next t
          ∧ t = { s with fab := { s.fab with requests := s.fab.requests.filter (fun x => x.id != r.id), cnt := t.fab.cnt } }
          ∧ if r.preReset then count t 13 13 1 else count t r.die 5 1)
        ∧ (r.expired = false → car.state = .isolateLocal → exec transit s = .next s)
        ∧ (r.expired = false → car.state = .forward →
          (cls = 9 → 1 < r.due → exec transit s = .next { s with
            fab := { s.fab with requests := s.fab.requests.map fun x => if x.id = r.id then { x with due := x.due - 1 } else x } })
          ∧ (cls = 9 → r.due ≤ 1 → reply (.chunkLanded r.block r.coll r.chunk)) ∧ (cls = 10 → reply (.copyFailure r.block r.coll r.chunk))
          ∧ (cls = 14 → reply (.nackEndpointAbsent r.id))))
    -- requests from outside: refused in ISOLATE-LOCAL; in FORWARD performed at the homes of their lines, and answered
    ∧ (car.state = .isolateLocal → dst = s.fab.pkg → ¬isReply → ∃ t, exec transit s = .next t
        ∧ t = { s with fab := { s.fab with car := { car with sent := t.fab.car.sent } } } ∧ answers t.fab.car.sent 14 origin)
    ∧ (car.state = .forward → dst = s.fab.pkg → ¬isReply → cls ≠ 7 → cls ≠ 8 → exec transit s = .next s)
    ∧ (car.state = .forward → dst = s.fab.pkg → cls = 7 ∨ cls = 8 →
      let a := fieldAt raw 16 8
      let lines := linesOf a 128
      let full : Prop := origin ∉ car.orphans ∧ 2048 ≤ car.orphans.length
      let good (k : Nat) : Prop := s.reachable (128 * k) = true ∧ s.noReply 4 k = false ∧ s.lineBad k = false
      (full → ∃ t, exec transit s = .next t ∧ t = { s with agenda := t.agenda } ∧ Awaits s t [transit])
      ∧ (¬full → (2 ^ 39 < a + 128 ∨ ∃ k ∈ lines, s.reachable (128 * k) = false) → ∃ t, exec transit s = .next t ∧ t.mem = s.mem
        ∧ origin ∉ t.fab.car.orphans ∧ answers t.fab.car.sent 10 origin)
      ∧ (¬full → a + 128 ≤ 2 ^ 39 → (∀ k ∈ lines, good k) →
        ((∃ k ∈ lines, (s.line k).enough 4 true = false) → ∃ t, exec transit s = .next t
          ∧ t = { s with
              fab := { s.fab with
                lines := t.fab.lines, links := t.fab.links, held := t.fab.held, car := { car with orphans := t.fab.car.orphans } }
              agenda := t.agenda }
          ∧ origin ∈ t.fab.car.orphans ∧ transit ∈ t.agenda)
        ∧ ((∀ k ∈ lines, (s.line k).enough 4 true = true) → raw.length = 160 → Memory.wf s.mem = true → ∃ t byte, exec transit s = .next t
          ∧ t = { s with
              mem := t.mem, seals := t.seals, ue := t.ue
              fab := { s.fab with
                lines := t.fab.lines, links := t.fab.links, held := t.fab.held, lost := t.fab.lost
                car := { car with orphans := t.fab.car.orphans, sent := t.fab.car.sent } }
              agenda := t.agenda }
          ∧ WroteUnder s t 0 a 128 byte ∧ (cls = 7 → ∀ i < 128, byte i = nth 0 raw (32 + i))
          ∧ origin ∉ t.fab.car.orphans ∧ answers t.fab.car.sent 9 origin)))
    ∧ (car.state ≠ .training → exec .carriageTrainingDone s = .next s)
    ∧ (car.state = .training → ∃ t, exec .carriageTrainingDone s = .next t ∧ carOnly t ∧ t.fab.car.trained = true
        ∧ (t.fab.car.state = .forward ↔ car.ready = true)
        ∧ ∀ p, p ∈ t.fab.car.dead ↔ p ∈ car.dead
            ∨ (p ∈ car.ranges.map Prod.fst ∧ (1 < (Store.get (1, 1) car.ranges p).1 ∨ (Store.get (1, 1) car.ranges p).2 < 1)))
    -- the ports of the Carriage retrain as links do
    ∧ (port < 18 → s.fab.links.length ≤ 64 →
      let link := 64 + port
      let failing := Store.find car.training port
      let ends (t : State) (k : Option Nat) (dead : Prop) : Prop :=
        t = { s with fab := { s.fab with car := { car with training := t.fab.car.training, dead := t.fab.car.dead }, cnt := t.fab.cnt }, agenda := t.agenda }
          ∧ Store.find t.fab.car.training port = k ∧ ∀ p, p ∈ t.fab.car.dead ↔ p ∈ car.dead ∨ (p = port ∧ dead)
      let runs : Prop := up ∧ port ∉ car.dead ∧ failing = none
      (¬runs → exec (.linkRetrain link) s = .next s)
      ∧ (runs → ∃ t, exec (.linkRetrain link) s = .next t ∧ Store.find t.fab.car.training port = some 0
        ∧ Awaits s t [.linkRetrainingEnd link true] ∧ ∃ e, t.ck.faults.getLast? = some e ∧ e.cls = 1 ∧ e.node = 13 ∧ e.kind = 8)
      ∧ (failing = none → ∀ b, exec (.linkRetrainingEnd link b) s = .next s)
      ∧ ∀ k, failing = some k →
        (∃ t, exec (.linkRetrainingEnd link true) s = .next t
          ∧ ends t none (1 < (Store.get (1, 1) car.ranges port).1 ∨ (Store.get (1, 1) car.ranges port).2 < 1))
        ∧ (2 ≤ k → ∃ t, exec (.linkRetrainingEnd link false) s = .next t ∧ ends t none True)
        ∧ (k < 2 → ∃ t, exec (.linkRetrainingEnd link false) s = .next t ∧ ends t (some (k + 1)) False
            ∧ Awaits s t [.linkRetrainingEnd link true]))
    ∧ (car.ready = false → exec .heartbeat s = .next s)
    ∧ (car.ready = true → s.ns < car.beatAt + 100000 → ∃ t, exec .heartbeat s = .next t ∧ t = { s with agenda := t.agenda }
        ∧ Awaits s t [.heartbeat])
    ∧ (car.ready = true → car.beatAt + 100000 ≤ s.ns → ∃ t, exec .heartbeat s = .next t
        ∧ t = { s with
            fab := { s.fab with car := { car with beatAt := s.ns, misses := 0 }, cutAt := t.fab.cutAt }
            urgent := t.urgent, agenda := t.agenda }
        ∧ Awaits s t [.heartbeat]
        ∧ (∀ p, p ∈ t.fab.cutAt ↔ p ∈ s.fab.cutAt ∧ s.ns < p.2 + 100000)
        ∧ ∀ p ∈ s.fab.cutAt, p.2 + 100000 ≤ s.ns → Instr.dieFatalError p.1 ∈ t.urgent)
    ∧ (let third : Prop := 2 ≤ car.misses ∧ car.state = .forward
       (¬third → exec .heartbeatMiss s = .next { s with fab := { s.fab with car := { car with misses := car.misses + 1 } } })
       ∧ (third → ∃ t, exec .heartbeatMiss s = .next t
         ∧ t = { s with fab := { s.fab with car := t.fab.car, cnt := t.fab.cnt }, agenda := t.agenda }
         ∧ t.fab.car = { car with state := .isolateLocal, ready := false, misses := 0, orphans := [], sent := t.fab.car.sent }
         ∧ (∀ i ∈ t.agenda, i ∈ s.agenda) ∧ (∀ i ∈ s.agenda, (∀ d h x, i ≠ .carriageTransitFlit d h x) → i ∈ t.agenda)
         ∧ count t 13 12 car.orphans.length ∧ ∀ o ∈ car.orphans, answers t.fab.car.sent 10 o))
    ∧ (18 ≤ port → exec (.quiesce port) s = .next s)
    ∧ (port < 18 → port ∈ car.asked → exec (.quiesce port) s
        = .next { s with fab := { s.fab with car := { car with asked := car.asked.filter (· != port) } } })
    ∧ (port < 18 → port ∉ car.asked → ∃ t x, exec (.quiesce port) s = .next t
        ∧ t = { s with fab := { s.fab with car := { car with quiesced := t.fab.car.quiesced, sent := (port, x) :: car.sent } } }
        ∧ (∀ p, p ∈ t.fab.car.quiesced ↔ p = port ∨ p ∈ car.quiesced) ∧ flitGood 1 x = true ∧ fieldAt x 1 1 = 15)
    ∧ (car.resetAt = none → exec .carriageReset s = .next s)
    ∧ (∀ since, car.resetAt = some since →
      (car.asked ≠ [] → s.ns < since + 10000000 → ∃ t, exec .carriageReset s = .next t ∧ t = { s with agenda := t.agenda }
        ∧ Awaits s t [.carriageReset])
      ∧ (car.asked = [] ∨ since + 10000000 ≤ s.ns → ∃ t, exec .carriageReset s = .next t
        ∧ t = { s with fab := { s.fab with car := t.fab.car, cnt := t.fab.cnt }, agenda := t.agenda }
        ∧ t.fab.car = { state := .training, ready := car.ready, beatAt := car.beatAt, ranges := car.ranges, sent := car.sent }
        ∧ Awaits s t [.carriageTrainingDone]))
    ∧ (let lv := Store.get 0 s.fab.gov node
       let held : Prop := s.ns < Store.get 0 s.fab.govAt node + 10000
       let moved (v : Nat) : Prop := ∃ t, exec (.governorLevelChange node depth) s = .next t
         ∧ t = { s with fab := { s.fab with gov := t.fab.gov, govAt := t.fab.govAt, cnt := t.fab.cnt } }
         ∧ (∀ m, Store.get 0 t.fab.gov m = if m = node then v else Store.get 0 s.fab.gov m)
         ∧ Store.get 0 t.fab.govAt node = s.ns
       (held ∨ (4 ≤ depth ∧ depth ≤ 24) → exec (.governorLevelChange node depth) s = .next s)
       ∧ (¬held → 24 < depth → 0 < lv → moved (lv - 1)) ∧ (¬held → depth < 4 → lv < 3 → moved (lv + 1)))

/-- R442: in recovery mode the host's accesses are not served. R273: what a host window sends takes a unit of its
allowance and is a flit or a record on its way, or is dropped and counted; the host reads its STAT, and its RECV 8
bytes at a time, the last of which dequeue the flit and return the unit to its sender. R350, R351, R396: a host access
through an aperture that does not translate, lies outside, meets an absent die, bad data or the Shutter is answered as
such; else it reads what memory holds, or stores it, once the lines are at home. That a send to a task which is gone
is dropped is the model's reading (DEDUCED, log 17). -/
def Obligations.HostSteps : Prop :=
  ∀ (s : State) (w offset n : Nat) (payload bytes : List Byte),
    let win := s.window w
    let bytes128 := (payload ++ List.replicate 128 0).take 128
    let told (t : State) (status : Nat) (data : List Byte) : Prop := t.plat = { s.plat with hostReads := (status, data) :: s.plat.hostReads }
    let plat (i : Instr) (status : Nat) (data : List Byte) : Prop := ∃ t, exec i s = .next t ∧ t = { s with plat := t.plat } ∧ told t status data
    let f : Flit :=
      { id := s.next, payload := bytes128, tenant := win.tenant, task := 0, sender := none, window := some w, cap := 0
        chan := 0, seqno := 0
        dst := if win.cap.kind = 1 then .queue win.cap.f8 win.cap.f12 win.cap.f16 else .dispatch win.cap.f8
        reply := some (.window w), kid := none }
    let admits : Prop := win.bound = true ∧ 0 < win.left
      ∧ ((win.cap.kind = 1 ∧ ∃ t ∈ s.tasks, t.id = win.cap.f8 ∧ t.tenant = win.tenant)
        ∨ (win.cap.kind = 2 ∧ (s.ctx win.cap.f8).tenant = win.tenant))
    let took (t : State) : Prop := ∀ v, t.window v = if v = w then { win with left := win.left - 1 } else s.window v
    -- in recovery mode the link die serves the management port alone
    (s.plat.bootFail ≠ none → exec (.hostWindowSend w payload) s = .next s ∧ exec (.hostWindowRecv w) s = .next s
      ∧ ∀ a, exec (.hostApertureRead a offset n) s = .next s ∧ exec (.hostApertureWrite a offset bytes) s = .next s)
    ∧ (s.plat.bootFail = none →
    (¬admits → exec (.hostWindowSend w payload) s = .next (s.pcount 13 10 0 1))
    ∧ (admits → win.cap.kind = 1 → ∃ t, exec (.hostWindowSend w payload) s = .next t
      ∧ t = { s with
          windows := t.windows, flits := s.flits ++ [f], next := s.next + 1
          fab := { s.fab with links := t.fab.links, held := t.fab.held }, agenda := t.agenda }
      ∧ took t ∧ OnWay t (.flitPlacement s.next) ∧ Awaits s t [])
    ∧ (admits → win.cap.kind = 2 → ∃ t, exec (.hostWindowSend w payload) s = .next t
      ∧ t = { s with windows := t.windows, records := t.records, next := s.next + 2, agenda := t.agenda }
      ∧ t.records = s.records ++ [{ id := s.next + 1, bytes := bytes128, ctx := win.cap.f8, flit := f }]
      ∧ took t ∧ Awaits s t [.taskRecordArrival (s.next + 1)])
    ∧ (offset < 4096 →
       let recv : Instr := .hostWindowRecv (4096 * w + offset)
       (offset = 0x080 → ∃ data, plat recv 0 data ∧ data.length = 8 ∧ leNat data = (win.left + 256 * win.recv.length) % 2 ^ 32)
       ∧ (offset ≠ 0x080 → win.recv = [] → plat recv 0 (List.replicate 8 0))
       ∧ (offset ≠ 0x080 → ∀ x rest, win.recv = x :: rest →
         let data := (x.payload.drop (offset - 0x100)).take 8
         (offset ≠ 0x178 → plat recv 0 data)
         ∧ (offset = 0x178 → ∃ t, exec recv s = .next t
           ∧ t = { s with
               windows := t.windows, g := t.g, gangs := t.gangs, images := t.images, flits := t.flits, agenda := t.agenda, plat := t.plat }
           ∧ (t.window w).recv = rest ∧ told t 0 data
           ∧ ∀ v, x.sender = none → x.window = some v → (t.window v).left = (s.window v).left + 1)))
    ∧ (let homes (own : Bool) (lines : List Nat) : Prop := ∀ k ∈ lines, (s.line k).enough 4 own = true
       let answers (k : Nat) : Prop := s.reachable (128 * k) = true ∧ s.noReply 4 k = false
       let good (k : Nat) : Prop := answers k ∧ s.lineBad k = false
       let aborts (i : Instr) : Prop := ∃ t, exec i s = .next t ∧ t.mem = s.mem ∧ t.plat.hostReads = (1, []) :: s.plat.hostReads
       let waits (i : Instr) : Prop := ∃ t, exec i s = .next t ∧ t.mem = s.mem ∧ t.plat = s.plat ∧ t.inputs = i :: s.inputs
       let wholeOr (a len k : Nat) : Prop := s.lineBad k = false ∨ (a ≤ 128 * k ∧ 128 * k + 128 ≤ a + len)
       -- the physical aperture: only lines of host-private ranges are read
       (let read : Instr := .hostApertureRead none offset n
        let lines := linesOf offset n
        let inRange (k : Nat) : Prop := ∃ r ∈ s.ranges, r.1 ≤ 128 * k ∧ 128 * k + 128 ≤ r.1 + r.2
        (2 ^ 39 < offset + n → plat read 1 [])
        ∧ (offset + n ≤ 2 ^ 39 → (∃ k ∈ lines, ¬inRange k) → plat read 2 [])
        ∧ (offset + n ≤ 2 ^ 39 → (∀ k ∈ lines, inRange k) →
          ((∃ k ∈ lines, ¬good k) → aborts read)
          ∧ ((∀ k ∈ lines, good k) → ¬homes false lines → waits read)
          ∧ ((∀ k ∈ lines, good k) → homes false lines → ∃ t, exec read s = .next t
            ∧ t = { s with
                fab := { s.fab with lines := t.fab.lines, links := t.fab.links, held := t.fab.held }, agenda := t.agenda, plat := t.plat }
            ∧ told t 0 (s.seenAt 0 offset n))))
       ∧ (let write : Instr := .hostApertureWrite none offset bytes
          let lines := linesOf offset bytes.length
          let may (k : Nat) : Prop := answers k ∧ wholeOr offset bytes.length k
          (2 ^ 39 < offset + bytes.length → plat write 1 [])
          ∧ (offset + bytes.length ≤ 2 ^ 39 →
            ((∃ k ∈ lines, ¬may k) → aborts write) ∧ ((∀ k ∈ lines, may k) → ¬homes true lines → waits write)
            ∧ ((∀ k ∈ lines, may k) → homes true lines → Memory.wf s.mem = true → ∃ t, exec write s = .next t
              ∧ t = { s with
                  fab := { s.fab with lines := t.fab.lines, links := t.fab.links, held := t.fab.held, lost := t.fab.lost }
                  agenda := t.agenda, mem := t.mem, seals := t.seals, ue := t.ue }
              ∧ WroteUnder s t 0 offset bytes.length (fun i => nth 0 bytes i))))
       -- a translated aperture: reads see the released frame, which the Shutter tests
       ∧ (∀ k, s.apertureSegs k offset n .read = none → plat (.hostApertureRead (some k) offset n) 1 [])
       ∧ (∀ k ctx l, s.apertureSegs k offset n .read = some (ctx, l) →
         let read : Instr := .hostApertureRead (some k) offset n
         let passes (g : Seg) : Prop := g.x.ver = true ∧ g.x.rtag ≠ 0
           ∧ ∃ tag ∈ s.ck.tags, tag.num = g.x.rtag ∧ tag.tenant = (s.ctx ctx).tenant
         let lines := l.flatMap fun g => linesOf (g.x.frame + g.x.off) g.len
         ((∃ g ∈ l, ¬passes g) → ∃ t, exec read s = .next t ∧ t = { s with tlb := t.tlb, plat := t.plat } ∧ told t 2 [])
         ∧ ((∀ g ∈ l, passes g) →
           ((∃ m ∈ lines, ¬good m) → aborts read) ∧ ((∀ m ∈ lines, good m) → ¬homes false lines → waits read)
           ∧ ((∀ m ∈ lines, good m) → homes false lines → ∃ t, exec read s = .next t
             ∧ t = { s with
                 tlb := t.tlb, fab := { s.fab with lines := t.fab.lines, links := t.fab.links, held := t.fab.held }
                 agenda := t.agenda, plat := t.plat }
             ∧ told t 0 (l.flatMap fun g => s.seenAt g.x.key (g.x.frame + g.x.off) g.len))))
       ∧ (∀ k, s.apertureSegs k offset bytes.length .write = none → plat (.hostApertureWrite (some k) offset bytes) 1 [])
       ∧ ∀ k ctx l, s.apertureSegs k offset bytes.length .write = some (ctx, l) →
         let write : Instr := .hostApertureWrite (some k) offset bytes
         let lines := l.flatMap fun g => linesOf (g.x.frame + g.x.off) g.len
         let may (g : Seg) : Prop := ∀ m ∈ linesOf (g.x.frame + g.x.off) g.len, answers m ∧ wholeOr (g.x.frame + g.x.off) g.len m
         ((∃ g ∈ l, g.x.pend = true) → ∃ t, exec write s = .next t ∧ t = { s with tlb := t.tlb, plat := t.plat } ∧ told t 1 [])
         ∧ ((∀ g ∈ l, g.x.pend = false) → (∃ g ∈ l, ¬may g) → aborts write)
         ∧ ((∀ g ∈ l, g.x.pend = false ∧ may g) → ¬homes true lines → waits write)
         ∧ ∀ g, l = [g] → g.x.pend = false → may g → homes true lines → Memory.wf s.mem = true → bytes.length = g.len →
           (g.x.ver = false → ∃ t, exec write s = .next t
             ∧ t = { s with
                 tlb := t.tlb, fab := { s.fab with lines := t.fab.lines, links := t.fab.links, held := t.fab.held, lost := t.fab.lost }
                 agenda := t.agenda, mem := t.mem, seals := t.seals, ue := t.ue }
             ∧ WroteUnder s t g.x.key (g.x.frame + g.x.off) g.len (fun i => nth 0 bytes i))
           ∧ (g.x.ver = true → g.x.size ≠ 65536 → ∃ t, exec write s = .next t
             ∧ t = { s with
                 tlb := t.tlb, fab := { s.fab with lines := t.fab.lines, links := t.fab.links, held := t.fab.held, lost := t.fab.lost }
                 agenda := t.agenda, mem := t.mem, seals := t.seals, ue := t.ue, ck := { s.ck with tags := t.ck.tags } }
             ∧ memNat t.mem (g.x.leaf + 8) 8 = (g.x.w1 &&& ~~~(0xFFFF#64 <<< 4)).toNat)))

/-- R438 to R443: what a power, cooling or reset event does: power-on and a fall of a rail, the Carriage's own resets, the
package reset with what it keeps and clears, the boot image it starts, and the probes with which discovery begins.
That W and T outlive a package reset is R441's table (log 39); whether a signature verifies is free (log 11). -/
def Obligations.PlatformSteps : Prop :=
  ∀ (s : State) (die node : Nat) (rail : Rail),
    let soon (i w : Instr) (plat : Platform) : Prop := ∃ t, exec w s = .next t ∧ t = { s with plat := plat, urgent := t.urgent } ∧ i ∈ t.urgent
    let carCleared (t : State) (st : CarState) : Prop :=
      t.fab.car = { state := st, ready := s.fab.car.ready, beatAt := s.fab.car.beatAt, ranges := s.fab.car.ranges, sent := s.fab.car.sent }
    (∃ t, exec .powerOn s = .next t
      ∧ t = { s with fab := { s.fab with car := t.fab.car, cnt := t.fab.cnt }, plat := t.plat, urgent := t.urgent, agenda := t.agenda }
      ∧ t.plat = { s.plat with vcd := 15, vcar := true } ∧ carCleared t .training ∧ Instr.packageReset ∈ t.urgent)
    ∧ (die < 4 → soon (.dieFatalError die) (.computeRailFall die)
        { s.plat with vcd := s.plat.vcd &&& ~~~(1#4 <<< die) })
    ∧ soon .packageReset (.packageRailFall rail) s.plat
    ∧ (∃ t, exec .vcarFall s = .next t ∧ t = { s with fab := { s.fab with car := t.fab.car, cnt := t.fab.cnt }, plat := t.plat }
      ∧ t.plat = { s.plat with vcar := false } ∧ carCleared t .off)
    ∧ (∃ t, exec .vcarPowerOn s = .next t
      ∧ t = { s with fab := { s.fab with car := t.fab.car, cnt := t.fab.cnt }, plat := t.plat, agenda := t.agenda }
      ∧ t.plat = { s.plat with vcar := true } ∧ carCleared t .training ∧ Awaits s t [.carriageTrainingDone])
    -- a step of a die's clock changes nothing but the length of its cycles
    ∧ (∃ t, exec (.thermalStepDown node) s = .next t ∧ t = { s with plat := { s.plat with hot := t.plat.hot } }
      ∧ ∀ m, Store.get false t.plat.hot m = if m = node then true else Store.get false s.plat.hot m)
    ∧ (∃ t, exec (.thermalStepUp node) s = .next t ∧ t = { s with plat := { s.plat with hot := t.plat.hot } }
      ∧ ∀ m, Store.get false t.plat.hot m = if m = node then false else Store.get false s.plat.hot m)
    ∧ (node < 4 → soon (.dieFatalError node) (.thermalTrip node) s.plat)
    ∧ (4 ≤ node → soon .packageReset (.thermalTrip node) s.plat)
    -- package reset
    ∧ (Memory.wf s.mem = true →
      let flash (a : Nat) : Nat := atFlash 0 + a
      let active := activeBank s.mem
      let good (bank : Nat) : Option (BitVec 512 × Nat) := s.goodBank bank
      ∃ t, exec .packageReset s = .next t
        ∧ t.g = {} ∧ t.b = {} ∧ t.c = {} ∧ t.gangs = [] ∧ t.blocks = [] ∧ t.cores = [] ∧ t.tasks = [] ∧ t.images = [] ∧ t.posted = []
        ∧ t.flits = [] ∧ t.records = [] ∧ t.windows = [] ∧ t.ctxs = [] ∧ t.grants = [] ∧ t.tlb = [] ∧ t.apertures = [] ∧ t.ranges = []
        ∧ t.empty = [] ∧ t.ue = [] ∧ t.seals = [] ∧ t.walks = [] ∧ t.misses = [] ∧ t.levels = [] ∧ t.accepting = false ∧ t.sel = none ∧ t.ns = 0 ∧ t.urgent = []
        ∧ t.inputs = s.inputs
        ∧ t.ck = { w := s.ck.w, t := s.ck.t, retired := s.ck.retired, units := s.ck.units, off := t.ck.off }
        ∧ (∀ d p, (d, p) ∈ t.ck.off ↔ d < 4 ∧ (d, 5, p) ∈ s.ck.retired)
        ∧ (∀ u ∈ s.ck.units, u.lasting = true → Instr.unitRetirement u.node u.kind u.index ∈ t.agenda)
        ∧ t.fab.lines = [] ∧ t.fab.gen = 0 ∧ t.fab.gov = [] ∧ t.fab.present = s.fab.present ∧ t.fab.wires = s.fab.wires ∧ t.fab.held = []
        ∧ (s.fab.car.state = .forward ∨ s.fab.car.state = .isolateLocal → t.fab.car.state = .isolateLocal)
        ∧ t.fab.car.ready = false ∧ t.fab.car.orphans = [] ∧ t.fab.car.fwd = s.fab.car.fwd
        ∧ (∀ r ∈ t.fab.requests, r.expired = true ∧ r.preReset = true ∧ r.unsent = 0)
        ∧ t.plat.hostWrites = s.plat.hostWrites ∧ t.plat.eid = 0 ∧ t.plat.session = none ∧ t.plat.partials = [] ∧ t.plat.vcd = s.plat.vcd
        ∧ (∀ a, a < atFlash 0 → memGet t.mem a = 0)
        ∧ (good active = none → good (1 - active) = none →
            t.plat.bootFail = some 2 ∧ t.plat.floor = s.plat.floor ∧ (3, 2) ∈ t.plat.unsolicited ∧ t.fab.nodes = [] ∧ t.fab.links = []
            ∧ ∀ a, memGet t.mem (flash a) = memGet s.mem (flash a))
        ∧ ∀ bank digest version,
            (bank = active ∨ (bank = 1 - active ∧ good active = none)) → good bank = some (digest, version) →
            t.plat.bootFail = none ∧ t.plat.floor = version ∧ t.plat.fwDigest = digest ∧ t.plat.booting = true
            ∧ memGet t.mem (flash Machine.controlAt) = BitVec.ofNat 8 bank ∧ memNat t.mem (flash (Machine.controlAt + 8)) 8 = version % 2 ^ 64
            ∧ (∀ a, a ≠ Machine.controlAt → a < Machine.controlAt + 8 ∨ Machine.controlAt + 16 ≤ a → memGet t.mem (flash a) = memGet s.mem (flash a))
            ∧ t.fab.paused = true ∧ (∀ m, (t.fab.node m).found = true ↔ m = 12)
            ∧ (∀ l ∈ t.fab.links, ∃ w ∈ s.fab.wires, w.nodeA ∈ s.fab.present ∧ w.nodeB ∈ s.fab.present
                ∧ l.nodeA = w.nodeA ∧ l.portA = w.portA ∧ l.nodeB = w.nodeB ∧ l.portB = w.portB ∧ l.bw = w.bw
                ∧ (∀ x ∈ l.buf0 ++ l.buf1, ∃ p, x.deliver = .probe 12 p)
                ∧ (l.state = .dead ↔ (w.nodeA, 8, w.portA) ∈ s.ck.retired ∨ (w.nodeB, 8, w.portB) ∈ s.ck.retired
                    ∨ s.powered w.nodeA = false ∨ s.powered w.nodeB = false ∨ w.bw = 0)
                ∧ (l.state = .unusable → w.version = none) ∧ (l.state = .live → w.version = some l.version))
            ∧ (t.fab.probed = [] → Instr.routeRecompute ∈ t.agenda)
            ∧ ∀ p i sd l, p < 13 → t.fab.linkAt 12 p = some (i, sd) → t.fab.links[i]? = some l → l.state = .live →
                (12, p) ∈ t.fab.probed ∧ ∃ y ∈ l.buf sd, y.deliver = .probe 12 p ∧ y.dstn = l.far sd)

/-- R444 to R446: the management port takes a datagram that is whole and for the device, puts messages together in
sequence, takes an endpoint id, and answers the SPDM requests in the order that negotiation sets. Keys, nonces and
certificates are free (log 11). -/
def Obligations.ManagementPort : Prop :=
  ∀ (s : State) (source eid slot offset count index : Nat) (ok p521 sha512 aes : Bool) (d l : List Byte),
    let p := s.plat
    let put (q : Platform) : State := { s with plat := q }
    let ans (q : Platform) (k : Nat) (data : List Byte) : State := put { q with answers := (k, data) :: p.answers }
    let src := fieldAt d 6 1
    let flags := fieldAt d 7 1
    let som : Prop := 128 ≤ flags
    let eom : Prop := 64 ≤ flags % 128
    let seqno := flags / 16 % 4
    let tag := flags % 16
    let packet : Instr := .mctpPacket source ok d
    let good : Prop := ok = true ∧ 9 ≤ d.length ∧ d.length ≤ 1032 ∧ fieldAt d 0 1 = 1 ∧ fieldAt d 2 2 = d.length - 4
      ∧ (fieldAt d 5 1 = p.eid ∨ fieldAt d 5 1 = 255 ∨ (p.eid = 0 ∧ fieldAt d 5 1 = 0))
    let others := p.partials.filter fun x => !(x.1 == src && x.2.1 == tag)
    -- a message that is whole: Set Endpoint ID takes effect, any other is handed on
    let whole (m : List Byte) : State :=
      let q : Platform := { p with partials := others, received := (src, m) :: p.received }
      if fieldAt m 0 1 % 128 = 0 ∧ 5 ≤ m.length ∧ fieldAt m 2 1 = 1 ∧ fieldAt m 3 1 % 4 ≤ 1 then
        (if fieldAt m 4 1 = 0 ∨ fieldAt m 4 1 = 255 then ans q 3 [] else ans { q with eid := fieldAt m 4 1, busOwner := src } 0 [])
      else put q
    (¬good → exec packet s = .next s)
    ∧ (good → som → eom → exec packet s = .next (whole (d.drop 8)))
    ∧ (good → som → ¬eom → exec packet s = .next (put { p with partials := (src, tag, (seqno + 1) % 4, d.drop 8) :: others }))
    ∧ (good → ¬som → p.partials.find? (fun x => x.1 == src && x.2.1 == tag) = none → exec packet s = .next s)
    ∧ (good → ¬som → ∀ x, p.partials.find? (fun x => x.1 == src && x.2.1 == tag) = some x →
      (x.2.2.1 ≠ seqno → exec packet s = .next (put { p with partials := others }))
      ∧ (x.2.2.1 = seqno → eom → exec packet s = .next (whole (x.2.2.2 ++ d.drop 8)))
      ∧ (x.2.2.1 = seqno → ¬eom → exec packet s
          = .next (put { p with partials := (src, tag, (seqno + 1) % 4, x.2.2.2 ++ d.drop 8) :: others })))
    ∧ exec (.setEndpointId source eid) s = .next (if eid = 0 ∨ 255 ≤ eid then ans p 3 [] else ans { p with eid := eid, busOwner := source } 0 [])
    ∧ exec .getVersion s = .next (ans { p with version := true, capab := false, algo := false, shared := none, session := none } 0 [0x13])
    ∧ exec .getCapabilities s = .next (if p.version then ans { p with capab := true } 0 [] else ans p 1 [])
    ∧ exec (.negotiateAlgorithms p521 sha512 aes) s
        = .next (if p.capab && p521 && sha512 && aes then ans { p with algo := true } 0 [] else ans p 1 [])
    ∧ exec .getDigests s = .next (if p.algo then ans p 0 (leBytes 64 (Config.sha512 Config.certificate).toNat) else ans p 1 [])
    ∧ exec (.getCertificate slot offset count) s
        = .next (if p.algo && slot == 0 then ans p 0 ((Config.certificate.drop offset).take count) else ans p 1 [])
    ∧ (p.algo = false → exec (.challenge l) s = .next (ans p 1 []) ∧ exec (.getMeasurements index l) s = .next (ans p 1 [])
        ∧ exec (.keyExchange source l) s = .next (ans p 1 []))
    ∧ (p.algo = true →
      -- what is attested ends with r and s of the signature over its digest, 66 bytes each
      let signed (data m : List Byte) : Prop := data.take (data.length - 132) = m ∧ 132 ≤ data.length
        ∧ let q := Config.attest (Config.sha512 m)
          leNat ((data.drop (data.length - 132)).take 66).reverse = q.1 % 2 ^ 528 ∧ leNat (data.drop (data.length - 66)).reverse = q.2 % 2 ^ 528
      (∃ data n, exec (.challenge l) s = .next (ans p 0 data)
        ∧ signed data (l ++ leBytes 64 (Config.sha512 Config.certificate).toNat ++ n) ∧ n.length = 64)
      ∧ (∃ data n, exec (.keyExchange source l) s = .next (ans { p with shared := some source } 0 data) ∧ signed data (l ++ n) ∧ n.length = 64)
      ∧ (index = 2 → ∃ data, exec (.getMeasurements index l) s = .next (ans p 0 data) ∧ signed data (leBytes 64 p.fwDigest.toNat ++ l))
      ∧ (index = 4 → ∃ data, exec (.getMeasurements index l) s = .next (ans p 0 data)
        ∧ signed data (leBytes 64 (Config.sha512 s.fab.topology).toNat ++ l))
      ∧ (4 < index → index ≠ 255 → exec (.getMeasurements index l) s = .next (ans p 1 [])))
    ∧ exec (.finish source ok) s = .next (
        if p.shared ≠ some source then ans p 1 []
        else if ok then ans { p with shared := none, session := some source, last := some source } 0 []
        else ans { p with shared := none } 1 [])
    ∧ exec (.endSession source) s = .next (if p.session = some source then ans { p with session := none } 0 [] else ans p 1 [])

/-- R447: each management command is answered 2 outside the session it needs, 3 if it is malformed, 1 if it is refused;
else it has its effect, and nothing else changes, and is answered 0. Some statuses are the model's reading (DEDUCED,
log 26). -/
def Obligations.ManagementCommands : Prop :=
  ∀ (s : State) (ses on : Bool) (n m k base len : Nat) (e : List Byte) (a : DWord),
    let ans (st : Nat) (data : List Byte) : State := { s with plat := { s.plat with answers := (st, data) :: s.plat.answers } }
    let done0 := (ans 0 []).plat
    let cmd (i : Instr) (ses : Bool) (bad refused : Prop) (done : State → Prop) : Prop :=
      (ses = false → exec i s = .next (ans 2 [])) ∧ (ses = true → bad → exec i s = .next (ans 3 []))
      ∧ (ses = true → ¬bad → refused → exec i s = .next (ans 1 []))
      ∧ (ses = true → ¬bad → ¬refused → ∃ t, exec i s = .next t ∧ done t)
    let coreOk (n m : Nat) : Prop := n < 4 ∧ m < 112 ∧ n ∈ s.fab.present ∧ (s.coreAt n m).retired = false
    let f := fieldAt e 10 1
    let entryBad (x : Nat) : Prop := x ≠ 0 ∧ (x % 12 ≠ 0 ∨ 2 ^ 48 ≤ x)
    cmd (.ctxwrite ses n e) ses
      (4096 ≤ n ∨ e.length ≠ 64 ∨ fieldAt e 0 8 % 8192 ≠ 0 ∨ 8 ≤ f ∨ fieldAt e 11 5 ≠ 0 ∨ fieldAt e 32 32 ≠ 0
        ∨ entryBad (fieldAt e 16 8) ∨ entryBad (fieldAt e 24 8)) False
      (fun t => t = { s with ctxs := t.ctxs, plat := done0 } ∧ ∀ c, t.ctx c = if c = n then
        { root := fieldAt e 0 8, tenant := fieldAt e 8 2, valid := f % 2 = 1, launchx := f / 2 % 2 = 1, remote := f / 4 % 2 = 1
          trapent := BitVec.ofNat 64 (fieldAt e 16 8), dbgent := BitVec.ofNat 64 (fieldAt e 24 8) } else s.ctx c)
    ∧ cmd (.grant ses n m k base len) ses
      (4 ≤ n ∨ 64 ≤ m ∨ 4096 ≤ k ∨ base % 4096 ≠ 0 ∨ len % 4096 ≠ 0 ∨ 33554432 < base + len) (len ≠ 0 ∧ s.neverGranted n base len = true)
      (fun t => t = { s with grants := t.grants, mem := t.mem, ue := t.ue, empty := t.empty, plat := done0 }
        ∧ (∀ g, g ∈ t.grants ↔ (g ∈ s.grants ∧ (g.die ≠ n ∨ g.num ≠ m))
            ∨ (len ≠ 0 ∧ g = { die := n, num := m, ctx := k, base := base, len := len }))
        ∧ (∀ x, memGet t.mem x = if atD n base ≤ x ∧ x < atD n base + len then 0 else memGet s.mem x)
        ∧ ∀ y, y ∈ t.empty ↔ y ∈ s.empty ∧ (16 * y < atD n base ∨ atD n base + len ≤ 16 * y))
    ∧ cmd (.winbind n m e) true (256 ≤ n ∨ 65536 ≤ m ∨ e.length ≠ 32 ∨ fieldAt e 3 1 ≠ 255) False
      (fun t => t = { s with windows := t.windows, flits := t.flits, agenda := t.agenda, plat := done0 }
        ∧ (∀ v, v ≠ n → t.window v = s.window v) ∧ (t.window n).bound = true ∧ (t.window n).tenant = m
        ∧ (capFields e = true → (t.window n).cap = parseCap e ∧ (t.window n).left = fieldAt e 2 1))
    ∧ cmd (.pkgnum n) true (65536 ≤ n) False (fun t => t = { s with fab := { s.fab with pkg := n }, plat := done0 })
    ∧ cmd (.fwdtab n m k) true (65536 ≤ n ∨ 18 ≤ m ∨ 18 ≤ k) False
      (fun t => t = { s with fab := { s.fab with car := { s.fab.car with fwd := t.fab.car.fwd } }, plat := done0 }
        ∧ ∀ v, Store.find t.fab.car.fwd v = if v = n then some (m, k) else Store.find s.fab.car.fwd v)
    ∧ cmd (.screen n) true (n < 4 ∨ 20 < n) False (fun t => t = { s with ck := { s.ck with q := n }, plat := done0 })
    ∧ cmd (.window n m) true (n < 60 ∨ 2592000 < n ∨ m = 0 ∨ 254 < m) False
      (fun t => t = { s with ck := { s.ck with w := n, t := m }, plat := done0 })
    ∧ cmd (.keyload ses n m) ses (1024 ≤ n ∨ 65536 ≤ m) False
      (fun t => t = { s with ck := { s.ck with keys := t.ck.keys, gens := t.ck.gens }, next := s.next + 1, plat := done0 }
        ∧ (∀ v, Store.find t.ck.keys v = if v = n then some m else Store.find s.ck.keys v)
        ∧ ∀ v, t.keyGen v = if v = n then s.next else s.keyGen v)
    ∧ cmd (.retireRemove ses n m k) ses False ((n, m, k) ∉ s.ck.retired)
      (fun t => t = { s with ck := { s.ck with retired := t.ck.retired }, plat := done0 }
        ∧ ∀ u, u ∈ t.ck.retired ↔ u ∈ s.ck.retired ∧ u ≠ (n, m, k))
    ∧ cmd (.injlock ses on) (ses || on) False False (fun t => t = { s with ck := { s.ck with injLock := on }, plat := done0 })
    ∧ cmd (.halt n m on) true (¬coreOk n m) False
      (fun t =>
        let u := s.focusCore n m
        t = { u with c := { u.c with dbgCtl := t.c.dbgCtl }, g := t.g, gangs := t.gangs, images := t.images, plat := done0 }
        ∧ (∀ i < 18, t.c.dbgCtl.getLsbD i = if i = 16 then on else u.c.dbgCtl.getLsbD i)
        ∧ (u.c.dbgCtl.getLsbD 16 = on → t.g = u.g ∧ t.gangs = u.gangs ∧ t.images = u.images))
    ∧ (∀ (c : Option Nat) (va pages : Nat), cmd (.tlbi c va pages) true False False
      (fun t => t = { s with tlb := t.tlb, walks := t.walks, ck := { s.ck with tags := t.ck.tags }, agenda := t.agenda, plat := done0 }
        ∧ (∀ x, x ∈ t.walks ↔ x ∈ s.walks ∧ ∃ v, c = some v ∧ (x.ctx ≠ v ∨ (pages ≠ 0
            ∧ (va + 4096 * pages ≤ x.tag * 2 ^ (12 + 9 * x.lvl) ∨ (x.tag + 1) * 2 ^ (12 + 9 * x.lvl) ≤ va))))
        ∧ ∀ x, x ∈ t.tlb ↔ x ∈ s.tlb ∧ ∃ v, c = some v ∧ (x.ctx ≠ v ∨ (pages ≠ 0 ∧ (va + 4096 * pages ≤ x.va ∨ x.va + x.size ≤ va)))))
    ∧ cmd (.savepool n m a) true (¬coreOk n m ∨ a.toNat % 2 ^ 22 ≠ 0 ∨ a.toNat / 2 ^ 48 % 256 ≠ 0) False
      (fun t => t = { s with c := t.c, cores := t.cores, plat := done0 } ∧ t.coreAt n m = { s.coreAt n m with saveBase := a })
    ∧ (∃ data, exec .faultread s = .next (ans 0 data) ∧ data.length = 32 * s.ck.faults.length
        ∧ ∀ (i : Nat) (r : FaultRec), s.ck.faults[i]? = some r →
          let x := (data.drop (32 * i)).take 32
          fieldAt x 0 8 = r.ns % 2 ^ 64 ∧ fieldAt x 8 1 = r.cls % 256 ∧ fieldAt x 9 1 = r.node % 256 ∧ fieldAt x 10 2 = r.kind % 2 ^ 16
          ∧ fieldAt x 12 4 = r.index % 2 ^ 32 ∧ fieldAt x 16 8 = r.addr % 2 ^ 64 ∧ fieldAt x 24 4 = r.opid % 2 ^ 32
          ∧ fieldAt x 28 1 = r.count % 256 ∧ fieldAt x 29 1 = r.outcome % 256)
    ∧ (14 ≤ n → exec (.countread n) s = .next (ans 3 []))
    ∧ (n < 14 → ∃ data, exec (.countread n) s = .next (ans 0 data)
        ∧ let ports := if n = 13 then 26 else 13
          ∀ i p, i < 19 → p < ports → i ≠ 2 → i ≠ 3 → fieldAt data (8 * (ports * i + p)) 8 = (Store.get 0 s.fab.cnt (1024 * n + 32 * i + p)).toNat)
    ∧ cmd (.reset ses) ses False False (fun t => t = { s with urgent := t.urgent, plat := done0 } ∧ Instr.packageReset ∈ t.urgent)
    ∧ cmd (.coreinit ses n m) ses (¬coreOk n m) (∃ b ∈ s.allBlocks, b.die = n ∧ b.core = m)
      (fun t => t = { s with c := t.c, cores := t.cores, plat := done0 }
        ∧ let x := s.coreAt n m
          t.coreAt n m = { die := x.die, idx := x.idx, lostSlots := x.lostSlots, lostZt := x.lostZt, lostSegs := x.lostSegs
                           lostS := x.lostS, retired := x.retired })
    ∧ (let car := s.fab.car
       let live : Prop := car.state = .forward ∨ car.state = .isolateLocal
       cmd (.carreset ses) ses False (car.state = .off)
        (fun t => t = { s with
            fab := { s.fab with car := { car with resetAt := some s.ns, asked := t.fab.car.asked, sent := t.fab.car.sent } }
            agenda := t.agenda, plat := done0 }
          ∧ Awaits s t [.carriageReset]
          ∧ (∀ port, port ∈ t.fab.car.asked ↔ live ∧ port < 18 ∧ port ∉ car.dead ∧ Store.find car.training port = none)
          ∧ (∀ port ∈ t.fab.car.asked, ∃ x, (port, x) ∈ t.fab.car.sent ∧ flitGood 1 x = true ∧ fieldAt x 1 1 = 15)))
    ∧ (let ended (u : State) : State := ((u.settleTask n).tryReleases.later .blockAdmission)
       let marked : State := { s with tasks := s.tasks.map fun x => if x.id = n then { x with ending := true } else x }
       cmd (.taskend ses n) ses False (∀ x ∈ s.tasks, x.id ≠ n ∨ 2 ^ 32 ≤ x.id)
        (fun t => (∀ im ∈ s.images, im.block.task ≠ n) →
          ((∀ g ∈ s.allGangs, g.task = n → g.live = 0) →
            t = { ended marked with plat := { (ended marked).plat with answers := (0, []) :: (ended marked).plat.answers } })
          ∧ (s.g.task = n → s.g.uid ≠ 0 → s.g.live ≠ 0 → (∀ g ∈ s.gangs, g.task ≠ n) → ∃ u : State,
            t = { ended u with plat := { (ended u).plat with answers := (0, []) :: (ended u).plat.answers } }
            ∧ u.g.uid = s.g.uid ∧ u.g.live = 0 ∧ u.g.binds = [] ∧ u.mem = s.mem)))
    ∧ (∀ source : ImageSource,
      let bad : Prop := match source with
        | .physical a => a % 64 ≠ 0 ∨ ¬∃ r ∈ s.ranges, r.1 ≤ a ∧ a < r.1 + r.2
        | .pool die core _ => ¬coreOk die core
      let found (im : Image) (x : Nat) : Prop := match source with
        | .pool die core slot => x = im.addr ∧ s.images.find? (fun im => im.die == die && im.core == core && im.slot == some slot) = some im
        | .physical a => x = a
          ∧ s.images.find? (fun im => im.block.task == memNat s.mem (a + 4) 4 && im.block.num == memNat s.mem (a + 12) 4) = some im
      let ready (im : Image) (x : Nat) : Prop := found im x ∧ memNat s.mem x 2 = 1 ∧ ∀ l ∈ s.levels, QEntry.image im.id ∉ l.2
      cmd (.imgqueue ses source) ses bad (¬∃ im x, ready im x)
        (fun t => t = { s with images := t.images, levels := t.levels, agenda := t.agenda, plat := done0 } ∧ Awaits s t [.blockAdmission]
          ∧ ∀ im x, ready im x →
            (∀ l, Store.get [] t.levels l
              = (if l = im.block.prio then [QEntry.image im.id] else []) ++ Store.get [] s.levels l)
            ∧ ∃ y ∈ t.images, y.id = im.id ∧ y.addr = x))
    ∧ (∀ target : Option (Nat × Nat), cmd (.aperbind ses n target) ses
        (64 ≤ n ∨ ∃ c b, target = some (c, b) ∧ (4096 ≤ c ∨ b % 2 ^ 30 ≠ 0 ∨ 2 ^ 48 ≤ b)) False
        (fun t => t = { s with apertures := t.apertures, plat := done0 }
          ∧ ∀ v, Store.find t.apertures v = if v = n then target else Store.find s.apertures v))
    ∧ cmd (.hostrange ses base len on) ses (base % 2097152 ≠ 0 ∨ len % 2097152 ≠ 0 ∨ len = 0)
      (if on then 64 ≤ s.ranges.length else (base, len) ∉ s.ranges)
      (fun t => t = { s with ranges := t.ranges, plat := done0 }
        ∧ ∀ r, r ∈ t.ranges ↔ if on then r ∈ s.ranges ∨ r = (base, len) else r ∈ s.ranges ∧ r ≠ (base, len))
    ∧ (let bank := 1 - activeBank s.mem
       Memory.wf s.mem = true →
       cmd (.fwwrite ses n e) ses ((if bank = 0 then 33554432 else 33554432 - 4096) < n + e.length) False
        (fun t => t = { s with mem := t.mem, plat := done0 }
          ∧ ∀ x, memGet t.mem x =
            let lo := atFlash (bankAt bank + n)
            if lo ≤ x ∧ x < lo + e.length then nth 0 e (x - lo) else memGet s.mem x)
       ∧ cmd (.fwselect ses) ses False (s.goodBank bank = none)
        (fun t => t = { s with mem := t.mem, plat := done0 }
          ∧ ∀ x, memGet t.mem x = if x = atFlash Machine.controlAt then BitVec.ofNat 8 bank else memGet s.mem x))

/-! ## The encoding -/

/-- R50 to R53: every well-formed word decodes to the instruction it encodes, with every operand. -/
def Obligations.DecodingInvertsEncoding : Prop :=
  ∀ (i : Instr) (n : Nat), i.wf = true → encodeNat i = some n → n < 2 ^ 32 ∧ decodeNat n = .ok i

/-- The example words of the specification decode to the instructions they stand for (R82, R144, R154, R187, R202, R203,
R259, R320, R355). -/
def Obligations.ExampleWords : Prop :=
  decodeNat 0x07146A31 = .ok (.shfl false 5 6 40 3 1) ∧ decodeNat 0x0A0420CA = .ok (.icmp false 1 2 3 0 10)
  ∧ decodeNat 0x0B489FFB = .ok (.icmpi false 2 2 9 0xFFB) ∧ decodeNat 0x20106237 = .ok (.addr false 2 3 8 3 7)
  ∧ decodeNat 0x03105678 = .ok (.movi false 4 0x5678) ∧ decodeNat 0x0410048D = .ok (.movhi false 4 0x48D)
  ∧ decodeNat 0x607FFFFE = .ok (.bra 7 1 0x7FFFE) ∧ decodeNat 0x61006007 = .ok (.jmp 3 7)
  ∧ decodeNat 0x6E00000B = .ok (.mkpush false 11) ∧ decodeNat 0x65000003 = .ok (.regang 3) ∧ decodeNat 0x68000064 = .ok (.sleep 100)
  ∧ decodeNat 0x36000009 = .ok (.waitf 9) ∧ decodeNat 0x37200000 = .ok (.waitc 1 0) ∧ decodeNat 0x37418000 = .ok (.waitc 2 3)
  ∧ decodeNat 0x6B000005 = .ok (.trap 5) ∧ decodeNat 0x6C000000 = .ok .rte ∧ decodeNat 0x6D000020 = .ok (.brk 0x20)
  ∧ decodeNat 0x7914A220 = .ok (.gst false 5 5 2 2 0) ∧ decodeNat 0x711C8304 = .ok (.ldw false 7 8 3 0 0 0)
  ∧ decodeNat 0x69101000 = .ok (.rds false 4 0x010) ∧ decodeNat 0x6A084100 = .ok (.wrs false 2 0x041)
  ∧ decodeNat 0x69186100 = .ok (.rds false 6 0x061) ∧ decodeNat 0x7D0C4047 = .ok (.feset false 3 4 0 1)
  ∧ decodeNat 0x7C004148 = .ok (.mmabf false 0 4 5) ∧ decodeNat 0x7F004005 = .ok (.tlbinvPage false 2)
  ∧ decodeNat 0x7F044185 = .ok (.tlbinvRange false 2 6) ∧ decodeNat 0x7F080005 = .ok (.tlbinvCtx false)
  ∧ decodeNat 0x7F0C0005 = .ok (.tlbinvAll false) ∧ decodeNat 0x7F0C8286 = .ok (.cwb false 1 1 4 10)

/-! ## The machine -/

/-- R20, R36, R37, R40, R44: a step issues the chain at the program counter of the group chosen: when the bytes there
decode to a word i, the step is the execution of i, followed by the end of the chain; a chain of two words runs both,
and a word that holds the chain back or stops it undoes what came before it. A step that is not an issue is the
execution of the internal or external step whose turn it is. Every word and step has a next state, and a step stops
only where the group chosen for issue is empty, which no scheduler does. That a packet is fetched anew at each chain,
and which step comes next, are the model's choice (logs 1, 37). -/
def Obligations.StepRunsTheDecodedWord : Prop :=
  ∀ (s : State),
    let s0 : State := { s with ctr := s.ctr + 1, ns := s.ns + Config.elapsed s.ctr }
    (∀ i rest, s0.latchable = [] → s.urgent = i :: rest → step s = exec i { s0 with urgent := rest })
    ∧ (∀ i, s0.latchable = [] → s.urgent = [] → s.sel = none → choose s0.ctr s0.enabled = some i → step s = exec i (s0.taken i))
    ∧ (∀ (gang k : Nat), s0.latchable = [] → s.urgent = [] → s.sel = some (gang, k) →
      let f := s0.focus gang
      let s1 : State := { f with snap := some f.g }
      let pc := s1.groupPc
      let va := (packetOf pc).toNat
      let j := (pc &&& 3).toNat
      ∀ x, s1.group ≠ [] → s1.codeAt (s1.task s1.g.task).ctx va = .ok x → x.off + 12 ≤ x.size →
        (∀ k < 12, s1.reachable (x.phys + k) = true ∧ s1.lineBad ((x.phys + k) / 128) = false) →
        let word (k : Nat) : Fetched := fetched (BitVec.ofNat 32 (leNat (s1.seenAt x.key (x.phys + 4 * k) 4)))
        let words : List Fetched := [word 0, word 1, word 2]
        let chain := chainOf (words.drop j)
        let s2 := (s1.cache (s1.task s1.g.task).ctx va x).begin gang pc chain
        packetFault s2.priv j [] (words.drop j) = none →
        s2.debugMatch ((List.range chain.length).map fun n => pc + BitVec.ofNat 64 n) = none →
        s2.windowShut chain.length = false →
        -- a word that is its own chain
        (∀ w i, chain = [w] → decodeWord w.word = .ok i → w = fetched w.word →
          ∀ t, exec i (s2.atWord 0) = .next t → step s = .next (s2.finish t))
        -- two words
        ∧ ∀ w w' i i', chain = [w, w'] → decodeWord w.word = .ok i → decodeWord w'.word = .ok i' → w = fetched w.word → w' = fetched w'.word →
            lateWord i = false → lateWord i' = false →
            ∀ t t', exec i (s2.atWord 0) = .next t → t.iss.held = false → t.iss.trapped = false → exec i' (t.atWord 1) = .next t' →
              (t'.iss.trapped = false → step s = .next (s2.finish t'))
              ∧ ∀ t'', t'.iss.held = false → t'.iss.trapped = true → exec i' (s2.atWord 1) = .next t'' → step s = .next (s2.finish t''))
    ∧ (∀ i : Instr, ∃ t, exec i s = .next t)
    ∧ ∀ r, step s = .fault r → ∃ gang k, s.sel = some (gang, k) ∧ (s0.focus gang).g.group k = []

/-- R33, R41, R42, R44, R58, R59: a word at which a packet fails its checks stops the group before the chain, and nothing
of the chain has been executed: an undefined word, two words on one pipe or with one destination, a chain past its
packet, a window too short for the rest of its chain (ILL), or a privileged word in unprivileged code (PRV). So does a
packet that does not translate (XLT), or whose read meets an abort completion (ABRT: DEDUCED, log 36). That RDS and
WRS share a pipe is R41's, and CHCLOSE beside WRS CH.CUR is legal by the model's choice (log 29). -/
def Obligations.PacketChecks : Prop :=
  ∀ (s : State) (gang k : Nat),
    let s0 : State := { s with ctr := s.ctr + 1, ns := s.ns + Config.elapsed s.ctr }
    let f := s0.focus gang
    let s1 : State := { f with snap := some f.g }
    let pc := s1.groupPc
    let j := (pc &&& 3).toNat
    (s0.latchable = [] → s.urgent = [] → s.sel = some (gang, k) → s1.group ≠ [] → ∀ s2 words, s1.fetch (packetOf pc).toNat = .ok (s2, words) →
      ∀ n c, packetFault (s2.begin gang pc (chainOf (words.drop j))).priv j [] (words.drop j) = some (n, c) →
        let b := s2.begin gang pc (chainOf (words.drop j))
        step s = .next (({ b with iss := { b.iss with wpc := packetOf pc ||| BitVec.ofNat 64 n } }.fault c 0 0).idleIssue))
    ∧ (s0.latchable = [] → s.urgent = [] → s.sel = some (gang, k) → s1.group ≠ [] → ∀ info, s1.fetch (packetOf pc).toNat = .error info →
        let u := if info = 3 then s1.reportAll (s1.fetchErrors (packetOf pc).toNat) s1.g.task else s1
        let b := u.begin gang pc []
        let at_ : State := { b with iss := { b.iss with wpc := packetOf pc } }
        step s = .next (if info = 3 then (at_.fault 7 0 0).idleIssue else (at_.fault 6 info 0).idleIssue))
    ∧ ∀ (earlier rest : List Fetched) (w : Word),
        let x := fetched w
        (∀ e, decodeWord w = .error e → wordFault true earlier rest x = 1 ∧ wordFault false earlier rest x = 1)
        ∧ ∀ i, decodeWord w = .ok i →
          let pipe := pipeOf (w.toNat / 2 ^ 24 % 128)
          let sharing := (earlier.filter fun e => decide (pipeOf (e.word.toNat / 2 ^ 24 % 128) = pipe)).length
          let ill : Prop := (pipe ≠ .none ∧ (if pipe = .fp then 2 else 1) ≤ sharing)
            ∨ (∃ d ∈ dests i, ∃ e ∈ earlier, d ∈ e.dests)
            ∨ (∃ flag look, window i = some (flag, look) ∧ look < wordsAfter x rest)
            ∨ (rest = [] ∧ w.getLsbD 31 = true)
          (ill → ∀ p, wordFault p earlier rest x = 1)
          ∧ (¬ill → wordFault true earlier rest x = 0 ∧ wordFault false earlier rest x = if needsPriv i then 2 else 0)

/-- R441, R442: the machine as it comes out of reset: nothing resident, memory empty, every die and rail up and the package
reset about to take place; with an empty flash the boot stops at step 2 and the dispatcher stays closed. The values at
which the specification gives none are the model's (DESIGN CHOICE, log 5). -/
def Obligations.ResetState : Prop :=
  let r := State.reset
  r.mem = [] ∧ Memory.wf r.mem = true ∧ r.empty = [] ∧ r.ue = [] ∧ r.seals = [] ∧ r.tlb = [] ∧ r.walks = [] ∧ r.allBlocks = [] ∧ r.allGangs = [] ∧ r.tasks = [] ∧ r.accepting = false
  ∧ r.ck.q = 10 ∧ r.ck.w = 86400 ∧ r.ck.t = 3 ∧ r.ck.retired = [] ∧ r.plat.vcd = 15 ∧ r.plat.vcar = true ∧ r.plat.eid = 0
  ∧ (∀ n, r.line n = {}) ∧ (∀ n, r.ctx n = { root := 0, tenant := 0, valid := false, launchx := false, remote := false, trapent := 0, dbgent := 0 })
  ∧ r.agenda = [.packageReset]
  ∧ ∃ t, step r = .next t ∧ t.plat.bootFail = some 2 ∧ t.accepting = false ∧ (3, 2) ∈ t.plat.unsolicited

/-- Every step keeps memory in its canonical form, so that equal memories are equal data. -/
def Obligations.StepKeepsMemoryCanonical : Prop :=
  ∀ (s t : State), Memory.wf s.mem = true → step s = .next t → Memory.wf t.mem = true
end

