-- ==== Sys2Proof/Laws/Store.lean ====
section
/-! SUPPORT. Laws/Store.lean: what reading a keyed store gives after a write, and the lists of Word.lean. -/

namespace Sys2Proof

/-- Reading after a write: the value at its key, and elsewhere what was there before. -/
theorem Store.get_put {α : Type} (d v : α) (m : Store α) (k j : Nat) :
    Store.get d (Store.put m k v) j = if j = k then v else Store.get d m j := by
  induction m with
  | nil => simp [Store.put, Store.get]
  | cons p t ih =>
    obtain ⟨k', v'⟩ := p
    simp only [Store.put]
    split
    · simp only [Store.get]
    · split
      · simp only [Store.get]; split <;> simp_all
      · simp only [Store.get, ih]; split <;> split <;> simp_all

@[simp] theorem Store.get_put_same {α : Type} (d v : α) (m : Store α) (k : Nat) :
    Store.get d (Store.put m k v) k = v := by simp [Store.get_put]

theorem Store.get_put_ne {α : Type} (d v : α) (m : Store α) {k j : Nat} (h : j ≠ k) :
    Store.get d (Store.put m k v) j = Store.get d m j := by simp [Store.get_put, h]

@[simp] theorem Store.get_nil {α : Type} (d : α) (k : Nat) : Store.get d [] k = d := rfl

/-- A store without a key reads its default there. -/
theorem Store.get_del {α : Type} (d : α) (m : Store α) (k j : Nat) :
    Store.get d (Store.del m k) j = if j = k then d else Store.get d m j := by
  induction m with
  | nil => simp [Store.del]
  | cons p t ih =>
    obtain ⟨k', v'⟩ := p
    simp only [Store.del, List.filter_cons] at *
    by_cases hk : k' = k
    · subst hk
      simp only [bne_self_eq_false, Bool.false_eq_true, if_false, ih, Store.get]
      split <;> simp_all
    · have : (k' != k) = true := by simpa using hk
      simp only [this, if_true, Store.get, ih]
      split <;> split <;> simp_all

theorem Store.find_put {α : Type} (m : Store α) (k j : Nat) (v : α) :
    Store.find (Store.put m k v) j = if j = k then some v else Store.find m j := by
  induction m with
  | nil => simp [Store.put, Store.find]
  | cons p t ih =>
    obtain ⟨k', v'⟩ := p
    simp only [Store.put]
    split
    · simp only [Store.find]
    · split
      · simp only [Store.find]; split <;> simp_all
      · simp only [Store.find, ih]; split <;> split <;> simp_all

theorem Store.find_del {α : Type} (m : Store α) (k j : Nat) :
    Store.find (Store.del m k) j = if j = k then none else Store.find m j := by
  induction m with
  | nil => simp [Store.del, Store.find]
  | cons p t ih =>
    obtain ⟨k', v'⟩ := p
    simp only [Store.del, List.filter_cons] at *
    by_cases hk : k' = k
    · subst hk
      simp only [bne_self_eq_false, Bool.false_eq_true, if_false, ih, Store.find]
      split <;> simp_all
    · have : (k' != k) = true := by simpa using hk
      simp only [this, if_true, Store.find, ih]
      split <;> split <;> simp_all

/-- Reading a list after one of its elements has changed. -/
theorem nth_modAt {α : Type} (d : α) (f : α → α) (l : List α) (i j : Nat) :
    nth d (modAt f l i) j = if j = i ∧ i < l.length then f (nth d l j) else nth d l j := by
  induction l generalizing i j with
  | nil => simp [modAt]
  | cons x t ih =>
    cases i with
    | zero => cases j <;> simp [modAt, nth]
    | succ i => cases j <;> simp [modAt, nth, ih]

@[simp] theorem modAt_length {α : Type} (f : α → α) (l : List α) (i : Nat) : (modAt f l i).length = l.length := by
  induction l generalizing i with
  | nil => rfl
  | cons x t ih => cases i <;> simp [modAt, ih]

@[simp] theorem mem_upto (n i : Nat) : i ∈ upto n ↔ i < n := by simp [upto]

end Sys2Proof
end

