-- ==== Sys2Proof/Laws/Memory.lean ====
section
/-! SUPPORT. Laws/Memory.lean: what reading memory gives after a write, and that every operation on memory keeps its
canonical form. -/

namespace Sys2Proof.Machine

open Sys2Proof

/-- A canonical list holds nothing below its bound. -/
theorem memGet_below {m : List Host.Cell} {lo a : Nat} (h : memWfFrom lo m = true) (ha : a < lo) : memGet m a = 0 := by
  induction m generalizing lo with
  | nil => rfl
  | cons c t ih =>
    obtain ⟨k, v⟩ := c
    simp only [memWfFrom, Bool.and_eq_true, decide_eq_true_eq] at h
    have : a ≠ k := by omega
    simp only [memGet, Store.get, this, if_false]
    exact ih h.2 (by omega)

theorem memWfFrom_mono {m : List Host.Cell} {lo hi : Nat} (h : memWfFrom hi m = true) (hl : lo ≤ hi) :
    memWfFrom lo m = true := by
  cases m with
  | nil => rfl
  | cons c t =>
    simp only [memWfFrom, Bool.and_eq_true, decide_eq_true_eq] at h ⊢
    exact ⟨⟨by omega, h.1.2⟩, h.2⟩

/-- Reading after one byte has been written. -/
theorem memGet_memPut {m : List Host.Cell} {lo : Nat} (h : memWfFrom lo m = true) (a j : Nat) (b : Byte) :
    memGet (memPut m a b) j = if j = a then b else memGet m j := by
  induction m generalizing lo with
  | nil => by_cases hb : b = 0#8 <;> simp [memPut, memGet, Store.get, hb]
  | cons c t ih =>
    obtain ⟨k, v⟩ := c
    simp only [memWfFrom, Bool.and_eq_true, decide_eq_true_eq] at h
    have hlow (x : Nat) (hx : x ≤ k) : Store.get (0#8) t x = 0#8 := memGet_below h.2 (by omega)
    have ih := ih h.2
    simp only [memPut, memGet] at *
    rcases Nat.lt_trichotomy a k with hk | hk | hk
    · by_cases hj : j = a
      · subst hj
        have := hlow j (by omega)
        by_cases hb : b = 0#8 <;> simp [hk, hb, Store.get, Nat.ne_of_lt hk, this]
      · by_cases hb : b = 0#8 <;> simp [hk, hb, Store.get, hj]
    · subst hk
      by_cases hj : j = a
      · subst hj
        have := hlow j (by omega)
        by_cases hb : b = 0#8 <;> simp [hb, Store.get, this]
      · by_cases hb : b = 0#8 <;> simp [hb, Store.get, hj]
    · have h1 : ¬a < k := by omega
      have h2 : ¬a = k := by omega
      simp only [h1, h2, if_false, Store.get, ih]
      by_cases hj : j = k
      · subst hj; simp [Ne.symm h2]
      · simp [hj]

theorem memWfFrom_memPut {m : List Host.Cell} {lo : Nat} (h : memWfFrom lo m = true) (a : Nat) (b : Byte) (ha : lo ≤ a) :
    memWfFrom lo (memPut m a b) = true := by
  induction m generalizing lo with
  | nil =>
    simp only [memPut]
    by_cases hb : b = 0
    · rw [if_pos hb]; rfl
    · rw [if_neg hb]; simpa [memWfFrom, ha] using hb
  | cons c t ih =>
    obtain ⟨k, v⟩ := c
    simp only [memWfFrom, Bool.and_eq_true, decide_eq_true_eq] at h
    simp only [memPut]
    split
    · by_cases hb : b = 0
      · rw [if_pos hb]; simpa [memWfFrom] using h
      · rw [if_neg hb]
        simp only [memWfFrom, Bool.and_eq_true, decide_eq_true_eq]
        exact ⟨⟨ha, by simpa using hb⟩, ⟨by omega, h.1.2⟩, h.2⟩
    · split
      · by_cases hb : b = 0
        · rw [if_pos hb]; exact memWfFrom_mono h.2 (by omega)
        · rw [if_neg hb]
          simp only [memWfFrom, Bool.and_eq_true, decide_eq_true_eq]
          exact ⟨⟨ha, by simpa using hb⟩, by simp_all⟩
      · simp only [memWfFrom, Bool.and_eq_true, decide_eq_true_eq]
        exact ⟨h.1, ih h.2 (by omega)⟩

/-- A byte written keeps the canonical form. -/
theorem wf_memPut {m : List Host.Cell} (h : Memory.wf m = true) (a : Nat) (b : Byte) : Memory.wf (memPut m a b) = true :=
  memWfFrom_memPut h a b (Nat.zero_le _)

theorem wf_memWrite {m : List Host.Cell} (h : Memory.wf m = true) (a : Nat) (l : List Byte) :
    Memory.wf (memWrite m a l) = true := by
  induction l generalizing m a with
  | nil => exact h
  | cons b t ih => exact ih (wf_memPut h a b) (a + 1)

theorem wf_memWriteNat {m : List Host.Cell} (h : Memory.wf m = true) (a n v : Nat) :
    Memory.wf (memWriteNat m a n v) = true := wf_memWrite h a _

theorem wf_memWriteMasked {m : List Host.Cell} (h : Memory.wf m = true) (a mask : Nat) (l : List Byte) :
    Memory.wf (memWriteMasked m a mask l) = true := by
  induction l generalizing m a mask with
  | nil => exact h
  | cons b t ih =>
    simp only [memWriteMasked]
    split
    · exact ih (wf_memPut h a b) _ _
    · exact ih h _ _

theorem memWfFrom_filter {m : List Host.Cell} {lo : Nat} (h : memWfFrom lo m = true) (p : Host.Cell → Bool) :
    memWfFrom lo (m.filter p) = true := by
  induction m generalizing lo with
  | nil => rfl
  | cons c t ih =>
    simp only [memWfFrom, Bool.and_eq_true, decide_eq_true_eq] at h
    simp only [List.filter_cons]
    split
    · simp only [memWfFrom, Bool.and_eq_true, decide_eq_true_eq]
      exact ⟨h.1, ih h.2⟩
    · exact memWfFrom_mono (ih h.2) (by omega)

/-- Cells dropped keep the canonical form. -/
theorem wf_filter {m : List Host.Cell} (h : Memory.wf m = true) (p : Host.Cell → Bool) : Memory.wf (m.filter p) = true :=
  memWfFrom_filter h p

theorem wf_memZero {m : List Host.Cell} (h : Memory.wf m = true) (a n : Nat) : Memory.wf (memZero m a n) = true :=
  wf_filter h _

theorem wf_foldl {α : Type} (f : List Host.Cell → α → List Host.Cell)
    (hf : ∀ m x, Memory.wf m = true → Memory.wf (f m x) = true) (l : List α) {m : List Host.Cell}
    (h : Memory.wf m = true) : Memory.wf (l.foldl f m) = true := by
  induction l generalizing m with
  | nil => exact h
  | cons x t ih => exact ih (hf m x h)

theorem wf_memCopy {m : List Host.Cell} (h : Memory.wf m = true) (src dst n : Nat) :
    Memory.wf (memCopy m src dst n) = true :=
  wf_foldl _ (fun _ _ hm => wf_memPut hm _ _) _ (wf_memZero h _ _)

/-- Reading after a list of bytes has been written. -/
theorem memGet_memWrite {m : List Host.Cell} (h : Memory.wf m = true) (a j : Nat) (l : List Byte) :
    memGet (memWrite m a l) j = if a ≤ j ∧ j < a + l.length then l.getD (j - a) 0 else memGet m j := by
  induction l generalizing m a with
  | nil => simp [memWrite]
  | cons b t ih =>
    simp only [memWrite, ih (wf_memPut h a b), memGet_memPut h, List.length_cons]
    by_cases h1 : j = a
    · subst h1; simp
    · by_cases h2 : a + 1 ≤ j ∧ j < a + 1 + t.length
      · have h3 : a ≤ j ∧ j < a + (t.length + 1) := by omega
        have h4 : j - a = (j - (a + 1)) + 1 := by omega
        simp only [h2, h3, and_self, if_true, h4, List.getD_cons_succ]
      · have h3 : ¬(a ≤ j ∧ j < a + (t.length + 1)) := by omega
        simp only [h2, h3, if_false, h1]

theorem length_leBytes (n v : Nat) : (leBytes n v).length = n := by
  induction n generalizing v with
  | zero => rfl
  | succ n ih => simp [leBytes, ih]

/-- A number written in n bytes reads as its residue (R5). -/
theorem leNat_leBytes (n v : Nat) : leNat (leBytes n v) = v % 256 ^ n := by
  induction n generalizing v with
  | zero => simp [leBytes, leNat, Nat.mod_one]
  | succ n ih =>
    have e : v % 256 ^ (n + 1) = v % 256 + 256 * (v / 256 % 256 ^ n) := by rw [Nat.pow_succ, Nat.mul_comm, Nat.mod_mul]
    rw [leBytes, leNat, ih, BitVec.toNat_ofNat, e]

/-- Reading outside the bytes of a number that has been written. -/
theorem memGet_memWriteNat_outside {m : List Host.Cell} (h : Memory.wf m = true) (a n v j : Nat) (ho : j < a ∨ a + n ≤ j) :
    memGet (memWriteNat m a n v) j = memGet m j := by
  have : ¬(a ≤ j ∧ j < a + (leBytes n v).length) := by rw [length_leBytes]; omega
  rw [memWriteNat, memGet_memWrite h, if_neg this]

end Sys2Proof.Machine
end

