-- ==== Sys2Proof/Laws/State.lean ====
section
/-! SUPPORT. Laws/State.lean: what the small updates of the state leave as it was, one lemma for each field, so that no
proof unfolds a record update, and one lemma for each way of bringing about a later step. -/

namespace Sys2Proof.Machine

open Sys2Proof

/-! ### `later` -/

@[simp] theorem State.later_g (s : State) (i : Instr) : (s.later i).g = s.g := by unfold State.later; split <;> rfl
@[simp] theorem State.later_b (s : State) (i : Instr) : (s.later i).b = s.b := by unfold State.later; split <;> rfl
@[simp] theorem State.later_c (s : State) (i : Instr) : (s.later i).c = s.c := by unfold State.later; split <;> rfl
@[simp] theorem State.later_gangs (s : State) (i : Instr) : (s.later i).gangs = s.gangs := by unfold State.later; split <;> rfl
@[simp] theorem State.later_blocks (s : State) (i : Instr) : (s.later i).blocks = s.blocks := by unfold State.later; split <;> rfl
@[simp] theorem State.later_cores (s : State) (i : Instr) : (s.later i).cores = s.cores := by unfold State.later; split <;> rfl
@[simp] theorem State.later_mem (s : State) (i : Instr) : (s.later i).mem = s.mem := by unfold State.later; split <;> rfl
@[simp] theorem State.later_seals (s : State) (i : Instr) : (s.later i).seals = s.seals := by unfold State.later; split <;> rfl
@[simp] theorem State.later_empty (s : State) (i : Instr) : (s.later i).empty = s.empty := by unfold State.later; split <;> rfl
@[simp] theorem State.later_ue (s : State) (i : Instr) : (s.later i).ue = s.ue := by unfold State.later; split <;> rfl
@[simp] theorem State.later_posted (s : State) (i : Instr) : (s.later i).posted = s.posted := by unfold State.later; split <;> rfl
@[simp] theorem State.later_images (s : State) (i : Instr) : (s.later i).images = s.images := by unfold State.later; split <;> rfl
@[simp] theorem State.later_ns (s : State) (i : Instr) : (s.later i).ns = s.ns := by unfold State.later; split <;> rfl
@[simp] theorem State.later_ctxs (s : State) (i : Instr) : (s.later i).ctxs = s.ctxs := by unfold State.later; split <;> rfl
@[simp] theorem State.later_grants (s : State) (i : Instr) : (s.later i).grants = s.grants := by unfold State.later; split <;> rfl
@[simp] theorem State.later_tasks (s : State) (i : Instr) : (s.later i).tasks = s.tasks := by unfold State.later; split <;> rfl
@[simp] theorem State.later_nextTask (s : State) (i : Instr) : (s.later i).nextTask = s.nextTask := by unfold State.later; split <;> rfl
@[simp] theorem State.later_accepting (s : State) (i : Instr) : (s.later i).accepting = s.accepting := by unfold State.later; split <;> rfl
@[simp] theorem State.later_levels (s : State) (i : Instr) : (s.later i).levels = s.levels := by unfold State.later; split <;> rfl
@[simp] theorem State.later_evictFor (s : State) (i : Instr) : (s.later i).evictFor = s.evictFor := by unfold State.later; split <;> rfl
@[simp] theorem State.later_evictAt (s : State) (i : Instr) : (s.later i).evictAt = s.evictAt := by unfold State.later; split <;> rfl
@[simp] theorem State.later_records (s : State) (i : Instr) : (s.later i).records = s.records := by unfold State.later; split <;> rfl
@[simp] theorem State.later_flits (s : State) (i : Instr) : (s.later i).flits = s.flits := by unfold State.later; split <;> rfl
@[simp] theorem State.later_windows (s : State) (i : Instr) : (s.later i).windows = s.windows := by unfold State.later; split <;> rfl
@[simp] theorem State.later_tlb (s : State) (i : Instr) : (s.later i).tlb = s.tlb := by unfold State.later; split <;> rfl
@[simp] theorem State.later_walks (s : State) (i : Instr) : (s.later i).walks = s.walks := by unfold State.later; split <;> rfl
@[simp] theorem State.later_misses (s : State) (i : Instr) : (s.later i).misses = s.misses := by unfold State.later; split <;> rfl
@[simp] theorem State.later_apertures (s : State) (i : Instr) : (s.later i).apertures = s.apertures := by unfold State.later; split <;> rfl
@[simp] theorem State.later_ranges (s : State) (i : Instr) : (s.later i).ranges = s.ranges := by unfold State.later; split <;> rfl
@[simp] theorem State.later_ck (s : State) (i : Instr) : (s.later i).ck = s.ck := by unfold State.later; split <;> rfl
@[simp] theorem State.later_fab (s : State) (i : Instr) : (s.later i).fab = s.fab := by unfold State.later; split <;> rfl
@[simp] theorem State.later_plat (s : State) (i : Instr) : (s.later i).plat = s.plat := by unfold State.later; split <;> rfl
@[simp] theorem State.later_sel (s : State) (i : Instr) : (s.later i).sel = s.sel := by unfold State.later; split <;> rfl
@[simp] theorem State.later_snap (s : State) (i : Instr) : (s.later i).snap = s.snap := by unfold State.later; split <;> rfl
@[simp] theorem State.later_iss (s : State) (i : Instr) : (s.later i).iss = s.iss := by unfold State.later; split <;> rfl
@[simp] theorem State.later_next (s : State) (i : Instr) : (s.later i).next = s.next := by unfold State.later; split <;> rfl
@[simp] theorem State.later_ctr (s : State) (i : Instr) : (s.later i).ctr = s.ctr := by unfold State.later; split <;> rfl
@[simp] theorem State.later_urgent (s : State) (i : Instr) : (s.later i).urgent = s.urgent := by unfold State.later; split <;> rfl
@[simp] theorem State.later_inputs (s : State) (i : Instr) : (s.later i).inputs = s.inputs := by unfold State.later; split <;> rfl

/-! ### `soon` -/

@[simp] theorem State.soon_g (s : State) (i : Instr) : (s.soon i).g = s.g := by unfold State.soon; split <;> rfl
@[simp] theorem State.soon_b (s : State) (i : Instr) : (s.soon i).b = s.b := by unfold State.soon; split <;> rfl
@[simp] theorem State.soon_c (s : State) (i : Instr) : (s.soon i).c = s.c := by unfold State.soon; split <;> rfl
@[simp] theorem State.soon_gangs (s : State) (i : Instr) : (s.soon i).gangs = s.gangs := by unfold State.soon; split <;> rfl
@[simp] theorem State.soon_blocks (s : State) (i : Instr) : (s.soon i).blocks = s.blocks := by unfold State.soon; split <;> rfl
@[simp] theorem State.soon_cores (s : State) (i : Instr) : (s.soon i).cores = s.cores := by unfold State.soon; split <;> rfl
@[simp] theorem State.soon_mem (s : State) (i : Instr) : (s.soon i).mem = s.mem := by unfold State.soon; split <;> rfl
@[simp] theorem State.soon_seals (s : State) (i : Instr) : (s.soon i).seals = s.seals := by unfold State.soon; split <;> rfl
@[simp] theorem State.soon_empty (s : State) (i : Instr) : (s.soon i).empty = s.empty := by unfold State.soon; split <;> rfl
@[simp] theorem State.soon_ue (s : State) (i : Instr) : (s.soon i).ue = s.ue := by unfold State.soon; split <;> rfl
@[simp] theorem State.soon_posted (s : State) (i : Instr) : (s.soon i).posted = s.posted := by unfold State.soon; split <;> rfl
@[simp] theorem State.soon_images (s : State) (i : Instr) : (s.soon i).images = s.images := by unfold State.soon; split <;> rfl
@[simp] theorem State.soon_ns (s : State) (i : Instr) : (s.soon i).ns = s.ns := by unfold State.soon; split <;> rfl
@[simp] theorem State.soon_ctxs (s : State) (i : Instr) : (s.soon i).ctxs = s.ctxs := by unfold State.soon; split <;> rfl
@[simp] theorem State.soon_grants (s : State) (i : Instr) : (s.soon i).grants = s.grants := by unfold State.soon; split <;> rfl
@[simp] theorem State.soon_tasks (s : State) (i : Instr) : (s.soon i).tasks = s.tasks := by unfold State.soon; split <;> rfl
@[simp] theorem State.soon_nextTask (s : State) (i : Instr) : (s.soon i).nextTask = s.nextTask := by unfold State.soon; split <;> rfl
@[simp] theorem State.soon_accepting (s : State) (i : Instr) : (s.soon i).accepting = s.accepting := by unfold State.soon; split <;> rfl
@[simp] theorem State.soon_levels (s : State) (i : Instr) : (s.soon i).levels = s.levels := by unfold State.soon; split <;> rfl
@[simp] theorem State.soon_evictFor (s : State) (i : Instr) : (s.soon i).evictFor = s.evictFor := by unfold State.soon; split <;> rfl
@[simp] theorem State.soon_evictAt (s : State) (i : Instr) : (s.soon i).evictAt = s.evictAt := by unfold State.soon; split <;> rfl
@[simp] theorem State.soon_records (s : State) (i : Instr) : (s.soon i).records = s.records := by unfold State.soon; split <;> rfl
@[simp] theorem State.soon_flits (s : State) (i : Instr) : (s.soon i).flits = s.flits := by unfold State.soon; split <;> rfl
@[simp] theorem State.soon_windows (s : State) (i : Instr) : (s.soon i).windows = s.windows := by unfold State.soon; split <;> rfl
@[simp] theorem State.soon_tlb (s : State) (i : Instr) : (s.soon i).tlb = s.tlb := by unfold State.soon; split <;> rfl
@[simp] theorem State.soon_walks (s : State) (i : Instr) : (s.soon i).walks = s.walks := by unfold State.soon; split <;> rfl
@[simp] theorem State.soon_misses (s : State) (i : Instr) : (s.soon i).misses = s.misses := by unfold State.soon; split <;> rfl
@[simp] theorem State.soon_apertures (s : State) (i : Instr) : (s.soon i).apertures = s.apertures := by unfold State.soon; split <;> rfl
@[simp] theorem State.soon_ranges (s : State) (i : Instr) : (s.soon i).ranges = s.ranges := by unfold State.soon; split <;> rfl
@[simp] theorem State.soon_ck (s : State) (i : Instr) : (s.soon i).ck = s.ck := by unfold State.soon; split <;> rfl
@[simp] theorem State.soon_fab (s : State) (i : Instr) : (s.soon i).fab = s.fab := by unfold State.soon; split <;> rfl
@[simp] theorem State.soon_plat (s : State) (i : Instr) : (s.soon i).plat = s.plat := by unfold State.soon; split <;> rfl
@[simp] theorem State.soon_sel (s : State) (i : Instr) : (s.soon i).sel = s.sel := by unfold State.soon; split <;> rfl
@[simp] theorem State.soon_snap (s : State) (i : Instr) : (s.soon i).snap = s.snap := by unfold State.soon; split <;> rfl
@[simp] theorem State.soon_iss (s : State) (i : Instr) : (s.soon i).iss = s.iss := by unfold State.soon; split <;> rfl
@[simp] theorem State.soon_next (s : State) (i : Instr) : (s.soon i).next = s.next := by unfold State.soon; split <;> rfl
@[simp] theorem State.soon_ctr (s : State) (i : Instr) : (s.soon i).ctr = s.ctr := by unfold State.soon; split <;> rfl
@[simp] theorem State.soon_agenda (s : State) (i : Instr) : (s.soon i).agenda = s.agenda := by unfold State.soon; split <;> rfl
@[simp] theorem State.soon_inputs (s : State) (i : Instr) : (s.soon i).inputs = s.inputs := by unfold State.soon; split <;> rfl

/-! ### `notLater` -/

@[simp] theorem State.notLater_g (s : State) (i : Instr) : (s.notLater i).g = s.g := rfl
@[simp] theorem State.notLater_b (s : State) (i : Instr) : (s.notLater i).b = s.b := rfl
@[simp] theorem State.notLater_c (s : State) (i : Instr) : (s.notLater i).c = s.c := rfl
@[simp] theorem State.notLater_gangs (s : State) (i : Instr) : (s.notLater i).gangs = s.gangs := rfl
@[simp] theorem State.notLater_blocks (s : State) (i : Instr) : (s.notLater i).blocks = s.blocks := rfl
@[simp] theorem State.notLater_cores (s : State) (i : Instr) : (s.notLater i).cores = s.cores := rfl
@[simp] theorem State.notLater_mem (s : State) (i : Instr) : (s.notLater i).mem = s.mem := rfl
@[simp] theorem State.notLater_seals (s : State) (i : Instr) : (s.notLater i).seals = s.seals := rfl
@[simp] theorem State.notLater_empty (s : State) (i : Instr) : (s.notLater i).empty = s.empty := rfl
@[simp] theorem State.notLater_ue (s : State) (i : Instr) : (s.notLater i).ue = s.ue := rfl
@[simp] theorem State.notLater_posted (s : State) (i : Instr) : (s.notLater i).posted = s.posted := rfl
@[simp] theorem State.notLater_images (s : State) (i : Instr) : (s.notLater i).images = s.images := rfl
@[simp] theorem State.notLater_ns (s : State) (i : Instr) : (s.notLater i).ns = s.ns := rfl
@[simp] theorem State.notLater_ctxs (s : State) (i : Instr) : (s.notLater i).ctxs = s.ctxs := rfl
@[simp] theorem State.notLater_grants (s : State) (i : Instr) : (s.notLater i).grants = s.grants := rfl
@[simp] theorem State.notLater_tasks (s : State) (i : Instr) : (s.notLater i).tasks = s.tasks := rfl
@[simp] theorem State.notLater_nextTask (s : State) (i : Instr) : (s.notLater i).nextTask = s.nextTask := rfl
@[simp] theorem State.notLater_accepting (s : State) (i : Instr) : (s.notLater i).accepting = s.accepting := rfl
@[simp] theorem State.notLater_levels (s : State) (i : Instr) : (s.notLater i).levels = s.levels := rfl
@[simp] theorem State.notLater_evictFor (s : State) (i : Instr) : (s.notLater i).evictFor = s.evictFor := rfl
@[simp] theorem State.notLater_evictAt (s : State) (i : Instr) : (s.notLater i).evictAt = s.evictAt := rfl
@[simp] theorem State.notLater_records (s : State) (i : Instr) : (s.notLater i).records = s.records := rfl
@[simp] theorem State.notLater_flits (s : State) (i : Instr) : (s.notLater i).flits = s.flits := rfl
@[simp] theorem State.notLater_windows (s : State) (i : Instr) : (s.notLater i).windows = s.windows := rfl
@[simp] theorem State.notLater_tlb (s : State) (i : Instr) : (s.notLater i).tlb = s.tlb := rfl
@[simp] theorem State.notLater_walks (s : State) (i : Instr) : (s.notLater i).walks = s.walks := rfl
@[simp] theorem State.notLater_misses (s : State) (i : Instr) : (s.notLater i).misses = s.misses := rfl
@[simp] theorem State.notLater_apertures (s : State) (i : Instr) : (s.notLater i).apertures = s.apertures := rfl
@[simp] theorem State.notLater_ranges (s : State) (i : Instr) : (s.notLater i).ranges = s.ranges := rfl
@[simp] theorem State.notLater_ck (s : State) (i : Instr) : (s.notLater i).ck = s.ck := rfl
@[simp] theorem State.notLater_fab (s : State) (i : Instr) : (s.notLater i).fab = s.fab := rfl
@[simp] theorem State.notLater_plat (s : State) (i : Instr) : (s.notLater i).plat = s.plat := rfl
@[simp] theorem State.notLater_sel (s : State) (i : Instr) : (s.notLater i).sel = s.sel := rfl
@[simp] theorem State.notLater_snap (s : State) (i : Instr) : (s.notLater i).snap = s.snap := rfl
@[simp] theorem State.notLater_iss (s : State) (i : Instr) : (s.notLater i).iss = s.iss := rfl
@[simp] theorem State.notLater_next (s : State) (i : Instr) : (s.notLater i).next = s.next := rfl
@[simp] theorem State.notLater_ctr (s : State) (i : Instr) : (s.notLater i).ctr = s.ctr := rfl
@[simp] theorem State.notLater_urgent (s : State) (i : Instr) : (s.notLater i).urgent = s.urgent := rfl
@[simp] theorem State.notLater_inputs (s : State) (i : Instr) : (s.notLater i).inputs = s.inputs := rfl

/-! ### `arrives` -/

@[simp] theorem State.arrives_g (s : State) (i : Instr) : (s.arrives i).g = s.g := rfl
@[simp] theorem State.arrives_b (s : State) (i : Instr) : (s.arrives i).b = s.b := rfl
@[simp] theorem State.arrives_c (s : State) (i : Instr) : (s.arrives i).c = s.c := rfl
@[simp] theorem State.arrives_gangs (s : State) (i : Instr) : (s.arrives i).gangs = s.gangs := rfl
@[simp] theorem State.arrives_blocks (s : State) (i : Instr) : (s.arrives i).blocks = s.blocks := rfl
@[simp] theorem State.arrives_cores (s : State) (i : Instr) : (s.arrives i).cores = s.cores := rfl
@[simp] theorem State.arrives_mem (s : State) (i : Instr) : (s.arrives i).mem = s.mem := rfl
@[simp] theorem State.arrives_seals (s : State) (i : Instr) : (s.arrives i).seals = s.seals := rfl
@[simp] theorem State.arrives_empty (s : State) (i : Instr) : (s.arrives i).empty = s.empty := rfl
@[simp] theorem State.arrives_ue (s : State) (i : Instr) : (s.arrives i).ue = s.ue := rfl
@[simp] theorem State.arrives_posted (s : State) (i : Instr) : (s.arrives i).posted = s.posted := rfl
@[simp] theorem State.arrives_images (s : State) (i : Instr) : (s.arrives i).images = s.images := rfl
@[simp] theorem State.arrives_ns (s : State) (i : Instr) : (s.arrives i).ns = s.ns := rfl
@[simp] theorem State.arrives_ctxs (s : State) (i : Instr) : (s.arrives i).ctxs = s.ctxs := rfl
@[simp] theorem State.arrives_grants (s : State) (i : Instr) : (s.arrives i).grants = s.grants := rfl
@[simp] theorem State.arrives_tasks (s : State) (i : Instr) : (s.arrives i).tasks = s.tasks := rfl
@[simp] theorem State.arrives_nextTask (s : State) (i : Instr) : (s.arrives i).nextTask = s.nextTask := rfl
@[simp] theorem State.arrives_accepting (s : State) (i : Instr) : (s.arrives i).accepting = s.accepting := rfl
@[simp] theorem State.arrives_levels (s : State) (i : Instr) : (s.arrives i).levels = s.levels := rfl
@[simp] theorem State.arrives_evictFor (s : State) (i : Instr) : (s.arrives i).evictFor = s.evictFor := rfl
@[simp] theorem State.arrives_evictAt (s : State) (i : Instr) : (s.arrives i).evictAt = s.evictAt := rfl
@[simp] theorem State.arrives_records (s : State) (i : Instr) : (s.arrives i).records = s.records := rfl
@[simp] theorem State.arrives_flits (s : State) (i : Instr) : (s.arrives i).flits = s.flits := rfl
@[simp] theorem State.arrives_windows (s : State) (i : Instr) : (s.arrives i).windows = s.windows := rfl
@[simp] theorem State.arrives_tlb (s : State) (i : Instr) : (s.arrives i).tlb = s.tlb := rfl
@[simp] theorem State.arrives_walks (s : State) (i : Instr) : (s.arrives i).walks = s.walks := rfl
@[simp] theorem State.arrives_misses (s : State) (i : Instr) : (s.arrives i).misses = s.misses := rfl
@[simp] theorem State.arrives_apertures (s : State) (i : Instr) : (s.arrives i).apertures = s.apertures := rfl
@[simp] theorem State.arrives_ranges (s : State) (i : Instr) : (s.arrives i).ranges = s.ranges := rfl
@[simp] theorem State.arrives_ck (s : State) (i : Instr) : (s.arrives i).ck = s.ck := rfl
@[simp] theorem State.arrives_fab (s : State) (i : Instr) : (s.arrives i).fab = s.fab := rfl
@[simp] theorem State.arrives_plat (s : State) (i : Instr) : (s.arrives i).plat = s.plat := rfl
@[simp] theorem State.arrives_sel (s : State) (i : Instr) : (s.arrives i).sel = s.sel := rfl
@[simp] theorem State.arrives_snap (s : State) (i : Instr) : (s.arrives i).snap = s.snap := rfl
@[simp] theorem State.arrives_iss (s : State) (i : Instr) : (s.arrives i).iss = s.iss := rfl
@[simp] theorem State.arrives_next (s : State) (i : Instr) : (s.arrives i).next = s.next := rfl
@[simp] theorem State.arrives_ctr (s : State) (i : Instr) : (s.arrives i).ctr = s.ctr := rfl
@[simp] theorem State.arrives_urgent (s : State) (i : Instr) : (s.arrives i).urgent = s.urgent := rfl
@[simp] theorem State.arrives_inputs (s : State) (i : Instr) : (s.arrives i).inputs = s.inputs := rfl

/-! ### `fresh` -/

@[simp] theorem State.fresh_g (s : State) : (s.fresh).g = s.g := rfl
@[simp] theorem State.fresh_b (s : State) : (s.fresh).b = s.b := rfl
@[simp] theorem State.fresh_c (s : State) : (s.fresh).c = s.c := rfl
@[simp] theorem State.fresh_gangs (s : State) : (s.fresh).gangs = s.gangs := rfl
@[simp] theorem State.fresh_blocks (s : State) : (s.fresh).blocks = s.blocks := rfl
@[simp] theorem State.fresh_cores (s : State) : (s.fresh).cores = s.cores := rfl
@[simp] theorem State.fresh_mem (s : State) : (s.fresh).mem = s.mem := rfl
@[simp] theorem State.fresh_seals (s : State) : (s.fresh).seals = s.seals := rfl
@[simp] theorem State.fresh_empty (s : State) : (s.fresh).empty = s.empty := rfl
@[simp] theorem State.fresh_ue (s : State) : (s.fresh).ue = s.ue := rfl
@[simp] theorem State.fresh_posted (s : State) : (s.fresh).posted = s.posted := rfl
@[simp] theorem State.fresh_images (s : State) : (s.fresh).images = s.images := rfl
@[simp] theorem State.fresh_ns (s : State) : (s.fresh).ns = s.ns := rfl
@[simp] theorem State.fresh_ctxs (s : State) : (s.fresh).ctxs = s.ctxs := rfl
@[simp] theorem State.fresh_grants (s : State) : (s.fresh).grants = s.grants := rfl
@[simp] theorem State.fresh_tasks (s : State) : (s.fresh).tasks = s.tasks := rfl
@[simp] theorem State.fresh_nextTask (s : State) : (s.fresh).nextTask = s.nextTask := rfl
@[simp] theorem State.fresh_accepting (s : State) : (s.fresh).accepting = s.accepting := rfl
@[simp] theorem State.fresh_levels (s : State) : (s.fresh).levels = s.levels := rfl
@[simp] theorem State.fresh_evictFor (s : State) : (s.fresh).evictFor = s.evictFor := rfl
@[simp] theorem State.fresh_evictAt (s : State) : (s.fresh).evictAt = s.evictAt := rfl
@[simp] theorem State.fresh_records (s : State) : (s.fresh).records = s.records := rfl
@[simp] theorem State.fresh_flits (s : State) : (s.fresh).flits = s.flits := rfl
@[simp] theorem State.fresh_windows (s : State) : (s.fresh).windows = s.windows := rfl
@[simp] theorem State.fresh_tlb (s : State) : (s.fresh).tlb = s.tlb := rfl
@[simp] theorem State.fresh_walks (s : State) : (s.fresh).walks = s.walks := rfl
@[simp] theorem State.fresh_misses (s : State) : (s.fresh).misses = s.misses := rfl
@[simp] theorem State.fresh_apertures (s : State) : (s.fresh).apertures = s.apertures := rfl
@[simp] theorem State.fresh_ranges (s : State) : (s.fresh).ranges = s.ranges := rfl
@[simp] theorem State.fresh_ck (s : State) : (s.fresh).ck = s.ck := rfl
@[simp] theorem State.fresh_fab (s : State) : (s.fresh).fab = s.fab := rfl
@[simp] theorem State.fresh_plat (s : State) : (s.fresh).plat = s.plat := rfl
@[simp] theorem State.fresh_sel (s : State) : (s.fresh).sel = s.sel := rfl
@[simp] theorem State.fresh_snap (s : State) : (s.fresh).snap = s.snap := rfl
@[simp] theorem State.fresh_iss (s : State) : (s.fresh).iss = s.iss := rfl
@[simp] theorem State.fresh_ctr (s : State) : (s.fresh).ctr = s.ctr := rfl
@[simp] theorem State.fresh_urgent (s : State) : (s.fresh).urgent = s.urgent := rfl
@[simp] theorem State.fresh_agenda (s : State) : (s.fresh).agenda = s.agenda := rfl
@[simp] theorem State.fresh_inputs (s : State) : (s.fresh).inputs = s.inputs := rfl

/-! ### `pcount` -/

@[simp] theorem State.pcount_g (s : State) (node index port n : Nat) : (s.pcount node index port n).g = s.g := rfl
@[simp] theorem State.pcount_b (s : State) (node index port n : Nat) : (s.pcount node index port n).b = s.b := rfl
@[simp] theorem State.pcount_c (s : State) (node index port n : Nat) : (s.pcount node index port n).c = s.c := rfl
@[simp] theorem State.pcount_gangs (s : State) (node index port n : Nat) : (s.pcount node index port n).gangs = s.gangs := rfl
@[simp] theorem State.pcount_blocks (s : State) (node index port n : Nat) : (s.pcount node index port n).blocks = s.blocks := rfl
@[simp] theorem State.pcount_cores (s : State) (node index port n : Nat) : (s.pcount node index port n).cores = s.cores := rfl
@[simp] theorem State.pcount_mem (s : State) (node index port n : Nat) : (s.pcount node index port n).mem = s.mem := rfl
@[simp] theorem State.pcount_seals (s : State) (node index port n : Nat) : (s.pcount node index port n).seals = s.seals := rfl
@[simp] theorem State.pcount_empty (s : State) (node index port n : Nat) : (s.pcount node index port n).empty = s.empty := rfl
@[simp] theorem State.pcount_ue (s : State) (node index port n : Nat) : (s.pcount node index port n).ue = s.ue := rfl
@[simp] theorem State.pcount_posted (s : State) (node index port n : Nat) : (s.pcount node index port n).posted = s.posted := rfl
@[simp] theorem State.pcount_images (s : State) (node index port n : Nat) : (s.pcount node index port n).images = s.images := rfl
@[simp] theorem State.pcount_ns (s : State) (node index port n : Nat) : (s.pcount node index port n).ns = s.ns := rfl
@[simp] theorem State.pcount_ctxs (s : State) (node index port n : Nat) : (s.pcount node index port n).ctxs = s.ctxs := rfl
@[simp] theorem State.pcount_grants (s : State) (node index port n : Nat) : (s.pcount node index port n).grants = s.grants := rfl
@[simp] theorem State.pcount_tasks (s : State) (node index port n : Nat) : (s.pcount node index port n).tasks = s.tasks := rfl
@[simp] theorem State.pcount_nextTask (s : State) (node index port n : Nat) : (s.pcount node index port n).nextTask = s.nextTask := rfl
@[simp] theorem State.pcount_accepting (s : State) (node index port n : Nat) : (s.pcount node index port n).accepting = s.accepting := rfl
@[simp] theorem State.pcount_levels (s : State) (node index port n : Nat) : (s.pcount node index port n).levels = s.levels := rfl
@[simp] theorem State.pcount_evictFor (s : State) (node index port n : Nat) : (s.pcount node index port n).evictFor = s.evictFor := rfl
@[simp] theorem State.pcount_evictAt (s : State) (node index port n : Nat) : (s.pcount node index port n).evictAt = s.evictAt := rfl
@[simp] theorem State.pcount_records (s : State) (node index port n : Nat) : (s.pcount node index port n).records = s.records := rfl
@[simp] theorem State.pcount_flits (s : State) (node index port n : Nat) : (s.pcount node index port n).flits = s.flits := rfl
@[simp] theorem State.pcount_windows (s : State) (node index port n : Nat) : (s.pcount node index port n).windows = s.windows := rfl
@[simp] theorem State.pcount_tlb (s : State) (node index port n : Nat) : (s.pcount node index port n).tlb = s.tlb := rfl
@[simp] theorem State.pcount_walks (s : State) (node index port n : Nat) : (s.pcount node index port n).walks = s.walks := rfl
@[simp] theorem State.pcount_misses (s : State) (node index port n : Nat) : (s.pcount node index port n).misses = s.misses := rfl
@[simp] theorem State.pcount_apertures (s : State) (node index port n : Nat) : (s.pcount node index port n).apertures = s.apertures := rfl
@[simp] theorem State.pcount_ranges (s : State) (node index port n : Nat) : (s.pcount node index port n).ranges = s.ranges := rfl
@[simp] theorem State.pcount_ck (s : State) (node index port n : Nat) : (s.pcount node index port n).ck = s.ck := rfl
@[simp] theorem State.pcount_plat (s : State) (node index port n : Nat) : (s.pcount node index port n).plat = s.plat := rfl
@[simp] theorem State.pcount_sel (s : State) (node index port n : Nat) : (s.pcount node index port n).sel = s.sel := rfl
@[simp] theorem State.pcount_snap (s : State) (node index port n : Nat) : (s.pcount node index port n).snap = s.snap := rfl
@[simp] theorem State.pcount_iss (s : State) (node index port n : Nat) : (s.pcount node index port n).iss = s.iss := rfl
@[simp] theorem State.pcount_next (s : State) (node index port n : Nat) : (s.pcount node index port n).next = s.next := rfl
@[simp] theorem State.pcount_ctr (s : State) (node index port n : Nat) : (s.pcount node index port n).ctr = s.ctr := rfl
@[simp] theorem State.pcount_urgent (s : State) (node index port n : Nat) : (s.pcount node index port n).urgent = s.urgent := rfl
@[simp] theorem State.pcount_agenda (s : State) (node index port n : Nat) : (s.pcount node index port n).agenda = s.agenda := rfl
@[simp] theorem State.pcount_inputs (s : State) (node index port n : Nat) : (s.pcount node index port n).inputs = s.inputs := rfl

/-! ### `putLine` -/

@[simp] theorem State.putLine_g (s : State) (n : Nat) (l : Line) : (s.putLine n l).g = s.g := rfl
@[simp] theorem State.putLine_b (s : State) (n : Nat) (l : Line) : (s.putLine n l).b = s.b := rfl
@[simp] theorem State.putLine_c (s : State) (n : Nat) (l : Line) : (s.putLine n l).c = s.c := rfl
@[simp] theorem State.putLine_gangs (s : State) (n : Nat) (l : Line) : (s.putLine n l).gangs = s.gangs := rfl
@[simp] theorem State.putLine_blocks (s : State) (n : Nat) (l : Line) : (s.putLine n l).blocks = s.blocks := rfl
@[simp] theorem State.putLine_cores (s : State) (n : Nat) (l : Line) : (s.putLine n l).cores = s.cores := rfl
@[simp] theorem State.putLine_mem (s : State) (n : Nat) (l : Line) : (s.putLine n l).mem = s.mem := rfl
@[simp] theorem State.putLine_seals (s : State) (n : Nat) (l : Line) : (s.putLine n l).seals = s.seals := rfl
@[simp] theorem State.putLine_empty (s : State) (n : Nat) (l : Line) : (s.putLine n l).empty = s.empty := rfl
@[simp] theorem State.putLine_ue (s : State) (n : Nat) (l : Line) : (s.putLine n l).ue = s.ue := rfl
@[simp] theorem State.putLine_posted (s : State) (n : Nat) (l : Line) : (s.putLine n l).posted = s.posted := rfl
@[simp] theorem State.putLine_images (s : State) (n : Nat) (l : Line) : (s.putLine n l).images = s.images := rfl
@[simp] theorem State.putLine_ns (s : State) (n : Nat) (l : Line) : (s.putLine n l).ns = s.ns := rfl
@[simp] theorem State.putLine_ctxs (s : State) (n : Nat) (l : Line) : (s.putLine n l).ctxs = s.ctxs := rfl
@[simp] theorem State.putLine_grants (s : State) (n : Nat) (l : Line) : (s.putLine n l).grants = s.grants := rfl
@[simp] theorem State.putLine_tasks (s : State) (n : Nat) (l : Line) : (s.putLine n l).tasks = s.tasks := rfl
@[simp] theorem State.putLine_nextTask (s : State) (n : Nat) (l : Line) : (s.putLine n l).nextTask = s.nextTask := rfl
@[simp] theorem State.putLine_accepting (s : State) (n : Nat) (l : Line) : (s.putLine n l).accepting = s.accepting := rfl
@[simp] theorem State.putLine_levels (s : State) (n : Nat) (l : Line) : (s.putLine n l).levels = s.levels := rfl
@[simp] theorem State.putLine_evictFor (s : State) (n : Nat) (l : Line) : (s.putLine n l).evictFor = s.evictFor := rfl
@[simp] theorem State.putLine_evictAt (s : State) (n : Nat) (l : Line) : (s.putLine n l).evictAt = s.evictAt := rfl
@[simp] theorem State.putLine_records (s : State) (n : Nat) (l : Line) : (s.putLine n l).records = s.records := rfl
@[simp] theorem State.putLine_flits (s : State) (n : Nat) (l : Line) : (s.putLine n l).flits = s.flits := rfl
@[simp] theorem State.putLine_windows (s : State) (n : Nat) (l : Line) : (s.putLine n l).windows = s.windows := rfl
@[simp] theorem State.putLine_tlb (s : State) (n : Nat) (l : Line) : (s.putLine n l).tlb = s.tlb := rfl
@[simp] theorem State.putLine_walks (s : State) (n : Nat) (l : Line) : (s.putLine n l).walks = s.walks := rfl
@[simp] theorem State.putLine_misses (s : State) (n : Nat) (l : Line) : (s.putLine n l).misses = s.misses := rfl
@[simp] theorem State.putLine_apertures (s : State) (n : Nat) (l : Line) : (s.putLine n l).apertures = s.apertures := rfl
@[simp] theorem State.putLine_ranges (s : State) (n : Nat) (l : Line) : (s.putLine n l).ranges = s.ranges := rfl
@[simp] theorem State.putLine_ck (s : State) (n : Nat) (l : Line) : (s.putLine n l).ck = s.ck := rfl
@[simp] theorem State.putLine_plat (s : State) (n : Nat) (l : Line) : (s.putLine n l).plat = s.plat := rfl
@[simp] theorem State.putLine_sel (s : State) (n : Nat) (l : Line) : (s.putLine n l).sel = s.sel := rfl
@[simp] theorem State.putLine_snap (s : State) (n : Nat) (l : Line) : (s.putLine n l).snap = s.snap := rfl
@[simp] theorem State.putLine_iss (s : State) (n : Nat) (l : Line) : (s.putLine n l).iss = s.iss := rfl
@[simp] theorem State.putLine_next (s : State) (n : Nat) (l : Line) : (s.putLine n l).next = s.next := rfl
@[simp] theorem State.putLine_ctr (s : State) (n : Nat) (l : Line) : (s.putLine n l).ctr = s.ctr := rfl
@[simp] theorem State.putLine_urgent (s : State) (n : Nat) (l : Line) : (s.putLine n l).urgent = s.urgent := rfl
@[simp] theorem State.putLine_agenda (s : State) (n : Nat) (l : Line) : (s.putLine n l).agenda = s.agenda := rfl
@[simp] theorem State.putLine_inputs (s : State) (n : Nat) (l : Line) : (s.putLine n l).inputs = s.inputs := rfl

/-! ### `modCar` -/

@[simp] theorem State.modCar_g (s : State) (f : Carriage → Carriage) : (s.modCar f).g = s.g := rfl
@[simp] theorem State.modCar_b (s : State) (f : Carriage → Carriage) : (s.modCar f).b = s.b := rfl
@[simp] theorem State.modCar_c (s : State) (f : Carriage → Carriage) : (s.modCar f).c = s.c := rfl
@[simp] theorem State.modCar_gangs (s : State) (f : Carriage → Carriage) : (s.modCar f).gangs = s.gangs := rfl
@[simp] theorem State.modCar_blocks (s : State) (f : Carriage → Carriage) : (s.modCar f).blocks = s.blocks := rfl
@[simp] theorem State.modCar_cores (s : State) (f : Carriage → Carriage) : (s.modCar f).cores = s.cores := rfl
@[simp] theorem State.modCar_mem (s : State) (f : Carriage → Carriage) : (s.modCar f).mem = s.mem := rfl
@[simp] theorem State.modCar_seals (s : State) (f : Carriage → Carriage) : (s.modCar f).seals = s.seals := rfl
@[simp] theorem State.modCar_empty (s : State) (f : Carriage → Carriage) : (s.modCar f).empty = s.empty := rfl
@[simp] theorem State.modCar_ue (s : State) (f : Carriage → Carriage) : (s.modCar f).ue = s.ue := rfl
@[simp] theorem State.modCar_posted (s : State) (f : Carriage → Carriage) : (s.modCar f).posted = s.posted := rfl
@[simp] theorem State.modCar_images (s : State) (f : Carriage → Carriage) : (s.modCar f).images = s.images := rfl
@[simp] theorem State.modCar_ns (s : State) (f : Carriage → Carriage) : (s.modCar f).ns = s.ns := rfl
@[simp] theorem State.modCar_ctxs (s : State) (f : Carriage → Carriage) : (s.modCar f).ctxs = s.ctxs := rfl
@[simp] theorem State.modCar_grants (s : State) (f : Carriage → Carriage) : (s.modCar f).grants = s.grants := rfl
@[simp] theorem State.modCar_tasks (s : State) (f : Carriage → Carriage) : (s.modCar f).tasks = s.tasks := rfl
@[simp] theorem State.modCar_nextTask (s : State) (f : Carriage → Carriage) : (s.modCar f).nextTask = s.nextTask := rfl
@[simp] theorem State.modCar_accepting (s : State) (f : Carriage → Carriage) : (s.modCar f).accepting = s.accepting := rfl
@[simp] theorem State.modCar_levels (s : State) (f : Carriage → Carriage) : (s.modCar f).levels = s.levels := rfl
@[simp] theorem State.modCar_evictFor (s : State) (f : Carriage → Carriage) : (s.modCar f).evictFor = s.evictFor := rfl
@[simp] theorem State.modCar_evictAt (s : State) (f : Carriage → Carriage) : (s.modCar f).evictAt = s.evictAt := rfl
@[simp] theorem State.modCar_records (s : State) (f : Carriage → Carriage) : (s.modCar f).records = s.records := rfl
@[simp] theorem State.modCar_flits (s : State) (f : Carriage → Carriage) : (s.modCar f).flits = s.flits := rfl
@[simp] theorem State.modCar_windows (s : State) (f : Carriage → Carriage) : (s.modCar f).windows = s.windows := rfl
@[simp] theorem State.modCar_tlb (s : State) (f : Carriage → Carriage) : (s.modCar f).tlb = s.tlb := rfl
@[simp] theorem State.modCar_walks (s : State) (f : Carriage → Carriage) : (s.modCar f).walks = s.walks := rfl
@[simp] theorem State.modCar_misses (s : State) (f : Carriage → Carriage) : (s.modCar f).misses = s.misses := rfl
@[simp] theorem State.modCar_apertures (s : State) (f : Carriage → Carriage) : (s.modCar f).apertures = s.apertures := rfl
@[simp] theorem State.modCar_ranges (s : State) (f : Carriage → Carriage) : (s.modCar f).ranges = s.ranges := rfl
@[simp] theorem State.modCar_ck (s : State) (f : Carriage → Carriage) : (s.modCar f).ck = s.ck := rfl
@[simp] theorem State.modCar_plat (s : State) (f : Carriage → Carriage) : (s.modCar f).plat = s.plat := rfl
@[simp] theorem State.modCar_sel (s : State) (f : Carriage → Carriage) : (s.modCar f).sel = s.sel := rfl
@[simp] theorem State.modCar_snap (s : State) (f : Carriage → Carriage) : (s.modCar f).snap = s.snap := rfl
@[simp] theorem State.modCar_iss (s : State) (f : Carriage → Carriage) : (s.modCar f).iss = s.iss := rfl
@[simp] theorem State.modCar_next (s : State) (f : Carriage → Carriage) : (s.modCar f).next = s.next := rfl
@[simp] theorem State.modCar_ctr (s : State) (f : Carriage → Carriage) : (s.modCar f).ctr = s.ctr := rfl
@[simp] theorem State.modCar_urgent (s : State) (f : Carriage → Carriage) : (s.modCar f).urgent = s.urgent := rfl
@[simp] theorem State.modCar_agenda (s : State) (f : Carriage → Carriage) : (s.modCar f).agenda = s.agenda := rfl
@[simp] theorem State.modCar_inputs (s : State) (f : Carriage → Carriage) : (s.modCar f).inputs = s.inputs := rfl

/-! ### `modPlat` -/

@[simp] theorem State.modPlat_g (s : State) (f : Platform → Platform) : (s.modPlat f).g = s.g := rfl
@[simp] theorem State.modPlat_b (s : State) (f : Platform → Platform) : (s.modPlat f).b = s.b := rfl
@[simp] theorem State.modPlat_c (s : State) (f : Platform → Platform) : (s.modPlat f).c = s.c := rfl
@[simp] theorem State.modPlat_gangs (s : State) (f : Platform → Platform) : (s.modPlat f).gangs = s.gangs := rfl
@[simp] theorem State.modPlat_blocks (s : State) (f : Platform → Platform) : (s.modPlat f).blocks = s.blocks := rfl
@[simp] theorem State.modPlat_cores (s : State) (f : Platform → Platform) : (s.modPlat f).cores = s.cores := rfl
@[simp] theorem State.modPlat_mem (s : State) (f : Platform → Platform) : (s.modPlat f).mem = s.mem := rfl
@[simp] theorem State.modPlat_seals (s : State) (f : Platform → Platform) : (s.modPlat f).seals = s.seals := rfl
@[simp] theorem State.modPlat_empty (s : State) (f : Platform → Platform) : (s.modPlat f).empty = s.empty := rfl
@[simp] theorem State.modPlat_ue (s : State) (f : Platform → Platform) : (s.modPlat f).ue = s.ue := rfl
@[simp] theorem State.modPlat_posted (s : State) (f : Platform → Platform) : (s.modPlat f).posted = s.posted := rfl
@[simp] theorem State.modPlat_images (s : State) (f : Platform → Platform) : (s.modPlat f).images = s.images := rfl
@[simp] theorem State.modPlat_ns (s : State) (f : Platform → Platform) : (s.modPlat f).ns = s.ns := rfl
@[simp] theorem State.modPlat_ctxs (s : State) (f : Platform → Platform) : (s.modPlat f).ctxs = s.ctxs := rfl
@[simp] theorem State.modPlat_grants (s : State) (f : Platform → Platform) : (s.modPlat f).grants = s.grants := rfl
@[simp] theorem State.modPlat_tasks (s : State) (f : Platform → Platform) : (s.modPlat f).tasks = s.tasks := rfl
@[simp] theorem State.modPlat_nextTask (s : State) (f : Platform → Platform) : (s.modPlat f).nextTask = s.nextTask := rfl
@[simp] theorem State.modPlat_accepting (s : State) (f : Platform → Platform) : (s.modPlat f).accepting = s.accepting := rfl
@[simp] theorem State.modPlat_levels (s : State) (f : Platform → Platform) : (s.modPlat f).levels = s.levels := rfl
@[simp] theorem State.modPlat_evictFor (s : State) (f : Platform → Platform) : (s.modPlat f).evictFor = s.evictFor := rfl
@[simp] theorem State.modPlat_evictAt (s : State) (f : Platform → Platform) : (s.modPlat f).evictAt = s.evictAt := rfl
@[simp] theorem State.modPlat_records (s : State) (f : Platform → Platform) : (s.modPlat f).records = s.records := rfl
@[simp] theorem State.modPlat_flits (s : State) (f : Platform → Platform) : (s.modPlat f).flits = s.flits := rfl
@[simp] theorem State.modPlat_windows (s : State) (f : Platform → Platform) : (s.modPlat f).windows = s.windows := rfl
@[simp] theorem State.modPlat_tlb (s : State) (f : Platform → Platform) : (s.modPlat f).tlb = s.tlb := rfl
@[simp] theorem State.modPlat_walks (s : State) (f : Platform → Platform) : (s.modPlat f).walks = s.walks := rfl
@[simp] theorem State.modPlat_misses (s : State) (f : Platform → Platform) : (s.modPlat f).misses = s.misses := rfl
@[simp] theorem State.modPlat_apertures (s : State) (f : Platform → Platform) : (s.modPlat f).apertures = s.apertures := rfl
@[simp] theorem State.modPlat_ranges (s : State) (f : Platform → Platform) : (s.modPlat f).ranges = s.ranges := rfl
@[simp] theorem State.modPlat_ck (s : State) (f : Platform → Platform) : (s.modPlat f).ck = s.ck := rfl
@[simp] theorem State.modPlat_fab (s : State) (f : Platform → Platform) : (s.modPlat f).fab = s.fab := rfl
@[simp] theorem State.modPlat_sel (s : State) (f : Platform → Platform) : (s.modPlat f).sel = s.sel := rfl
@[simp] theorem State.modPlat_snap (s : State) (f : Platform → Platform) : (s.modPlat f).snap = s.snap := rfl
@[simp] theorem State.modPlat_iss (s : State) (f : Platform → Platform) : (s.modPlat f).iss = s.iss := rfl
@[simp] theorem State.modPlat_next (s : State) (f : Platform → Platform) : (s.modPlat f).next = s.next := rfl
@[simp] theorem State.modPlat_ctr (s : State) (f : Platform → Platform) : (s.modPlat f).ctr = s.ctr := rfl
@[simp] theorem State.modPlat_urgent (s : State) (f : Platform → Platform) : (s.modPlat f).urgent = s.urgent := rfl
@[simp] theorem State.modPlat_agenda (s : State) (f : Platform → Platform) : (s.modPlat f).agenda = s.agenda := rfl
@[simp] theorem State.modPlat_inputs (s : State) (f : Platform → Platform) : (s.modPlat f).inputs = s.inputs := rfl

/-! ### `answer` -/

@[simp] theorem State.answer_g (s : State) (st : Nat) (data : List Byte) : (s.answer st data).g = s.g := rfl
@[simp] theorem State.answer_b (s : State) (st : Nat) (data : List Byte) : (s.answer st data).b = s.b := rfl
@[simp] theorem State.answer_c (s : State) (st : Nat) (data : List Byte) : (s.answer st data).c = s.c := rfl
@[simp] theorem State.answer_gangs (s : State) (st : Nat) (data : List Byte) : (s.answer st data).gangs = s.gangs := rfl
@[simp] theorem State.answer_blocks (s : State) (st : Nat) (data : List Byte) : (s.answer st data).blocks = s.blocks := rfl
@[simp] theorem State.answer_cores (s : State) (st : Nat) (data : List Byte) : (s.answer st data).cores = s.cores := rfl
@[simp] theorem State.answer_mem (s : State) (st : Nat) (data : List Byte) : (s.answer st data).mem = s.mem := rfl
@[simp] theorem State.answer_seals (s : State) (st : Nat) (data : List Byte) : (s.answer st data).seals = s.seals := rfl
@[simp] theorem State.answer_empty (s : State) (st : Nat) (data : List Byte) : (s.answer st data).empty = s.empty := rfl
@[simp] theorem State.answer_ue (s : State) (st : Nat) (data : List Byte) : (s.answer st data).ue = s.ue := rfl
@[simp] theorem State.answer_posted (s : State) (st : Nat) (data : List Byte) : (s.answer st data).posted = s.posted := rfl
@[simp] theorem State.answer_images (s : State) (st : Nat) (data : List Byte) : (s.answer st data).images = s.images := rfl
@[simp] theorem State.answer_ns (s : State) (st : Nat) (data : List Byte) : (s.answer st data).ns = s.ns := rfl
@[simp] theorem State.answer_ctxs (s : State) (st : Nat) (data : List Byte) : (s.answer st data).ctxs = s.ctxs := rfl
@[simp] theorem State.answer_grants (s : State) (st : Nat) (data : List Byte) : (s.answer st data).grants = s.grants := rfl
@[simp] theorem State.answer_tasks (s : State) (st : Nat) (data : List Byte) : (s.answer st data).tasks = s.tasks := rfl
@[simp] theorem State.answer_nextTask (s : State) (st : Nat) (data : List Byte) : (s.answer st data).nextTask = s.nextTask := rfl
@[simp] theorem State.answer_accepting (s : State) (st : Nat) (data : List Byte) : (s.answer st data).accepting = s.accepting := rfl
@[simp] theorem State.answer_levels (s : State) (st : Nat) (data : List Byte) : (s.answer st data).levels = s.levels := rfl
@[simp] theorem State.answer_evictFor (s : State) (st : Nat) (data : List Byte) : (s.answer st data).evictFor = s.evictFor := rfl
@[simp] theorem State.answer_evictAt (s : State) (st : Nat) (data : List Byte) : (s.answer st data).evictAt = s.evictAt := rfl
@[simp] theorem State.answer_records (s : State) (st : Nat) (data : List Byte) : (s.answer st data).records = s.records := rfl
@[simp] theorem State.answer_flits (s : State) (st : Nat) (data : List Byte) : (s.answer st data).flits = s.flits := rfl
@[simp] theorem State.answer_windows (s : State) (st : Nat) (data : List Byte) : (s.answer st data).windows = s.windows := rfl
@[simp] theorem State.answer_tlb (s : State) (st : Nat) (data : List Byte) : (s.answer st data).tlb = s.tlb := rfl
@[simp] theorem State.answer_walks (s : State) (st : Nat) (data : List Byte) : (s.answer st data).walks = s.walks := rfl
@[simp] theorem State.answer_misses (s : State) (st : Nat) (data : List Byte) : (s.answer st data).misses = s.misses := rfl
@[simp] theorem State.answer_apertures (s : State) (st : Nat) (data : List Byte) : (s.answer st data).apertures = s.apertures := rfl
@[simp] theorem State.answer_ranges (s : State) (st : Nat) (data : List Byte) : (s.answer st data).ranges = s.ranges := rfl
@[simp] theorem State.answer_ck (s : State) (st : Nat) (data : List Byte) : (s.answer st data).ck = s.ck := rfl
@[simp] theorem State.answer_fab (s : State) (st : Nat) (data : List Byte) : (s.answer st data).fab = s.fab := rfl
@[simp] theorem State.answer_sel (s : State) (st : Nat) (data : List Byte) : (s.answer st data).sel = s.sel := rfl
@[simp] theorem State.answer_snap (s : State) (st : Nat) (data : List Byte) : (s.answer st data).snap = s.snap := rfl
@[simp] theorem State.answer_iss (s : State) (st : Nat) (data : List Byte) : (s.answer st data).iss = s.iss := rfl
@[simp] theorem State.answer_next (s : State) (st : Nat) (data : List Byte) : (s.answer st data).next = s.next := rfl
@[simp] theorem State.answer_ctr (s : State) (st : Nat) (data : List Byte) : (s.answer st data).ctr = s.ctr := rfl
@[simp] theorem State.answer_urgent (s : State) (st : Nat) (data : List Byte) : (s.answer st data).urgent = s.urgent := rfl
@[simp] theorem State.answer_agenda (s : State) (st : Nat) (data : List Byte) : (s.answer st data).agenda = s.agenda := rfl
@[simp] theorem State.answer_inputs (s : State) (st : Nat) (data : List Byte) : (s.answer st data).inputs = s.inputs := rfl

/-! ### `tick` -/

@[simp] theorem State.tick_g (s : State) : (s.tick).g = s.g := rfl
@[simp] theorem State.tick_b (s : State) : (s.tick).b = s.b := rfl
@[simp] theorem State.tick_c (s : State) : (s.tick).c = s.c := rfl
@[simp] theorem State.tick_gangs (s : State) : (s.tick).gangs = s.gangs := rfl
@[simp] theorem State.tick_blocks (s : State) : (s.tick).blocks = s.blocks := rfl
@[simp] theorem State.tick_cores (s : State) : (s.tick).cores = s.cores := rfl
@[simp] theorem State.tick_mem (s : State) : (s.tick).mem = s.mem := rfl
@[simp] theorem State.tick_seals (s : State) : (s.tick).seals = s.seals := rfl
@[simp] theorem State.tick_empty (s : State) : (s.tick).empty = s.empty := rfl
@[simp] theorem State.tick_ue (s : State) : (s.tick).ue = s.ue := rfl
@[simp] theorem State.tick_posted (s : State) : (s.tick).posted = s.posted := rfl
@[simp] theorem State.tick_images (s : State) : (s.tick).images = s.images := rfl
@[simp] theorem State.tick_ctxs (s : State) : (s.tick).ctxs = s.ctxs := rfl
@[simp] theorem State.tick_grants (s : State) : (s.tick).grants = s.grants := rfl
@[simp] theorem State.tick_tasks (s : State) : (s.tick).tasks = s.tasks := rfl
@[simp] theorem State.tick_nextTask (s : State) : (s.tick).nextTask = s.nextTask := rfl
@[simp] theorem State.tick_accepting (s : State) : (s.tick).accepting = s.accepting := rfl
@[simp] theorem State.tick_levels (s : State) : (s.tick).levels = s.levels := rfl
@[simp] theorem State.tick_evictFor (s : State) : (s.tick).evictFor = s.evictFor := rfl
@[simp] theorem State.tick_evictAt (s : State) : (s.tick).evictAt = s.evictAt := rfl
@[simp] theorem State.tick_records (s : State) : (s.tick).records = s.records := rfl
@[simp] theorem State.tick_flits (s : State) : (s.tick).flits = s.flits := rfl
@[simp] theorem State.tick_windows (s : State) : (s.tick).windows = s.windows := rfl
@[simp] theorem State.tick_tlb (s : State) : (s.tick).tlb = s.tlb := rfl
@[simp] theorem State.tick_walks (s : State) : (s.tick).walks = s.walks := rfl
@[simp] theorem State.tick_misses (s : State) : (s.tick).misses = s.misses := rfl
@[simp] theorem State.tick_apertures (s : State) : (s.tick).apertures = s.apertures := rfl
@[simp] theorem State.tick_ranges (s : State) : (s.tick).ranges = s.ranges := rfl
@[simp] theorem State.tick_ck (s : State) : (s.tick).ck = s.ck := rfl
@[simp] theorem State.tick_fab (s : State) : (s.tick).fab = s.fab := rfl
@[simp] theorem State.tick_plat (s : State) : (s.tick).plat = s.plat := rfl
@[simp] theorem State.tick_sel (s : State) : (s.tick).sel = s.sel := rfl
@[simp] theorem State.tick_snap (s : State) : (s.tick).snap = s.snap := rfl
@[simp] theorem State.tick_iss (s : State) : (s.tick).iss = s.iss := rfl
@[simp] theorem State.tick_next (s : State) : (s.tick).next = s.next := rfl
@[simp] theorem State.tick_urgent (s : State) : (s.tick).urgent = s.urgent := rfl
@[simp] theorem State.tick_agenda (s : State) : (s.tick).agenda = s.agenda := rfl
@[simp] theorem State.tick_inputs (s : State) : (s.tick).inputs = s.inputs := rfl

/-! ### `atWord` -/

@[simp] theorem State.atWord_g (s : State) (j : Nat) : (s.atWord j).g = s.g := rfl
@[simp] theorem State.atWord_b (s : State) (j : Nat) : (s.atWord j).b = s.b := rfl
@[simp] theorem State.atWord_c (s : State) (j : Nat) : (s.atWord j).c = s.c := rfl
@[simp] theorem State.atWord_gangs (s : State) (j : Nat) : (s.atWord j).gangs = s.gangs := rfl
@[simp] theorem State.atWord_blocks (s : State) (j : Nat) : (s.atWord j).blocks = s.blocks := rfl
@[simp] theorem State.atWord_cores (s : State) (j : Nat) : (s.atWord j).cores = s.cores := rfl
@[simp] theorem State.atWord_mem (s : State) (j : Nat) : (s.atWord j).mem = s.mem := rfl
@[simp] theorem State.atWord_seals (s : State) (j : Nat) : (s.atWord j).seals = s.seals := rfl
@[simp] theorem State.atWord_empty (s : State) (j : Nat) : (s.atWord j).empty = s.empty := rfl
@[simp] theorem State.atWord_ue (s : State) (j : Nat) : (s.atWord j).ue = s.ue := rfl
@[simp] theorem State.atWord_posted (s : State) (j : Nat) : (s.atWord j).posted = s.posted := rfl
@[simp] theorem State.atWord_images (s : State) (j : Nat) : (s.atWord j).images = s.images := rfl
@[simp] theorem State.atWord_ns (s : State) (j : Nat) : (s.atWord j).ns = s.ns := rfl
@[simp] theorem State.atWord_ctxs (s : State) (j : Nat) : (s.atWord j).ctxs = s.ctxs := rfl
@[simp] theorem State.atWord_grants (s : State) (j : Nat) : (s.atWord j).grants = s.grants := rfl
@[simp] theorem State.atWord_tasks (s : State) (j : Nat) : (s.atWord j).tasks = s.tasks := rfl
@[simp] theorem State.atWord_nextTask (s : State) (j : Nat) : (s.atWord j).nextTask = s.nextTask := rfl
@[simp] theorem State.atWord_accepting (s : State) (j : Nat) : (s.atWord j).accepting = s.accepting := rfl
@[simp] theorem State.atWord_levels (s : State) (j : Nat) : (s.atWord j).levels = s.levels := rfl
@[simp] theorem State.atWord_evictFor (s : State) (j : Nat) : (s.atWord j).evictFor = s.evictFor := rfl
@[simp] theorem State.atWord_evictAt (s : State) (j : Nat) : (s.atWord j).evictAt = s.evictAt := rfl
@[simp] theorem State.atWord_records (s : State) (j : Nat) : (s.atWord j).records = s.records := rfl
@[simp] theorem State.atWord_flits (s : State) (j : Nat) : (s.atWord j).flits = s.flits := rfl
@[simp] theorem State.atWord_windows (s : State) (j : Nat) : (s.atWord j).windows = s.windows := rfl
@[simp] theorem State.atWord_tlb (s : State) (j : Nat) : (s.atWord j).tlb = s.tlb := rfl
@[simp] theorem State.atWord_walks (s : State) (j : Nat) : (s.atWord j).walks = s.walks := rfl
@[simp] theorem State.atWord_misses (s : State) (j : Nat) : (s.atWord j).misses = s.misses := rfl
@[simp] theorem State.atWord_apertures (s : State) (j : Nat) : (s.atWord j).apertures = s.apertures := rfl
@[simp] theorem State.atWord_ranges (s : State) (j : Nat) : (s.atWord j).ranges = s.ranges := rfl
@[simp] theorem State.atWord_ck (s : State) (j : Nat) : (s.atWord j).ck = s.ck := rfl
@[simp] theorem State.atWord_fab (s : State) (j : Nat) : (s.atWord j).fab = s.fab := rfl
@[simp] theorem State.atWord_plat (s : State) (j : Nat) : (s.atWord j).plat = s.plat := rfl
@[simp] theorem State.atWord_sel (s : State) (j : Nat) : (s.atWord j).sel = s.sel := rfl
@[simp] theorem State.atWord_snap (s : State) (j : Nat) : (s.atWord j).snap = s.snap := rfl
@[simp] theorem State.atWord_next (s : State) (j : Nat) : (s.atWord j).next = s.next := rfl
@[simp] theorem State.atWord_ctr (s : State) (j : Nat) : (s.atWord j).ctr = s.ctr := rfl
@[simp] theorem State.atWord_urgent (s : State) (j : Nat) : (s.atWord j).urgent = s.urgent := rfl
@[simp] theorem State.atWord_agenda (s : State) (j : Nat) : (s.atWord j).agenda = s.agenda := rfl
@[simp] theorem State.atWord_inputs (s : State) (j : Nat) : (s.atWord j).inputs = s.inputs := rfl

/-! ### `idleIssue` -/

@[simp] theorem State.idleIssue_g (s : State) : (s.idleIssue).g = s.g := rfl
@[simp] theorem State.idleIssue_b (s : State) : (s.idleIssue).b = s.b := rfl
@[simp] theorem State.idleIssue_c (s : State) : (s.idleIssue).c = s.c := rfl
@[simp] theorem State.idleIssue_gangs (s : State) : (s.idleIssue).gangs = s.gangs := rfl
@[simp] theorem State.idleIssue_blocks (s : State) : (s.idleIssue).blocks = s.blocks := rfl
@[simp] theorem State.idleIssue_cores (s : State) : (s.idleIssue).cores = s.cores := rfl
@[simp] theorem State.idleIssue_mem (s : State) : (s.idleIssue).mem = s.mem := rfl
@[simp] theorem State.idleIssue_seals (s : State) : (s.idleIssue).seals = s.seals := rfl
@[simp] theorem State.idleIssue_empty (s : State) : (s.idleIssue).empty = s.empty := rfl
@[simp] theorem State.idleIssue_ue (s : State) : (s.idleIssue).ue = s.ue := rfl
@[simp] theorem State.idleIssue_posted (s : State) : (s.idleIssue).posted = s.posted := rfl
@[simp] theorem State.idleIssue_images (s : State) : (s.idleIssue).images = s.images := rfl
@[simp] theorem State.idleIssue_ns (s : State) : (s.idleIssue).ns = s.ns := rfl
@[simp] theorem State.idleIssue_ctxs (s : State) : (s.idleIssue).ctxs = s.ctxs := rfl
@[simp] theorem State.idleIssue_grants (s : State) : (s.idleIssue).grants = s.grants := rfl
@[simp] theorem State.idleIssue_tasks (s : State) : (s.idleIssue).tasks = s.tasks := rfl
@[simp] theorem State.idleIssue_nextTask (s : State) : (s.idleIssue).nextTask = s.nextTask := rfl
@[simp] theorem State.idleIssue_accepting (s : State) : (s.idleIssue).accepting = s.accepting := rfl
@[simp] theorem State.idleIssue_levels (s : State) : (s.idleIssue).levels = s.levels := rfl
@[simp] theorem State.idleIssue_evictFor (s : State) : (s.idleIssue).evictFor = s.evictFor := rfl
@[simp] theorem State.idleIssue_evictAt (s : State) : (s.idleIssue).evictAt = s.evictAt := rfl
@[simp] theorem State.idleIssue_records (s : State) : (s.idleIssue).records = s.records := rfl
@[simp] theorem State.idleIssue_flits (s : State) : (s.idleIssue).flits = s.flits := rfl
@[simp] theorem State.idleIssue_windows (s : State) : (s.idleIssue).windows = s.windows := rfl
@[simp] theorem State.idleIssue_tlb (s : State) : (s.idleIssue).tlb = s.tlb := rfl
@[simp] theorem State.idleIssue_walks (s : State) : (s.idleIssue).walks = s.walks := rfl
@[simp] theorem State.idleIssue_misses (s : State) : (s.idleIssue).misses = s.misses := rfl
@[simp] theorem State.idleIssue_apertures (s : State) : (s.idleIssue).apertures = s.apertures := rfl
@[simp] theorem State.idleIssue_ranges (s : State) : (s.idleIssue).ranges = s.ranges := rfl
@[simp] theorem State.idleIssue_ck (s : State) : (s.idleIssue).ck = s.ck := rfl
@[simp] theorem State.idleIssue_fab (s : State) : (s.idleIssue).fab = s.fab := rfl
@[simp] theorem State.idleIssue_plat (s : State) : (s.idleIssue).plat = s.plat := rfl
@[simp] theorem State.idleIssue_next (s : State) : (s.idleIssue).next = s.next := rfl
@[simp] theorem State.idleIssue_ctr (s : State) : (s.idleIssue).ctr = s.ctr := rfl
@[simp] theorem State.idleIssue_urgent (s : State) : (s.idleIssue).urgent = s.urgent := rfl
@[simp] theorem State.idleIssue_agenda (s : State) : (s.idleIssue).agenda = s.agenda := rfl
@[simp] theorem State.idleIssue_inputs (s : State) : (s.idleIssue).inputs = s.inputs := rfl

/-! ### Later steps -/

/-- A step added to those that may take place: nothing else changes. -/
theorem State.later_spec (s : State) (i : Instr) :
    s.later i = { s with agenda := (s.later i).agenda } ∧ Awaits s (s.later i) [i] := by
  unfold State.later
  split
  · rename_i h
    refine ⟨rfl, ?_, fun _ h => h⟩
    intro j hj
    rw [List.mem_singleton] at hj
    subst hj
    exact List.contains_iff_mem.mp h
  · refine ⟨rfl, ?_, fun j hj => List.mem_append_left _ hj⟩
    intro j hj
    exact List.mem_append_right _ hj

/-- A step made urgent: nothing else changes, and no urgent step is lost. -/
theorem State.soon_spec (s : State) (i : Instr) :
    s.soon i = { s with urgent := (s.soon i).urgent } ∧ i ∈ (s.soon i).urgent ∧ ∀ j ∈ s.urgent, j ∈ (s.soon i).urgent := by
  unfold State.soon
  split
  · rename_i h
    exact ⟨rfl, List.contains_iff_mem.mp h, fun _ h => h⟩
  · exact ⟨rfl, by simp, fun j hj => List.mem_append_left _ hj⟩

/-- The links of one state hold every flit of the links of another, for the same deliveries. -/
def KeepsFlits (l l' : List Link) : Prop :=
  ∀ x ∈ l, ∀ y ∈ x.buf0 ++ x.buf1, ∃ x' ∈ l', ∃ y' ∈ x'.buf0 ++ x'.buf1, y'.deliver = y.deliver

theorem KeepsFlits.refl (l : List Link) : KeepsFlits l l := fun x hx y hy => ⟨x, hx, y, hy, rfl⟩

/-- A link changed to one that still holds its flits. -/
theorem KeepsFlits.modAt (f : Link → Link) (hf : ∀ x, ∀ y ∈ x.buf0 ++ x.buf1, ∃ y' ∈ (f x).buf0 ++ (f x).buf1, y'.deliver = y.deliver)
    (l : List Link) (i : Nat) : KeepsFlits l (Sys2Proof.modAt f l i) := by
  induction l generalizing i with
  | nil => intro x hx; cases hx
  | cons a t ih =>
    cases i with
    | zero =>
      intro x hx y hy
      rcases List.mem_cons.mp hx with rfl | hx
      · obtain ⟨y', h1, h2⟩ := hf _ y hy
        exact ⟨f _, by simp [Sys2Proof.modAt], y', h1, h2⟩
      · exact ⟨x, by simp [Sys2Proof.modAt, hx], y, hy, rfl⟩
    | succ k =>
      intro x hx y hy
      rcases List.mem_cons.mp hx with rfl | hx
      · exact ⟨x, by simp [Sys2Proof.modAt], y, hy, rfl⟩
      · obtain ⟨x', h1, h2⟩ := ih k x hx y hy
        exact ⟨x', by simp [Sys2Proof.modAt, h1], h2⟩

/-- A message on its way stays so while flits are only added to links and steps to the agenda. -/
theorem OnWay.mono {s t : State} {i : Instr} (h : OnWay s i) (ha : ∀ j ∈ s.agenda, j ∈ t.agenda)
    (hl : KeepsFlits s.fab.links t.fab.links) (hh : ∀ x ∈ s.fab.held, x ∈ t.fab.held) : OnWay t i := by
  rcases h with h | ⟨l, h1, x, h2, h3⟩ | ⟨x, h1, h2⟩
  · exact .inl (ha i h)
  · obtain ⟨l', k1, x', k2, k3⟩ := hl l h1 x h2
    exact .inr (.inl ⟨l', k1, x', k2, k3.trans h3⟩)
  · exact .inr (.inr ⟨x, hh x h1, h2⟩)

end Sys2Proof.Machine
end

