-- ==== Sys2Proof/Laws/Fabric.lean ====
section
/-! SUPPORT. Laws/Fabric.lean: everything a flit sent on by a node can do: it is on its way, nothing that was on its way is
lost, and only links and the agenda change. -/

namespace Sys2Proof.Machine

open Sys2Proof

theorem modAt_getElem? {α : Type} (f : α → α) (l : List α) (i j : Nat) :
    (modAt f l i)[j]? = if j = i then (l[j]?).map f else l[j]? := by
  induction l generalizing i j with
  | nil => simp [modAt]
  | cons a t ih =>
    cases i with
    | zero => cases j <;> simp [modAt]
    | succ i => cases j <;> simp [modAt, ih]

/-- What stands at a port is a link of the list, seen from one of its two sides. -/
theorem Fabric.linkAt_some {f : Fabric} {node port i side : Nat} (h : f.linkAt node port = some (i, side)) :
    ∃ l, f.links[i]? = some l ∧ side < 2 := by
  unfold Fabric.linkAt at h
  obtain ⟨x, hx, hv⟩ := List.exists_of_findSome?_eq_some h
  obtain ⟨l, k⟩ := x
  have hk : f.links[k]? = some l := by
    have := List.mem_zipIdx_iff_getElem?.mp hx
    simpa using this
  split at hv
  · cases hv; exact ⟨l, hk, by decide⟩
  · split at hv
    · cases hv; exact ⟨l, hk, by decide⟩
    · cases hv

theorem Link.buf_setBuf (l : Link) (side : Nat) (b : List LinkFlit) : (l.setBuf side b).buf side = b := by
  unfold Link.setBuf Link.buf
  split <;> rfl

theorem Link.mem_bufs (l : Link) (side : Nat) (x : LinkFlit) (h : x ∈ l.buf side) : x ∈ l.buf0 ++ l.buf1 := by
  unfold Link.buf at h
  split at h
  · exact List.mem_append_left _ h
  · exact List.mem_append_right _ h

/-- The link i of the state t is that of s with a flit more in the buffer of a side. -/
theorem State.enqueue_spec (s : State) (i side dstn : Nat) (raw : List Byte) (d : Instr) (l : Link) (h : s.fab.links[i]? = some l) :
    let t := s.enqueue i side dstn raw d
    t = { s with fab := { s.fab with links := t.fab.links }, agenda := t.agenda }
      ∧ (∀ j ∈ s.agenda, j ∈ t.agenda) ∧ KeepsFlits s.fab.links t.fab.links
      ∧ ∃ l', t.fab.links[i]? = some l' ∧ ∃ y ∈ l'.buf side, y.deliver = d ∧ y.dstn = dstn ∧ y.seqno = l.nextSeq side := by
  intro t
  let x : LinkFlit := { seqno := l.nextSeq side, dstn := dstn, raw := l.stamp raw, deliver := d }
  let put (l : Link) : Link :=
    let l := l.setBuf side (l.buf side ++ [x])
    if side = 0 then { l with next0 := l.next0 + 1 } else { l with next1 := l.next1 + 1 }
  have hput : ∀ m : Link, (put m).buf side = m.buf side ++ [x]
      ∧ (∀ y ∈ m.buf0 ++ m.buf1, ∃ y' ∈ (put m).buf0 ++ (put m).buf1, y'.deliver = y.deliver) := by
    intro m
    by_cases hs : side = 0
    · subst hs
      refine ⟨by simp [put, Link.setBuf, Link.buf], fun y hy => ⟨y, ?_, rfl⟩⟩
      simp only [put, Link.setBuf, Link.buf]
      rcases List.mem_append.mp hy with h | h <;> simp [h]
    · refine ⟨by simp [put, Link.setBuf, Link.buf, hs], fun y hy => ⟨y, ?_, rfl⟩⟩
      simp only [put, Link.setBuf, Link.buf, if_neg hs]
      rcases List.mem_append.mp hy with h | h <;> simp [h]
  have hlinks : KeepsFlits s.fab.links (modAt put s.fab.links i) := KeepsFlits.modAt put (fun m => (hput m).2) _ _
  have hget : (modAt put s.fab.links i)[i]? = some (put l) := by rw [modAt_getElem?, if_pos rfl, h]; rfl
  have hmem : ∃ y ∈ (put l).buf side, y.deliver = d ∧ y.dstn = dstn ∧ y.seqno = l.nextSeq side :=
    ⟨x, by rw [(hput l).1]; simp, rfl, rfl, rfl⟩
  have ht : t = (if (l.state == .live && decide ((l.buf side).length < 64)) = true then (s.modLink i put).later (x.event i side)
      else s.modLink i put) := by
    show s.enqueue i side dstn raw d = _
    unfold State.enqueue
    rw [h]
  rw [ht]
  split
  · refine ⟨?_, ?_, ?_, ?_⟩
    · have e := (State.later_spec (s.modLink i put) (x.event i side)).1
      rw [e]
      rfl
    · exact (State.later_spec (s.modLink i put) (x.event i side)).2.2
    · rw [State.later_fab]; exact hlinks
    · exact ⟨put l, by rw [State.later_fab]; exact hget, hmem⟩
  · exact ⟨rfl, fun _ h => h, hlinks, put l, hget, hmem⟩

/-- A flit that may go on from a node is on its way, and no flit or step is lost (R364). -/
theorem State.hop_spec (s : State) (node dstn : Nat) (raw : List Byte) (d : Instr)
    (h : HasWay s node dstn ((fieldAt raw 11 1).testBit 2)) :
    let t := s.hop node dstn raw d
    t = { s with fab := { s.fab with links := t.fab.links }, agenda := t.agenda } ∧ OnWay t d
      ∧ (∀ j ∈ s.agenda, j ∈ t.agenda) ∧ KeepsFlits s.fab.links t.fab.links := by
  have harr : s.arrives d = { s with fab := { s.fab with links := (s.arrives d).fab.links }, agenda := (s.arrives d).agenda }
      ∧ OnWay (s.arrives d) d ∧ (∀ j ∈ s.agenda, j ∈ (s.arrives d).agenda) ∧ KeepsFlits s.fab.links (s.arrives d).fab.links :=
    ⟨rfl, .inl (by simp [State.arrives]), fun j hj => by simp [State.arrives, hj], KeepsFlits.refl _⟩
  simp only [State.hop]
  split
  · exact harr
  · rename_i hn
    split
    · rename_i hp
      split
      · exact harr
      · rename_i hg
        rcases h with h | h | ⟨p, q, h1, h2⟩
        · exact absurd (.inl h) hn
        · exact absurd h hg
        · rw [h1, Option.bind_some, h2] at hp; cases hp
    · rename_i i side hp
      obtain ⟨p, -, hp'⟩ := Option.bind_eq_some_iff.mp hp
      obtain ⟨l, h1, -⟩ := Fabric.linkAt_some hp'
      obtain ⟨e1, e2, e3, l', e4, y, e5, e6, -⟩ := s.enqueue_spec i side dstn
        (if s.fab.key node < s.fab.key (((s.fab.links[i]?).map fun l => l.far side).getD dstn) then setDown raw else raw) d l h1
      exact ⟨e1, .inr (.inl ⟨l', List.mem_of_getElem? e4, y, l'.mem_bufs side y e5, e6⟩), e2, e3⟩

/-- A flit that enters the fabric where it has a way is on its way, and no flit or step is lost (R364, R366). -/
theorem State.enter_spec (s : State) (src dst : Nat) (raw : List Byte) (d : Instr)
    (h : HasWay s src dst ((fieldAt raw 11 1).testBit 2)) :
    let t := s.enter src dst raw d
    t = { s with fab := { s.fab with links := t.fab.links, held := t.fab.held }, agenda := t.agenda } ∧ OnWay t d
      ∧ (∀ j ∈ s.agenda, j ∈ t.agenda) ∧ KeepsFlits s.fab.links t.fab.links ∧ ∀ x ∈ s.fab.held, x ∈ t.fab.held := by
  simp only [State.enter]
  split
  · exact ⟨rfl, .inr (.inr ⟨_, List.mem_append_right _ (List.mem_singleton_self _), rfl⟩), fun _ hj => hj, KeepsFlits.refl _,
      fun x hx => List.mem_append_left _ hx⟩
  · obtain ⟨e1, e2, e3, e4⟩ := s.hop_spec src dst raw d h
    have hh : (s.hop src dst raw d).fab.held = s.fab.held := congrArg (·.fab.held) e1
    refine ⟨?_, e2, e3, e4, fun x hx => hh ▸ hx⟩
    rw [hh]
    exact e1

/-- What a sender makes passes the checks of every receiver of its version (R361, R362). -/
theorem linkFlit_good (h : LinkHead) (payload : List Byte) (hv : h.ver < 256) : flitGood h.ver (linkFlit h payload) = true := by
  have key : ∀ head pay : List Byte, head.length = 24 → pay.length = 128 → fieldAt head 0 1 = h.ver →
      flitGood h.ver (head ++ leBytes 4 (crc32c pay).toNat ++ leBytes 4 (crc32c (head ++ leBytes 4 (crc32c pay).toNat)).toNat ++ pay) = true := by
    intro head pay hh hp h0
    have c (x : Word) : leNat (leBytes 4 x.toNat) = x.toNat := by rw [leNat_leBytes]; exact Nat.mod_eq_of_lt x.isLt
    have l4 (v : Nat) : (leBytes 4 v).length = 4 := length_leBytes 4 v
    generalize hA : leBytes 4 (crc32c pay).toNat = A
    generalize hB : leBytes 4 (crc32c (head ++ A)).toNat = B
    have lA : A.length = 4 := hA ▸ l4 _
    have lB : B.length = 4 := hB ▸ l4 _
    have d32 : (head ++ A ++ B ++ pay).drop 32 = pay := by
      rw [List.drop_left' (by simp [hh, lA, lB])]
    have t28 : (head ++ A ++ B ++ pay).take 28 = head ++ A := by
      rw [List.append_assoc, List.take_left' (by simp [hh, lA])]
    have f0 : fieldAt (head ++ A ++ B ++ pay) 0 1 = h.ver := by
      rw [← h0]; unfold fieldAt
      rw [List.drop_zero, List.drop_zero, List.append_assoc, List.append_assoc, List.take_append_of_le_length (by omega)]
    have f24 : fieldAt (head ++ A ++ B ++ pay) 24 4 = (crc32c pay).toNat := by
      unfold fieldAt
      rw [List.append_assoc, List.append_assoc, List.drop_left' hh, List.take_left' lA, ← hA, c]
    have f28 : fieldAt (head ++ A ++ B ++ pay) 28 4 = (crc32c (head ++ A)).toNat := by
      unfold fieldAt
      rw [List.append_assoc, List.drop_left' (by simp [hh, lA]), List.take_left' lB, ← hB, c]
    unfold flitGood
    rw [d32, t28, f0, f24, f28]
    simp [hh, lA, lB, hp]
  unfold linkFlit
  refine key _ _ ?_ ?_ ?_
  · simp [length_leBytes]
  · simp [length_leBytes]
  · simp only [fieldAt, leBytes, leNat, List.drop_zero, List.cons_append, List.take_succ_cons, List.take_zero, List.nil_append, BitVec.toNat_ofNat]
    omega
end Sys2Proof.Machine
end

