-- ==== Sys2Proof/Laws/Write.lean ====
section
/-! SUPPORT. Laws/Write.lean: what the register, predicate and affine writes of Machine/Operands.lean do, and what
the frames of Machine/IntOps.lean and Machine/FpOps.lean that every word uses do. -/

namespace Sys2Proof.Machine

open Sys2Proof

/-! ## One register -/

theorem Gang.foldl_setGen (lanes : List Nat) (d : Nat) (f : Nat → Word) (g : Gang) :
    lanes.foldl (fun g L => g.setGen d L (f L)) g
      = { g with gen := lanes.foldl (fun m L => Store.put m (d * 32 + L) (f L)) g.gen } := by
  induction lanes generalizing g with
  | nil => rfl
  | cons L t ih => simp only [List.foldl_cons, ih]; rfl

theorem get_foldl_put (lanes : List Nat) (d : Nat) (f : Nat → Word) (m : Store Word) (r L : Nat) (hL : L < 32)
    (hl : ∀ K ∈ lanes, K < 32) :
    Store.get 0 (lanes.foldl (fun m K => Store.put m (d * 32 + K) (f K)) m) (r * 32 + L)
      = if r = d ∧ L ∈ lanes then f L else Store.get 0 m (r * 32 + L) := by
  induction lanes generalizing m with
  | nil => simp
  | cons K t ih =>
    have hK := hl K (by simp)
    simp only [List.foldl_cons]
    rw [ih _ (fun x hx => hl x (by simp [hx])), Store.get_put]
    by_cases h1 : r = d
    · subst h1
      by_cases h2 : L = K
      · subst h2; simp
      · simp [h2]
    · have h3 : ¬(r * 32 + L = d * 32 + K) := by omega
      simp [h1, h3]

/-- Writing a register changes nothing of the gang but its general and uniform registers. -/
theorem Gang.write_frame (g : Gang) (d : Nat) (lanes : List Nat) (f : Nat → Word) :
    ∃ G U, g.write d lanes f = { g with gen := G, uni := U } := by
  unfold Gang.write
  split
  · exact ⟨_, g.uni, by rw [Gang.foldl_setGen]⟩
  · split
    · exact ⟨g.gen, g.uni, rfl⟩
    · exact ⟨g.gen, _, rfl⟩
  · exact ⟨g.gen, g.uni, rfl⟩

@[simp] theorem Gang.write_shape (g : Gang) (d : Nat) (lanes : List Nat) (f : Nat → Word) (r : Nat) :
    (g.write d lanes f).shape r = g.shape r := by
  obtain ⟨G, U, h⟩ := g.write_frame d lanes f
  rw [h]; rfl

theorem Gang.shape_uniform {g : Gang} {r i : Nat} (h : g.shape r = .uniform i) : r = g.ngen + g.naff + i := by
  unfold Gang.shape at h
  split at h
  · cases h
  · split at h
    · cases h
    · split at h
      · cases h; omega
      · cases h

/-- Every register after one has been written. -/
theorem Gang.write_val (g : Gang) (d : Nat) (lanes : List Nat) (f : Nat → Word) (hl : ∀ K ∈ lanes, K < 32) (r L : Nat)
    (hL : L < 32) : (g.write d lanes f).val r L = written g 1 d lanes (one f) r L := by
  have hw : (g.write d lanes f).val r L = match g.shape r with
      | .general => (g.write d lanes f).genAt r L
      | .affine i => Store.get 0 g.affB i + BitVec.ofNat 32 L * Store.get 0 g.affS i
      | .uniform i => (g.write d lanes f).uniAt i L
      | .unalloc => 0 := by
    rw [Gang.val, Gang.write_shape]
    obtain ⟨G, U, h⟩ := g.write_frame d lanes f
    rw [h] <;> rfl
  rw [hw]
  unfold written
  by_cases hr : r = d
  · subst hr
    have h1 : r ≤ r ∧ r < r + 1 := by omega
    simp only [h1, and_self, if_true, one]
    cases hs : g.shape r with
    | general =>
      simp only [Gang.val, hs, Gang.genAt, Gang.write]
      rw [Gang.foldl_setGen, get_foldl_put _ _ _ _ _ _ hL hl]
      simp
    | affine i => simp [Gang.val, hs]
    | uniform i =>
      cases lanes with
      | nil => simp [Gang.val, hs, Gang.write]
      | cons K t => simp [Gang.write, hs, Gang.setUni, Gang.modUni, Gang.uniAt, Uni.at]
    | unalloc => simp [Gang.val, hs]
  · have h1 : ¬(d ≤ r ∧ r < d + 1) := by omega
    simp only [h1, if_false, Gang.val]
    cases hs : g.shape r with
    | general =>
      simp only [Gang.genAt, Gang.write]
      cases hd : g.shape d with
      | general => simp only; rw [Gang.foldl_setGen, get_foldl_put _ _ _ _ _ _ hL hl]; simp [hr]
      | affine i => rfl
      | uniform i => cases lanes <;> rfl
      | unalloc => rfl
    | affine i => rfl
    | uniform i =>
      simp only [Gang.write]
      cases hd : g.shape d with
      | general => simp only; rw [Gang.foldl_setGen]; rfl
      | affine j => rfl
      | uniform j =>
        cases lanes with
        | nil => rfl
        | cons K t =>
          have a := Gang.shape_uniform hs
          have b := Gang.shape_uniform hd
          simp only [Gang.setUni, Gang.modUni, Gang.uniAt]
          rw [Store.get_put_ne _ _ _ (by omega)]
      | unalloc => rfl
    | unalloc => rfl

/-! ## A pair -/

theorem Gang.write64_frame (g : Gang) (d : Nat) (lanes : List Nat) (f : Nat → DWord) :
    ∃ G U, g.write64 d lanes f = { g with gen := G, uni := U } := by
  unfold Gang.write64
  obtain ⟨G, U, h⟩ := g.write_frame d lanes fun L => (f L).setWidth 32
  rw [h]
  obtain ⟨G', U', h'⟩ := Gang.write_frame { g with gen := G, uni := U } (d + 1) lanes fun L => ((f L) >>> 32).setWidth 32
  exact ⟨G', U', h'⟩

theorem half_low (v : DWord) : v.setWidth 32 = elem 32 0 v := by
  unfold elem; ext i hi; simp

theorem half_high (v : DWord) : (v >>> 32).setWidth 32 = elem 32 1 v := by
  unfold elem; ext i hi; simp

/-- Every register after a pair has been written. -/
theorem Gang.write64_val (g : Gang) (d : Nat) (lanes : List Nat) (f : Nat → DWord) (hl : ∀ K ∈ lanes, K < 32)
    (r L : Nat) (hL : L < 32) : (g.write64 d lanes f).val r L = written g 2 d lanes (two f) r L := by
  have hlo : (fun L => (f L).setWidth 32) = fun L => elem 32 0 (f L) := funext fun L => half_low _
  have hhi : (fun L => ((f L) >>> 32).setWidth 32) = fun L => elem 32 1 (f L) := funext fun L => half_high _
  unfold Gang.write64
  rw [hlo, hhi, Gang.write_val _ _ _ _ hl r L hL]
  unfold written
  simp only [Gang.write_shape, Gang.write_val _ _ _ _ hl r L hL, written]
  by_cases ha : r = d
  · subst ha
    rw [if_neg (show ¬(r + 1 ≤ r ∧ r < r + 1 + 1) by omega), if_pos (show r ≤ r ∧ r < r + 1 by omega),
      if_pos (show r ≤ r ∧ r < r + 2 by omega)]
    simp only [one, two, Nat.sub_self]
  · by_cases hb : r = d + 1
    · subst hb
      rw [if_pos (show d + 1 ≤ d + 1 ∧ d + 1 < d + 1 + 1 by omega), if_neg (show ¬(d ≤ d + 1 ∧ d + 1 < d + 1) by omega),
        if_pos (show d ≤ d + 1 ∧ d + 1 < d + 2 by omega)]
      simp only [one, two, Nat.add_sub_cancel_left]
    · rw [if_neg (show ¬(d + 1 ≤ r ∧ r < d + 1 + 1) by omega), if_neg (show ¬(d ≤ r ∧ r < d + 1) by omega),
        if_neg (show ¬(d ≤ r ∧ r < d + 2) by omega)]

/-! ## A predicate -/

theorem getLsbD_foldl (lanes : List Nat) (f : Nat → Bool) (m : LaneMask) (L : Nat) (hL : L < 32)
    (hl : ∀ K ∈ lanes, K < 32) :
    (lanes.foldl (fun (m : LaneMask) K => if f K then m ||| (1#32 <<< K) else m &&& ~~~(1#32 <<< K)) m).getLsbD L
      = if L ∈ lanes then f L else m.getLsbD L := by
  induction lanes generalizing m with
  | nil => simp
  | cons K t ih =>
    have hK := hl K (by simp)
    simp only [List.foldl_cons]
    rw [ih _ (fun x hx => hl x (by simp [hx]))]
    by_cases h : L ∈ t
    · simp [h]
    · by_cases h2 : L = K
      · subst h2
        by_cases hf : f L <;> simp [hf, h, hL]
      · by_cases hf : f K <;> simp [hf, h, h2, hL] <;> omega

/-- Every predicate after one has been written. -/
theorem Gang.setPred_pred (g : Gang) (k : Nat) (lanes : List Nat) (f : Nat → Bool) (hl : ∀ K ∈ lanes, K < 32)
    (j L : Nat) (hL : L < 32) :
    (g.setPred k lanes f).pred j L = if j = k ∧ k ≠ 7 ∧ L ∈ lanes then f L else g.pred j L := by
  unfold Gang.setPred Gang.pred
  by_cases hk : k = 7
  · simp [hk]
  · simp only [hk, if_false, Store.get_put]
    by_cases hj : j = k
    · subst hj
      simp only [if_true, getLsbD_foldl _ _ _ _ hL hl]
      have : (j == 7) = false := by simpa using hk
      simp only [this, Bool.false_or]
      split <;> simp_all
    · simp [hj]

theorem Gang.setPred_frame (g : Gang) (k : Nat) (lanes : List Nat) (f : Nat → Bool) :
    ∃ P, g.setPred k lanes f = { g with preds := P } := by
  unfold Gang.setPred
  simp only
  split
  · exact ⟨g.preds, rfl⟩
  · exact ⟨_, rfl⟩

/-! ## Lanes -/

theorem State.lanes_lt (s : State) : ∀ K ∈ s.lanes, K < 32 := by
  intro K hK
  simp only [State.lanes, Gang.lanes, List.mem_filter, mem_upto] at hK
  exact hK.1

theorem State.exec_lt (s : State) (q : BitVec 4) : ∀ K ∈ s.exec q, K < 32 := by
  intro K hK
  simp only [State.exec, List.mem_filter] at hK
  exact s.lanes_lt K hK.1

@[simp] theorem State.exec_always (s : State) : s.exec always = s.lanes := by
  simp [State.exec, Gang.guardAt, Gang.pred, always]

/-- The executing lanes stand in increasing order (R7). -/
theorem State.exec_sorted (s : State) (q : BitVec 4) : (s.exec q).Pairwise (· < ·) := by
  unfold State.exec State.lanes Gang.lanes upto
  exact (List.pairwise_lt_range.filter _).filter _

/-! ## The frames -/

theorem all_regOk {s : State} {ops : List (Nat × Nat)} :
    (ops.all fun p => s.src.regOk p.1 p.2) = true ↔ Readable s ops := by simp [Readable]

theorem State.withRegs_ok {s : State} {ops : List (Nat × Nat)} (h : Readable s ops) (f : State → State) :
    s.withRegs ops f = f s := by
  unfold State.withRegs
  rw [if_pos (all_regOk.mpr h)]

theorem State.withRegs_bad {s : State} {ops : List (Nat × Nat)} (h : ¬Readable s ops) (f : State → State) :
    s.withRegs ops f = s.fault 3 0 0 := by
  unfold State.withRegs
  rw [if_neg (fun hh => h (all_regOk.mp hh))]

theorem State.withDest_ok {s : State} {n d : Nat} {ops : List (Nat × Nat)} (h : Writable s n d ops) (f : State → State) :
    s.withDest (n, d) ops f = f s := by
  unfold State.withDest
  rw [State.withRegs_ok h.1]
  simp [h.2]

theorem State.withDest_bad {s : State} {n d : Nat} {ops : List (Nat × Nat)} (h : ¬Writable s n d ops)
    (f : State → State) : s.withDest (n, d) ops f = s.fault 3 0 0 := by
  unfold State.withDest
  by_cases h1 : Readable s ((n, d) :: ops)
  · rw [State.withRegs_ok h1]
    have : s.isAffine d = true := by
      cases hh : s.isAffine d
      · exact absurd ⟨h1, hh⟩ h
      · rfl
    simp [this]
  · exact State.withRegs_bad h1 _

theorem State.wrote_write (s : State) (d : Nat) (lanes : List Nat) (f : Nat → Word) (hl : ∀ K ∈ lanes, K < 32) :
    Wrote s { s with g := s.g.write d lanes f } 1 d lanes (one f) := by
  refine ⟨?_, fun r L hL => Gang.write_val s.g d lanes f hl r L hL⟩
  obtain ⟨G, U, h⟩ := s.g.write_frame d lanes f
  simp only [h]

theorem State.wrote_write64 (s : State) (d : Nat) (lanes : List Nat) (f : Nat → DWord) (hl : ∀ K ∈ lanes, K < 32) :
    Wrote s { s with g := s.g.write64 d lanes f } 2 d lanes (two f) := by
  refine ⟨?_, fun r L hL => Gang.write64_val s.g d lanes f hl r L hL⟩
  obtain ⟨G, U, h⟩ := s.g.write64_frame d lanes f
  simp only [h]

/-- Only the values of the executing lanes matter to what is written. -/
theorem written_congr {g : Gang} {n d : Nat} {lanes : List Nat} {f f' : Nat → Nat → Word}
    (h : ∀ j, ∀ L ∈ lanes, f j L = f' j L) (r L : Nat) : written g n d lanes f r L = written g n d lanes f' r L := by
  unfold written
  split
  · cases g.shape r with
    | general =>
      by_cases hL : L ∈ lanes
      · simp only [hL, if_true, h _ L hL]
      · simp only [hL, if_false]
    | uniform i =>
      cases lanes with
      | nil => rfl
      | cons K t => simp only [h _ K (by simp)]
    | affine i => rfl
    | unalloc => rfl
  · rfl

theorem Writes.congr {i : Instr} {s : State} {n d : Nat} {ops : List (Nat × Nat)} {lanes : List Nat} {f f' : Nat → Nat → Word}
    (hw : Writes i s n d ops lanes f) (h : ∀ j, ∀ L ∈ lanes, f j L = f' j L) : Writes i s n d ops lanes f' := by
  refine ⟨fun hx => ?_, hw.2⟩
  obtain ⟨t, ht, he, hv⟩ := hw.1 hx
  exact ⟨t, ht, he, fun r L hL => (hv r L hL).trans (written_congr h r L)⟩

theorem Writes.gen {i : Instr} {s : State} {n d : Nat} {ops : List (Nat × Nat)} {lanes : List Nat} {f : Nat → Nat → Word}
    (hw : Writes i s n d ops lanes f) : WritesGen i s n d ops lanes f :=
  ⟨hw.1, fun hx => hw.2 fun h => hx h.1⟩

/-- What `put32` does: the operands admitted, it writes one register; else OPR. -/
theorem writes_put32 {i : Instr} {F : Nat → Word} {s : State} {q : BitVec 4} {d : BitVec 6} {ops : List (Nat × Nat)} {f : Gang → Nat → Word}
    (h : exec i s = .next (s.put32 q d ops f))
    (hF : ∀ L, F L = f s.src L) : Writes i s 1 d.toNat ops (s.exec q) (one F) := by
  obtain rfl := funext hF
  refine ⟨fun hw => ⟨_, h, ?_⟩, fun hw => ?_⟩
  · rw [State.put32, State.withDest_ok hw]; exact s.wrote_write _ _ _ (s.exec_lt q)
  · rw [Opr, h, State.put32, State.withDest_bad hw]

/-- What `put64` does. -/
theorem writes_put64 {i : Instr} {F : Nat → DWord} {s : State} {q : BitVec 4} {d : Nat} {ops : List (Nat × Nat)} {f : Gang → Nat → DWord}
    (h : exec i s = .next (s.put64 q d ops f))
    (hF : ∀ L, F L = f s.src L) : Writes i s 2 d ops (s.exec q) (two F) := by
  obtain rfl := funext hF
  refine ⟨fun hw => ⟨_, h, ?_⟩, fun hw => ?_⟩
  · rw [State.put64, State.withDest_ok hw]; exact s.wrote_write64 _ _ _ (s.exec_lt q)
  · rw [Opr, h, State.put64, State.withDest_bad hw]

/-- What `putPred` does. -/
theorem writes_putPred {i : Instr} {F : Nat → Bool} {s : State} {q : BitVec 4} {k : Nat} {ops : List (Nat × Nat)} {f : Gang → Nat → Bool}
    (h : exec i s = .next (s.putPred q k ops f))
    (hF : ∀ L, F L = f s.src L) : WritesPred i s k ops (s.exec q) F := by
  obtain rfl := funext hF
  refine ⟨fun hw => ⟨_, h, ?_, ?_⟩, fun hw => ?_⟩
  · rw [State.putPred, State.withRegs_ok hw]
    obtain ⟨P, hp⟩ := s.g.setPred_frame k (s.exec q) (f s.src)
    simp only [hp]
  · rw [State.putPred, State.withRegs_ok hw]; exact fun j L hL => Gang.setPred_pred _ _ _ _ (s.exec_lt q) j L hL
  · rw [Opr, h, State.putPred, State.withRegs_bad hw]

theorem readable_cons {s : State} {p : Nat × Nat} {ops : List (Nat × Nat)} :
    Readable s (p :: ops) ↔ s.src.regOk p.1 p.2 = true ∧ Readable s ops := by simp [Readable]

theorem readable_nil {s : State} : Readable s [] := by simp [Readable]

/-- A word whose operands are checked first and whose destination is then found not to be affine. -/
theorem writesGen_put32 {i : Instr} {F : Nat → Word} {s : State} {q : BitVec 4} {d : BitVec 6} {ops : List (Nat × Nat)} {f : Gang → Nat → Word}
    {x : State → State}
    (h : exec i s = .next (s.withRegs ((1, d.toNat) :: ops) fun s => if s.isAffine d.toNat then x s else s.put32 q d [] f))
    (hF : ∀ L, F L = f s.src L) :
    WritesGen i s 1 d.toNat ops (s.exec q) (one F) := by
  obtain rfl := funext hF
  refine ⟨fun hw => ⟨_, h, ?_⟩, fun hw => ?_⟩
  · have h2 : Writable s 1 d.toNat [] := ⟨readable_cons.mpr ⟨(readable_cons.mp hw.1).1, readable_nil⟩, hw.2⟩
    rw [State.withRegs_ok hw.1, if_neg (by simp [hw.2]), State.put32, State.withDest_ok h2]
    exact s.wrote_write _ _ _ (s.exec_lt q)
  · rw [Opr, h, State.withRegs_bad hw]

theorem writesGen_put64 {i : Instr} {F : Nat → DWord} {s : State} {q : BitVec 4} {d : Nat} {ops : List (Nat × Nat)} {f : Gang → Nat → DWord}
    {x : State → State}
    (h : exec i s = .next (s.withRegs ((2, d) :: ops) fun s => if s.isAffine d then x s else s.put64 q d [] f))
    (hF : ∀ L, F L = f s.src L) :
    WritesGen i s 2 d ops (s.exec q) (two F) := by
  obtain rfl := funext hF
  refine ⟨fun hw => ⟨_, h, ?_⟩, fun hw => ?_⟩
  · have h2 : Writable s 2 d [] := ⟨readable_cons.mpr ⟨(readable_cons.mp hw.1).1, readable_nil⟩, hw.2⟩
    rw [State.withRegs_ok hw.1, if_neg (by simp [hw.2]), State.put64, State.withDest_ok h2]
    exact s.wrote_write64 _ _ _ (s.exec_lt q)
  · rw [Opr, h, State.withRegs_bad hw]

/-- What `fput32` does. -/
theorem writes_fput32 {i : Instr} {X : Nat → FpFlags} {F : Nat → Word} {s : State} {q : BitVec 4} {d : BitVec 6} {ops : List (Nat × Nat)} {f : Gang → Nat → Fp32}
    (h : exec i s = .next (s.fput32 q d ops f))
    (hF : ∀ L, F L = (f s.src L).bits)
    (hX : ∀ L, X L = (f s.src L).fl) :
    WritesFp i s 1 d.toNat ops (s.exec q) (one F) (orFlags (s.exec q) X) := by
  obtain rfl := funext hF
  obtain rfl := funext hX
  refine ⟨fun hw => ⟨_, h, ?_, ?_⟩, fun hw => ?_⟩
  · rw [State.fput32, State.withDest_ok hw]
    obtain ⟨G, U, hg⟩ := s.g.write_frame d.toNat (s.exec q) fun L => (f s.src L).bits
    simp only [State.mergeFp, hg]
  · rw [State.fput32, State.withDest_ok hw]; exact fun r L hL => Gang.write_val _ _ _ _ (s.exec_lt q) r L hL
  · rw [Opr, h, State.fput32, State.withDest_bad hw]

/-- What `fput64` does. -/
theorem writes_fput64 {i : Instr} {X : Nat → FpFlags} {F : Nat → DWord} {s : State} {q : BitVec 4} {d : Nat} {ops : List (Nat × Nat)} {f : Gang → Nat → Fp64}
    (h : exec i s = .next (s.fput64 q d ops f))
    (hF : ∀ L, F L = (f s.src L).bits)
    (hX : ∀ L, X L = (f s.src L).fl) :
    WritesFp i s 2 d ops (s.exec q) (two F) (orFlags (s.exec q) X) := by
  obtain rfl := funext hF
  obtain rfl := funext hX
  refine ⟨fun hw => ⟨_, h, ?_, ?_⟩, fun hw => ?_⟩
  · rw [State.fput64, State.withDest_ok hw]
    obtain ⟨G, U, hg⟩ := s.g.write64_frame d (s.exec q) fun L => (f s.src L).bits
    simp only [State.mergeFp, hg]
  · rw [State.fput64, State.withDest_ok hw]; exact fun r L hL => Gang.write64_val _ _ _ _ (s.exec_lt q) r L hL
  · rw [Opr, h, State.fput64, State.withDest_bad hw]

/-- What `wide2` does: 32 bits or a pair, each lane's result standing in a relation that the function has. -/
theorem writesWide_wide2 {i : Instr} {s : State} {q : BitVec 4} {d a b : BitVec 6} {wide : Bool}
    {f : (w : Nat) → BitVec w → BitVec w → BitVec w} {r : (w : Nat) → BitVec w → BitVec w → BitVec w → Prop}
    (h : exec i s = .next (s.wide2 q d a b wide f)) (hr : ∀ x y, r 32 x y (f 32 x y)) (hr' : ∀ x y, r 64 x y (f 64 x y)) :
    WritesWide i s d a b wide (s.exec q) r := by
  cases wide with
  | false =>
    have h' : exec i s = .next (s.put32 q d [(1, a.toNat), (1, b.toNat)] fun g L => f 32 (g.val a.toNat L) (g.val b.toNat L)) := h
    exact ⟨fun L => f 32 (s.src.val a.toNat L) (s.src.val b.toNat L), writes_put32 h' fun _ => rfl, fun L => hr _ _⟩
  | true =>
    have h' : exec i s = .next (s.put64 q d.toNat [(2, a.toNat), (2, b.toNat)] fun g L => f 64 (g.val64 a.toNat L) (g.val64 b.toNat L)) := h
    exact ⟨fun L => f 64 (s.src.val64 a.toNat L) (s.src.val64 b.toNat L), writes_put64 h' fun _ => rfl, fun L => hr' _ _⟩

/-- Element e of a packed result is the operation on elements e (R80). -/
theorem elem_elems16 (f : (w : Nat) → BitVec w → BitVec w → BitVec w) (x y : Word) (e : Nat) (he : e < 2) :
    elem 16 e (elems 2 f x y) = f 16 (elem 16 e x) (elem 16 e y) := by
  match e, he with
  | 0, _ =>
    apply BitVec.eq_of_getLsbD_eq; intro k hk
    simp only [elem, elems, if_true, BitVec.getLsbD_extractLsb']
    erw [BitVec.getLsbD_append]
    simp [hk]
  | 1, _ =>
    apply BitVec.eq_of_getLsbD_eq; intro k hk
    simp only [elem, elems, if_true, BitVec.getLsbD_extractLsb']
    erw [BitVec.getLsbD_append]
    simp [hk]

theorem getLsbD_cat4 (x3 x2 x1 x0 : BitVec 8) (k : Nat) :
    (x3 ++ x2 ++ x1 ++ x0 : BitVec (8 + 8 + 8 + 8)).getLsbD k
      = if k < 8 then x0.getLsbD k else if k < 16 then x1.getLsbD (k - 8) else if k < 24 then x2.getLsbD (k - 16)
        else x3.getLsbD (k - 24) := by
  simp only [BitVec.getLsbD_append]
  by_cases h0 : k < 8
  · simp [h0]
  · by_cases h1 : k < 16
    · simp [h0, h1, show k - 8 < 8 by omega]
    · by_cases h2 : k < 24
      · simp [h0, h1, h2, show ¬k - 8 < 8 by omega, show k - 8 - 8 = k - 16 by omega, show k - 16 < 8 by omega]
      · simp [h0, h1, h2, show ¬k - 8 < 8 by omega, show ¬k - 8 - 8 < 8 by omega, show k - 8 - 8 - 8 = k - 24 by omega]

theorem elem_elems8 (f : (w : Nat) → BitVec w → BitVec w → BitVec w) (x y : Word) (e : Nat) (he : e < 4) :
    elem 8 e (elems 3 f x y) = f 8 (elem 8 e x) (elem 8 e y) := by
  have hf : elems 3 f x y = (f 8 (elem 8 3 x) (elem 8 3 y) ++ f 8 (elem 8 2 x) (elem 8 2 y)
      ++ f 8 (elem 8 1 x) (elem 8 1 y) ++ f 8 (elem 8 0 x) (elem 8 0 y) : BitVec (8 + 8 + 8 + 8)) := rfl
  rw [hf]
  apply BitVec.eq_of_getLsbD_eq
  intro k hk
  rw [elem, BitVec.getLsbD_extractLsb']
  erw [getLsbD_cat4]
  match e, he with
  | 0, _ => simp [hk]
  | 1, _ => simp [hk, show 8 + k < 16 by omega]
  | 2, _ => simp [hk, show ¬16 + k < 8 by omega, show ¬16 + k < 16 by omega, show 16 + k < 24 by omega]
  | 3, _ => simp [hk, show ¬24 + k < 8 by omega, show ¬24 + k < 16 by omega]

/-- What `arith` does to a general or uniform destination. -/
theorem writesModes_arith {i : Instr} {s : State} {q : BitVec 4} {d a b : BitVec 6} {m : BitVec 2}
    {f op : (w : Nat) → BitVec w → BitVec w → BitVec w} {fa : (w : Nat) → AffVal w → AffVal w → Option (AffVal w)}
    (h : exec i s = .next (s.arith q d a b m f fa)) (hop : ∀ w x y, op w x y = f w x y) :
    WritesModes i s d a b m (s.exec q) op := by
  obtain rfl : op = f := by funext w x y; exact hop w x y
  let x1 (k : Nat) (s : State) : State := s.putAff32 q d.toNat (if k = 0 then (match s.src.aff32 a.toNat, s.src.aff32 b.toNat with
    | some x, some y => fa 32 x y
    | _, _ => none) else none)
  let x2 (s : State) : State := s.putAff64 q d.toNat (match s.src.aff64 a.toNat, s.src.aff64 b.toNat with
    | some x, some y => fa 64 x y
    | _, _ => none)
  unfold WritesModes
  match m with
  | 0#2 => exact writesGen_put32 (x := x1 0) (f := fun g L => elems 0 op (g.val a.toNat L) (g.val b.toNat L)) h fun _ => rfl
  | 1#2 => exact writesGen_put64 (x := x2) (f := fun g L => op 64 (g.val64 a.toNat L) (g.val64 b.toNat L)) h fun _ => rfl
  | 2#2 =>
    exact ⟨_, writesGen_put32 (x := x1 2) (f := fun g L => elems 2 op (g.val a.toNat L) (g.val b.toNat L)) h fun _ => rfl,
      fun L e he => elem_elems16 _ _ _ e he⟩
  | 3#2 =>
    exact ⟨_, writesGen_put32 (x := x1 3) (f := fun g L => elems 3 op (g.val a.toNat L) (g.val b.toNat L)) h fun _ => rfl,
      fun L e he => elem_elems8 _ _ _ e he⟩

end Sys2Proof.Machine
end

