-- ==== Sys2Proof/Laws/Float.lean ====
section
/-! SUPPORT. Laws/Float.lean: the bits of a rounded result fit its format, and what the frame of the floating-point
words over the four types does. -/

namespace Sys2Proof.Machine

open Sys2Proof

theorem Fmt.inf_lt (f : Fmt) : f.inf < f.signBit := by
  unfold Fmt.inf Fmt.signBit
  rw [pow_add]
  exact Nat.mul_lt_mul_of_pos_right (Nat.sub_lt (by positivity) (by omega)) (by positivity)

/-- The bits of a rounded magnitude fit the format. -/
theorem roundMag_lt (f : Fmt) (rm : Rm) (neg : Bool) (m : Nat) (e : Int) (st : Bool) :
    (roundMag f rm neg m e st).bits < 2 * f.signBit := by
  have h := f.inf_lt
  have hs : (if neg then f.signBit else 0) ≤ f.signBit := by split <;> omega
  unfold roundMag
  simp only
  split
  · simp only; omega
  · split
    · have hi (b : Bool) : (if b = true then f.inf else f.inf - 1) ≤ f.inf := by split <;> omega
      exact Nat.lt_of_le_of_lt (Nat.add_le_add hs (hi _)) (by omega)
    · simp only; omega

theorem Fmt.nan_lt (f : Fmt) (h : 0 < f.pw) : f.nan < f.signBit := by
  unfold Fmt.nan Fmt.inf Fmt.signBit
  rw [pow_add]
  have h1 : 2 ^ (f.pw - 1) < 2 ^ f.pw := Nat.pow_lt_pow_right (by omega) (by omega)
  have h2 : (2 ^ f.ew - 1) * 2 ^ f.pw + 2 ^ f.pw = 2 ^ f.ew * 2 ^ f.pw := by
    rw [Nat.sub_mul, one_mul]
    exact Nat.sub_add_cancel (Nat.le_mul_of_pos_left _ (by positivity))
  omega

theorem roundF_lt (f : Fmt) (hp : 0 < f.pw) (rm : Rm) (v : FVal) : (roundF f rm v).bits < 2 * f.signBit := by
  have h := f.inf_lt
  have h2 := f.nan_lt hp
  cases v with
  | nan s => simp only [roundF]; omega
  | inf n => simp only [roundF]; split <;> omega
  | fin n m e => exact roundMag_lt _ _ _ _ _ _

/-- Halves of a word packed from two results that fit 16 bits. -/
theorem elem_pack2 (lo hi : FRes) (hl : lo.bits < 65536) :
    elem 16 0 (pack2 lo hi).bits = BitVec.ofNat 16 lo.bits ∧ elem 16 1 (pack2 lo hi).bits = BitVec.ofNat 16 hi.bits := by
  unfold pack2 elem
  constructor
  · apply BitVec.eq_of_toNat_eq
    simp only [BitVec.extractLsb'_toNat, BitVec.toNat_ofNat, Nat.shiftRight_eq_div_pow]
    omega
  · apply BitVec.eq_of_toNat_eq
    simp only [BitVec.extractLsb'_toNat, BitVec.toNat_ofNat, Nat.shiftRight_eq_div_pow]
    omega

theorem el16_eq (w : Word) (j : Nat) : el16 w j = (elem 16 j w).toNat := by
  unfold el16 elem
  simp only [BitVec.extractLsb'_toNat, Nat.shiftRight_eq_div_pow]
  rw [show (65536 : Nat) = 2 ^ 16 from rfl, ← pow_mul]

/-- What `fop2` does in each of the four types. -/
theorem writesFpModes_fop2 {i : Instr} {s : State} {q : BitVec 4} {d a b : BitVec 6} {m : Nat} {f : Fmt → Nat → Nat → FRes}
    (h : exec i s = .next (s.fop2 q d a b m f)) (hm : m < 4)
    (hf : ∀ fm ∈ [bf16, f16], ∀ x < 65536, ∀ y < 65536, (f fm x y).bits < 65536) :
    WritesFpModes i s d a b m (s.exec q) f := by
  unfold WritesFpModes
  match m, hm with
  | 0, _ => exact writes_fput32 (f := fun g L => (f f32 (g.val a.toNat L).toNat (g.val b.toNat L).toNat).w32) h (fun _ => rfl) fun _ => rfl
  | 1, _ => exact writes_fput64 (f := fun g L => (f f64 (g.val64 a.toNat L).toNat (g.val64 b.toNat L).toNat).w64) h (fun _ => rfl) fun _ => rfl
  | 2, _ =>
    refine ⟨_, writes_fput32 (f := fun g L => pack2 (f bf16 (el16 (g.val a.toNat L) 0) (el16 (g.val b.toNat L) 0))
      (f bf16 (el16 (g.val a.toNat L) 1) (el16 (g.val b.toNat L) 1))) h (fun _ => rfl) (fun _ => ?_), fun L e he => ?_⟩
    · simp only [el16_eq]; rfl
    · have := elem_pack2 (f bf16 (el16 (s.src.val a.toNat L) 0) (el16 (s.src.val b.toNat L) 0))
        (f bf16 (el16 (s.src.val a.toNat L) 1) (el16 (s.src.val b.toNat L) 1))
        (hf bf16 (by simp) _ (by simp only [el16]; omega) _ (by simp only [el16]; omega))
      simp only [el16_eq] at this ⊢
      match e, he with
      | 0, _ => exact this.1
      | 1, _ => exact this.2
  | 3, _ =>
    refine ⟨_, writes_fput32 (f := fun g L => pack2 (f f16 (el16 (g.val a.toNat L) 0) (el16 (g.val b.toNat L) 0))
      (f f16 (el16 (g.val a.toNat L) 1) (el16 (g.val b.toNat L) 1))) h (fun _ => rfl) (fun _ => ?_), fun L e he => ?_⟩
    · simp only [el16_eq]; rfl
    · have := elem_pack2 (f f16 (el16 (s.src.val a.toNat L) 0) (el16 (s.src.val b.toNat L) 0))
        (f f16 (el16 (s.src.val a.toNat L) 1) (el16 (s.src.val b.toNat L) 1))
        (hf f16 (by simp) _ (by simp only [el16]; omega) _ (by simp only [el16]; omega))
      simp only [el16_eq] at this ⊢
      match e, he with
      | 0, _ => exact this.1
      | 1, _ => exact this.2

end Sys2Proof.Machine
end

