-- ==== Sys2Proof/Laws/Slices.lean ====
section
/-! SUPPORT. Laws/Slices.lean: what the operations on several slices of a gang do, and what a transfer does. -/

namespace Sys2Proof.Machine

open Sys2Proof

theorem Gang.modSlices_frame (g : Gang) (l : List Nat) (f : Nat → Slice → Slice) :
    ∃ S, g.modSlices l f = { g with slices := S } ∧ S.length = g.slices.length := by
  unfold Gang.modSlices
  induction l generalizing g with
  | nil => exact ⟨g.slices, rfl, rfl⟩
  | cons i t ih =>
    obtain ⟨S, h, hl⟩ := ih (g.modSlice i (f i))
    exact ⟨S, by rw [List.foldl_cons, h]; rfl, by rw [hl]; simp [Gang.modSlice]⟩

theorem Gang.modSlice_slice (g : Gang) (i : Nat) (f : Slice → Slice) (j : Nat) (hj : j < g.slices.length) :
    (g.modSlice i f).slice j = if j = i then f (g.slice j) else g.slice j := by
  unfold Gang.modSlice Gang.slice
  rw [nth_modAt]
  by_cases h : j = i
  · subst h; simp [hj]
  · simp [h]

/-- Each slice named once is changed once. -/
theorem Gang.modSlices_slice (g : Gang) (l : List Nat) (f : Nat → Slice → Slice) (hn : l.Nodup) (j : Nat)
    (hj : j < g.slices.length) : (g.modSlices l f).slice j = if j ∈ l then f j (g.slice j) else g.slice j := by
  induction l generalizing g with
  | nil => simp [Gang.modSlices]
  | cons i t ih =>
    have hj' : j < (g.modSlice i (f i)).slices.length := by simpa [Gang.modSlice] using hj
    have := ih (g.modSlice i (f i)) (List.nodup_cons.mp hn).2 hj'
    unfold Gang.modSlices at this ⊢
    rw [List.foldl_cons, this, Gang.modSlice_slice _ _ _ _ hj]
    by_cases h : j = i
    · subst h; simp [(List.nodup_cons.mp hn).1]
    · simp [h]

theorem State.group_nodup (s : State) : s.group.Nodup := by
  unfold State.group Gang.group upto
  exact List.nodup_range.filter _

theorem State.group_lt (s : State) : ∀ i ∈ s.group, i < 8 := by
  intro i hi
  simp only [State.group, Gang.group, List.mem_filter, mem_upto] at hi
  exact hi.1

/-- A set of slices as a mask, bit by bit. -/
theorem getLsbD_sliceMask (l : List Nat) (i : Nat) (hi : i < 8) (hl : ∀ j ∈ l, j < 8) :
    (sliceMask l).getLsbD i = l.contains i := by
  have key : ∀ (l : List Nat) (m : BitVec 8), (∀ j ∈ l, j < 8) →
      (l.foldl (fun m j => m ||| (1#8 <<< j)) m).getLsbD i = (m.getLsbD i || l.contains i) := by
    intro l
    induction l with
    | nil => simp
    | cons j t ih =>
      intro m hm
      have hj := hm j (by simp)
      rw [List.foldl_cons, ih _ (fun x hx => hm x (by simp [hx]))]
      by_cases h : i = j
      · subst h; simp [hi]
      · have : (1#8 <<< j).getLsbD i = false := by
          simp; omega
        simp [this, h]
  simpa [sliceMask] using key l 0 hl

/-- The slices of the gang in focus changed, and nothing else. -/
theorem slicesOnly_modSlices (s : State) (l : List Nat) (hn : l.Nodup) (f : Nat → Slice → Slice) :
    SlicesOnly s { s with g := s.g.modSlices l f } fun i => if i ∈ l then f i (s.g.slice i) else s.g.slice i := by
  obtain ⟨S, h, hl⟩ := s.g.modSlices_frame l f
  refine ⟨by simp only [h], by simp only [h, hl], fun i hi => ?_⟩
  exact Gang.modSlices_slice _ _ _ hn i hi

/-- What a word does that sets the program counters of the slices of its group that a test picks. -/
theorem slicesMoved_modSlices (s : State) (p : Nat → Bool) (f : Nat → Slice → Slice) :
    SlicesMoved s { s with
      g := s.g.modSlices (s.group.filter p) f
      iss := { s.iss with moved := s.iss.moved ||| sliceMask (s.group.filter p) } } p f := by
  obtain ⟨S, h, hl⟩ := s.g.modSlices_frame (s.group.filter p) f
  refine ⟨by simp only [h], fun i hi => ?_, by simp only [h, hl], fun i hi => ?_⟩
  · simp only [BitVec.getLsbD_or]
    rw [getLsbD_sliceMask _ _ hi fun j hj => s.group_lt j (List.mem_filter.mp hj).1]
    congr 1
    by_cases h1 : i ∈ s.group <;> by_cases h2 : p i = true <;> simp [h1, h2]
  · simp only
    rw [Gang.modSlices_slice _ _ _ (s.group_nodup.filter _) i hi]
    simp only [List.mem_filter]

end Sys2Proof.Machine
end

