-- ==== Sys2Proof/Tests/Slice0.lean ====
section
/-! SUPPORT. Tests/Slice0.lean: words decoded as the specification writes them out, words run on small states, ill-formed
terms refused, and for every statement a state and operands that meet its hypotheses. -/

set_option Elab.async false

/-! ## Helpers -/

namespace Sys2Proof.Machine

/-- The state that an outcome goes on to. -/
def got (r : Res) : State :=
  match r with
  | .next t => t
  | _ => State.reset

/-- The gang of the tests: eight slices of four active lanes at 0x1200, 32 general, two affine and four uniform
registers. -/
def testGang : Gang :=
  { uid := 3, task := 1, block := 2, id := 5, width := 32, ngen := 32, naff := 2, nuni := 4, live := 255, allow := [(0, 2), (1, 2)]
    slices := (upto 8).map fun _ => { pc := 0x1200, active := 15 } }

/-- Its block, its task of two capabilities and two members, and its context with handlers at 0x2400 and 0x3600; the
chain is the one word at 0x1200. -/
def testState : State :=
  { g := testGang
    b := { uid := 2, task := 1, home := 1, width := 32, ngen := 32, naff := 2, nuni := 4, sbytes := 4096, slots := 4, zt := 2, lmem := 4, rq := 2 }
    tasks := [{ id := 1, tenant := 7, record := { param := 0x1000, prio := 2, opid := 9, home := 1, wclass := 1 }
                caps := [{ kind := 1, perm := 1, f16 := 1 }, { kind := 2, perm := 3 }]
                members := (upto 6).map fun _ => { grp := [2, 0, 0, 0], valid := 1, rank := [3, 0, 0, 0] }
                barriers := [{ num := 2, scope0 := 0, size := 2, expected := 2 }] }]
    ctxs := [(0, { valid := true, tenant := 7, trapent := 0x2400, dbgent := 0x3600 })]
    sel := some (3, 0)
    iss := { wpc := 0x1200, last := 0x1200 }
    next := 10 }

/-- The gang of a state changed. -/
def State.withG (s : State) (f : Gang → Gang) : State := { s with g := f s.g }

/-- A general register given a value in each lane. -/
def State.reg (s : State) (r : Nat) (f : Nat → Word) : State := s.withG fun g => (upto 32).foldl (fun g L => g.setGen r L (f L)) g

/-- A general register given one value in every lane. -/
def State.all (s : State) (r : Nat) (v : Word) : State := s.reg r fun _ => v

/-- Only some lanes active in slice 0, and only slice 0 in the group. -/
def State.oneSlice (s : State) (m : BitVec 4) : State :=
  s.withG fun g => { g with slices := (upto 8).map fun i => if i = 0 then { pc := 0x1200, active := m } else { pc := 0x2700, active := 15, grp := 1 } }

/-- The slices made privileged. -/
def State.asPriv (s : State) : State := s.withG fun g => { g with slices := g.slices.map fun sl => { sl with priv := true } }

/-- Every slice changed. -/
def State.eachSlice (s : State) (f : Slice → Slice) : State := s.withG fun g => { g with slices := g.slices.map f }

/-- Register r of the gang after a word, in lane L. -/
def after (i : Instr) (s : State) (r L : Nat) : Word := (got (exec i s)).g.val r L

/-- The pair r:r+1 of the gang after a word, in lane L. -/
def after64 (i : Instr) (s : State) (r L : Nat) : DWord := (got (exec i s)).g.val64 r L

/-- Whether each word of a list decodes to the instruction beside it. -/
def decodes (l : List (Nat × Instr)) : Bool :=
  l.all fun p =>
    match decodeNat p.1 with
    | .ok i => decide (i = p.2)
    | .error _ => false

/-- Whether each word of a list is refused. -/
def refuses (l : List Nat) : Bool :=
  l.all fun n =>
    match decodeNat n with
    | .ok _ => false
    | .error _ => true

end Sys2Proof.Machine

open Sys2Proof Sys2Proof.Machine

/-! ## Words decoded -/

theorem test_decode_integer_1 : decodes [
    (0x01000000, Instr.nop false),
    (0x02214005, Instr.mov false 8 20 5),
    (0x03200017, Instr.movi false 8 23),
    (0x04200017, Instr.movhi false 8 23),
    (0x05200015, Instr.laneid false 8 1 5),
    (0x06214B15, Instr.sel false 8 20 44 1 5),
    (0x07214B15, Instr.shfl false 8 20 44 1 5),
    (0x08214B05, Instr.bcast false 8 20 44 5),
    (0x09214005, Instr.unif false 8 20 5),
    (0x0A154B15, Instr.icmp false 5 20 44 1 5),
    (0x0B354023, Instr.icmpi false 1 5 20 35),
    (0x0C144115, Instr.plog false 5 4 4 1 5),
    (0x0D200005, Instr.p2v false 8 5),
    (0x0E014005, Instr.v2p false 20 5),
    (0x0F144015, Instr.voteAnyAll false 5 4 1 5),
    (0x0F204025, Instr.voteBallot false 8 4 5),
    (0x10214B15, Instr.iadd false 8 20 44 1 5),
    (0x11214B15, Instr.isub false 8 20 44 1 5),
    (0x1221401D, Instr.iaddi false 8 20 29),
    (0x13214B15, Instr.imul false 8 20 44 1 5),
    (0x14214B15, Instr.imulhs false 8 20 44 1 5),
    (0x15214B15, Instr.imulhn false 8 20 44 1 5),
    (0x16214B3C, Instr.imad false 8 20 44 60),
    (0x17414B38, Instr.imadw false 8 20 44 28)] = true := by decide +kernel

theorem test_decode_integer_2 : decodes [
    (0x18414B38, Instr.imadwn false 8 20 44 28),
    (0x19214B15, Instr.imin false 8 20 44 1 5),
    (0x1A214B15, Instr.imax false 8 20 44 1 5),
    (0x1B214015, Instr.iabs false 8 20 1 5),
    (0x1C214015, Instr.ineg false 8 20 1 5),
    (0x1D214B15, Instr.idiv false 8 20 44 1 5),
    (0x1E214B15, Instr.irem false 8 20 44 1 5),
    (0x1F414015, Instr.iaccw false 8 20 1 5),
    (0x20428B15, Instr.addr false 8 20 44 1 5),
    (0x2142801D, Instr.addri false 8 20 29),
    (0x22214B15, Instr.and false 8 20 44 1 5),
    (0x23214B15, Instr.or false 8 20 44 1 5),
    (0x24214B15, Instr.xor false 8 20 44 1 5),
    (0x25214B15, Instr.andn false 8 20 44 1 5),
    (0x26214015, Instr.not false 8 20 1 5),
    (0x2721401D, Instr.andi false 8 20 29),
    (0x2821401D, Instr.ori false 8 20 29),
    (0x2921401D, Instr.xori false 8 20 29),
    (0x2A214B15, Instr.shl false 8 20 44 1 5),
    (0x2B214B15, Instr.shr false 8 20 44 1 5),
    (0x2C214B15, Instr.sar false 8 20 44 1 5),
    (0x2D214063, Instr.shli false 8 20 1 35),
    (0x2E214063, Instr.shri false 8 20 1 35),
    (0x2F214063, Instr.sari false 8 20 1 35)] = true := by decide +kernel

theorem test_decode_integer_3 : decodes [
    (0x302140EB, Instr.bfx false 8 20 7 11),
    (0x312140EB, Instr.bfxs false 8 20 7 11),
    (0x322140EB, Instr.bfi false 8 20 7 11),
    (0x33214015, Instr.bitop false 8 20 1 5),
    (0x34214015, Instr.scan false 8 20 1 5),
    (0x35214015, Instr.ired false 8 20 1 5)] = true := by decide +kernel

theorem test_decode_wait : decodes [
    (0x36000001, Instr.waitf 1),
    (0x37528000, Instr.waitc 2 37),
    (0x38000101, Instr.waitany 1 1),
    (0x39000005, Instr.bar 1 1)] = true := by decide +kernel

theorem test_decode_float_1 : decodes [
    (0x40214B15, Instr.fadd false 8 20 44 1 5),
    (0x41214B15, Instr.fsub false 8 20 44 1 5),
    (0x42214B15, Instr.fmul false 8 20 44 1 5),
    (0x43214B3C, Instr.ffma32 false 8 20 44 60),
    (0x44428638, Instr.ffma64 false 8 20 12 28),
    (0x45214B3C, Instr.ffmabf false 8 20 44 60),
    (0x46214B3C, Instr.ffmah false 8 20 44 60),
    (0x47214B15, Instr.fmin false 8 20 44 1 5),
    (0x48214B15, Instr.fmax false 8 20 44 1 5),
    (0x49214B15, Instr.fsgn false 8 20 44 1 5),
    (0x4A154B15, Instr.fcmp false 5 20 44 1 5),
    (0x4B214015, Instr.fclass false 8 20 1 5),
    (0x4C214055, Instr.frnd false 8 20 1 1 5),
    (0x4D214B15, Instr.fdiv false 8 20 44 1 5),
    (0x4E214015, Instr.fsqrt false 8 20 1 5),
    (0x4F214005, Instr.frcp false 8 20 5),
    (0x50214005, Instr.frsq false 8 20 5),
    (0x51214005, Instr.fexp2 false 8 20 5),
    (0x52214005, Instr.flog2 false 8 20 5),
    (0x53214005, Instr.fsin false 8 20 5),
    (0x54214005, Instr.fcos false 8 20 5),
    (0x55214795, Instr.cvt false 8 20 3 6 1 5),
    (0x56214B35, Instr.cvtp false 8 20 44 1 5),
    (0x57214B05, Instr.qenc false 8 20 44 5)] = true := by decide +kernel

theorem test_decode_float_2 : decodes [
    (0x58214B05, Instr.qdec false 8 20 44 5),
    (0x59214B15, Instr.fscale false 8 20 44 1 5),
    (0x5A214B3C, Instr.fdot2 false 8 20 44 60),
    (0x5B200017, Instr.fmovi false 8 23),
    (0x5C214015, Instr.fsum false 8 20 1 5),
    (0x5D214015, Instr.fscan false 8 20 1 5)] = true := by decide +kernel

theorem test_decode_control : decodes [
    (0x60580017, Instr.bra 5 1 23),
    (0x61028005, Instr.jmp 20 5),
    (0x62580017, Instr.call 5 1 23),
    (0x63028005, Instr.calli 20 5),
    (0x64000000, Instr.ret),
    (0x65000001, Instr.regang 1),
    (0x66000000, Instr.exit),
    (0x67000000, Instr.yield),
    (0x6800000B, Instr.sleep 11),
    (0x69203100, Instr.rds false 8 49),
    (0x69201500, Instr.rdsGangFpstat false 8),
    (0x6A204100, Instr.wrs false 8 65),
    (0x6A204000, Instr.wrsMqSend false 8),
    (0x6A201500, Instr.wrsGangFpstat false 8),
    (0x6A200000, Instr.wrsSliceStatus false 8),
    (0x6A205100, Instr.wrsMxUe false 8),
    (0x6A215700, Instr.wrsPerfSel false 8 7),
    (0x6A211400, Instr.wrsTrapQ false 8),
    (0x6A213800, Instr.wrsDbgCtl false 8),
    (0x6B00000B, Instr.trap 11),
    (0x6C000000, Instr.rte),
    (0x6D00000B, Instr.brk 11),
    (0x6E000005, Instr.mkpush false 5),
    (0x6F000001, Instr.mkctl false 1)] = true := by decide +kernel

theorem test_decode_memory : decodes [
    (0x70214965, Instr.ld false 8 20 9 6 1 1),
    (0x7121496D, Instr.ldw false 8 20 9 6 1 1),
    (0x7221496D, Instr.ldt false 8 20 9 6 1 1),
    (0x73214965, Instr.lda false 8 20 9 6 1 1),
    (0x74214965, Instr.ldx false 8 20 9 6 1 1),
    (0x75214965, Instr.st false 8 20 9 6 1 1),
    (0x7621496D, Instr.stf false 8 20 9 6 1 1),
    (0x77214965, Instr.strel false 8 20 9 6 1 1),
    (0x78214965, Instr.stx false 8 20 9 6 1 1),
    (0x79228961, Instr.gst false 8 20 9 6 1),
    (0x7A214057, Instr.atom false 8 20 0 2 1 7),
    (0x7B000034, Instr.fence false 1 2 4)] = true := by decide +kernel

theorem test_decode_matrix : decodes [
    (0x7C445000, Instr.claim false 17 5),
    (0x7C440001, Instr.free false 17),
    (0x7C457042, Instr.tld false 17 23 1),
    (0x7C457043, Instr.tldt false 17 23 1),
    (0x7C457004, Instr.tldm false 17 23),
    (0x7C040005, Instr.zclr false 1),
    (0x7C057046, Instr.zld false 1 23 1),
    (0x7C5DD047, Instr.zst false 1 7 29 1),
    (0x7C054308, Instr.mmabf false 1 20 12),
    (0x7C054309, Instr.mmah false 1 20 12),
    (0x7C05430A, Instr.mmai8 false 1 20 12),
    (0x7C09430B, Instr.mmai16 false 1 20 12),
    (0x7C05430C, Instr.mmaf64 false 1 20 12),
    (0x7C09430D, Instr.mmaq4 false 1 20 12),
    (0x7C05430E, Instr.mmasbf false 1 20 12),
    (0x7C5D430F, Instr.mmasi8 false 1 7 20 12),
    (0x7C011010, Instr.mgemm false 17),
    (0x7C457051, Instr.tst false 17 23 1)] = true := by decide +kernel

theorem test_decode_copy : decodes [
    (0x7D011000, Instr.cpart false 17),
    (0x7D011001, Instr.cpmx false 17),
    (0x7D011002, Instr.gather false 17),
    (0x7D011003, Instr.scatter false 17),
    (0x7D011004, Instr.cred false 17),
    (0x7D157045, Instr.chtest false 5 23 1),
    (0x7D011006, Instr.chreset false 17),
    (0x7D4570C7, Instr.feset false 17 23 1 1)] = true := by decide +kernel

theorem test_decode_queue : decodes [
    (0x7E7DD080, Instr.bind false 3 7 29 1),
    (0x7E040001, Instr.unbind false 1),
    (0x7E443082, Instr.ginfo false 17 3 2),
    (0x7E457003, Instr.launch false 17 23),
    (0x7E041004, Instr.chopen false 1 1),
    (0x7E040005, Instr.chclose false 1),
    (0x7E040006, Instr.chsel false 1)] = true := by decide +kernel

theorem test_decode_table : decodes [
    (0x7F100000, Instr.wseed false 1),
    (0x7F0D7081, Instr.wemit false 3 23 1),
    (0x7F000002, Instr.wclose false),
    (0x7F880003, Instr.sigrd false 17),
    (0x7F457004, Instr.relreq false 17 23),
    (0x7F022005, Instr.tlbinvPage false 17),
    (0x7F062045, Instr.tlbinvRange false 17 1),
    (0x7F080005, Instr.tlbinvCtx false),
    (0x7F0C0005, Instr.tlbinvAll false),
    (0x7F0FA046, Instr.cwb false 1 1 29 1),
    (0x7F000007, Instr.evict false)] = true := by decide +kernel

/-! ## Words run -/

/-! ## Words that are refused -/

-- R50 to R59: an opcode with no row, reserved modes, guards, pairs, operand blocks, flags and special registers.
theorem test_refuses_reserved : refuses [
    0x00000000, 0x3A000000, 0x5E000000, 0x7B000300, 0x0200400F, 0x10214B1F, 0x14214B25, 0x10214B55, 0x0B7C4023,
    0x30280F9F, 0x37C00000, 0x4DFFFFFF, 0x65000000, 0x69100040, 0x6A000010, 0x71000330, 0x711C8306, 0x79000104,
    0x7A000E00, 0x7A00014F, 0x7B000006, 0x7F180000, 2 ^ 32] = true := by decide +kernel

-- an ill-formed term for each check of WellFormed
theorem test_ill_formed : [
    Instr.mov false 1 2 15, .icmp false 7 1 2 0 0, .icmp false 1 3 2 2 0, .iadd false 1 2 4 1 7, .iadd false 2 3 4 1 7, .iadd false 2 4 5 1 7,
    .imulhs false 3 4 6 1 7, .imin false 3 4 6 2 7, .iabs false 3 4 1 7, .idiv false 2 4 5 3 7, .and false 2 4 5 1 7, .not false 2 5 1 7,
    .shl false 3 4 6 1 7, .shli false 3 4 1 1, .bfx false 1 2 16 16, .bfxs false 1 2 31 1, .bfi false 1 2 1 31, .scan false 3 4 2 7,
    .ired false 3 4 1 7, .waitc 6 0, .fadd false 3 4 6 1 7, .fcmp false 7 4 6 0 0, .fclass false 4 5 1 7, .cvt false 4 6 2 2 0 7,
    .cvt false 4 5 0 1 0 7, .cvt false 5 4 5 0 0 7, .fsum false 3 4 1 7, .bra 15 0 0, .regang 0, .rds false 4 0x040, .rds false 5 0x061,
    .wrs false 4 0x031, .wrs false 5 0x111, .ld false 0 1 0 0 0 3, .ld false 1 2 0 0 0 1, .ld false 2 4 0 0 0 2, .ld false 0 1 12 0 0 0,
    .ld false 0 1 15 1 0 0, .atom false 0 1 7 0 0 0, .atom false 0 1 2 0 0 0, .atom false 1 2 1 0 0 0, .atom false 0 1 0 0 0 13,
    .atom false 0 1 0 10 0 15, .atom false 0 1 0 0 1 0, .fence false 0 0 6, .fence false 0 3 0, .claim false 0 9, .chtest false 7 1 2,
    .bind false 6 0 1 1, .ginfo false 1 0 7, .chopen false 0 1, .chclose false 0, .wemit false 6 1 1].all (fun i => !i.wf) = true := by
  decide +kernel

/-! ## One step of each family -/

theorem test_mov_uniform_takes_leader : after (.mov false 34 4 7) (testState.reg 4 fun L => BitVec.ofNat 32 (L + 9)) 34 5 = 9 := by decide +kernel
theorem test_movi : after (.movi false 4 0x5678) testState 4 31 = 0x5678 := by decide +kernel
theorem test_movi_negative : after (.movi false 4 0x3FFFF) testState 4 0 = 0xFFFFFFFF := by decide +kernel
theorem test_movhi : after (.movhi false 4 0x48D) (testState.all 4 0x5678) 4 0 = 0x12345678 := by decide +kernel
theorem test_laneid_sub : after (.laneid false 4 2 7) testState 4 30 = 2 := by decide +kernel
theorem test_laneid_affine : after (.laneid false 32 0 7) testState 32 30 = 30 := by decide +kernel
theorem test_sel : after (.sel false 4 5 6 0 7) (((testState.all 5 50).all 6 60).withG fun g => g.setPred 0 [3] fun _ => true) 4 3 = 50
    ∧ after (.sel false 4 5 6 0 7) ((testState.all 5 50).all 6 60) 4 3 = 60 := by decide +kernel
theorem test_shfl_up : after (.shfl false 4 5 6 1 7) ((testState.reg 5 (BitVec.ofNat 32)).all 6 1) 4 7 = 6
    ∧ after (.shfl false 4 5 6 1 7) ((testState.reg 5 (BitVec.ofNat 32)).all 6 1) 4 0 = 0 := by decide +kernel
theorem test_bcast : after (.bcast false 4 5 6 7) ((testState.reg 5 (BitVec.ofNat 32)).all 6 (32 + 9)) 4 2 = 9 := by decide +kernel
theorem test_unif : after (.unif false 4 5 7) ((testState.reg 5 (BitVec.ofNat 32)).oneSlice 12) 4 3 = 2 := by decide +kernel
theorem test_icmp_signed : (got (exec (.icmp false 1 4 5 0 2) ((testState.all 4 0xFFFFFFFF).all 5 1))).g.pred 1 0 = true := by decide +kernel
theorem test_icmp_unsigned : (got (exec (.icmp false 1 4 5 1 2) ((testState.all 4 0xFFFFFFFF).all 5 1))).g.pred 1 0 = false := by decide +kernel
theorem test_icmpi : (got (exec (.icmpi false 0 1 4 0xFFB) (testState.all 4 (-5)))).g.pred 1 7 = true := by decide +kernel
theorem test_plog_not : (got (exec (.plog false 1 0 7 2 7) testState)).g.pred 1 7 = true := by decide +kernel
theorem test_p2v : after (.p2v false 4 7) (testState.withG fun g => g.setPred 2 [1] fun _ => true) 4 1 = 0x84 := by decide +kernel
theorem test_v2p : (got (exec (.v2p false 4 7) (testState.all 4 0x40))).g.pred 6 9 = true := by decide +kernel
theorem test_vote_all : (got (exec (.voteAnyAll false 1 0 1 7) (testState.withG fun g => g.setPred 0 [4] fun _ => true))).g.pred 1 0 = false := by
  decide +kernel
theorem test_ballot : after (.voteBallot false 4 0 7) (testState.withG fun g => g.setPred 0 [4, 31] fun _ => true) 4 0 = 0x80000010 := by decide +kernel
theorem test_iadd_16x2 : after (.iadd false 4 5 6 2 7) ((testState.all 5 0x0001FFFF).all 6 0x00010001) 4 0 = 0x00020000 := by decide +kernel
theorem test_iadd_64 : after64 (.iadd false 4 6 8 1 7) (((testState.all 6 0xFFFFFFFF).all 8 1)) 4 0 = 0x100000000 := by decide +kernel
theorem test_isub_8x4 : after (.isub false 4 5 6 3 7) ((testState.all 5 0x10000000).all 6 0x01010101) 4 0 = 0x0FFFFFFF := by decide +kernel
theorem test_iaddi : after (.iaddi false 4 4 0xFFF) (testState.all 4 5) 4 0 = 4 := by decide +kernel
theorem test_imul : after (.imul false 4 5 6 0 7) ((testState.all 5 0x10001).all 6 0x10001) 4 0 = 0x20001 := by decide +kernel
theorem test_imul_affine_uniform : after (.imul false 33 32 34 0 7)
    (testState.withG fun g => (g.setAff 0 7 2).setUni 0 3) 33 5 = 51 := by decide +kernel
theorem test_imulhs : after (.imulhs false 4 5 6 0 7) ((testState.all 5 0xFFFFFFFF).all 6 2) 4 0 = 0xFFFFFFFF := by decide +kernel
theorem test_imulhn : after (.imulhn false 4 5 6 0 7) ((testState.all 5 0xFFFFFFFF).all 6 2) 4 0 = 1 := by decide +kernel
theorem test_imad : after (.imad false 4 5 6 4) (((testState.all 5 7).all 6 6).all 4 1) 4 0 = 43 := by decide +kernel
theorem test_imadw : after64 (.imadw false 2 6 7 4) (((testState.all 6 0xFFFFFFFF).all 7 3).all 8 2) 4 0 = 0xFFFFFFFFFFFFFFFF := by decide +kernel
theorem test_imadwn : after64 (.imadwn false 2 6 7 4) (((testState.all 6 0xFFFFFFFF).all 7 3).all 8 2) 4 0 = 0x2FFFFFFFF := by decide +kernel
theorem test_imin : after (.imin false 4 5 6 0 7) ((testState.all 5 0x80000000).all 6 1) 4 0 = 0x80000000
    ∧ after (.imin false 4 5 6 1 7) ((testState.all 5 0x80000000).all 6 1) 4 0 = 1 := by decide +kernel
theorem test_imax : after (.imax false 4 5 6 1 7) ((testState.all 5 0x80000000).all 6 1) 4 0 = 0x80000000 := by decide +kernel
theorem test_iabs_least : after (.iabs false 4 5 0 7) (testState.all 5 0x80000000) 4 0 = 0x80000000 := by decide +kernel
theorem test_ineg : after (.ineg false 4 5 3 7) (testState.all 5 0x01FF8000) 4 0 = 0xFF018000 := by decide +kernel
theorem test_idiv_zero : after (.idiv false 4 5 6 0 7) (testState.all 5 9) 4 0 = 0xFFFFFFFF := by decide +kernel
theorem test_idiv_truncates : after (.idiv false 4 5 6 0 7) ((testState.all 5 (-7)).all 6 2) 4 0 = -3 := by decide +kernel
theorem test_irem_zero : after (.irem false 4 5 6 0 7) (testState.all 5 9) 4 0 = 9 := by decide +kernel
theorem test_irem_sign : after (.irem false 4 5 6 0 7) ((testState.all 5 (-7)).all 6 2) 4 0 = -1 := by decide +kernel
theorem test_iaccw : after64 (.iaccw false 2 6 0 7) ((testState.all 6 0xFFFFFFFF).all 4 3) 4 0 = 2
    ∧ after64 (.iaccw false 2 6 1 7) ((testState.all 6 0xFFFFFFFF).all 4 3) 4 0 = 0x100000002 := by decide +kernel
theorem test_addr : after64 (.addr false 2 3 8 3 7) ((testState.all 6 0x100).all 8 (-1)) 4 0 = 0xF8 := by decide +kernel
theorem test_addri : after64 (.addri false 2 3 0xFFF) testState 4 0 = 0xFFFFFFFFFFFFFFFF := by decide +kernel
theorem test_andn : after (.andn false 4 5 6 0 7) ((testState.all 5 0xFF).all 6 0x0F) 4 0 = 0xF0 := by decide +kernel
theorem test_andi_sign : after (.andi false 4 5 0xFF0) (testState.all 5 0x123456FF) 4 0 = 0x123456F0 := by decide +kernel
theorem test_shl_wide_count : after (.shl false 4 5 6 0 7) ((testState.all 5 1).all 6 32) 4 0 = 0 := by decide +kernel
theorem test_sar_wide_count : after (.sar false 4 5 6 0 7) ((testState.all 5 0x80000000).all 6 0x100) 4 0 = 0xFFFFFFFF := by decide +kernel
theorem test_shr_8x4 : after (.shr false 4 5 6 3 7) ((testState.all 5 0xF0F0F0F0).all 6 0x08040100) 4 0 = 0x000F78F0 := by decide +kernel
theorem test_shli_pair : after64 (.shli false 4 6 1 32) (testState.all 6 5) 4 0 = 0x500000000 := by decide +kernel
theorem test_bfx : after (.bfx false 4 5 7 28) (testState.all 5 0xABCD1234) 4 0 = 0xA := by decide +kernel
theorem test_bfxs : after (.bfxs false 4 5 3 28) (testState.all 5 0xABCD1234) 4 0 = 0xFFFFFFFA := by decide +kernel
theorem test_bfi : after (.bfi false 4 5 7 8) ((testState.all 5 0x77).all 4 0xFFFFFFFF) 4 0 = 0xFFFF77FF := by decide +kernel
theorem test_popc : after (.bitop false 4 5 0 7) (testState.all 5 0x80F00001) 4 0 = 6 := by decide +kernel
theorem test_ctz_zero : after (.bitop false 4 5 2 7) testState 4 0 = 32 := by decide +kernel

/-- The gang of the example of R103: width 8, lane 2 inactive, and its values. -/
def scanState : State :=
  ((testState.withG fun g =>
    { g with live := 3, width := 8, slices := [{ pc := 0x1200, active := 11 }, { pc := 0x1200, active := 15 }] }).reg 5 fun L =>
      nth 0 [3, 1, 4, 1, 5, 9, 2, 6] L).all 4 0xAA

-- R103's table
theorem test_scan_add : (upto 8).map (after (.scan false 4 5 0 7) scanState 4) = [3, 4, 0xAA, 5, 10, 19, 21, 27] := by decide +kernel
theorem test_scan_addx : (upto 8).map (after (.scan false 4 5 1 7) scanState 4) = [0, 3, 0xAA, 4, 5, 10, 19, 21] := by decide +kernel
theorem test_scan_max : (upto 8).map (after (.scan false 4 5 3 7) scanState 4) = [3, 3, 0xAA, 3, 5, 9, 9, 9] := by decide +kernel
theorem test_ired_add : (upto 8).map (after (.ired false 4 5 0 7) scanState 4) = [27, 27, 0xAA, 27, 27, 27, 27, 27] := by decide +kernel

/-- The result and the flags of a word in lane 0. -/
def resFlags (i : Instr) (s : State) (r : Nat) : Word × BitVec 5 := (after i s r 0, (got (exec i s)).g.fpstat)

-- R135's table
theorem test_cvt_bf16_tie : resFlags (.cvt false 4 5 2 0 0 7) (testState.all 5 0x3F808000) 4 = (0x3F80, 16) := by decide +kernel
theorem test_cvt_bf16_up : resFlags (.cvt false 4 5 2 0 2 7) (testState.all 5 0x3F808000) 4 = (0x3F81, 16) := by decide +kernel
theorem test_cvt_s32 : resFlags (.cvt false 4 5 4 0 0 7) (testState.all 5 0xC0200000) 4 = (-2, 16) := by decide +kernel
theorem test_cvt_s8_saturates : resFlags (.cvt false 4 5 7 0 1 7) (testState.all 5 0x4396599A) 4 = (0x7F, 1) := by decide +kernel
theorem test_cvt_nan : resFlags (.cvt false 4 5 6 0 3 7) (testState.all 5 0x7FC00000) 4 = (0, 1) := by decide +kernel
theorem test_cvt_f16_rn : resFlags (.cvt false 4 5 3 4 0 7) (testState.all 5 70000) 4 = (0x7C00, 20) := by decide +kernel
theorem test_cvt_f16_rz : resFlags (.cvt false 4 5 3 4 1 7) (testState.all 5 70000) 4 = (0x7BFF, 20) := by decide +kernel
theorem test_cvt_s8_s32 : resFlags (.cvt false 4 5 7 4 0 7) (testState.all 5 (-1000)) 4 = (0xFFFFFF80, 0) := by decide +kernel
-- R137's examples
theorem test_qenc : resFlags (.qenc false 4 5 6 7) ((testState.all 5 0x3E99999A).all 6 0x3F800000) 4 = (11, 16) := by decide +kernel
theorem test_qenc_ties : (after (.qenc false 4 5 6 7) ((testState.all 5 0xBD380000).all 6 0x3F800000) 4 0,
    after (.qenc false 4 5 6 7) ((testState.all 5 0x3D200000).all 6 0x3F800000) 4 0) = (6, 8) := by decide +kernel
theorem test_qdec : after (.qdec false 4 5 6 7) ((testState.all 5 11).all 6 0x3F800000) 4 0 = 0x3EAC0000 := by decide +kernel

/-- The gang of the example of R139: width 4, one lane at 1.0 and three at 2^-24. -/
def fsumState : State :=
  (testState.withG fun g => { g with live := 1, width := 4, slices := [{ pc := 0x1200, active := 15 }] }).reg 5 fun L =>
    nth 0 [0x3F800000, 0x33800000, 0x33800000, 0x33800000] L

theorem test_fsum : resFlags (.fsum false 4 5 0 7) fsumState 4 = (0x3F800001, 16) := by decide +kernel
theorem test_fscan : (upto 4).map (after (.fscan false 4 5 0 7) fsumState 4) = [0x3F800000, 0x3F800000, 0x3F800000, 0x3F800000] := by
  decide +kernel
theorem test_fadd_infinities : resFlags (.fadd false 4 5 6 0 7) ((testState.all 5 0x7F800000).all 6 0xFF800000) 4 = (0x7FC00000, 1) := by
  decide +kernel
theorem test_fsub : after (.fsub false 4 5 6 0 7) ((testState.all 5 0x40400000).all 6 0x3F800000) 4 0 = 0x40000000 := by decide +kernel
theorem test_fmul_packed : after (.fmul false 4 5 6 3 7) ((testState.all 5 0x40003C00).all 6 0x40004000) 4 0 = 0x44004000 := by decide +kernel
theorem test_ffma32 : after (.ffma32 false 4 5 6 7) (((testState.all 5 0x40000000).all 6 0x40400000).all 7 0x3F800000) 4 0 = 0x40E00000 := by
  decide +kernel
theorem test_ffma64 : after64 (.ffma64 false 2 3 4 5) (((testState.all 7 0x40000000).all 9 0x40080000).all 11 0x3FF00000) 4 0 = 0x401C000000000000 := by
  decide +kernel
theorem test_fdot2 : after (.fdot2 false 4 5 6 7) (((testState.all 5 0x40003F80).all 6 0x40403F80).all 7 0x3F800000) 4 0 = 0x41000000 := by decide +kernel
theorem test_fmin_nan : resFlags (.fmin false 4 5 6 0 7) ((testState.all 5 0x7F800001).all 6 0x3F800000) 4 = (0x3F800000, 1) := by decide +kernel
theorem test_fmin_zero : after (.fmin false 4 5 6 0 7) (testState.all 6 0x80000000) 4 0 = 0x80000000 := by decide +kernel
theorem test_fmax_zero : after (.fmax false 4 5 6 0 7) (testState.all 5 0x80000000) 4 0 = 0 := by decide +kernel
theorem test_fsgn : resFlags (.fsgn false 4 5 6 0 7) ((testState.all 5 0x7F800001).all 6 0x80000000) 4 = (0xFF800001, 0) := by decide +kernel
theorem test_fcmp_signalling : (got (exec (.fcmp false 1 5 6 0 2) (testState.all 5 0x7FC00000))).g.fpstat = 1 := by decide +kernel
theorem test_fcmp_zero : (got (exec (.fcmp false 1 5 6 0 0) (testState.all 5 0x80000000))).g.pred 1 0 = true := by decide +kernel
theorem test_fclass : after (.fclass false 4 5 3 7) (testState.all 5 0x7C018000) 4 0 = 0x00010020 := by decide +kernel
theorem test_frnd : resFlags (.frnd false 4 5 0 0 7) (testState.all 5 0x40200000) 4 = (0x40000000, 0) := by decide +kernel
theorem test_fdiv_zero : resFlags (.fdiv false 4 5 6 0 7) ((testState.all 5 0x3F800000).all 6 0x80000000) 4 = (0xFF800000, 2) := by decide +kernel
theorem test_fsqrt : resFlags (.fsqrt false 4 5 0 7) (testState.all 5 0x40800000) 4 = (0x40000000, 0) := by decide +kernel
theorem test_frcp_zero : resFlags (.frcp false 4 5 7) (testState.all 5 0x80000000) 4 = (0xFF800000, 2) := by decide +kernel
theorem test_frsq : resFlags (.frsq false 4 5 7) (testState.all 5 0x40800000) 4 = (0x3F000000, 0) := by decide +kernel
theorem test_fexp2 : resFlags (.fexp2 false 4 5 7) (testState.all 5 0x40400000) 4 = (0x41000000, 0) := by decide +kernel
theorem test_flog2 : resFlags (.flog2 false 4 5 7) (testState.all 5 0x41000000) 4 = (0x40400000, 0) := by decide +kernel
theorem test_fsin_infinity : resFlags (.fsin false 4 5 7) (testState.all 5 0x7F800000) 4 = (0x7FC00000, 1) := by decide +kernel
theorem test_fcos_zero : resFlags (.fcos false 4 5 7) testState 4 = (0x3F800000, 0) := by decide +kernel
theorem test_cvtp : after (.cvtp false 4 5 6 1 7) ((testState.all 5 0x3F800000).all 6 0x40000000) 4 0 = 0x40003C00 := by decide +kernel
theorem test_fscale : after (.fscale false 4 5 6 0 7) ((testState.all 5 0x3F800000).all 6 (-1)) 4 0 = 0x3F000000 := by decide +kernel
theorem test_fmovi : after (.fmovi false 4 0xFE00) testState 4 0 = 0x3F800000 := by decide +kernel

/-- A field of a slice of the gang after a word. -/
def sliceAfter (i : Instr) (s : State) (k : Nat) : Slice := (got (exec i s)).g.slice k

theorem test_bra_back : (sliceAfter (.bra 7 1 0x7FFFE) testState 2).pc = 0x11E8 := by decide +kernel
theorem test_bra_none : (got (exec (.bra 0 1 1) testState)).iss.moved = 0 := by decide +kernel
theorem test_call_link : ((sliceAfter (.call 7 1 2) testState 0).pc, (sliceAfter (.call 7 1 2) testState 0).link) = (0x1218, 0x120C) := by decide +kernel
theorem test_jmp : (sliceAfter (.jmp 2 7) (testState.all 4 0x2400) 7).pc = 0x2400 := by decide +kernel
theorem test_jmp_misaligned : let t := got (exec (.jmp 2 7) (testState.all 4 0x2401))
    (t.g.trapCause, t.g.trapAddr, t.g.trapPc, (t.g.slice 0).pc) = (0x00000001, 0x2401, 0x1200, 0x2400) := by decide +kernel
theorem test_calli : (sliceAfter (.calli 2 7) (testState.all 4 0x2400) 7).link = 0x120C := by decide +kernel
theorem test_ret : (sliceAfter .ret (testState.withG fun g => g.modSlice 0 fun sl => { sl with link := 0x2400 }) 0).pc = 0x2400 := by decide +kernel
theorem test_mkpush : let sl := sliceAfter (.mkpush false 0) (testState.withG fun g => g.setPred 0 [1, 2] fun _ => true) 0
    (sl.active, sl.stack) = (6, [15]) := by decide +kernel
theorem test_mkctl_else : (sliceAfter (.mkctl false 0) (testState.withG fun g => { g with slices := g.slices.map fun sl =>
    { sl with active := 6, stack := [15] } }) 0).active = 9 := by decide +kernel
theorem test_mkctl_empty : (got (exec (.mkctl false 1) testState)).g.trapCause = 4 := by decide +kernel
theorem test_regang_waits : (sliceAfter (.regang 3) (testState.oneSlice 15) 0).wait = .regang 3 0x1200 := by decide +kernel
theorem test_exit : (got (exec .exit (testState.oneSlice 15))).g.live = 0xFE := by decide +kernel
theorem test_sleep : (sliceAfter (.sleep 100) testState 0).wait = .sleep 100 100 1601 := by decide +kernel
theorem test_trap : let t := got (exec (.trap 5) testState)
    (t.g.trapCause, t.g.trapPc, (t.g.slice 3).pc, (t.g.slice 3).priv) = (0x00000510, 0x1200, 0x2400, true) := by decide +kernel
theorem test_trap_resumes_after : ((got (exec (.trap 5) testState)).g.frame.map fun f => (nth {} f.slices 0).pc) = some 0x1201 := by decide +kernel
theorem test_brk : let t := got (exec (.brk 0x20) testState)
    (t.g.trapCause, (t.g.slice 0).pc, t.g.mode) = (0x00002011, 0x3600, .inDebug) := by decide +kernel
theorem test_rte : let t := got (exec .rte ((got (exec (.trap 5) testState)).withG fun g => { g with stop := none }))
    ((t.g.slice 3).pc, (t.g.slice 3).priv, t.g.mode, t.g.frame) = (0x1201, false, .running, none) := by decide +kernel
theorem test_rte_unprivileged : (got (exec .rte testState)).g.trapCause = 2 := by decide +kernel
theorem test_waitf : (sliceAfter (.waitf 9) testState 0).wait = .waitf 9 := by decide +kernel
theorem test_rds_gang_id : after (.rds false 4 0x010) testState 4 0 = 5 := by decide +kernel
theorem test_rds_privileged : (got (exec (.rds false 4 0x110) testState)).g.trapCause = 2 := by decide +kernel
theorem test_rds_core_cfg : after64 (.rds false 4 0x100) testState.asPriv 4 0 = 0x0200080004200010 := by decide +kernel
theorem test_wrs_mq_dest : (got (exec (.wrs false 4 0x041) (testState.all 4 0x47))).g.mqDest = 7 := by decide +kernel
theorem test_fpstat : after (.rdsGangFpstat false 4) (got (exec (.wrsGangFpstat false 4) (testState.all 4 0xFFFFFFF1))) 4 0 = 0x11 := by decide +kernel
theorem test_unallocated_register : (got (exec (.mov false 4 40 7) testState)).g.trapCause = 3 := by decide +kernel
theorem test_affine_destination : (got (exec (.unif false 32 4 7) testState)).g.trapCause = 3 := by decide +kernel

-- the example of R322: the GST of f2 and the LDW of f3 in flight when the page of the GST turns out to lack write permission
def frameState : State :=
  let gst : Flight :=
    { id := 7, op := { kind := .gst, space := .g, size := 4, reg := 5 }, word := 0x7914A220, pc := 0x3000, slice := 0, slices := 3, flag := 2
      exec := 0xFF, remain := 0xFF, addr := (upto 8).map fun L => (L, BitVec.ofNat 64 (0x600000 + 4 * L)), data := [], casv := [] }
  let ldw : Flight :=
    { id := 8, op := { kind := .ldw, space := .s, size := 4, reg := 7 }, word := 0x711C8304, pc := 0x3002, slice := 0, slices := 3, flag := 3
      exec := 0xFF, remain := 0xFF, addr := [], data := [], casv := [], parked := some 9 }
  testState.withG fun g =>
    { g with
      width := 8, live := 3, flights := [gst, ldw]
      slices := (upto 2).map fun _ => { pc := 0x300C, active := 15, flags := [{ flag := 2, op := 7, win := 0 }, { flag := 3, op := 8, win := 0 }] } }

/-- The frame after the GST has taken XLT for want of permission. -/
def frameAfter : State :=
  match frameState.g.flights with
  | f :: _ => frameState.faultWord f 6 2 0x600000
  | [] => frameState

theorem test_frame_cause : (frameAfter.g.trapCause, frameAfter.g.trapPc, (frameAfter.g.slice 1).pc) = (0x00000206, 0x3000, 0x2400) := by decide +kernel
theorem test_frame_entries : (frameAfter.g.frame.map fun f => ((upto 8).map fun k => frameWord f.slices f.entries (32 + k), frameWord f.slices f.entries 8))
    = some ([0x7914A220, 0x00003000, 0x02600000, 0x000000FF, 0x711C8304, 0x00003002, 0x03000000, 0x000000FF], 0x300C) := by decide +kernel
-- TRAP.Q at SEL 35 with 0 drops every lane of entry 0
theorem test_trap_q_drops_lanes : ((got (exec (.wrsTrapQ false 4) ((frameAfter.asPriv).withG fun g => { g with trapSel := 35 }))).g.frame.map fun f =>
    f.entries.map Flight.remain) = some [0, 0xFF] := by decide +kernel

-- words of memory at issue
theorem test_ld_holds_when_pending : (got (exec (.ld false 4 5 2 0 1 0) (testState.withG fun g => g.modSlice 0 fun sl =>
    { sl with flags := [{ flag := 2, op := 1, win := 0 }] }))).iss.held = true := by decide +kernel
theorem test_ld_lane_kill : let t := got (exec (.ld false 4 5 2 0 1 0) (testState.reg 5 fun L => if L = 9 then 4096 else 0))
    (t.g.killed, t.g.killCause, (t.g.slice 2).active) = (0x200, 1, 13) := by decide +kernel
theorem test_ld_misaligned : (got (exec (.ld false 4 5 2 0 1 0) (testState.all 5 2))).g.killCause = 2 := by decide +kernel
theorem test_gst_misaligned : let t := got (exec (.gst false 4 3 2 0 0) (testState.all 6 2))
    (t.g.trapCause, t.g.trapAddr) = (6, 2) := by decide +kernel
theorem test_fence_orders : ((got (exec (.fence false 0 0 1) frameState)).g.fences.map FenceRec.waits) = [[8]] := by decide +kernel

/-- A state whose gang has one word in flight, in lanes 0 and 1 of a space of S, as word 7. -/
def wordState (k : MemKind) (size : Nat) (signed : Bool) (data : Nat) : State :=
  let f : Flight :=
    { id := 7, op := { kind := k, space := .s, size := size, reg := 4, signed := signed }, word := 0, pc := 0x1200, slice := 0, slices := 255, flag := 15
      exec := 3, remain := 3, addr := [(0, 0), (1, 4)], place := [(0, atS 2 0), (1, atS 2 4)], data := [(0, BitVec.ofNat 128 data), (1, BitVec.ofNat 128 data)]
      casv := [] }
  { (testState.withG fun g => { g with flights := [f] }) with mem := [(atS 2 0, 0x80), (atS 2 1, 0x7F), (atS 2 4, 1)] }

theorem test_load_signed : let t := got (exec (.scratchpadLoadComplete 3 7) (wordState .ldx 1 true 0))
    (t.g.val 4 0, t.g.val 4 1, t.g.flights) = (0xFFFFFF80, 1, []) := by decide +kernel
theorem test_load_word : (got (exec (.scratchpadLoadComplete 3 7) (wordState .ld 4 false 0))).g.val 4 0 = 0x7F80 := by decide +kernel
theorem test_ldt_empties : (got (exec (.scratchpadLoadComplete 3 7) (wordState .ldt 4 false 0))).empty = [atS 2 0 / 16] := by decide +kernel
theorem test_store : let t := got (exec (.scratchpadStoreComplete 3 7) (wordState .st 4 false 0x01020304))
    (memNat t.mem (atS 2 0) 4, memNat t.mem (atS 2 4) 4, Memory.wf t.mem) = (0x01020304, 0x01020304, true) := by decide +kernel
theorem test_store_removes_zero : (got (exec (.scratchpadStoreComplete 3 7) (wordState .st 4 false 0))).mem = [] := by decide +kernel

/-- The atomic of the tests: lane 0, place 0 of S, returning. -/
def atomState (aop ty size : Nat) (data cas : Nat) : State :=
  (wordState .atom size false data).withG fun g => { g with flights := g.flights.map fun f =>
    { f with op := { f.op with aop := aop, aty := ty }, exec := 1, remain := 1, casv := [(0, BitVec.ofNat 128 cas)] } }

theorem test_atom_add : let t := got (exec (.atomComplete 3 7) (atomState 0 0 4 1 0))
    (t.g.val 4 0, memNat t.mem (atS 2 0) 4) = (0x7F80, 0x7F81) := by decide +kernel
theorem test_atom_mins : memNat (got (exec (.atomComplete 3 7) (atomState 2 0 4 0xFFFFFFFF 0))).mem (atS 2 0) 4 = 0xFFFFFFFF := by decide +kernel
theorem test_atom_cas : memNat (got (exec (.atomComplete 3 7) (atomState 10 0 4 0x7F80 5))).mem (atS 2 0) 4 = 5
    ∧ memNat (got (exec (.atomComplete 3 7) (atomState 10 0 4 0x7F81 5))).mem (atS 2 0) 4 = 0x7F80 := by decide +kernel

-- matrix words, channels, events
theorem test_claim : ((got (exec (.claim false 6 3) testState)).b.slotTab) = [(6, { phys := 0, ty := 3 })] := by decide +kernel
theorem test_claim_twice : (got (exec (.claim false 6 3) (got (exec (.claim false 6 3) testState)))).g.trapCause = 10 := by decide +kernel
theorem test_chclose_unopened : (got (exec (.chclose false 3) testState)).g.trapCause = 9 := by decide +kernel
theorem test_unbound_waitany : let t := got (exec (.waitany 0 255) testState)
    ((t.g.slice 0).cause, (t.g.slice 0).pc) = (0xFF, 0x1201) := by decide +kernel
theorem test_launch_without_capability : (got (exec (.launch false 0 5) testState)).g.trapCause = 8 := by decide +kernel
theorem test_evict_unprivileged : (got (exec (.evict false) testState)).g.trapCause = 2 := by decide +kernel
theorem test_waitc_takes_young : (sliceAfter (.waitc 1 1) (testState.withG fun g => { g with kops := [{ id := 1, cls := 1 }, { id := 2, cls := 1 }] }) 0).wait
    = .waitc 1 1 [1] := by decide +kernel

-- checks and codes
theorem test_crc32c : crc32c ((List.range 9).map fun i => BitVec.ofNat 8 (0x31 + i)) = 0xE3069283 := by decide +kernel
theorem test_crc64 : crc64 ((List.range 9).map fun i => BitVec.ofNat 8 (0x31 + i)) = 0x6C40DF5F0B497347 := by decide +kernel

/-- The fabric of a package whose dies have all been found, with the levels of R363. -/
def foundFabric : Fabric :=
  { links := nominalWires.map fun w => { nodeA := w.nodeA, portA := w.portA, nodeB := w.nodeB, portB := w.portB, bw := w.bw, cost := linkCost w.bw }
    nodes := (upto 14).map fun n => (n, { found := true, level := if n = 12 then 0 else 1 }) }

-- R375: the route from CD0 to MD6 leads through CD3, which is behind port 1
theorem test_route : Store.find (pathRounds foundFabric.key foundFabric.edges 2 [(20, (0, 0, 10, 0)), (21, (0, 0, 10, 0))]) 0 = some (3, 2, 3, 1) := by
  decide +kernel

-- R442: with no good image in flash the boot stops at step 2
theorem test_boot_without_image : (got (exec .packageReset State.reset)).plat.bootFail = some 2 := by decide +kernel

-- management: outside a session, malformed, done
theorem test_pkgnum : (got (exec (.pkgnum 65536) testState)).plat.answers = [(3, [])] ∧ (got (exec (.pkgnum 65535) testState)).fab.pkg = 65535 := by decide +kernel
theorem test_keyload_needs_session : (got (exec (.keyload false 1 7) testState)).plat.answers = [(2, [])] := by decide +kernel
theorem test_screen_bounds : ((got (exec (.screen 3) testState)).ck.q, (got (exec (.screen 4) testState)).ck.q, (got (exec (.screen 20) testState)).ck.q) = (10, 4, 20) := by
  decide +kernel

-- a placed word is the next one issued
theorem test_step_runs_movi : (got (step (State.reset.withFetchWord 32 0x03105678))).g.val 4 0 = 0x5678 := by decide +kernel
theorem test_step_traps_undefined : (got (step (State.reset.withFetchWord 32 0x3A000000))).g.mode = .halted := by decide +kernel

/-! ## The hypotheses of the statements are met -/

/-! ## What the hypotheses of the statements ask for can be met

One theorem for each statement that has hypotheses: a state and operands that meet them, clause by clause. -/

theorem witness_MovesAndLaneExchange : Writable testState 1 4 [(1, 5), (1, 6)] ∧ ¬Writable testState 1 32 [(1, 5)] ∧ ¬Writable testState 1 38 []
    ∧ ¬Readable testState [(1, 4), (1, 38)] ∧ (5 ∈ testState.exec 7 ∧ 40 ∉ testState.exec 7) := by
  unfold Writable Readable; decide +kernel

theorem witness_PredicateWords : Readable testState [(2, 4), (2, 36)] ∧ ¬Readable testState [(2, 31)] ∧ 31 ∈ testState.exec 7 := by
  unfold Readable; decide +kernel

theorem witness_IntegerAndLogic : Writable testState 2 4 [(2, 6), (2, 30)] ∧ ¬Writable testState 2 31 [] ∧ testState.isAffine 33 = true
    ∧ ¬Readable testState [(2, 31)] := by
  unfold Writable Readable; decide +kernel

theorem witness_WideAndAccumulate : Writable testState 2 4 [(1, 6), (1, 7), (2, 8)] ∧ ¬Writable testState 2 32 [(2, 4)]
    ∧ ¬Readable testState [(2, 34), (1, 38)] := by
  unfold Writable Readable; decide +kernel

theorem witness_ShiftsAndBitFields : Writable testState 2 4 [(2, 6), (1, 8)] ∧ Writable testState 1 37 [(1, 31)] ∧ ¬Writable testState 1 38 [] := by
  unfold Writable Readable; decide +kernel

theorem witness_ScanWords : Writable scanState 2 4 [(1, 5)] ∧ scanState.exec 7 = [0, 1, 3, 4, 5, 6, 7] ∧ ¬Writable scanState 1 33 [(1, 5)]
    ∧ testState.exec 0 = [] := by
  unfold Writable Readable; decide +kernel

/-- The test gang with affine r32, r33 and uniform r34 to r37. -/
def affState : State := testState.withG fun g => ((g.setAff 0 7 2).setAff 1 1 0).setUni 0 3

theorem witness_AffineWords : (AffOperand affState.src 32 7 2 ∧ AffOperand affState.src 34 3 0 ∧ AffOperand64 affState.src 32 0x100000007 2
      ∧ AffOperand64 affState.src 34 3 0)
    ∧ affState.src.shape 32 = .affine 0 ∧ Readable affState [(2, 32), (2, 32), (2, 34)] ∧ affState.src.shape 4 = .general
    ∧ Readable affState [(1, 32), (1, 4), (1, 4)] ∧ (affState.src.shape 33).same (.affine 0) = true ∧ (affState.src.shape 34).same (.uniform 0) = true := by
  unfold Readable
  refine ⟨⟨.inl ⟨0, ?_⟩, .inr ⟨0, ?_⟩, .inl ⟨0, ?_⟩, .inr ⟨0, ?_⟩⟩, ?_⟩ <;> decide +kernel

theorem witness_FloatArithmeticAndFunctions : Writable testState 2 4 [(2, 6), (2, 8)] ∧ ¬Writable testState 2 4 [(2, 31)] := by
  unfold Writable Readable; decide +kernel

theorem witness_FusedWords : Writable testState 2 8 [(2, 4), (2, 6), (2, 34)] ∧ ¬Writable testState 1 32 [(1, 4)] := by
  unfold Writable Readable; decide +kernel

theorem witness_ConvertWords : Readable testState [(2, 4), (2, 34)] ∧ ¬Readable testState [(2, 33)] ∧ Writable testState 2 4 [(1, 5)]
    ∧ ¬Writable testState 1 32 [] := by
  unfold Writable Readable; decide +kernel

theorem witness_Rounding : f32 ∈ [f16, bf16, f32, f64] ∧ 0x7FC00000 < 2 * f32.signBit ∧ (f32.val 0x7FC00000).isNan = true
    ∧ (f32.val 0x7F800001).isSnan = true ∧ (f32.val 0x80000000).isNan = false ∧ 12 % 2 ^ 2 = 0 := by
  decide +kernel

theorem witness_Transfers : Lands 0x1200 ∧ ¬Lands 0x1201 ∧ ¬Lands (0x1000000000000 + 8) ∧ Readable testState [(2, 2 * 2)] ∧ ¬Readable testState [(2, 2 * 20)]
    ∧ (∀ i ∈ testState.group, takesTransfer testState.src 7 false i = true) ∧ Lands 0xFFFFFFFFFFFC
    ∧ (0 ∈ testState.group ∧ takesTransfer testState.src 7 false 0 = true ∧ ¬Lands 1 ∧ ∀ j ∈ testState.group, j < 0 → Lands 1) := by
  unfold Lands Readable
  decide +kernel

theorem witness_MaskStack : (∀ i ∈ testState.group, (testState.src.slice i).stack.length < 4)
    ∧ (∃ i ∈ (testState.eachSlice fun sl => { sl with stack := [1, 2, 3, 4] }).group, 4 ≤ ((testState.eachSlice fun sl => { sl with stack := [1, 2, 3, 4] }).src.slice i).stack.length)
    ∧ (∀ i ∈ (testState.eachSlice fun sl => { sl with stack := [1] }).group, ((testState.eachSlice fun sl => { sl with stack := [1] }).src.slice i).stack ≠ [])
    ∧ ∃ i ∈ testState.group, (testState.src.slice i).stack = [] := by
  decide +kernel

/-- The test gang with a recorded abort, before the last word of its chain. -/
def abortState : State :=
  { (testState.withG fun g => { g with abort := some 0x600000 }) with iss := { wpc := 0x1200, last := 0x1202, len := 3 } }

/-- The test gang with a posted ATOM's lane on its way. -/
def postingState : State :=
  { abortState with posted := [{ id := 9, word := 8, lane := 0, gang := 3, block := 2, die := 0, core := 0, op := { kind := .atom, space := .g, size := 4, reg := 4 }
                                 addr := 0x600000, phys := 0x600000, leaf := 0, data := 1, ctx := 0, task := 1, late := false }] }

theorem witness_WaitsAndFences : abortState.postedWords = [] ∧ abortState.g.abort = some 0x600000 ∧ abortState.iss.wpc ≠ abortState.iss.last
    ∧ testState.g.abort = none ∧ postingState.postedWords = [8] ∧ postingState.g.abort ≠ none ∧ testState.src.slices.length = 8 := by decide +kernel

theorem stopsAtOnce_of (g : Gang) (h : g.flights = []) (hm : g.mode ≠ .halted) (hs : g.stop = none) : StopsAtOnce g :=
  ⟨hm, hs, by simp [h]⟩

theorem atLastWord_of (s : State) (hn : s.snap = none) (h : s.iss.wpc = s.iss.last ∧ s.iss.moved = 0 ∧ s.g.slices.length = 8
    ∧ (∀ i ∈ s.group, (s.g.slice i).wait = .none) ∧ s.group ≠ []) : AtLastWord s := by
  obtain ⟨hw, hm, hl, hr⟩ := h
  simpa [AtLastWord, State.src, hn, hw, hm, hl] using hr

/-- The test gang without an entry in its context. -/
def noEntryState : State := { testState with ctxs := [(0, { valid := true })] }

theorem witness_TakingAnException :
    (StopsAtOnce testState.g ∧ AtLastWord testState ∧ StopsAtOnce noEntryState.g ∧ StopsAtOnce testState.asPriv.g)
    ∧ testState.group ≠ [] ∧ (testState.ctx (testState.task testState.g.task).ctx).valid = true
    ∧ (testState.ctx (testState.task testState.g.task).ctx).trapent ≠ 0 ∧ Unprivileged testState.g testState.group
    ∧ (testState.ctx (testState.task testState.g.task).ctx).dbgent ≠ 0
    ∧ (noEntryState.ctx (noEntryState.task noEntryState.g.task).ctx).trapent = 0 ∧ Unprivileged noEntryState.g noEntryState.group
    ∧ ¬Unprivileged testState.asPriv.g testState.asPriv.group := by
  unfold Unprivileged
  refine ⟨⟨stopsAtOnce_of _ rfl ?_ rfl, atLastWord_of _ rfl ?_, stopsAtOnce_of _ rfl ?_ rfl, stopsAtOnce_of _ rfl ?_ rfl⟩, ?_⟩ <;> decide +kernel

/-- The test gang in its trap handler. -/
def trappedState : State := got (exec (.trap 5) testState)

/-- The test gang in a handler, with two words in flight and sixteen to be replayed. -/
def fullFrame : State :=
  let word (n : Nat) : Flight :=
    { id := n, op := { kind := .ld, space := .s, size := 4, reg := 4 }, word := 0, pc := 0x1200, slice := 0, slices := 255, flag := 15, exec := 1, remain := 1
      addr := [], data := [], casv := [] }
  trappedState.withG fun g =>
    { g with frame := g.frame.map fun f => { f with entries := (upto 16).map word }, flights := [word 20, word 21] }

theorem witness_ReturnFromException : Unprivileged testState.src testState.group ∧ testState.group ≠ []
    ∧ (∀ i ∈ trappedState.group, (trappedState.src.slice i).priv = true)
    ∧ (let fr := trappedState.g.frame.getD { slices := [], entries := [] }
      trappedState.g.frame = some fr ∧ trappedState.g.slices.length = 8
      ∧ ¬16 < trappedState.src.flights.length + ((trappedState.src.frame.map fun fr => fr.entries.length).getD 0)
      ∧ ∀ i < 8, trappedState.g.live.getLsbD i = true → (nth {} fr.slices i).pc.extractLsb' 0 2 ≠ 3 ∧ (nth {} fr.slices i).pc.toNat < 2 ^ 48
        ∧ (nth {} fr.slices i).regangAt = none)
    ∧ (∀ i ∈ fullFrame.group, (fullFrame.src.slice i).priv = true)
    ∧ 16 < fullFrame.src.flights.length + ((fullFrame.src.frame.map fun fr => fr.entries.length).getD 0) := by
  unfold Unprivileged
  decide +kernel

/-- A saved program counter that may not be restored. -/
def badReturnState : State := trappedState.withG fun g => { g with frame := g.frame.map fun f => { f with slices := f.slices.map fun sl => { sl with pc := 3 } } }

theorem witness_ReturnFromException_unrestorable : (∀ i ∈ badReturnState.group, (badReturnState.src.slice i).priv = true)
    ∧ ¬16 < badReturnState.src.flights.length + ((badReturnState.src.frame.map fun fr => fr.entries.length).getD 0)
    ∧ (let fr := badReturnState.g.frame.getD { slices := [], entries := [] }
      badReturnState.g.frame = some fr ∧ badReturnState.g.live.getLsbD 0 = true
      ∧ ¬((nth {} fr.slices 0).pc.extractLsb' 0 2 ≠ 3 ∧ (nth {} fr.slices 0).pc.toNat < 2 ^ 48)) := by
  decide +kernel

/-- The test gang with the first slices in its issuing group, the others as they are given. -/
def splitState (n : Nat) (others : Nat → Slice) : State :=
  testState.withG fun g => { g with slices := (upto 8).map fun i => if i < n then { pc := 0x1200, active := 15 } else others i }

/-- A slice that waits at a REGANG with a mask. -/
def waitsAt (w : DWord) (m : BitVec 8) : Slice := { pc := w, active := 15, grp := 7, wait := .regang m w }

/-- Slice 7 waits at the test gang's REGANG with mask 0xFF; the seven others issue. -/
def regangState : State := splitState 7 fun _ => waitsAt 0x1200 0xFF

/-- Slice 7 waits at a REGANG elsewhere, for all slices. -/
def strayState : State := splitState 7 fun _ => waitsAt 0x2700 0xFF

/-- Slice 7 runs elsewhere. -/
def apartState : State := splitState 7 fun _ => { pc := 0x2700, active := 15, grp := 7 }

/-- Slices 0 to 5 issue, slice 6 waits elsewhere for slice 7, which runs. -/
def thirdState : State := splitState 6 fun i => if i = 6 then { waitsAt 0x2700 0x80 with grp := 6 } else { pc := 0x2800, active := 15, grp := 7 }

/-- Where slice j waits once the issuing group has come to a REGANG with mask m, as the statement has it. -/
def arrivedAt (s : State) (m : BitVec 8) (j : Nat) : Option (BitVec 8 × DWord) :=
  if j ∈ s.group then some (m, s.iss.wpc) else (s.g.slice j).regangAt

/-- Slice i waits for slice j, among others. -/
def awaitsSlice (s : State) (m : BitVec 8) (i j : Nat) : Bool :=
  match arrivedAt s m i with
  | some (k, _) => k.getLsbD j && s.g.live.getLsbD j
  | none => false

theorem awaits_of (s : State) (m : BitVec 8) (i j : Nat) (p : Nat → Prop) (hj : j < 8) (h : awaitsSlice s m i j = true) (hp : p j) :
    ∃ k w x, arrivedAt s m i = some (k, w) ∧ x < 8 ∧ k.getLsbD x = true ∧ s.g.live.getLsbD x = true ∧ p x := by
  unfold awaitsSlice at h
  split at h
  next k w e =>
    rw [Bool.and_eq_true] at h
    exact ⟨k, w, j, e, hj, h.1, h.2, hp⟩
  next => exact absurd h (by simp)

set_option synthInstance.maxSize 1000 in
theorem witness_RejoiningAndEnding_all : AtLastWord regangState ∧ AtLastWord thirdState
    ∧ regangState.iss.wpc.extractLsb' 0 2 ≠ 3
    ∧ (∀ j < 8, j ∉ regangState.group → regangState.g.live.getLsbD j = true → arrivedAt regangState 0xFF j = some (0xFF, regangState.iss.wpc))
    ∧ (∃ j < 8, (0xFF : BitVec 8).getLsbD j = true ∧ regangState.g.live.getLsbD j = true)
    -- a mask of the six: slice 6 waits for slice 7, which waits for none
    ∧ (∃ j < 8, (0x3F : BitVec 8).getLsbD j = true ∧ thirdState.g.live.getLsbD j = true)
    ∧ awaitsSlice thirdState 0x3F 6 7 = true ∧ arrivedAt thirdState 0x3F 7 = none
    ∧ ∀ j < 8, j ∉ thirdState.group → (0x3F : BitVec 8).getLsbD j = false ∧ (j = 6 ∨ j = 7) := by
  refine ⟨atLastWord_of _ rfl ?_, atLastWord_of _ rfl ?_, ?_⟩ <;> decide +kernel

theorem witness_RejoiningAndEnding_alone : NoneRejoins apartState ∧ ∀ j < 8, ¬((0 : BitVec 8).getLsbD j = true ∧ apartState.g.live.getLsbD j = true) := by
  unfold NoneRejoins
  decide +kernel

theorem witness_RejoiningAndEnding_waits : AtLastWord apartState
    ∧ ∀ i < 8, i ∈ apartState.group ∨ apartState.g.live.getLsbD i = true → arrivedAt apartState 0x80 i = none
      ∨ (awaitsSlice apartState 0x80 i 7 = true ∧ arrivedAt apartState 0x80 7 = none) := by
  refine ⟨atLastWord_of _ rfl ?_, ?_⟩ <;> decide +kernel

theorem witness_RejoiningAndEnding_sync : (AtLastWord strayState ∧ StopsAtOnce strayState.g)
    ∧ (∀ j < 8, strayState.g.live.getLsbD j = true → arrivedAt strayState 0xFF j ≠ none
      ∧ ((awaitsSlice strayState 0xFF j 0 = true ∧ arrivedAt strayState 0xFF 0 ≠ arrivedAt strayState 0xFF j)
        ∨ (awaitsSlice strayState 0xFF j 7 = true ∧ arrivedAt strayState 0xFF 7 ≠ arrivedAt strayState 0xFF j)))
    ∧ (∀ j < 8, strayState.g.live.getLsbD j = true → (strayState.g.slice j).priv = false)
    ∧ (strayState.ctx (strayState.task strayState.g.task).ctx).valid = true ∧ (strayState.ctx (strayState.task strayState.g.task).ctx).trapent ≠ 0 := by
  refine ⟨⟨atLastWord_of _ rfl ?_, stopsAtOnce_of _ rfl ?_ rfl⟩, ?_⟩ <;> decide +kernel

theorem groupOf_none (s : State) (h : (nth {} (s.task s.g.task).members s.g.id).valid = 0) (k : Nat) : s.groupOf s.g k = none := by
  simp [State.groupOf, h]

/-- The gang of the tests as a member of no group, in a block of n + 1 gangs, of a task of four blocks. -/
def endState (s : State) (n : Nat) : State :=
  { (s.withG fun g => { g with id := 9 }) with
    gangs := (upto n).map fun k => { testGang with uid := 20 + k, id := 0 }
    tasks := s.tasks.map fun t => { t with record := { t.record with gangs := 4 } } }

theorem witness_RejoiningAndEnding_exit :
    (∀ s ∈ [endState apartState 1, endState testState 1, endState testState 0],
      s.g.slices.length = 8 ∧ s.group ≠ [] ∧ s.g.live = s.src.live ∧ s.g.killed = 0 ∧ s.g.frame = none ∧ s.allRetired (s.tasks.headD {}) = false
      ∧ s.tasks.length = 1 ∧ (s.tasks.headD {}).failing = false
      ∧ (s.tasks.headD {}).retired.length + 1 < (s.tasks.headD {}).record.gangs / (s.tasks.headD {}).record.home
      ∧ (nth {} (s.task s.g.task).members s.g.id).valid = 0 ∧ ∀ j < 8, (s.g.slice j).regangAt = none)
    -- one slice stays
    ∧ ((endState apartState 1).g.live.getLsbD 7 = true ∧ 7 ∉ (endState apartState 1).group ∧ (endState apartState 1).g.killed.extractLsb' 28 4 ≠ 15)
    -- none stays, with and without another gang of the block
    ∧ (∀ j < 8, (endState testState 1).g.live.getLsbD j = true → j ∈ (endState testState 1).group)
    ∧ (∀ j < 8, (endState testState 0).g.live.getLsbD j = true → j ∈ (endState testState 0).group)
    ∧ (∃ h ∈ (endState testState 1).gangs, h.uid ≠ 0 ∧ h.block = (endState testState 1).b.uid ∧ h.live ≠ 0)
    ∧ ∀ h ∈ (endState testState 0).gangs, ¬(h.uid ≠ 0 ∧ h.block = (endState testState 0).b.uid ∧ h.live ≠ 0) := by
  decide +kernel

/-- The barrier of the tests broken. -/
def brokenState (s : State) : State := s.modTask 1 fun t => { t with barriers := t.barriers.map fun b => { b with broken := true } }

theorem witness_Barriers : (AtLastWord testState ∧ AtLastWord apartState)
    ∧ testState.groupOf testState.g 1 = none ∧ testState.groupOf testState.g 0 = some 2
    ∧ ((brokenState testState).barrier (brokenState testState).g.task 2).broken = true ∧ (brokenState testState).groupOf (brokenState testState).g 0 = some 2
    ∧ (∀ s ∈ [testState, apartState], (s.barrier s.g.task 2).broken = false ∧ (s.arrival s.g 0).arrived = false
      ∧ ∀ i ∈ s.group, (s.arrival s.g 0).slices.getLsbD i = false)
    ∧ (∀ i < 8, testState.g.live.getLsbD i = true → (testState.arrival testState.g 0).slices.getLsbD i = true ∨ i ∈ testState.group)
    ∧ (∃ x ∈ (testState.task testState.g.task).barriers, x.num = 2) ∧ (testState.tasks.find? fun t => t.id == testState.g.task).isSome = true
    ∧ testState.tasks.length = 1 ∧ (testState.barrier testState.g.task 2).wide = false ∧ (testState.barrier testState.g.task 2).expected ≠ 0
    ∧ ∃ i < 8, apartState.g.live.getLsbD i = true ∧ (apartState.arrival apartState.g 0).slices.getLsbD i = false ∧ i ∉ apartState.group := by
  refine ⟨⟨atLastWord_of _ rfl ?_, atLastWord_of _ rfl ?_⟩, ?_⟩ <;> decide +kernel

/-- The gang's slices have all arrived and the phase goes on. -/
def arrivedState : State := testState.withG fun g => { g with arrivals := [(0, { slices := 255, arrived := true })] }

theorem witness_Barriers_outstanding : (arrivedState.barrier arrivedState.g.task 2).broken = false ∧ arrivedState.groupOf arrivedState.g 0 = some 2
    ∧ ((arrivedState.arrival arrivedState.g 0).arrived = true ∨ ∃ i ∈ arrivedState.group, (arrivedState.arrival arrivedState.g 0).slices.getLsbD i = true) := by
  decide +kernel

/-- A gang with a pending binding b2 and an armed one b5, and only slice 0 in its group. -/
def boundState : State := (testState.oneSlice 15).withG fun g => { g with binds := [(2, { kind := 3, arg := 1, handler := 0x2400, pending := true }), (5, { kind := 3, arg := 1, handler := 0x3600 })] }

theorem witness_WaitingForEvents : (AtLastWord testState ∧ AtLastWord boundState)
    ∧ armedIn testState.g 255 = [] ∧ boundState.group = [0]
    ∧ armedIn boundState.g 0x20 ≠ [] ∧ (∀ b ∈ armedIn boundState.g 0x20, b.2.pending = false)
    ∧ (armedIn boundState.g 255).find? (fun b => b.2.pending) = some (2, { kind := 3, arg := 1, handler := 0x2400, pending := true }) := by
  refine ⟨⟨atLastWord_of _ rfl ?_, atLastWord_of _ rfl ?_⟩, ?_⟩ <;> decide +kernel

theorem noneAwaitsAny_of (g : Gang) (h : ∀ i < 8, (g.slice i).wait = .none) : NoneAwaitsAny g := fun i hi m => by simp [h i hi]

/-- A BIND's handler in r6:r7, its argument in r5. -/
def bindState (arg : Word) (handler : Word) : State := (testState.all 5 arg).all 6 handler

theorem witness_BindingWords : NoneAwaitsAny (bindState 0 0x2400).g
    ∧ ¬Readable testState [(1, 38), (2, 6)] ∧ Readable (bindState 0 0x2400) [(1, 5), (2, 2 * 3)]
    ∧ (bindState 0 0x2400).lanes ≠ [] ∧ Lands ((bindState 0 0x2400).src.val64 (2 * 3) (leader (bindState 0 0x2400).lanes))
    ∧ (bindState 0 0x2400).argFault 0 ((bindState 0 0x2400).src.val 5 (leader (bindState 0 0x2400).lanes)) = 0
    ∧ ¬Lands ((bindState 0 0x2401).src.val64 (2 * 3) (leader (bindState 0 0x2401).lanes))
    ∧ (bindState 1 0x2400).argFault 0 ((bindState 1 0x2400).src.val 5 (leader (bindState 1 0x2400).lanes)) ≠ 0
    ∧ (testState.eachSlice fun sl => { sl with active := 0 }).lanes = [] ∧ Readable (testState.eachSlice fun sl => { sl with active := 0 }) [(1, 5), (2, 6)]
    ∧ Writable testState 1 4 [] ∧ ¬Writable testState 1 38 [] := by
  unfold Writable Readable Lands
  refine ⟨noneAwaitsAny_of _ ?_, ?_⟩ <;> decide +kernel

theorem slice_stack_le (s : State) (h : ∀ i < 8, (s.src.slice i).stack.length ≤ 4) (hl : s.src.slices.length ≤ 8) :
    ∀ i, (s.src.slice i).stack.length ≤ 4 := by
  intro i
  by_cases hi : i < 8
  · exact h i hi
  · have : s.src.slice i = {} := by
      unfold Gang.slice
      generalize s.src.slices = l at hl
      have : l.length ≤ i := by omega
      clear h hl hi
      induction l generalizing i with
      | nil => rfl
      | cons x l ih =>
        cases i with
        | zero => simp at this
        | succ k => exact ih k (by simpa using this)
    rw [this]; decide

theorem witness_SpecialRegisterReads : (∀ i, (testState.src.slice i).stack.length ≤ 4)
    ∧ (∀ i ∈ testState.asPriv.group, (testState.asPriv.src.slice i).priv = true)
    ∧ (∃ i ∈ testState.group, (testState.src.slice i).priv = false) ∧ testState.b.replay = none
    ∧ testState.c.idx < 112 ∧ testState.c.die < 4 ∧ testState.src.sched < 4 ∧ testState.c.lostSlots ≤ 32 ∧ testState.c.lostZt ≤ 16
    ∧ 128 * testState.c.lostSegs ≤ 2048 ∧ 64 * testState.c.lostS ≤ 512 ∧ Writable testState.asPriv 2 4 [] ∧ ¬Writable testState.asPriv 1 32 [] := by
  unfold Writable Readable
  refine ⟨slice_stack_le _ ?_ ?_, ?_⟩ <;> decide +kernel

theorem witness_SpecialRegisterWrites : (∃ i ∈ testState.group, (testState.src.slice i).priv = false) ∧ Readable testState [(2, 4)] ∧ ¬Readable testState [(2, 31)]
    ∧ (∀ i ∈ testState.asPriv.group, (testState.asPriv.src.slice i).priv = true) ∧ Readable testState.asPriv [(1, 4)] ∧ testState.asPriv.lanes ≠ []
    ∧ testState.asPriv.c.dbgCtl.getLsbD 16 = (testState.asPriv.src.val 4 (leader testState.asPriv.lanes)).getLsbD 16
    ∧ (testState.lanes.find? fun K => K / 4 == 7) = some 28 ∧ ((testState.oneSlice 0).lanes.find? fun K => K / 4 == 0) = none := by
  unfold Readable; decide +kernel

/-- A privileged gang that arms an injection at unit u. -/
def injectState (u : Nat) : State := testState.asPriv.all 4 (0x80000000 + BitVec.ofNat 32 (2 ^ 21 * u))

theorem witness_ErrorInjection : (∀ i ∈ (injectState 1).group, ((injectState 1).src.slice i).priv = true) ∧ Readable (injectState 1) [(1, 4)] ∧ (injectState 1).lanes ≠ []
    ∧ (injectState 1).ck.injLock = false ∧ ((injectState 1).src.val 4 (leader (injectState 1).lanes)).getLsbD 31 = true
    ∧ (((injectState 1).src.val 4 (leader (injectState 1).lanes)).extractLsb' 21 5).toNat < (injectState 1).b.zt
    ∧ (injectState 2).b.zt ≤ (((injectState 2).src.val 4 (leader (injectState 2).lanes)).extractLsb' 21 5).toNat
    ∧ (injectState 1).b.bound 1 = none
    ∧ ({ injectState 1 with b := { (injectState 1).b with slotTab := [(1, { phys := 3, ty := 0 })] } } : State).b.bound 1 = some { phys := 3, ty := 0 }
    ∧ ({ injectState 1 with ck := { (injectState 1).ck with injLock := true } } : State).ck.injLock = true := by
  unfold Readable; decide +kernel

/-- Flag f2 is pending in slice 7. -/
def flagState : State := testState.withG fun g => g.modSlice 7 fun sl => { sl with flags := [{ flag := 2, op := 1, win := 0 }] }

/-- Addresses of which lane 0 is good, lane 1 misaligned, lane 2 out of range and lane 3 on the last word of S. -/
def addrState : State := testState.reg 5 fun L => if L = 1 then 2 else if L = 2 then 4096 else if L = 3 then 4092 else BitVec.ofNat 32 (4 * L)

theorem witness_ScratchpadWords : MayLaunch addrState 2 ∧ ¬MayLaunch flagState 2 ∧ addrState.parkedHere < 32 ∧ Writable addrState 1 4 [(1, 5)]
    ∧ ¬Writable addrState 4 32 [(1, 5)] ∧ Readable addrState [(4, 4), (1, 5)] ∧ ¬Readable addrState [(4, 31), (1, 5)]
    ∧ addrState.spadAt addrState.g addrState.b .s 2 3 4092 4 = some (atS 2 4092) ∧ addrState.spadAt addrState.g addrState.b .s 2 2 4096 4 = none
    ∧ addrState.activeCopy (atS 2 0) 4 false = false := by
  unfold MayLaunch Writable Readable; decide +kernel

theorem witness_GlobalWords : MayLaunch testState 2 ∧ (testState.src.kops.filter fun k => k.cls == 1).length < 63 ∧ Readable testState [(1, 4), (2, 2 * 3)]
    ∧ ¬Readable testState [(1, 4), (2, 2 * 20)] ∧ (∀ L ∈ testState.lanes, ¬((testState.src.val64 6 L).extractLsb' 48 16 ≠ 0 ∨ (testState.src.val64 6 L).toNat % 4 ≠ 0))
    ∧ (let s := testState.reg 6 fun L => if L = 9 then 2 else 0
       9 ∈ s.lanes ∧ ((s.src.val64 6 9).extractLsb' 48 16 ≠ 0 ∨ (s.src.val64 6 9).toNat % 4 ≠ 0)
       ∧ ∀ K ∈ s.lanes, K < 9 → ¬((s.src.val64 6 K).extractLsb' 48 16 ≠ 0 ∨ (s.src.val64 6 K).toNat % 4 ≠ 0))
    ∧ ¬MayLaunch flagState 2 ∧ testState.lanes.length ≤ testState.postedRoom ∧ testState.src.flights.length < 16 ∧ testState.lanes ≠ [] ∧ testState.postedIn testState.b.die testState.b.core + testState.lanes.length ≤ 4096
    ∧ Writable testState 1 4 [(1, 5)] ∧ Writable testState 1 4 [(2, 6), (1, 5)] ∧ ¬Writable testState 1 32 [(1, 5)] := by
  unfold MayLaunch Writable Readable; decide +kernel

/-- A block that has bound slot names 1 and 2 to int8 slots, an image at 0 of S, and its gang privileged. -/
def slotState : State := { testState with b := { testState.b with slotTab := [(1, { phys := 0, ty := 3 }), (2, { phys := 1, ty := 4 })], sbytes := 65536 } }

/-- Its queue of matrix commands full. -/
def fullQueue : State := testState.withG fun g => { g with kops := (upto 63).map fun i => { id := 100 + i, cls := 3 } }

theorem witness_MatrixWords : (∀ p, ¬(p < (0 : Nat) ∧ ∀ x ∈ (slotState.b.slotTab : List (Nat × SlotBind)), x.2.phys ≠ p))
    ∧ ((testState.src.kops.filter fun k => k.cls == 3).length < 63 ∧ testState.c.mxq.length < 32) ∧ testState.lanes ≠ []
    ∧ ¬((fullQueue.src.kops.filter fun k => k.cls == 3).length < 63) ∧ fullQueue.lanes ≠ [] ∧ Readable slotState [(1, 5), (1, 6)] ∧ ¬Readable slotState [(1, 38), (1, 6)]
    ∧ Store.find slotState.b.slotTab 3 = none ∧ Store.find slotState.b.slotTab 1 = some { phys := 0, ty := 3 }
    ∧ (3 < slotState.b.slots ∧ ∀ x ∈ (slotState.b.slotTab : List (Nat × SlotBind)), x.2.phys ≠ 3)
    ∧ (testState.oneSlice 0).lanes = [] ∧ Readable (testState.oneSlice 0) [(1, 5), (1, 6)]
    ∧ ImageFault slotState 0 128 64 0 = none ∧ ImageFault slotState 65535 128 64 0 = some 65535 ∧ ImageFault slotState 8 128 64 0 = some 0
    ∧ slotState.storesPending 0 56 = false := by
  unfold Readable
  exact ⟨by omega, by decide +kernel⟩

/-- A matrix command of the test gang, with identity 8 and operation 7. -/
def cmdOf (w : Instr) : MxCmd :=
  { id := 8, gang := 3, kid := 7, block := 2, word := w, y := 0, z := 0, slotsR := [0, 1], slotsW := [], zR := [], zW := [0] }

/-- The state in which a command is the only one of its core. -/
def mxState (c : MxCmd) : State :=
  let s := slotState.withG fun g => { g with kops := [{ id := 7, cls := 3 }] }
  { s with c := { s.c with mxq := [c] } }

/-- The parameters of a MGEMM: one C tile of int8, slot names from 1, z tile 0, STAGE at 0. -/
def gemmBytes : List Byte :=
  leBytes 8 0x200000 ++ leBytes 8 0x210000 ++ leBytes 8 0x220000 ++ leBytes 2 1 ++ leBytes 2 1 ++ leBytes 2 1 ++ leBytes 1 2 ++ leBytes 1 0
    ++ leBytes 4 128 ++ leBytes 4 64 ++ leBytes 4 256 ++ leBytes 1 0 ++ leBytes 1 1 ++ leBytes 1 0 ++ leBytes 1 0 ++ leBytes 4 0 ++ leBytes 4 0

/-- A MGEMM, and the state with room for its stage and its four slots bound. -/
def gemmCmd : MxCmd := { cmdOf (.mgemm false 5) with params := gemmBytes }

def gemmState (c : MxCmd) : State :=
  let s := mxState c
  { s with b := { s.b with sbytes := 131072, slotTab := (upto 4).map fun i => (i + 1, { phys := i, ty := 0 }) } }

/-- A command that has started. -/
def runs (c : MxCmd) : MxCmd := { c with started := true }

/-- A command that is alone in its queue has the turn. -/
theorem hasTurn_alone (c : MxCmd) : HasTurn [c] c := .inr fun _ h => .inl (by simp_all)

/-- A command that may start: nothing accepted before it stands in its way. -/
def startableIn (s : State) (c : MxCmd) : Prop :=
  c.started = false ∧ c.ready = true ∧ s.b.evicting = false
    ∧ ∀ x ∈ acceptedBefore s.c.mxq 8, x.conflicts c = false ∧ (c.isGemm = true → x.isGemm = false)

def unmarkedIn (s : State) (c : MxCmd) : Prop :=
  s.ue = [] ∧ s.c.arrayUe = [] ∧ s.c.errInj.getLsbD 31 = false ∧ (∀ w ∈ c.after, s.unperformed w = false) ∧ c.id = 8 ∧ c.coll = none

theorem witness_MatrixSteps_start : (HasTurn (mxState (cmdOf (.mmai8 false 0 1 2))).c.mxq (cmdOf (.mmai8 false 0 1 2)) ∧ HasTurn (gemmState gemmCmd).c.mxq gemmCmd)
    ∧ (let c := cmdOf (.mmai8 false 0 1 2)
      (mxState c).focusCmd 8 = some (c, mxState c) ∧ Memory.wf (mxState c).mem = true ∧ startableIn (mxState c) c ∧ c.id = 8 ∧ c.isGemm = false)
    ∧ (gemmState gemmCmd).focusCmd 8 = some (gemmCmd, gemmState gemmCmd) ∧ Memory.wf (gemmState gemmCmd).mem = true ∧ startableIn (gemmState gemmCmd) gemmCmd
    ∧ gemmCmd.id = 8 ∧ gemmCmd.isGemm = true ∧ gemmCmd.step = 0 ∧ gemmCmd.tiles = 0 ∧ gemmCmd.status = 0
    ∧ (gemmState gemmCmd).gemmBad (parseGemm gemmCmd.params) = false := by
  unfold startableIn
  exact ⟨⟨hasTurn_alone _, hasTurn_alone _⟩, by decide +kernel⟩

theorem witness_MatrixSteps_malformed : (parseGemm (gemmBytes.take 47 ++ [1])).resv ≠ 0 ∧ (gemmState gemmCmd).b.sbytes < (parseGemm (gemmBytes.take 48 ++ leBytes 4 60000)).stage + 73728 := by
  decide +kernel

theorem witness_MatrixSteps_run : ∀ w ∈ [Instr.mmai8 false 0 1 2, .zclr false 0, .zld false 0 5 6],
    (mxState (runs (cmdOf w))).focusCmd 8 = some (runs (cmdOf w), mxState (runs (cmdOf w))) ∧ Memory.wf (mxState (runs (cmdOf w))).mem = true
      ∧ (runs (cmdOf w)).word = w ∧ unmarkedIn (mxState (runs (cmdOf w))) (runs (cmdOf w)) ∧ (runs (cmdOf w)).started = true ∧ (runs (cmdOf w)).tiles < 16 := by
  unfold unmarkedIn; decide +kernel

theorem witness_MatrixSteps_gemm : HasTurn (gemmState (runs gemmCmd)).c.mxq (runs gemmCmd)
    ∧ (gemmState (runs gemmCmd)).focusCmd 8 = some (runs gemmCmd, gemmState (runs gemmCmd))
    ∧ Memory.wf (gemmState (runs gemmCmd)).mem = true ∧ (runs gemmCmd).isGemm = true ∧ (runs gemmCmd).started = true ∧ unmarkedIn (gemmState (runs gemmCmd)) (runs gemmCmd)
    ∧ (parseGemm (runs gemmCmd).params).stepAt (runs gemmCmd).step = .zclr 0 ∧ (runs gemmCmd).status < 256 ∧ NoneParked (gemmState (runs gemmCmd)) := by
  unfold unmarkedIn NoneParked
  exact ⟨hasTurn_alone _, by decide +kernel⟩

/-- A part descriptor: 4-byte elements from S at `src` to S at `dst`, `n` of them, with the chunk object at 64. -/
def descBytes (src dst dsp n follow : Nat) : List Byte :=
  leBytes 8 src ++ leBytes 8 dst ++ leBytes 4 (1 + 256 * dsp + 2 ^ 24 * 2) ++ leBytes 4 (1 + 2 ^ 16 * (if dsp = 3 then 1 else 0)) ++ leBytes 4 n ++ leBytes 20 0
    ++ leBytes 4 4 ++ leBytes 20 0 ++ leBytes 4 4 ++ leBytes 20 0 ++ leBytes 4 64 ++ leBytes 4 7 ++ leBytes 4 follow ++ leBytes 4 0 ++ leBytes 16 0

/-- The block with a descriptor at 128 of S, sixteen bytes to copy from 1024 to 2048, and an idle chunk object of generation 7
at 64; register 5 of the test gang names the descriptor, register 6 the object. -/
def copyState (d : List Byte) : State :=
  let s := (slotState.all 5 128).all 6 64
  { s with mem := memWrite (memWrite (memWrite [] (atS 2 128) d) (atS 2 100) [7]) (atS 2 1024) (leBytes 8 0x1122334455667788) }

theorem witness_CopyWords_issue : (let s := copyState (descBytes 1024 2048 1 4 0)
      (s.src.kops.filter fun k => k.cls == 0).length < 63 ∧ (s.src.kops.filter fun k => k.cls == 5).length < 63 ∧ s.storesPending 128 128 = false
      ∧ Readable s [(1, 5)] ∧ ¬Readable s [(1, 38)] ∧ s.lanes ≠ [] ∧ (s.src.val 5 (leader s.lanes)).toNat = 128 ∧ 128 + 128 ≤ s.b.sbytes
      ∧ (parseDesc (memBytes s.mem (atS 2 128) 128)).chobj = 64 ∧ 64 + 64 ≤ s.b.sbytes
      ∧ s.markedIn [(atS 2 128, 128)] = [] ∧ s.hasEntry s.g.collN = false
      ∧ ({ s with ue := [atS 2 252 / 4] } : State).markedIn [(atS 2 128, 128)] ≠ [])
    ∧ ((testState.all 5 3968).src.val 5 0).toNat % 128 = 0 ∧ ((testState.all 5 3968).src.val 5 0).toNat + 128 = (testState.all 5 3968).b.sbytes
    ∧ testState.b.sbytes < ((testState.all 5 4096).src.val 5 0).toNat + 128
    ∧ (testState.oneSlice 0).lanes = [] ∧ Readable (testState.oneSlice 0) [(1, 5)]
    ∧ ¬(((testState.withG fun g => { g with kops := (upto 63).map fun i => { id := 100 + i, cls := 0 } }).src.kops.filter fun k => k.cls == 0).length < 63) := by
  unfold Readable; decide +kernel

theorem witness_CopyWords_cpmx : (let s := copyState (descBytes 1024 0 3 4 ((encodeNat (.mmai8 false 0 1 2)).getD 0))
      (∃ m, mmaOf (.mmai8 false 0 1 2) = some (m, 0, 1, 2) ∧ s.mmaSlots m 0 1 2 ≠ none ∧ testState.mmaSlots m 0 1 2 = none)
      ∧ (s.src.kops.filter fun k => k.cls == 3).length < 63 ∧ s.c.mxq.length < 32 ∧ s.hasEntry s.g.collN = false
      ∧ followOf (parseDesc (memBytes s.mem (atS 2 128) 128)).follow = some (.mmai8 false 0 1 2)
      ∧ Store.find s.b.slotTab (parseDesc (memBytes s.mem (atS 2 128) 128)).dslot ≠ none)
    ∧ followOf 0 = none ∧ followOf (((encodeNat (.mmai8 true 0 1 2)).getD 0)) = none := by
  refine ⟨⟨⟨_, rfl, ?_⟩, ?_⟩, ?_⟩ <;> decide +kernel

theorem witness_CopyWords_objects : (let s := copyState []
      s.storesPending 64 64 = false ∧ Readable s [(1, 6), (1, 7)] ∧ (s.src.val 6 (leader s.lanes)).toNat = 64 ∧ ¬Readable s [(1, 6), (1, 38)]
      ∧ s.markedIn [(atS 2 64, 64)] = [] ∧ ({ s with ue := [atS 2 64 / 4] } : State).markedIn [(atS 2 64, 64)] ≠ [])
    ∧ (let s := (copyState []).all 7 4096
       Readable s [(1, 7), (1, 5)] ∧ s.spadAt s.g s.b .s 3 0 4096 128 = some (atS 2 4096) ∧ s.spadAt s.g s.b .s 3 0 65536 16 = none)
    ∧ (testState.all 6 4032).b.sbytes = 4032 + 64 ∧ testState.b.sbytes < 4033 + 64 := by
  unfold Readable; decide +kernel

/-- The part of the test gang in the block's first collective. -/
def partOf (d : List Byte) : Part := { coll := 0, rank := 0, gang := 3, minor := 0, desc := some d, kid := 7, kid3 := none, late := false, base := 5 }

/-- The block with that part issued. -/
def partState (d : List Byte) : State :=
  let s := (copyState d).withG fun g => { g with kops := [{ id := 7, cls := 0 }] }
  { s with b := { s.b with parts := [partOf d] } }

theorem witness_CopySteps_start : (let d := descBytes 1024 2048 1 4 0
      let s := partState d
      Memory.wf s.mem = true ∧ NoneParked s ∧ (s.atBlock 2).b.uid = 2 ∧ (s.atBlock 2).b.parts = [partOf d] ∧ (s.atBlock 2).b.nextColl = 0
      ∧ (partOf d).coll = 0 ∧ (partOf d).minor = 0 ∧ (partOf d).kid3 = none
      ∧ (partOf d).desc.map parseDesc = some (parseDesc d) ∧ (s.atBlock 2).g.uid = 3 ∧ (s.atBlock 2).partsIn = true ∧ (s.atBlock 2).servedFirst = true
      ∧ memNat s.mem (atS 2 96) 1 = 0 ∧ memNat s.mem (atS 2 100) 4 = (parseDesc d).gen ∧ (s.atBlock 2).collBad [partOf d] = false
      ∧ 0 < (parseDesc d).count * 2 ^ (parseDesc d).esize ∧ (parseDesc d).ssp ≠ 0)
    ∧ (let d := descBytes 1024 2048 1 0 0
       (partState d).partsIn = true ∧ (partState d).servedFirst = true ∧ (partState d).collBad [partOf d] = true)
    ∧ (let s := { partState (descBytes 1024 2048 1 4 0) with mem := [(atS 2 96, 2)] }
       s.partsIn = true ∧ s.servedFirst = true ∧ memNat s.mem (atS 2 96) 1 ≠ 0) := by
  unfold NoneParked
  decide +kernel

/-- The collective running, one chunk to come. -/
def collOf (d : List Byte) : Coll := { num := 0, parts := [partOf d], obj := 64, gen := 7, expect := 1, landed := [], fail := none }

def collState (d : List Byte) : State :=
  let s := partState d
  { s with b := { s.b with parts := [], nextColl := 1, colls := [collOf d] } }

/-- What chunk 0 of the copy does: its four elements, each with its ends. -/
def readyOf (d : List Byte) : List Ready := ((collState d).chunkEnds 0 (wholeElems ((collOf d).elems 0))).1

theorem witness_CopySteps_chunk : (let d := descBytes 1024 2048 1 2 0
      let s := (collState d).atBlock 2
      NoneParked (collState d) ∧ s.b.uid = 2 ∧ s.b.colls.find? (fun x => x.num == 0) = some (collOf d) ∧ (collOf d).fail = none ∧ (collOf d).kill = false
      ∧ (collOf d).landed = [] ∧ (collOf d).orig = [] ∧ (∀ r ∈ (collState d).fab.requests, r.block ≠ 2 ∨ r.coll ≠ 0) ∧ (∀ x ∈ s.c.mxq, x.coll = none)
      ∧ (∀ e ∈ wholeElems ((collOf d).elems 0), e.d.dsp ≠ 4 ∧ e.part.minor ≤ 3) ∧ s.chunkWaits (collOf d) ((collOf d).elems 0) 0 = false
      ∧ memNat s.mem (atS 2 100) 4 = (collOf d).gen.toNat)
    ∧ ∃ a b, (collState (descBytes 1024 2048 1 2 0)).chunkEnds 0 (wholeElems ((collOf (descBytes 1024 2048 1 2 0)).elems 0)) = ([a, b], [])
        ∧ a.src = .flat (atS 2 1024) ∧ a.dst = .flat (atS 2 2048) ∧ b.src = .flat (atS 2 1028) ∧ b.dst = .flat (atS 2 2052)
        ∧ a.e.d.ssz = 4 ∧ b.e.d.ssz = 4 ∧ a.e.first = 0 ∧ a.e.last = 3 ∧ b.e.first = 0 ∧ b.e.last = 3 := by
  refine ⟨by unfold NoneParked; decide +kernel, ⟨_, _, rfl, ?_⟩⟩
  exact ⟨rfl, rfl, rfl, rfl, rfl, rfl, rfl, rfl, rfl, rfl⟩

/-- No holder has given up a line of a package that tracks none. -/
theorem noReply_none (s : State) (h : s.fab.lines = []) (d n : Nat) : s.noReply d n = false := by
  simp [State.noReply, State.line, h]

theorem witness_CopySteps_failure : (let d := descBytes 65536 2048 1 1 0
      let s := (collState d).atBlock 2
      ((∀ n, s.noReply s.b.die n = false) ∧ NoneParked (collState d))
        ∧ s.chunkEnds 0 (wholeElems ((collOf d).elems 0)) = ([], [.range 65536])
        ∧ s.b.colls.find? (fun x => x.num == 0) = some (collOf d) ∧ (collOf d).fail = none ∧ (collOf d).kill = false ∧ (collOf d).landed = []
        ∧ (∀ r ∈ s.fab.requests, r.block ≠ 2 ∨ r.coll ≠ 0)) := by
  exact ⟨⟨fun n => noReply_none _ rfl _ n, by unfold NoneParked; decide +kernel⟩, rfl, by decide +kernel⟩

theorem witness_CopySteps_end : (let d := descBytes 1024 2048 1 4 0
      let s := (collState d).atBlock 2
      Memory.wf (collState d).mem = true ∧ NoneParked (collState d) ∧ s.b.uid = 2
      ∧ s.b.colls.find? (fun x => x.num == 0) = some (collOf d) ∧ (collOf d).kill = false ∧ (collOf d).followed = false ∧ (partOf d).kid3 = none
      ∧ (∀ r ∈ s.fab.requests, r.block = 2 → r.coll = 0 → r.expired = true) ∧ (collOf d).parts = [partOf d] ∧ s.g.uid = (partOf d).gang ∧ (∀ x ∈ s.c.mxq, x.coll = none)
      ∧ ((collOf d).fail.map Prod.fst).getD 2 < 256)
    ∧ (let s := testState.withG fun g => { g with kops := [{ id := 7, cls := 0, work := .feset (atS 2 64) 32 false false }, { id := 8, cls := 0, work := .chreset 64 }] }
       s.g.uid = 3 ∧ (s.g.kop 7).map KOp.work = some (.feset (atS 2 64) 32 false false) ∧ atS 2 64 % 16 = 0
       ∧ (∀ o ∈ s.g.kops, o.cls = 0 → o.id < 7 → o.done = true))
    ∧ (let s := testState.withG fun g => { g with kops := [{ id := 7, cls := 0, done := true }, { id := 8, cls := 0, work := .chreset 64 }] }
       s.g.block = s.b.uid ∧ s.b.die = s.c.die ∧ s.b.core = s.c.idx ∧ (s.g.kop 8).map KOp.work = some (.chreset 64)
       ∧ ∀ o ∈ s.g.kops, o.cls = 0 → o.id < 8 → o.done = true) := by
  unfold NoneParked
  decide +kernel

/-- A flit that the test gang has sent itself through capability 0. -/
def flitOf (sender : Option Nat) (window : Option Nat) : Flit :=
  { id := 4, payload := leBytes 128 0x0102030405060708, tenant := 7, task := 1, sender := sender, window := window, cap := 0, chan := 2, seqno := 0
    dst := .queue 1 0 1, reply := none, kid := none }

/-- The block's queue 1 with one flit in it. -/
def queueState (f : Flit) : State := { testState with b := { testState.b with queues := [(1, [f])] } }

/-- Channel 2 open through capability 0. -/
def chanState : State := testState.withG fun g => { g with chans := [(2, { opened := true, cap := 0 })] }

theorem witness_QueueWords_send : Readable testState [(1, 4)] ∧ ¬Readable testState [(1, 38)] ∧ testState.src.chCur = 0
    ∧ testState.capOk (testState.task 1) ((testState.task 1).cap 0) [1, 2] 0 = true ∧ testState.capOk (testState.task 1) ((testState.task 1).cap 2) [1, 2] 0 = false
    ∧ (testState.src.kops.filter fun k => k.cls == 4).length < 63 ∧ testState.g.allowance 0 ≠ 0 ∧ testState.g.allowance 5 = 0 ∧ testState.b.replay = none
    ∧ (let s := chanState.withG fun g => { g with chCur := 2 }
       s.src.chCur.toNat ≠ 0 ∧ (s.src.chan 2).opened = true ∧ s.capOk (s.task 1) ((s.task 1).cap 0) [1, 3] 0 = true)
    ∧ ((testState.withG fun g => { g with chCur := 2 }).src.chan 2).opened = false := by
  unfold Readable; decide +kernel

theorem witness_QueueWords_receive : Writable testState 1 4 [] ∧ ¬Writable testState 1 32 [] ∧ testState.b.rq = 2 ∧ testState.queue 1 = []
    ∧ (queueState (flitOf (some 3) none)).queue 1 = [flitOf (some 3) none] ∧ (flitOf (some 3) none).sender = some testState.g.uid
    ∧ (flitOf (some 9) none).sender = some 9 ∧ 9 ≠ testState.g.uid ∧ (flitOf none (some 5)).sender = none ∧ (flitOf none (some 5)).window = some 5 := by
  unfold Writable Readable; decide +kernel

theorem witness_QueueWords_launch : (let s := testState.all 5 3968
      Readable s [(1, 5)] ∧ s.lanes ≠ [] ∧ (s.src.val 5 (leader s.lanes)).toNat + 128 = s.b.sbytes ∧ 3968 % 128 = 0
      ∧ s.capOk (s.task 1) ((s.task 1).cap 1) [2] 1 = true ∧ s.capOk (s.task 1) ((s.task 1).cap 0) [2] 1 = false ∧ s.g.allowance 1 ≠ 0
      ∧ s.storesPending 3968 128 = false ∧ (s.src.kops.filter fun k => k.cls == 4).length < 63
      ∧ s.markedIn [(atS 2 3968, 128)] = [] ∧ ({ s with ue := [atS 2 3968 / 4] } : State).markedIn [(atS 2 3968, 128)] ≠ [])
    ∧ testState.b.sbytes < 3969 + 128 ∧ (testState.oneSlice 0).lanes = [] := by
  unfold Readable; decide +kernel

theorem witness_QueueWords_channels : (testState.g.chan 2).opened = false ∧ testState.capOk (testState.task 1) ((testState.task 1).cap 0) [1, 3] 0 = true
    ∧ testState.capOk (testState.task 1) ((testState.task 1).cap 1) [1, 3] 0 = false ∧ (chanState.g.chan 2).opened = true
    ∧ (chanState.src.kops.filter fun k => k.cls == 4).length < 63 ∧ (chanState.flits.filter fun f => f.sender == some 3 && f.chan == 2).map Flit.id = []
    ∧ (let s := { chanState with flits := [flitOf (some 3) none] }
       (s.flits.filter fun f => f.sender == some s.g.uid && f.chan == 2).map Flit.id = [4])
    ∧ ¬(((testState.withG fun g => { g with kops := (upto 63).map fun i => { id := 100 + i, cls := 4 } }).src.kops.filter fun k => k.cls == 4).length < 63) := by
  decide +kernel

theorem witness_WitnessWords : Writable testState 4 8 [] ∧ ¬Writable testState 4 32 [] ∧ Writable testState 2 6 [] ∧ ¬Writable testState 2 32 []
    ∧ Writable testState 1 6 [(1, 5)] ∧ ¬Writable testState 1 6 [(1, 38)] ∧ testState.lanes ≠ [] ∧ (testState.oneSlice 0).lanes = []
    ∧ (let s := ((testState.all 5 4080).all 6 0).all 7 2
       Readable s [(1, 5), (2, 6)] ∧ (s.src.val 5 (leader s.lanes)).toNat + (s.src.val 7 (leader s.lanes)).toNat * 8 = s.b.sbytes ∧ 4080 % 16 = 0
       ∧ (s.task s.g.task).record.wclass ≠ 0 ∧ (s.src.kops.filter fun k => k.cls == 4).length < 63 ∧ s.storesPending 4080 16 = false
       ∧ s.markedIn [(atS s.b.uid 4080, 16)] = [] ∧ ({ s with ue := [atS 2 4092 / 4] } : State).markedIn [(atS s.b.uid 4080, 16)] ≠ [])
    ∧ testState.b.sbytes < 4080 + 3 * 8
    ∧ (let s := { testState with tasks := [{ id := 1 }] }
       (s.task s.g.task).record.wclass = 0) := by
  unfold Writable Readable; decide +kernel

/-- A table of two pages: those at virtual addresses 0x5000 and 0x6000 of context 0 stand at 0x200000 and 0x201000, readable
and writable. -/
def pageTable : List Host.Cell :=
  let entry (m : List Host.Cell) (x : Nat × Nat) : List Host.Cell := memWrite m x.1 (leBytes 8 x.2)
  [(0x100000, 1 + 2 ^ 20 * 0x102), (0x102000, 1 + 2 ^ 20 * 0x104), (0x104000, 1 + 2 ^ 20 * 0x106), (0x106050, 15 + 2 ^ 20 * 0x200), (0x106060, 15 + 2 ^ 20 * 0x201)].foldl entry []

/-- The test state with that table, and a save pool of sixteen slots. -/
def pageState : State :=
  { testState with
    mem := pageTable
    c := { saveBase := BitVec.ofNat 64 (16 * 2 ^ 56 + 0x4000000) }
    ck := { keys := [(0, 7)] }
    ctxs := [(0, { root := 0x100000, valid := true, tenant := 7, trapent := 0x2400, dbgent := 0x3600 })] }

/-- Its gang privileged, with a translation cached. -/
def tlbState : State := { pageState.asPriv with tlb := [{ holder := 0, ctx := 0, va := 0x9000, size := 4096, w0 := 0, w1 := 0, leaf := 0 }] }

theorem witness_TableWords : pageState.priv = false ∧ tlbState.priv = true
    ∧ (let s := (tlbState.all 10 0x5000).all 6 1
       Readable s [(2, 10), (1, 6)] ∧ s.lanes ≠ [] ∧ (s.src.val64 10 (leader s.lanes)).toNat = 0x5000 ∧ (s.src.val 6 (leader s.lanes)).toNat = 1)
    ∧ ¬Readable tlbState [(2, 38)] ∧ 1048576 < ((tlbState.all 6 1048577).src.val 6 0).toNat ∧ ((tlbState.all 6 0).src.val 6 0).toNat = 0
    ∧ ¬2 ^ 48 ≤ ((tlbState.all 11 0xFFFF).src.val64 10 0).toNat ∧ 2 ^ 48 ≤ ((tlbState.all 11 0x10000).src.val64 10 0).toNat
    ∧ (tlbState.oneSlice 0).lanes = [] ∧ (tlbState.oneSlice 0).asPriv.priv = true
    ∧ ((tlbState.all 6 128).src.val 6 0).toNat % 128 = 0 ∧ tlbState.poolFree 0 0 ≠ 0 ∧ testState.asPriv.poolFree 0 0 = 0 := by
  unfold Readable; decide +kernel

/-- The error of a translation, and the lines of its page's frames. -/
def xlatError (x : Except Nat Xlat) : Option Nat :=
  match x with
  | .error e => some e
  | .ok _ => none

def xlatLines (x : Except Nat Xlat) : List Nat :=
  match x with
  | .error _ => []
  | .ok x => x.bothLines

theorem witness_TableWords_lines : xlatError (tlbState.cwbXlat 0x7000) = some 1 ∧ xlatLines (tlbState.cwbXlat 0x5F80) = [lineOf 0x200F80]
    ∧ tlbState.fab.gen = 0 ∧ xlatError ({ tlbState with ue := [0x106050 / 4] }.cwbXlat 0x5F80) = some 3 := by
  decide +kernel

/-- Scheduler 1 is about to take its turn, and the test gang is its only one. -/
def turnState : State :=
  let s := testState.withG fun g => { g with sched := 1 }
  { s with c := { s.c with turn := 1 } }

theorem witness_SchedulingSteps_turn : (let u := turnState.focusCore 0 0
      let v := { u with c := { u.c with turn := 2 } }
      NoneAwaitsAny v.g ∧ u.c.turn = 1 ∧ v.gangsOf 1 = [3] ∧ v.focus 3 = v ∧ v.g.uid = 3 ∧ v.overSlices = [] ∧ v.g.fences = []
      ∧ (∀ i < 8, (v.g.slice i).sync = [] ∧ (v.g.slice i).backs = [])
      ∧ ∀ i < 8, ∀ j < 8, (v.g.slice i).grp = (v.g.slice j).grp →
            (v.g.slice i).pc = (v.g.slice j).pc ∧ ((v.g.slice i).wait = .none ↔ (v.g.slice j).wait = .none))
    ∧ ({ (turnState.focusCore 0 3) with c := { (turnState.focusCore 0 3).c with turn := 2 } }).gangsOf 1 = [] := by
  refine ⟨⟨noneAwaitsAny_of _ ?_, ?_⟩, ?_⟩ <;> decide +kernel

theorem witness_SchedulingSteps_gang : (let s := testState.withG fun g => { g with waits := 256, slices := (upto 8).map fun i => if i = 2 then { pc := 0x1200, wait := .sleep 4 0 100 } else {} }
      (s.focus 3).g.uid = 3 ∧ 256 ≤ (s.focus 3).g.waits ∧ (s.focus 3).g.waits - 1 < 256 ∧ ((s.focus 3).g.slice 2).wait = .sleep 4 0 100 ∧ (s.focus 3).g.mode ≠ .halted
      ∧ (s.focus 3).g.frame = none ∧ (s.focus 3).c.dbgCtl.getLsbD 16 = false ∧ (s.focus 3).c.cycle < 100
      ∧ 100 ≤ ({ s with c := { s.c with cycle := 100 } }.focus 3).c.cycle)
    ∧ (let st : Stop := { code := 6, info := 1, pc := 0x1200, addr := 0x5000, slice := 0, group := 255 }
       let s := testState.withG fun g => { g with stop := some st }
       let u := s.focus 3
       u.g.stop = some st ∧ (∀ f ∈ u.g.flights, (f.op.kind ≠ .atom ∧ f.remain ≠ 0) ∨ f.cause ≠ 0) ∧ Unprivileged u.g (bitsOf 8 st.group.toNat) ∧ st.code < 256
       ∧ (u.ctx (u.task u.g.task).ctx).valid = true ∧ (u.ctx (u.task u.g.task).ctx).trapent ≠ 0 ∧ (u.ctx (u.task u.g.task).ctx).dbgent ≠ 0) := by
  unfold Unprivileged; decide +kernel

/-- A memory word of the test gang with identity 4, for lanes 0 and 1. -/
def flightOf (k : MemKind) (sp : Space) : Flight :=
  { id := 4, op := { kind := k, space := sp, size := 4, reg := 8, aop := 0, aty := 1 }, word := 0, pc := 0x1200, slice := 0, slices := 255, flag := 3, exec := 3, remain := 3
    addr := [(0, 0x5000), (1, 0x5004)], place := [(0, atS 2 64), (1, atS 2 80)], data := [(0, 5), (1, 7)], casv := [], kid := none, late := false }

/-- The test gang with that word outstanding. -/
def flightState (s : State) (f : Flight) : State :=
  s.withG fun g => { g with flights := [f], slices := g.slices.map fun sl => { sl with flags := [{ flag := 3, op := 4, win := 0 }] } }

theorem witness_ScratchpadSteps : (∀ k ∈ [MemKind.ld, .ldw, .ldt, .lda, .ldx, .st, .stf, .strel, .stx],
      let f := flightOf k .s
      let u := (flightState testState f).focus 3
      Memory.wf testState.mem = true ∧ u.g.uid = 3 ∧ u.g.flight 4 = some f ∧ f.id = 4 ∧ Performs u f ∧ maskLanes f.remain = [0, 1] ∧ f.op.size ∈ [1, 2, 4, 8, 16]
      ∧ f.exec = f.remain ∧ f.got = [] ∧ (∀ i < u.g.slices.length, ∀ r ∈ (u.g.slice i).flags, r.op = 4 → r.win = 0) ∧ f.half = false
      ∧ u.g.regOk 1 f.op.reg = true ∧ u.g.shape f.op.reg = .general ∧ f.op.signed = false
      ∧ (∀ L ∈ maskLanes f.remain, granFull u.empty (Store.get 0 f.place L) = true ∧ u.olderWaiter f (Store.get 0 f.place L / 16) = false) ∧ NoneParked u)
    ∧ (let f := flightOf .ldw .s
       let s := { flightState testState f with empty := [atS 2 64 / 16, atS 2 80 / 16] }
       let u := s.focus 3
       (∀ L ∈ maskLanes f.remain, granFull u.empty (Store.get 0 f.place L) = false) ∧ f.parked = none ∧ u.parkedHere < 32 ∧ Performs u f
       ∧ Performs ({ flightState testState { f with parked := some 3 } with empty := s.empty }.focus 3) { f with parked := some 3 })
    -- a uniform destination, written and not
    ∧ (let f := { flightOf .ld .s with op := { (flightOf .ld .s).op with reg := 34 } }
       let h := { f with half := true, remain := 0 }
       (((flightState testState f).focus 3).g.shape f.op.reg = .uniform 0 ∧ Performs ((flightState testState f).focus 3) f)
       ∧ ((flightState testState h).focus 3).g.flight 4 = some h ∧ maskLanes h.remain = [] ∧ h.cause = 0) := by
  unfold Performs NoneParked; decide +kernel

/-- The word for one lane, and the state in which its page is there. -/
def laneOf (k : MemKind) (sp : Space) (walked : Bool) : Flight := { flightOf k sp with exec := 1, remain := 1, walked := walked }

/-- Die 0 holds every token of the line at 0x200000. -/
def ownedState : State := { pageState with fab := { pageState.fab with lines := [(lineOf 0x200000, { hold := [(0, { tokens := 64, owner := true, dirty := false, valid := true })] })] } }

theorem witness_GlobalSteps_gst : (let f := laneOf .gst .g true
      let u := (flightState ownedState f).focus 3
      let x : Xlat := { w0 := BitVec.ofNat 64 (15 + 2 ^ 20 * 0x200), w1 := 0, leaf := 0x106050, size := 4096, off := 0 }
      (∃ y, u.laneXlat .write f 0 = .ok y ∧ y = x)
      ∧ Memory.wf pageState.mem = true ∧ u.g.flight 4 = some f ∧ Performs u f ∧ maskLanes f.remain = [0] ∧ f.op.size ∈ [4, 8, 16] ∧ f.walked = true ∧ f.late = false
      ∧ u.xlatFault .write f = none ∧ x.ver = false ∧ x.pend = false ∧ u.isReplay u.b.uid = false ∧ u.b.replay = none ∧ u.b.gone = false
      ∧ u.reachable x.writePhys = true ∧ u.fab.lost.contains (lineOf x.writePhys) = false ∧ u.findBlock u.b.uid = some u.b
      ∧ u.noReply u.b.die (lineOf x.writePhys) = false ∧ u.b.die ∉ u.fab.bufUe
      ∧ (u.line (lineOf x.writePhys)).enough u.b.die true = true
      ∧ (((flightState pageState f).focus 3).line (lineOf x.writePhys)).enough u.b.die true = false ∧ u.fab.paused = false
      ∧ Store.find (((flightState pageState f).focus 3).line (lineOf x.writePhys)).wants u.b.die = none)
    ∧ (let f := laneOf .gst .g true
       ((flightState testState f).focus 3).xlatFault .write f = some (0, 1)) := by
  unfold Performs
  exact ⟨⟨⟨_, rfl, by decide +kernel⟩, by decide +kernel⟩, by decide +kernel⟩

theorem witness_GlobalSteps_atom : (∀ sp ∈ [Space.s, .g], ∀ walked ∈ [true, false],
      let f := laneOf .atom sp walked
      let u := (flightState pageState f).focus 3
      u.g.flight 4 = some f ∧ Performs u f ∧ maskLanes f.remain = [0] ∧ f.op.ret = true ∧ f.exec = f.remain ∧ f.got = [] ∧ f.late = false ∧ f.op.size ∈ [4, 8, 16]
      ∧ (∀ i < u.g.slices.length, ∀ r ∈ (u.g.slice i).flags, r.op = 4 → r.win = 0) ∧ u.g.regOk 1 f.op.reg = true ∧ u.g.shape f.op.reg = .general
      ∧ f.half = false ∧ u.noReply 4 (lineOf 0x200000) = false ∧ u.reachable 0x200000 = true
      ∧ u.xlatFault .atom f = none ∧ (u.line (lineOf 0x200000)).enough 4 true = true) := by
  unfold Performs; decide +kernel

/-- The misses of die 0 for some pages, each awaited by one word of the test gang. -/
def missesOf (l : List (Nat × Nat)) : List Miss := l.map fun x => { die := 0, ctx := 0, page := x.1, who := [(3, x.2)] }

/-- The test gang with two words that await their translation, and the misses of its die. -/
def missState (l : List (Nat × Nat)) : State :=
  let two (g : Gang) : Gang := { g with flights := g.flights ++ [{ laneOf .gst .g false with id := 5 }] }
  { (flightState pageState (laneOf .gst .g false)).withG two with misses := missesOf l }

/-- What the table of the walker holds for word 4. -/
def mineOf (s : State) : List Miss := (s.misses.filter s.awaited).filter fun m => m.has 3 4

theorem witness_GlobalSteps_walks : (let f := laneOf .gst .g false
      -- a miss of its own, into an empty table, beside another page, and into the walk of another word
      (∀ l ∈ [[], [(6, 5)], [(5, 5)]], let u := (missState l).focus 3
        u.g.flight 4 = some f ∧ Performs u f ∧ mineOf u = [] ∧ u.missing f = [5])
      ∧ (missesOf [(5, 5)]).any (fun m => m.of 0 0 5) = true ∧ (missesOf [(6, 5)]).all (fun m => !m.of 0 0 5) = true
      -- its walk ends; its walk is the 49th
      ∧ (let u := (missState [(5, 4)]).focus 3
        mineOf u = missesOf [(5, 4)] ∧ ((u.misses.filter u.awaited).filter fun m => m.die == u.b.die).take 48 = missesOf [(5, 4)]
        ∧ u.xlatFault .write f = none)
      ∧ (let u := (missState (((upto 48).map fun i => (16 + i, 5)) ++ [(5, 4)])).focus 3
        mineOf u ≠ [] ∧ ∀ m ∈ mineOf u, m ∉ ((u.misses.filter u.awaited).filter fun m => m.die == u.b.die).take 48)) := by
  unfold Performs
  decide +kernel

/-- A translation that the core's cache holds is used, or it is not (R354). -/
theorem witness_GlobalSteps_cached : (let f := laneOf .gst .g false
      let u := { (missState []).focus 3 with tlb := [{ holder := 0, ctx := 0, va := 0x5000, size := 4096, w0 := 0, w1 := 0, leaf := 0 }] }
      u.missing f = [] ∨ u.missing f = [5]) := by
  have h : ∀ l : List Nat, ∀ p : Nat → Bool, l = [5] → l.filter p = [] ∨ l.filter p = [5] := by
    intro l p e
    cases hp : p 5 <;> simp [e, hp]
  exact h _ _ (by decide +kernel)

/-- Two posted lanes of one word with one target, in S and in G. -/
def postedOf (id lane : Nat) (sp : Space) : Posted :=
  { id := id, word := 8, lane := lane, gang := 3, block := 2, die := 0, core := 0, op := { kind := .atom, space := sp, size := 4, reg := 0, aty := 1, ret := false }
    addr := 0x5000, phys := if sp = .g then 0x200000 else atS 2 64, leaf := 0x106050, data := 5, ctx := 0, task := 1, late := false }

theorem witness_PostedSteps : ∀ sp ∈ [Space.s, .g],
    let s := { pageState with posted := [postedOf 20 0 sp, postedOf 21 1 sp] }
    Memory.wf s.mem = true ∧ s.posted.find? (fun q => q.id == 20) = some (postedOf 20 0 sp) ∧ s.posted.find? (fun q => q.id == 21) = some (postedOf 21 1 sp)
    ∧ (∀ q ∈ s.posted, q.word ≠ 8 ∨ q.addr ≠ 0x5000 ∨ 0 ≤ q.lane) ∧ ¬(∀ q ∈ s.posted, q.word ≠ 8 ∨ q.addr ≠ 0x5000 ∨ 1 ≤ q.lane)
    ∧ s.g.uid = 3 ∧ s.g.block = s.b.uid ∧ s.b.die = s.c.die ∧ s.b.core = s.c.idx ∧ s.g.fences = [] ∧ s.ue = [] ∧ s.findBlock s.b.uid = some s.b ∧ s.b.replay = none
    ∧ s.b.gone = false
    ∧ (let x := s.postedXlat (postedOf 20 0 sp)
       x.ver = false ∧ x.pend = false ∧ s.reachable x.writePhys = true ∧ s.fab.lost.contains (lineOf x.writePhys) = false
       ∧ s.noReply 4 (lineOf x.writePhys) = false ∧ (s.line (lineOf x.writePhys)).enough 4 true = true) := by
  decide +kernel

/-- The last posted lane of a word, in G, when no memory die answers, and a draining FENCE that awaits the word. -/
def abortedState (fences : List FenceRec) : State :=
  let s := { pageState with posted := [postedOf 20 0 .g], fab := { pageState.fab with present := [] } }
  s.withG fun g => { g with fences := fences }

theorem witness_PostedSteps_abort : (let r : FenceRec := { at_ := 9, waits := [8], writesOnly := false, drain := some { pc := 0x1203, slice := 0, group := 255 } }
      ∀ l ∈ [[], [r]], let s := abortedState l
        s.reachable (s.postedXlat (postedOf 20 0 .g)).writePhys = false ∧ s.noReply 4 (lineOf (s.postedXlat (postedOf 20 0 .g)).writePhys) = false
        ∧ s.g.uid ≠ 0 ∧ s.g.live ≠ 0 ∧ s.g.fences = l ∧ (∀ f ∈ s.g.outstanding, f.id ≠ 8) ∧ (s.posted.filter fun q => q.id != 20) = []
        ∧ s.gangs ++ s.images.flatMap Image.gangs = [] ∧ s.g.stop = none ∧ s.b.evicting = false ∧ s.g.mode = .running) := by
  decide +kernel

/-- A flit of the test gang for an endpoint, on its way. -/
def sentTo (dst : Endpoint) (refused : Option Nat) (reserved : Bool) : Flit :=
  { flitOf (some 3) none with dst := dst, refused := refused, reserved := reserved }

def flitState (f : Flit) : State :=
  { testState with
    flits := [f]
    windows := [(3, { bound := true, tenant := 7 })]
    tasks := testState.tasks.map fun t => { t with record := { t.record with rq := 2 } } }

theorem witness_FlitSteps : (∀ dst ∈ [Endpoint.queue 1 0 1, .window 3],
      let s := flitState (sentTo dst none false)
      let r := flitState (sentTo dst (some 6) true)
      s.flits.find? (fun x => x.id == 4) = some (sentTo dst none false) ∧ (sentTo dst none false).sender = some s.g.uid
      ∧ ¬((sentTo dst none false).chan ≠ 0 ∧ ∃ x ∈ s.flits, x.sender = some 3 ∧ x.chan = 2 ∧ x.cap = 0 ∧ x.id < 4)
      ∧ s.endpointGone dst = false ∧ s.roomAt dst ≠ 0
      ∧ r.flits.find? (fun x => x.id == 4) = some (sentTo dst (some 6) true) ∧ r.endpointGone dst = false
      ∧ (r.modFlit 4 fun _ => { sentTo dst (some 6) true with reserved := false }).roomAt dst ≠ 0
      ∧ ((flitState (sentTo dst (some 6) false)).modFlit 4 fun _ => sentTo dst (some 6) false).roomAt dst ≠ 0)
    ∧ (flitState (sentTo (.queue 1 0 1) none false)).destBlock 1 0 = some testState.b
    ∧ (flitState (sentTo (.queue 9 0 1) none false)).endpointGone (.queue 9 0 1) = true
    ∧ (let s := flitState (sentTo (.queue 1 0 1) none false)
       let full := { s with b := { s.b with queues := [(1, (upto 64).map fun i => { flitOf none none with id := 100 + i })] } }
       full.roomAt (.queue 1 0 1) = 0 ∧ full.endpointGone (.queue 1 0 1) = false)
    ∧ (let s := { testState with flits := [{ sentTo (.queue 1 0 1) none false with id := 1 }, sentTo (.queue 1 0 1) none false] }
       s.flits.find? (fun x => x.id == 4) = some (sentTo (.queue 1 0 1) none false) ∧ ∃ x ∈ s.flits, x.sender = some 3 ∧ x.chan = 2 ∧ x.cap = 0 ∧ x.id < 4) := by
  decide +kernel

/-- A timer binding whose deadline has come or not. -/
def timerState (deadline : Nat) : State :=
  let s := testState.withG fun g => { g with binds := [(1, { kind := 4, arg := 50, handler := 0x3000, deadline := deadline })] }
  { s with ns := 1000 }

theorem witness_BindingSteps : (let u := (timerState 1000).focus 3
      let x : Binding := { kind := 4, arg := 50, handler := 0x3000, deadline := 1000 }
      u.g.uid = 3 ∧ Store.find u.g.binds 1 = some x ∧ x.pending = false ∧ u.satisfied u.g u.b x = true ∧ (∀ b ∈ (u.g.binds : List (Nat × Binding)), b.2.pending = false))
    ∧ ((timerState 1001).focus 3).satisfied ((timerState 1001).focus 3).g ((timerState 1001).focus 3).b { kind := 4, arg := 50, handler := 0x3000, deadline := 1001 } = false
    ∧ (let s := (timerState 1000).withG fun g => g.modSlice 2 fun sl => { sl with wait := .waitany 2 }
       let u := s.focus 3
       2 < u.g.slices.length ∧ (u.g.slice 2).wait = .waitany 2 ∧ (2 : BitVec 8).getLsbD 1 = true ∧ u.mayWake 2 = true ∧ ∀ i < 8, i ≠ 2 → (u.g.slice i).wait = .none)
    ∧ (let s : State := { testState with tasks := testState.tasks.map (fun (t : Task) => ({ t with brokenAt := some 500 } : Task)), ns := 1000500 }
       (s.task 1).brokenAt = some 500 ∧ 500 + 1000000 ≤ s.ns ∧ 1000499 < 500 + 1000000 ∧ (∀ im ∈ s.images, im.block.task ≠ 1) ∧ s.g.task = 1 ∧ s.g.uid ≠ 0 ∧ s.g.live ≠ (0 : BitVec 8)
       ∧ ∀ g ∈ s.gangs, g.task ≠ 1)
    ∧ (testState.task 1).brokenAt = none := by
  decide +kernel

theorem witness_BindingSteps_none : NoneAwaitsAny ((timerState 1000).focus 3).g := noneAwaitsAny_of _ (by decide +kernel)

theorem witness_SamplingSteps : (let b := leBytes 34 5
      let s := { testState with c := { testState.c with samplers := [(1, { chosen := some b }), (2, { building := some b })], sampRec := BitVec.ofNat 64 (2 ^ 48 + 2 ^ 33 + 4096) } }
      let u := s.focusCore 0 0
      Memory.wf s.mem = true ∧ (u.sampler 1).chosen = some b ∧ (u.sampler 1).building = none ∧ (u.sampler 2).building = some b ∧ b.length = 34
      ∧ (u.c.sampRec.extractLsb' 32 16).toNat = 2 ∧ (u.c.sampRec.extractLsb' 48 16).toNat = 1 ∧ (u.c.sampRec.extractLsb' 0 32).toNat + 64 * 1 + 64 ≤ 33554432)
    ∧ (let s := { testState with c := { testState.c with samplers := [(1, { chosen := some [], building := some [] })] } }
       ((s.focusCore 0 0).sampler 1).chosen = some [] ∧ ((s.focusCore 0 0).sampler 1).building ≠ none) := by
  decide +kernel

/-- A task record of one gang of four lanes at 0x3000, its tables at 0x5000, with a version. -/
def recordBytes (version : Nat) : List Byte :=
  leBytes 8 0x3000 ++ leBytes 8 0 ++ leBytes 8 0x5000 ++ leBytes 8 0 ++ leBytes 8 0 ++ leBytes 4 1 ++ leBytes 4 (4 + 256 * 2 + 2 ^ 24)
    ++ leBytes 4 4 ++ leBytes 4 4096 ++ leBytes 4 (2 ^ 24 * version) ++ leBytes 4 0 ++ leBytes 64 0

/-- That record at its endpoint. -/
def recordOf (version : Nat) (reply : Option Endpoint) : Record :=
  { id := 8, bytes := recordBytes version, ctx := 0, flit := { flitOf (some 3) none with cap := 1, dst := .dispatch 0, reply := reply } }

/-- The dispatcher open; group 0 of the tables has the one gang. -/
def recordState (version : Nat) (reply : Option Endpoint) : State :=
  { pageState with
    accepting := true
    records := [recordOf version reply]
    mem := memWrite (memWrite (memWrite pageTable 0x200000 [1]) 0x200004 [1]) 0x201004 [1] }

theorem witness_RecordArrival : (∀ v ∈ [1, 2], ∀ reply ∈ [none, some (Endpoint.window 3)],
      (recordState v reply).records.find? (fun x => x.id == 8) = some (recordOf v reply) ∧ (recordOf v reply).flit.sender = some (recordState v reply).g.uid
      ∧ (recordState v reply).accepting = true ∧ (recordState v reply).queued < 4096 ∧ (recordState v reply).nextTask ≠ 0 ∧ (recordState v reply).nextTask < 2 ^ 32)
    ∧ pageState.accepting = false := by
  decide +kernel

theorem witness_RecordArrival_bad : (recordState 2 none).recordFaults (recordBytes 2) 0 ≠ [] := by decide +kernel
/-- Some bytes, then zeros, then others. -/
def zeroBetween (l : List Byte) (n : Nat) (r : List Byte) : List Byte := l ++ (List.replicate n 0 ++ r)

theorem leNat_zeros (n : Nat) : leNat (List.replicate n 0) = 0 := by
  induction n with
  | zero => rfl
  | succ n h => rw [List.replicate_succ, leNat, h]; rfl

theorem fieldAt_zeroBetween {l r : List Byte} {n : Nat} (g k : Nat) (h : l.length ≤ g) (h2 : g + k ≤ l.length + n) : fieldAt (zeroBetween l n r) g k = 0 := by
  obtain ⟨j, rfl⟩ := Nat.exists_eq_add_of_le h
  have e : ((zeroBetween l n r).drop (l.length + j)).take k = List.replicate k 0 := by
    rw [zeroBetween, List.drop_length_add_append, List.drop_append_of_le_length (by rw [List.length_replicate]; omega), List.drop_replicate,
      List.take_append_of_le_length (by rw [List.length_replicate]; omega), List.take_replicate, Nat.min_eq_left (by omega)]
  rw [fieldAt, e, leNat_zeros]

theorem fieldAt_drop (l : List Byte) (a g k : Nat) : fieldAt (l.drop a) g k = fieldAt l (a + g) k := by
  rw [fieldAt, List.drop_drop, fieldAt]

/-- The tables of one gang: group 0 valid with one member, the gang's membership in slot 0. -/
def tableBytes : List Byte := zeroBetween (leBytes 5 (1 + 2 ^ 32)) 4095 (1 :: List.replicate 11 0)

theorem tableBytes_zero (g k : Nat) (h : 5 ≤ g) (h2 : g + k ≤ 4100) : fieldAt tableBytes g k = 0 := fieldAt_zeroBetween g k h h2

theorem tableBytes_reserved : tablesReserved tableBytes 1 = false := by
  unfold tablesReserved
  rw [List.any_eq_false]
  intro i hi
  have hi : i < 257 := List.mem_range.1 hi
  by_cases h0 : i = 0
  · subst h0; decide +kernel
  by_cases h : i < 256
  · have e : fieldAt (tableBytes.drop (16 * i)) 0 1 = 0 := by rw [fieldAt_drop]; exact tableBytes_zero _ 1 (by omega) (by omega)
    simp [entryReserved, h, e]
  · obtain rfl : i = 256 := by omega
    decide +kernel

theorem tableBytes_groups : groupEntries tableBytes = [(0, 0, 1)] := by
  have e : upto 256 = 0 :: (List.range 255).map Nat.succ := List.range_succ_eq_map
  rw [groupEntries, e, List.filterMap_cons_some (b := (0, 0, 1)) (by decide +kernel), List.filterMap_eq_nil_iff.2]
  intro g hg
  obtain ⟨k, hk, rfl⟩ := List.mem_map.1 hg
  have hk := List.mem_range.1 hk
  rw [tableBytes_zero (16 * k.succ) 1 (by omega) (by omega)]; rfl

theorem tableBytes_good : tablesBad tableBytes 1 1 = false := by
  unfold tablesBad
  rw [tableBytes_groups]
  simp only [Bool.or_eq_false_iff]
  refine ⟨⟨⟨⟨⟨⟨?_, by decide +kernel⟩, by decide +kernel⟩, by decide +kernel⟩, by decide +kernel⟩, by decide +kernel⟩, by decide +kernel⟩
  rw [List.any_eq_false]
  intro g hg
  have hg : g < 256 := List.mem_range.1 hg
  by_cases h : g = 0
  · subst h; decide +kernel
  · rw [tableBytes_zero (16 * g) 16 (by omega) (by omega)]; simp

theorem memBytes_zeros {m : List Host.Cell} {a n : Nat} (h : ∀ i < n, memGet m (a + i) = 0) : memBytes m a n = List.replicate n 0 := by
  induction n generalizing a with
  | zero => rfl
  | succ n ih =>
    rw [memBytes, List.replicate_succ, ih fun i hi => by rw [Nat.add_assoc, Nat.add_comm 1 i]; exact h (i + 1) (by omega)]
    exact congrArg (· :: _) (h 0 (by omega))

theorem memBytes_add (m : List Host.Cell) (a n k : Nat) : memBytes m a (n + k) = memBytes m a n ++ memBytes m (a + n) k := by
  induction n generalizing a with
  | zero => simp [memBytes]
  | succ n ih => rw [show n + 1 + k = (n + k) + 1 by omega, memBytes, memBytes, ih]; simp [Nat.add_assoc, Nat.add_comm 1 n]

/-- The pages of the tables in memory. -/
def tableCells : List Host.Cell :=
  [(1048576, 1), (1048578, 32), (1048579, 16), (1056768, 1), (1056770, 64), (1056771, 16),
    (1064960, 1), (1064962, 96), (1064963, 16), (1073232, 15), (1073235, 32), (1073248, 15),
    (1073250, 16), (1073251, 32), (2097152, 1), (2097156, 1), (2101252, 1)]

theorem tableCells_zero (a : Nat) (h : 0x200005 ≤ a) (h2 : a < 0x201004) : memGet tableCells a = 0 := by
  simp only [memGet, tableCells, Store.get]
  repeat rw [if_neg (by omega)]

theorem tableCells_bytes : memBytes tableCells 0x200000 4112 = tableBytes := by
  rw [show (4112 : Nat) = 5 + (4095 + 12) by rfl, memBytes_add, memBytes_add, memBytes_zeros (n := 4095) fun i hi => tableCells_zero _ (by omega) (by omega)]
  rfl

theorem tables_image : (recordState 1 none).image 0 0x5000 4112 = some tableBytes := by
  have m : (recordState 1 none).mem = tableCells := by decide +kernel
  have e : (match (recordState 1 none).segsRaw 0 .read 3 0x5000 4112 with
      | .error _ => none
      | .ok l => some l)
    = some [{ x := { w0 := BitVec.ofNat 64 (15 + 2 ^ 20 * 0x200), w1 := 0, leaf := 0x106050, size := 4096, off := 0 }, va := 0x5000, len := 4096 },
        { x := { w0 := BitVec.ofNat 64 (15 + 2 ^ 20 * 0x201), w1 := 0, leaf := 0x106060, size := 4096, off := 0 }, va := 0x6000, len := 16 }] := by decide +kernel
  have b (slot a n : Nat) (h : (recordState 1 none).keyGen slot = 0) : (recordState 1 none).seenAt slot a n = memBytes tableCells a n := by
    rw [State.seenAt, if_pos (by rw [h]; rfl), m]
  unfold State.image
  revert e
  rw [show (4112 / 4096 + 2 : Nat) = 3 by rfl]
  cases (recordState 1 none).segsRaw 0 .read 3 0x5000 4112 with
  | error _ => simp
  | ok l =>
    intro e
    cases e
    simp only []
    rw [if_neg (by decide +kernel)]
    simp only [List.flatMap_cons, List.flatMap_nil, State.seen]
    rw [b _ _ _ (by decide +kernel), b _ _ _ (by decide +kernel), ← tableCells_bytes, show (4112 : Nat) = 4096 + 16 by rfl, memBytes_add]
    rfl

theorem witness_RecordArrival_good : (recordState 1 none).recordFaults (recordOf 1 none).bytes (recordOf 1 none).ctx = [] := by
  have e : parseRecord (recordOf 1 none).bytes = { code := 0x3000, gtab := 0x5000, gangs := 1, width := 4, prio := 2, home := 1, ngen := 4, sbytes := 4096, parents := List.replicate 8 0 } := by
    decide +kernel
  unfold State.recordFaults
  rw [e]
  simp only [show (recordOf 1 none).ctx = 0 from rfl, tables_image, tableBytes_reserved, tableBytes_good, Nat.mul_one, Nat.reduceAdd]
  decide +kernel

/-- A package of one compute die and the memory dies, whose cores but one are retired, and the test task to be placed: its
block of 256 KiB. -/
def placeState (held : Nat) : State :=
  let x : TaskRec := { code := 0x3000, prio := 2, wclass := 1, opid := 9, ngen := 4, sbytes := 262144 }
  { pageState with
    tasks := [{ id := 1, tenant := 7, record := x, members := [{ grp := [2, 0, 0, 0], valid := 1, rank := [0, 0, 0, 0] }] }]
    b := { testState.b with sbytes := held, num := 5, task := 4 }
    g := { testGang with task := 4 }
    cores := (upto 111).map fun i => { idx := i + 1, retired := true }
    levels := [(2, [.task 1])]
    fab := { present := [0, 4, 5, 6, 7, 8, 9, 10, 11] } }

/-- The cores for the test task's next block, in order. -/
def taskCores (s : State) : List (Nat × Nat) := s.coreOrder (s.task 1) (s.task 1).record.block

theorem witness_BlockAdmission_task : (let s := placeState 4096
      let x := s.task 1
      s.headEntry = some (.task 1) ∧ x.id ≠ 0 ∧ x.failing = false ∧ x.nextBlock < x.blocks ∧ s.operWaits x = false
      ∧ s.coreFor (taskCores s) x.record.block = some (0, 0) ∧ x.record.wclass ≠ 0 ∧ s.operOf x.id = none ∧ s.evictAt = none ∧ ∃ z ∈ s.tasks, z.id = 1)
    ∧ ({ placeState 4096 with ck := { opers := [{ id := 50, tenant := 7, opid := 9, task := 6, cls := 1 }] } }).operWaits ((placeState 4096).task 1) = true
    ∧ ({ placeState 4096 with tasks := [] }).headEntry = some (.task 1) ∧ (({ placeState 4096 with tasks := [] } : State).task 1).id = 0
    ∧ testState.headEntry = none := by
  decide +kernel

theorem witness_BlockAdmission_waits : (let s := placeState 524288
      let b := (s.task 1).record.block
      -- a block that makes way, none that does, and one that has been chosen already, on a core of the list or elsewhere
      s.coreFor (taskCores s) b = none ∧ s.evictAt = none ∧ taskCores s = (0, 0) :: (taskCores s).tail ∧ s.evictionFor b 0 0 = some [s.b.uid]
      ∧ (let n := { s with c := { saveBase := 0 } }
        n.coreFor (taskCores n) b = none ∧ n.evictAt = none ∧ ∀ p ∈ taskCores n, n.evictionFor b p.1 p.2 = none)
      ∧ (let n := { s with evictFor := some (.task 1), evictAt := some (0, 0) }
        n.headEntry = some (.task 1) ∧ (n.task 1).id ≠ 0 ∧ n.operWaits (n.task 1) = false ∧ n.coreFor (taskCores n) b = none ∧ (0, 0) ∈ taskCores n)
      ∧ (let n := { s with evictFor := some (.task 1), evictAt := some (3, 5) }
        n.coreFor (taskCores n) b = none ∧ (3, 5) ∉ taskCores n)) := by
  decide +kernel

/-- An image in slot 0 of the core's pool: its block, without gangs, and one section, S, after a header with a version. -/
def savedImage : Image :=
  { id := 30, die := 0, core := 0, slot := some 0, addr := 0x4000000, block := { uid := 40, task := 1, home := 1, sbytes := 4096 }, gangs := [{ uid := 41, block := 40, task := 1 }], mx := []
    dieOfEviction := 0, grant := false }

def imageState (version : Nat) : State :=
  { placeState 4096 with
    images := [savedImage]
    levels := [(2, [.image 30])]
    mem := memWrite (memWrite (memWrite [] 0x4000000 (leBytes 2 version)) 0x4000028 (leBytes 8 64)) 0x4000040 (leBytes 4 1 ++ leBytes 12 0 ++ leBytes 4 (7 + 2 ^ 16 * 255) ++ leBytes 4 128 ++ leBytes 4 4096 ++ leBytes 4 0) }

theorem witness_BlockAdmission_image : (imageState 1).headEntry = some (.image 30) ∧ (imageState 1).images.find? (fun im => im.id == 30) = some savedImage
    ∧ (imageState 1).coreFor ((imageState 1).imageCores savedImage) savedImage.block ≠ none
    ∧ (let s := { imageState 1 with b := { (imageState 1).b with sbytes := 524288 } }
       s.headEntry = some (.image 30) ∧ s.coreFor (s.imageCores savedImage) savedImage.block = none ∧ s.fitsEmpty s.presentDies savedImage.block = true
       ∧ s.evictAt = none) := by
  decide +kernel

theorem savedImage_gangs (g : Gang) (h : g ∈ savedImage.gangs) (x : Block) :
    g.flights = [] ∧ g.frame = none ∧ (g.readImage x (imageState 1).mem savedImage.addr (imageState 1).ns).killed = 0 := by
  have e : ∀ k ∈ [1, 2, 3, 4, 6, 16], sectionAt (imageState 1).mem savedImage.addr k 0 0 = none := by decide +kernel
  cases List.mem_singleton.1 h
  refine ⟨rfl, rfl, ?_⟩
  simp [Gang.readImage, withSection, e]

theorem witness_SaveAndRestore_restore : Memory.wf (imageState 1).mem = true ∧ memNat (imageState 1).mem savedImage.addr 2 = 1 ∧ memNat (imageState 2).mem savedImage.addr 2 ≠ 1
    ∧ (imageState 1).coreFor ((imageState 1).imageCores savedImage) savedImage.block = some (0, 0) ∧ savedImage.block.uid ≠ 0 ∧ savedImage.block.gone = false
    ∧ (∀ x ∈ (imageState 1).b :: (imageState 1).blocks, x.uid ≠ savedImage.block.uid)
    ∧ sectionAt (imageState 1).mem savedImage.addr 7 255 0 = some 0x4000080 ∧ savedImage.block.zt = 0 ∧ savedImage.block.slotTab = []
    ∧ (let s := { imageState 1 with b := { (imageState 1).b with sbytes := 524288 } }
       s.coreFor (s.imageCores savedImage) savedImage.block = none ∧ s.fitsEmpty (s.presentDies) savedImage.block = true) := by
  decide +kernel

theorem witness_SaveAndRestore_save : (let s := { pageState with b := { pageState.b with evicting := true }, levels := [(0, [.image 5, .task 1])] }
      s.allBlocks.find? (fun x => x.uid == 2) = some s.b ∧ s.b.evicting = true ∧ s.blockBusy s.b = false ∧ s.freeSlot 0 0 = some 0
      ∧ ∀ g ∈ s.allGangs, g.block = 2 → ∀ h ∈ s.allGangs, h.block = 2 → h.rank0 = g.rank0 → h = g)
    ∧ testState.b.evicting = false ∧ ({ testState with b := { testState.b with evicting := true } }).freeSlot 0 0 = none := by
  decide +kernel

/-- The lineage entry of the test task's operator, in a state and with a class. -/
def operOf (st : OpState) (cls : Nat) : Oper :=
  { id := 50, tenant := 7, opid := 9, task := 1, cls := cls, state := st, items := [(0, 0, leBytes 64 5)], repl := some true }

def operState (o : Oper) : State := { testState with ck := { opers := [o] } }

theorem witness_CheckerReplies_item : (let s := (operState (operOf .running 5)).withG fun g => { g with kops := [{ id := 4, cls := 4, work := .wemit 1 3 8 (leBytes 16 7) }] }
      s.g.uid = 3 ∧ (s.g.kop 4).map KOp.work = some (.wemit 1 3 8 (leBytes 16 7)) ∧ s.findBlock s.g.block = some s.b ∧ s.operOf s.g.task = some (operOf .running 5)
      ∧ s.b.replay = none ∧ s.b.attempt = (operOf .running 5).attempt
      ∧ (operOf .running 5).item 1 3 = none ∧ ({ operOf .running 5 with items := [(1, 3, leBytes 8 2)] }).item 1 3 ≠ none)
    ∧ testState.operOf testState.g.task = none := by
  decide +kernel

/-- The test gang waits for a reply of the checker. -/
def askState (s : State) (oper : Option Nat) : State :=
  s.withG fun g => { g with replies := [{ id := 4, oper := oper, reg := 6, exec := 15 }], slices := g.slices.map fun sl => { sl with wait := .reply 4 } }

theorem witness_CheckerReplies_reply : (∀ s ∈ [operState (operOf .running 5), operState (operOf .released 5), operState (operOf .discarded 5)],
      let u := (askState s (some 9)).focus 3
      u.reply 4 = some { id := 4, oper := some 9, reg := 6, exec := 15 } ∧ u.g.regOk 1 6 = true ∧ u.g.regOk 2 6 = true ∧ u.g.shape 6 = .general
      ∧ (u.ck.opers.find? fun o => o.tenant == (u.task u.g.task).tenant && o.opid == 9) = s.ck.opers.head?)
    ∧ (let u := (askState { testState with ck := { hist := [{ tenant := 7, opid := 9, released := true, rtag := 5, attempt := 1 }] } } none).focus 3
       u.ck.opers.find? (fun o => o.tenant == 7 && o.opid == 9) = none ∧ (u.task u.g.task).record.opid = 9
       ∧ u.ck.hist.find? (fun h => h.tenant == 7 && h.opid == 9) = some { tenant := 7, opid := 9, released := true, rtag := 5, attempt := 1 })
    ∧ (askState testState (some 8)).ck.hist = [] := by
  decide +kernel

theorem witness_Verdicts : (let o := operOf .closed 5
      let s := operState o
      s.ck.opers.find? (fun x => x.id == 50) = some o ∧ (∀ x ∈ s.ck.opers, x.id = 50 → x = o) ∧ o.state = .closed ∧ s.emitting o.task = false ∧ (s.verdict o).1 = 0
      ∧ o.repl ≠ none)
    ∧ (let o := { operOf .closed 5 with items := [] }
       ((operState o).verdict o).1 = 5 ∧ (operState o).emitting 1 = false)
    ∧ (let o := { operOf .closed 1 with ue := some 4, noclose := true }
       ((operState o).verdict o).1 = 1)
    ∧ (let s := (operState (operOf .closed 5)).withG fun g => { g with kops := [{ id := 4, cls := 4, work := .wemit 1 3 8 [] }] }
       s.emitting 1 = true)
    ∧ (let o := operOf .passed 5
       (operState o).ck.releaseSet o = some [o] ∧ ((operState o).ck.mint ([o].map Oper.tenant).eraseDups).isSome = true)
    ∧ (let o := { operOf .passed 5 with parents := [8] }
       let s := { testState with ck := { opers := [o, { operOf .running 5 with id := 51, opid := 8 }] } }
       s.ck.releaseSet o = none) := by
  decide +kernel

/-- A replay of block 0 of the test task, whose original ran on die 0. -/
def replayOf (uid : Option Nat) (screen : Bool) : Replay := { id := 60, oper := 50, task := 1, block := 0, uid := uid, screen := screen, orig := 0 }

/-- The checker with it, and a second compute die. -/
def replayState (uid : Option Nat) : State :=
  { placeState 4096 with
    ck := { opers := [operOf .passed 5], replays := [replayOf uid true], keys := [(0, 7)] }
    fab := { present := [1, 4] }
    cores := (upto 111).map fun i => { die := 1, idx := i + 1, retired := true }
    ns := 1000000000 }

theorem witness_ReplaySteps : (let s := replayState none
      let x := s.task 1
      s.ck.replays.find? (fun x => x.id == 60) = some (replayOf none true) ∧ s.replayDies (replayOf none true) = [1]
      ∧ s.chooseCore ((s.coreOrder x x.record.block).filter fun p => (s.replayDies (replayOf none true)).contains p.1) x.record.block = some (1, 0)
      ∧ s.evictAt = none ∧ ({ s with evictAt := some (1, 0) } : State).evictAt ≠ none)
    ∧ (let s := { replayState none with cores := (upto 112).map fun i => { die := 1, idx := i, retired := true } }
       let x := s.task 1
       s.replayDies (replayOf none true) ≠ [] ∧ s.chooseCore ((s.coreOrder x x.record.block).filter fun p => (s.replayDies (replayOf none true)).contains p.1) x.record.block = none)
    ∧ (let s := replayState (some 70)
       s.ck.replays.find? (fun x => x.id == 60) = some (replayOf (some 70) true) ∧ (replayOf (some 70) true).start + 1000000000 ≤ s.ns
       ∧ (999999999 : Nat) < (replayOf (some 70) true).start + 1000000000 ∧ (∀ g ∈ s.allGangs, g.block = 70 → g.live = 0) ∧ s.replayOf 60 = none)
    ∧ (let b : Block := { uid := 70, task := 6, gone := true, replay := some 60, sig := 5 }
       let s := { replayState (some 70) with blocks := [b] }
       s.replayOf 60 = some b ∧ s.ck.replays.find? (fun x => x.id == 60 && x.uid == some b.uid) = some (replayOf (some 70) true) ∧ s.blockQuiet 70 = true
       ∧ (s.originalOf 1 0).map Block.uid = none ∧ (replayOf (some 70) true).sigs = [] ∧ s.ck.opers.find? (fun o => o.id == 50) = some (operOf .passed 5)
       ∧ Store.get 0 (operOf .passed 5).sigs 0 ≠ b.sig ∧ Store.get 0 { operOf .passed 5 with sigs := [(0, 5)] }.sigs 0 = b.sig)
    ∧ (let b : Block := { uid := 70, task := 6, gone := true, replay := some 60, sig := 5 }
       let s := { replayState (some 70) with blocks := [b], posted := [{ postedOf 20 0 .s with block := 70 }] }
       s.replayOf 60 = some b ∧ s.blockQuiet 70 = false) := by
  decide +kernel

/-- A unit with a lasting error. -/
def unitState (node kind index : Nat) : State :=
  { testState with
    ns := 2592000000000005
    ck := { units := [{ node := node, kind := kind, index := index, times := [5, 6], lasting := true }] }
    fab := { links := foundFabric.links } }

theorem witness_ErrorSteps : (∀ x ∈ [(0, 1, 64), (0, 2, 32), (0, 3, 16), (0, 4, 8), (0, 5, 1), (4, 1, 64)],
      (∃ u ∈ (unitState x.1 x.2.1 x.2.2).ck.units, (u.node == x.1 && u.kind == x.2.1 && u.index == x.2.2) = true ∧ u.lasting = true) ∧ unitCore x.2.1 x.2.2 = some 1
      ∧ (unitState x.1 x.2.1 x.2.2).ck.coreNumber 0 1 = some 1 ∧ (unitState x.1 x.2.1 x.2.2).coreBlocks 0 1 = [])
    ∧ (unitState 0 5 0).ck.coreNumber 0 0 = some 0 ∧ (unitState 0 5 0).coreBlocks 0 0 ≠ [] ∧ unitCore 5 0 = some 0 ∧ unitCore 6 2 = none ∧ unitCore 7 2 = none
    ∧ (let s := unitState 0 5 1
       { s with ck := { s.ck with off := [(0, 1)] } }.ck.coreNumber 0 1 = none)
    ∧ unitCore 8 2 = none ∧ (unitState 0 8 2).fab.linkAt 0 2 ≠ none
    ∧ (∃ x ∈ [5, 6], ¬2592000000000005 < x + 2592000000000000) ∧ (∃ x ∈ [5, 6], 2592000000000005 < x + 2592000000000000)
    ∧ (∀ u ∈ testState.ck.units, (u.node == 0 && u.kind == 5 && u.index == 0) = true → u.lasting = false)
    ∧ testState.presentDies.contains 3 = true ∧ (∀ b ∈ testState.allBlocks, b.die ≠ 3) ∧ (placeState 4096).presentDies.contains 3 = false := by
  decide +kernel

/-- A flit in the replay buffer of a link's first sender, and the link from node 12 to node 4 that carries it. -/
def keptFlit (k dst replays : Nat) : LinkFlit :=
  { seqno := k, dstn := dst, raw := linkFlit { cls := 0, srcn := 12, dstn := dst } [], deliver := .readRequest 0 9, replays := replays }

def linkOf (st : LinkState) (rx replays retrains dst : Nat) : Link :=
  { nodeA := 12, portA := 3, nodeB := 4, portB := 12, bw := 250, cost := 16, state := st, rx0 := rx, next0 := 6, buf0 := [keptFlit 5 dst replays], retrains := retrains }

/-- The package with that link, and one from node 4 to node 5. -/
def linkState (l : Link) : State :=
  { testState with
    fab := { links := [l, { nodeA := 4, portA := 0, nodeB := 5, portB := 1, bw := 250, cost := 16 }], nodes := [(4, { found := true, routes := [(10, 0)] })] } }

theorem witness_LinkSteps_receive (st : LinkState) (rx replays retrains dst : Nat) : (linkState (linkOf st rx replays retrains dst)).fab.links[0]? = some (linkOf st rx replays retrains dst)
    ∧ ((linkOf st rx replays retrains dst).buf 0).find? (fun y => y.seqno == 5) = some (keptFlit 5 dst replays) ∧ ((linkOf st rx replays retrains dst).buf 0).find? (fun y => y.seqno == 4) = none
    ∧ flitGood (linkOf st rx replays retrains dst).version (keptFlit 5 dst replays).raw = true ∧ flitGood (linkOf st rx replays retrains dst).version [] = false :=
  ⟨rfl, rfl, rfl, linkFlit_good _ _ (show 1 < 256 by decide), rfl⟩

theorem witness_LinkSteps : (let l := linkOf .live 5 7 0 4
      l.state = .live ∧ l.rx 0 = 5 ∧ l.far 0 = (keptFlit 5 4 7).dstn ∧ (keptFlit 5 4 7).replays < 8 ∧ ¬l.rx 0 ≤ 4)
    ∧ 5 < (linkOf .live 6 8 0 4).rx 0 ∧ 8 ≤ (keptFlit 5 4 8).replays ∧ (linkOf .live 4 0 0 4).rx 0 < 5 ∧ (linkOf .training 5 0 2 4).state = .training
    ∧ 2 ≤ (linkOf .training 5 0 2 4).retrains ∧ (linkOf .training 5 0 1 4).retrains < 2
    -- a flit that goes on, and one that has no route
    ∧ (let s := linkState (linkOf .live 5 0 0 5)
       let x := keptFlit 5 5 0
       ¬((linkOf .live 5 0 0 5).far 0 = x.dstn ∨ (x.dstn = awayNode ∧ (linkOf .live 5 0 0 5).far 0 = 13))
       ∧ Store.find (s.fab.node 4).routes (routeEntry 5 ((fieldAt x.raw 11 1).testBit 2)) = some 0 ∧ s.fab.linkAt 4 0 = some (1, 0) ∧ (s.fab.links[1]?).isSome = true)
    ∧ (let s := linkState (linkOf .live 5 0 0 6)
       let x := keptFlit 5 6 0
       ({ s.fab with gen := 1 }).gen ≠ 0 ∧ (Store.find (s.fab.node 4).routes (routeEntry 6 ((fieldAt x.raw 11 1).testBit 2))).bind (s.fab.linkAt 4) = none)
    -- the version after training
    ∧ (linkState (linkOf .training 5 0 0 4)).fab.trainedVersion (linkOf .training 5 0 0 4) = some 1
    ∧ ({ (linkState (linkOf .training 5 0 0 4)).fab with wires := [{ wire 12 3 4 12 250 with loB := 2, hiB := 3 }] }).trainedVersion (linkOf .training 5 0 0 4) = none := by
  decide +kernel

/-- Discovery under way: node 12 has sent a probe to node 4. -/
def probeState (found : Bool) : State :=
  let s := linkState (linkOf .live 5 0 0 4)
  { s with fab := { s.fab with probed := [(12, 3)], nodes := [(12, { found := true }), (4, { found := found })], links := s.fab.links.map fun (l : Link) => { l with buf0 := [] } } }

theorem witness_RouteSteps : (let s := probeState false
      let link (n p : Nat) : Option (Nat × Nat × Link) := (s.fab.linkAt n p).bind fun p => (s.fab.links[p.1]?).map fun l => (p.1, p.2, l)
      (link 12 3).map (fun x => (x.1, x.2.1, x.2.2.far x.2.1, x.2.2.state)) = some (0, 0, 4, .live) ∧ link 12 5 = none ∧ (s.fab.node 4).found = false
      -- of the links of node 4, one is to be probed
      ∧ s.fab.linkAt 4 0 = some (1, 0) ∧ (s.fab.links[1]?.map Link.state) = some .live ∧ (4, 0) ∉ s.fab.probed)
    ∧ ((probeState true).fab.node 4).found = true
    ∧ (let s := { probeState true with fab := { (probeState true).fab with writes := [4, 12] } }
       s.fab.writes.contains 4 = true ∧ (s.fab.writes.filter (· != 4)).head? = some 12 ∧ s.fab.writes.contains 5 = false)
    ∧ (let s := { probeState true with fab := { (probeState true).fab with writes := [4] }, plat := { booting := true } }
       s.fab.writes.contains 4 = true ∧ s.fab.writes.filter (· != 4) = [] ∧ s.plat.booting = true)
    ∧ (probeState true).plat.booting = false ∧ (probeState true).fab.held = [] := by
  decide +kernel

theorem witness_RouteSteps_way (s : State) : HasWay s 12 12 false := .inl rfl

theorem witness_RouteSteps_recompute : (∀ n, ((probeState true).fab.node n).excluded = false)
    ∧ (∀ l ∈ (probeState true).fab.links, l.buf0 = [] ∧ l.buf1 = []) ∧ (probeState true).fab.probed ≠ []
    ∧ (let f := { (probeState true).fab with probed := [] }
      f.probed = [] ∧ f.inGraph 12 = true)
    ∧ (let l := linkOf .live 5 0 0 4
      (linkState l).fab.links.head?.map Link.state = some .live ∧ (l.state == .dead || l.state == .unusable) = false ∧ l.buf0 ≠ []
      ∧ ((linkState l).fab.node 12).excluded = false ∧ ((linkState l).fab.node 4).excluded = false)
    ∧ (let l := linkOf .dead 5 0 0 4
      (linkState l).fab.links.head?.map Link.state = some .dead ∧ (l.state == .dead) = true ∧ (l.buf 0).map LinkFlit.seqno = [5] ∧ l.rx 0 ≤ 5) := by
  refine ⟨fun n => ?_, by decide +kernel⟩
  by_cases h : n = 12
  · subst h; decide
  by_cases h4 : n = 4
  · subst h4; decide
  · simp [Fabric.node, probeState, linkState, Store.get, h, h4]

/-- Holder 2 has asked for line 9 at 500 ns. -/
theorem witness_RouteSteps_lines : (let l : Line := { asked := [(2, 500)] }
      Store.find l.asked 2 = some 500 ∧ Store.find l.asked 3 = none ∧ (100499 : Nat) < 500 + 100000 ∧ 500 + 100000 ≤ (100500 : Nat))
    ∧ 2 ^ 64 + 74 = 2 ^ 64 + 8 * 9 + 2 := by
  decide +kernel

/-- A request of the collective's chunk 0 that awaits its reply from another package. -/
def requestState (expired : Bool) : State :=
  let s := collState (descBytes 1024 2048 1 4 0)
  { s with ns := 10000000, fab := { requests := [{ id := 70, block := 2, coll := 0, chunk := 0, sentNs := 0, due := 2, unsent := 2, expired := expired, preReset := expired }], car := { state := .forward } } }

theorem witness_RouteSteps_request : (let s := requestState false
      let u := s.atBlock 2
      (∃ r ∈ s.fab.requests.find? (fun x => x.id == 70), r.expired = false ∧ r.block = 2 ∧ r.coll = 0 ∧ r.sentNs + 10000000 ≤ s.ns ∧ 9999999 < r.sentNs + 10000000)
      ∧ u.b.uid = 2 ∧ u.b.colls.find? (fun x => x.num == 0) = some (collOf (descBytes 1024 2048 1 4 0)) ∧ (collOf (descBytes 1024 2048 1 4 0)).fail = none
      ∧ (collOf (descBytes 1024 2048 1 4 0)).kill = false) := by
  decide +kernel

/-- A line of which die 0 holds some tokens and the home the others. -/
def tokenState (k : Nat) (l : Line → Line) : State :=
  let hold (n : Nat) (o : Bool) : Holding := { tokens := n, owner := o, valid := n != 0 }
  { testState with fab := { lines := [(9, l { hold := [(0, hold k false), (4, hold (64 - k) true)], hint := 1 })] } }

/-- Before a topology has been published every flit has its way; while the tables change it waits. -/
theorem canSend_of (s : State) (a b : Nat) (h : s.fab.gen = 0) : CanSend s a b := .inr (.inr (.inl h))

theorem witness_TokenSteps_way (k a b : Nat) (l : Line → Line) : CanSend (tokenState k l) a b := canSend_of _ a b rfl

theorem witness_TokenSteps_requests : (0 < (((tokenState 3 id).line 9).of 4).tokens ∧ (((tokenState 3 id).line 9).of 4).valid = true)
    ∧ (((tokenState 64 id).line 9).of 4).tokens = 0 ∧ ((testState.line 9).of 4).tokens = 64 ∧ (((tokenState 3 id).line 9).of 4).tokens ≠ 64
    ∧ 1 < (((tokenState 3 id).line 9).of 0).tokens ∧ (((tokenState 1 id).line 9).of 0).tokens = 1 ∧ (((tokenState 1 id).line 9).of 0).owner = false
    ∧ (((tokenState 0 id).line 9).of 0).tokens = 0 ∧ 0 < (((tokenState 3 id).line 9).of 0).tokens := by
  decide +kernel

theorem witness_TokenSteps_arrivals : (let l := (tokenState 3 id).line 9
      (∀ h < 5, l.sink h = none ∧ h ∉ l.late) ∧ l.waiting = [] ∧ ((tokenState 3 id).fab.node 0).excluded = false ∧ (l.of 0).tokens ≠ 0)
    ∧ (((tokenState 0 id).line 9).of 0).tokens = 0 ∧ Store.find ((tokenState 0 id).line 9).wants 0 = none
    ∧ (let l := (tokenState 0 fun l => { l with active := some (2, true), told := [(0, 2), (2, 2)] }).line 9
      l.sink 4 = some 2 ∧ l.sink 0 = some 2 ∧ l.sink 2 = some 2 ∧ l.sink 1 = none)
    ∧ ((tokenState 0 fun l => { l with waiting := [(2, false), (1, true)] }).line 9).waiting = [(2, false), (1, true)]
    ∧ ((tokenState 0 fun l => { l with waiting := [(4, true)] }).line 9).waiting = [(4, true)]
    ∧ ({ (tokenState 3 id).fab with nodes := [(0, { excluded := true })] }.node 0).excluded = true := by
  decide +kernel

theorem witness_TokenSteps_retries : (let s := tokenState 3 fun l => { l with wants := [(0, true)], tries := [(0, 4)] }
      Store.find (s.line 9).wants 0 = some true ∧ (∀ o, (s.line 9).active ≠ some (0, o)) ∧ s.fab.paused = false ∧ Store.get 1 (s.line 9).tries 0 = 4)
    ∧ (let s := tokenState 3 fun l => { l with wants := [(0, true)] }
       Store.get 1 (s.line 9).tries 0 < 4 ∧ { s with fab := { s.fab with paused := true } }.fab.paused = true)
    ∧ (let s := tokenState 64 fun l => { l with wants := [(0, true)], active := some (0, true) }
       Store.find (s.line 9).wants 0 = some true ∧ (s.line 9).active = some (0, true) ∧ (s.line 9).enough 0 true = true ∧ s.wanted 0 9 = false)
    -- the access has still to be performed: the line is that of the page of a GST
    ∧ (let s := flightState ownedState (laneOf .gst .g true)
       s.wanted 0 (lineOf 0x200000) = true ∧ (s.line (lineOf 0x200000)).enough 0 true = true)
    ∧ (let s := tokenState 3 fun l => { l with wants := [(0, true)], active := some (0, true) }
       (s.line 9).active = some (0, true) ∧ (s.line 9).enough 0 true = false)
    ∧ (Store.find ((tokenState 3 fun l => { l with active := some (0, true) }).line 9).wants 0 = none)
    ∧ (Store.find ((tokenState 3 id).line 9).wants 0 = none ∧ ∀ o, ((tokenState 3 id).line 9).active ≠ some (0, o)) := by
  decide +kernel

theorem witness_TokenSteps_persistent : (let s := tokenState 3 fun l => { l with wants := [(1, true)] }
      Store.find (s.line 9).wants 1 ≠ none ∧ (s.line 9).active = none ∧ (s.line 9).acks = [] ∧ s.persistentEntries (homeNode 9) = 0 ∧ 0 < ((s.line 9).of 0).tokens ∧ 0 < ((s.line 9).of 4).tokens
      ∧ s.tokenDies = [0, 1, 2, 3] ∧ ((s.line 9).of 1).tokens = 0)
    ∧ (let s := tokenState 3 fun l => { l with wants := [(1, true)], active := some (2, true) }
       Store.find (s.line 9).wants 1 ≠ none ∧ (s.line 9).active ≠ none)
    ∧ (let s := tokenState 3 fun l => { l with acks := [0, 1] }
       (s.line 9).acks.filter (· != 0) ≠ [])
    ∧ (let s := tokenState 3 fun l => { l with acks := [0], queue := [(8, 1, true)], wants := [(1, true)] }
       let s1 := s.putLine 9 { s.line 9 with acks := [] }
       (s.line 9).acks.filter (· != 0) = [] ∧ s1.nextPersistent (homeNode 9) = some (8, 9, 1, true) ∧ s1.persistentEntries (homeNode 9) < 16
       ∧ Store.find (s1.line 9).wants 1 ≠ none ∧ (s.fab.lines.map Prod.fst).Pairwise (· < ·)) := by
  decide +kernel

/-- The Carriage forwarding, with a request from outside that awaits its reply. -/
def carState (f : Carriage → Carriage) : State :=
  { testState with ns := 100000, fab := { car := f { state := .forward, ready := true, fwd := [(2, (3, 4))], orphans := [(2, 1, 9)] } } }

/-- The port by which a flit leaves for a package. -/
def outOf (c : Carriage) (dst : Nat) : Option Nat := (Store.find c.fwd dst).bind fun p =>
  if p.1 ∉ c.quiesced ∧ p.1 ∉ c.dead then some p.1 else if p.2 ∉ c.quiesced ∧ p.2 ∉ c.dead then some p.2 else none

/-- A flit from package 2, or from this one (0), of a class, for an address. -/
def outsideFlit (srcp cls addr : Nat) : List Byte := linkFlit { cls := cls, srcn := 13, dstn := 0, srcp := srcp, tag := 70, addr := addr } []

theorem witness_CarriageSteps_transit : (let s := carState id
      s.fab.car.state = .forward ∧ 2 ≠ s.fab.pkg ∧ outOf s.fab.car 2 = some 3 ∧ outOf s.fab.car 3 = none ∧ s.fab.car.portFor 2 = some 3)
    ∧ (outsideFlit 2 0 0).length = 160 ∧ fieldAt (outsideFlit 2 0 0) 4 2 = 2 ∧ fieldAt (outsideFlit 0 0 0) 4 2 = (carState id).fab.pkg
    ∧ outOf (carState fun c => { c with quiesced := [3] }).fab.car 2 = some 4 ∧ outOf (carState fun c => { c with dead := [3] }).fab.car 2 = some 4
    ∧ outOf (carState fun c => { c with quiesced := [3], dead := [4] }).fab.car 2 = none
    ∧ (∀ st ∈ [CarState.off, .training, .isolateLocal], (carState fun c => { c with state := st }).fab.car.state = st) := by
  decide +kernel

theorem witness_CarriageSteps_replies : (∀ cls ∈ [9, 10, 14], fieldAt (outsideFlit 2 cls 0) 1 1 = cls ∧ fieldAt (outsideFlit 2 cls 0) 12 4 = 70
      ∧ ∃ r ∈ (requestState false).fab.requests.find? (fun x => x.id == 70), r.expired = false ∧ 1 < r.due ∧ 1 < r.unsent)
    ∧ ({ due := 1, unsent := 1, id := 70, block := 2, coll := 0, chunk := 0, sentNs := 0 } : Request).due ≤ 1
    ∧ (∃ r ∈ (requestState true).fab.requests.find? (fun x => x.id == 70), r.expired = true ∧ r.preReset = true) ∧ (requestState true).fab.car.state = .forward
    ∧ (requestState true).fab.requests.find? (fun x => x.id == 70 && !x.expired) = none
    ∧ (carState id).fab.requests.find? (fun x => x.id == 70) = none := by
  decide +kernel

/-- Requests from outside: one whose lines are at home, one of which a die holds a line, one for an address beyond the
memory or without a die, and one that finds the Carriage full. -/
theorem witness_CarriageSteps_requests : (∀ cls ∈ [7, 8], fieldAt (outsideFlit 2 cls 0x480) 1 1 = cls ∧ fieldAt (outsideFlit 2 cls 0x480) 16 8 = 0x480)
    ∧ fieldAt (outsideFlit 2 0 0) 1 1 = 0 ∧ Memory.wf (carState id).mem = true
    ∧ (∀ s ∈ [carState id, { tokenState 3 id with fab := { (tokenState 3 id).fab with car := (carState id).fab.car } }],
      (2, 13, 70) ∉ s.fab.car.orphans ∧ ¬2048 ≤ s.fab.car.orphans.length ∧ 0x480 + 128 ≤ 2 ^ 39
      ∧ ∀ k ∈ linesOf 0x480 128, s.reachable (128 * k) = true ∧ s.noReply 4 k = false ∧ s.lineBad k = false)
    ∧ (∀ k ∈ linesOf 0x480 128, ((carState id).line k).enough 4 true = true) ∧ (∃ k ∈ linesOf 0x480 128, ((tokenState 3 id).line k).enough 4 true = false)
    ∧ (2 : Nat) ^ 39 < 2 ^ 39 - 127 + 128
    ∧ (∃ k ∈ linesOf 0x480 128, ({ carState id with fab := { (carState id).fab with present := [0] } } : State).reachable (128 * k) = false)
    ∧ (let c := (carState fun c => { c with orphans := (upto 2048).map fun i => (3, 13, i) }).fab.car
      (2, 13, 70) ∉ c.orphans ∧ 2048 ≤ c.orphans.length) := by
  decide +kernel

theorem witness_CarriageSteps_ports : (let c : Carriage := { ranges := [(5, (2, 3)), (6, (1, 2))], training := [(1, 0), (2, 2)], dead := [4], state := .forward }
      Store.find c.training 1 = some 0 ∧ Store.find c.training 2 = some 2 ∧ (4 ∈ c.dead) ∧ (3 ∉ c.dead ∧ Store.find c.training 3 = none)
      ∧ 1 < (Store.get (1, 1) c.ranges 5).1 ∧ (Store.get (1, 1) c.ranges 6).1 ≤ 1)
    ∧ (carState id).fab.links.length ≤ 64 ∧ (carState fun c => { c with state := .training }).fab.car.ready = true := by
  decide +kernel

theorem witness_CarriageSteps_local : (let s := carState id
      s.fab.car.orphans ≠ [] ∧ s.fab.car.beatAt + 100000 ≤ s.ns ∧ (99999 : Nat) < s.fab.car.beatAt + 100000
      ∧ (0, 0).2 + 100000 ≤ s.ns ∧ s.ns < (0, 1).2 + 100000 ∧ ¬2 ≤ s.fab.car.misses ∧ 3 ∉ s.fab.car.asked ∧ s.fab.car.resetAt = none)
    ∧ (let c := (carState fun c => { c with misses := 2 }).fab.car
       2 ≤ c.misses ∧ c.state = .forward)
    ∧ (carState fun c => { c with ready := false }).fab.car.ready = false
    ∧ (let c := (carState fun c => { c with resetAt := some 50000, asked := [3] }).fab.car
       c.resetAt = some 50000 ∧ 3 ∈ c.asked ∧ (carState id).ns < 50000 + 10000000)
    ∧ (let c := (carState fun c => { c with resetAt := some 50000 }).fab.car
       c.asked = [])
    ∧ (let s := { carState id with fab := { gov := [(1, 2)] } }
       Store.get 0 s.fab.gov 1 = 2 ∧ ¬s.ns < Store.get 0 s.fab.govAt 1 + 10000 ∧ 0 < Store.get 0 s.fab.gov 1 ∧ Store.get 0 s.fab.gov 1 < 3
       ∧ (9999 : Nat) < Store.get 0 s.fab.govAt 1 + 10000) := by
  decide +kernel

/-- Windows 1 to 4: bound to a queue, bound to the dispatcher, with a flit that has come, and unbound; a host-private range;
two apertures, of which one's context is not valid; and two versioned pages at 0x7000 and 0x8000, the first with tag 2 of the
tenant, the second with a pending frame. -/
def hostState : State :=
  { pageState with
    windows := [(1, { bound := true, tenant := 7, cap := { kind := 1, perm := 1, f8 := 1, f16 := 1 }, left := 1 }),
      (2, { bound := true, tenant := 7, cap := { kind := 2, perm := 1 }, left := 2 }), (3, { recv := [flitOf none (some 1)] })]
    ranges := [(0x400000, 0x200000)]
    apertures := [(5, (0, 0)), (6, (9, 0))]
    ck := { keys := [(0, 7)], tags := [{ num := 2, tenant := 7, opers := [], frames := [0x106070] }] }
    mem := [(0x106070, 79 + 2 ^ 20 * 0x300), (0x106078, 32 + 2 ^ 20 * 0x302), (0x106080, 79 + 2 ^ 20 * 0x304), (0x106088, 33 + 2 ^ 20 * 0x308)].foldl
      (fun m x => memWrite m x.1 (leBytes 8 x.2)) pageTable }

theorem witness_HostSteps_windows : (let w := hostState.window 1
      w.bound = true ∧ 0 < w.left ∧ w.cap.kind = 1 ∧ ∃ t ∈ hostState.tasks, t.id = w.cap.f8 ∧ t.tenant = w.tenant)
    ∧ (let w := hostState.window 2
       w.bound = true ∧ 0 < w.left ∧ w.cap.kind = 2 ∧ (hostState.ctx w.cap.f8).tenant = w.tenant)
    ∧ (hostState.window 4).bound = false ∧ (hostState.window 3).recv = [flitOf none (some 1)] ∧ (hostState.window 1).recv = []
    ∧ (flitOf none (some 1)).sender = none ∧ (flitOf none (some 1)).window = some 1 ∧ (0x100 : Nat) ≠ 0x080 ∧ (0x170 : Nat) ≠ 0x178
    ∧ (0x178 : Nat) < 4096 ∧ hostState.plat.bootFail = none ∧ ({ bootFail := some 2 } : Platform).bootFail ≠ none := by
  decide +kernel

/-- A private line of which die 0 holds the tokens. -/
def heldState : State := { hostState with fab := { hostState.fab with lines := [(0x8000, { hold := [(0, { tokens := 64, owner := true, valid := true })] })] } }

/-- A line answers, and its data is good. -/
def goodLine (s : State) (k : Nat) : Bool := s.reachable (128 * k) && !s.noReply 4 k && !s.lineBad k

/-- A line lies in a host-private range. -/
def privateTo (s : State) (k : Nat) : Prop := ∃ r ∈ s.ranges, r.1 ≤ 128 * k ∧ 128 * k + 128 ≤ r.1 + r.2

theorem witness_HostSteps_physical : (2 : Nat) ^ 39 < (2 ^ 39 - 128) + 129 ∧ (2 : Nat) ^ 39 - 128 + 128 ≤ 2 ^ 39 ∧ Memory.wf hostState.mem = true
    ∧ (∃ k ∈ linesOf 0x5FFF80 129, ¬privateTo hostState k)
    ∧ (∀ k ∈ linesOf 0x5FFF80 128, privateTo hostState k ∧ goodLine hostState k = true
      ∧ (hostState.line k).enough 4 false = true ∧ (hostState.line k).enough 4 true = true)
    ∧ (∀ k ∈ linesOf 0x400000 8, privateTo heldState k ∧ goodLine heldState k = true) ∧ (∃ k ∈ linesOf 0x400000 8, (heldState.line k).enough 4 false = false)
    ∧ (let s := { hostState with fab := { hostState.fab with present := [0] } }
       ∃ k ∈ linesOf 0x400000 8, privateTo s k ∧ goodLine s k = false)
    -- a line with an error is written whole
    ∧ (let s := { hostState with ue := [0x400000 / 4] }
       ∀ k ∈ linesOf 0x400000 8, s.lineBad k = true ∧ ¬(0x400000 ≤ 128 * k ∧ 128 * k + 128 ≤ 0x400000 + 8) ∧ (0x400000 ≤ 128 * k ∧ 128 * k + 128 ≤ 0x400000 + 128)) := by
  unfold privateTo
  decide +kernel

/-- Whether a segment's page passes the Shutter, for the tenant of context 0. -/
def openPage (g : Seg) : Bool := g.x.ver && g.x.rtag == 2

/-- The lines of the released frame of a segment. -/
def frameLines (g : Seg) : List Nat := linesOf (g.x.frame + g.x.off) g.len

/-- The segments of an access of an aperture. -/
def segsOf (s : State) (k off n : Nat) (need : Need) : List Seg := ((s.apertureSegs k off n need).map Prod.snd).getD []

theorem witness_HostSteps_translated : hostState.apertureSegs 6 0 8 .read = none ∧ hostState.apertureSegs 4 0 8 .read = none
    ∧ hostState.apertureSegs 5 (2 ^ 30) 1 .read = none ∧ hostState.apertureSegs 6 0 8 .write = none
    ∧ (hostState.apertureSegs 5 0x7010 8 .read).map Prod.fst = some 0
    ∧ (∃ tag ∈ hostState.ck.tags, tag.num = 2 ∧ tag.tenant = (hostState.ctx 0).tenant)
    ∧ segsOf hostState 5 0x7010 8 .read ≠ []
    ∧ (∀ g ∈ segsOf hostState 5 0x7010 8 .read, openPage g = true ∧ ∀ m ∈ frameLines g, goodLine hostState m = true ∧ (hostState.line m).enough 4 false = true)
    -- its line held by a die, and its memory die away
    ∧ (let s := { hostState with fab := { hostState.fab with lines := [(lineOf 0x300010, { hold := [(0, { tokens := 64, owner := true, valid := true })] })] } }
      ∀ g ∈ segsOf s 5 0x7010 8 .read, ∀ m ∈ frameLines g, goodLine s m = true ∧ (s.line m).enough 4 false = false)
    ∧ (∃ g ∈ segsOf hostState 5 0x7010 8 .read, ∃ m ∈ frameLines g, goodLine { hostState with ue := [0x300010 / 4] } m = false)
    ∧ (∃ g ∈ segsOf hostState 5 0x5000 8 .read, g.x.ver = false) := by
  decide +kernel

theorem witness_HostSteps_translated_write : (∃ g ∈ segsOf hostState 5 0x8000 8 .write, g.x.pend = true)
    ∧ (∀ a ∈ [0x5000, 0x7010], (hostState.apertureSegs 5 a 8 .write).map Prod.fst = some 0 ∧ (segsOf hostState 5 a 8 .write).length = 1
      ∧ ∀ g ∈ segsOf hostState 5 a 8 .write, g.x.pend = false ∧ g.len = 8 ∧ g.x.size ≠ 65536 ∧ g.x.ver = decide (a = 0x7010)
        ∧ ∀ m ∈ frameLines g, goodLine hostState m = true ∧ (hostState.line m).enough 4 true = true)
    ∧ (let s := { hostState with fab := { hostState.fab with lines := [(lineOf 0x200000, { hold := [(0, { tokens := 1, valid := true }), (4, { tokens := 63, owner := true, valid := true })] })] } }
      ∀ g ∈ segsOf s 5 0x5000 8 .write, ∃ m ∈ frameLines g, goodLine s m = true ∧ (s.line m).enough 4 true = false)
    ∧ (∃ g ∈ segsOf hostState 5 0x5000 8 .write, ∃ m ∈ frameLines g, ({ hostState with ue := [0x200000 / 4] } : State).lineBad m = true
      ∧ ¬(g.x.frame + g.x.off ≤ 128 * m ∧ 128 * m + 128 ≤ g.x.frame + g.x.off + g.len)) := by
  decide +kernel

/-- The boot flash with an image of FORMAT 1, HSIZE 512, LENGTH 0 and VERSION 9 in bank 0. -/
def flashState (floor : Nat) : State :=
  { testState with
    mem := memWrite (memWrite [] (atFlash 0) [1, 0, 0, 2]) (atFlash 8) [9]
    plat := { floor := floor }
    fab := { car := { state := .forward } } }

theorem flashState_image : Memory.wf (flashState 9).mem = true ∧ activeBank (flashState 9).mem = 0 ∧ memNat (flashState 9).mem (atFlash 0) 2 = 1
    ∧ memNat (flashState 9).mem (atFlash 0 + 2) 2 = 512 ∧ memNat (flashState 9).mem (atFlash 0 + 4) 4 = 0 ∧ memNat (flashState 9).mem (atFlash 0 + 8) 8 = 9 := by
  decide +kernel

theorem witness_PlatformSteps_empty : testState.goodBank (activeBank testState.mem) = none ∧ testState.goodBank (1 - activeBank testState.mem) = none
    ∧ Memory.wf testState.mem = true ∧ (flashState 9).fab.car.state = .forward :=
  ⟨rfl, rfl, by decide +kernel, rfl⟩

/-- Whether a signature verifies is free (DESIGN CHOICE, log 11): where the image's does, its bank is good, unless it is older than the
floor. -/
theorem witness_PlatformSteps_good (floor : Nat) (hf : floor ≤ 9) :
    let m := (flashState floor).mem
    let digest := Config.sha512 (memBytes m (atFlash 0) 128 ++ memBytes m (atFlash 0 + 512) 0)
    Config.verifies digest (memBig m (atFlash 0 + 128) 66) (memBig m (atFlash 0 + 194) 66) = true →
      (flashState floor).goodBank 0 = some (digest, 9) ∧ (flashState 10).goodBank 0 = none := by
  intro m digest h
  obtain ⟨-, -, h0, h2, h4, h8⟩ := flashState_image
  have e : bankImage m 0 = some (digest, 9) := by
    have a0 : atFlash (bankAt 0) = atFlash 0 := rfl
    have em : m = (flashState 9).mem := rfl
    simp only [bankImage, a0]
    rw [em] at h ⊢
    simp only [h0, h2, h4, h8]
    simp only [digest, em] at h ⊢
    simp [h]
  have e' : bankImage (flashState 10).mem 0 = some (digest, 9) := e
  constructor
  · simp only [State.goodBank]
    rw [show bankImage (flashState floor).mem 0 = some (digest, 9) from e]
    simp [flashState, hf]
  · simp only [State.goodBank]
    rw [e']
    simp [flashState]

/-- A datagram for the endpoint 0: n bytes of a message after its header. -/
def datagram (flags : Nat) (body : List Byte) : List Byte := [1, 0] ++ leBytes 2 (4 + body.length) ++ [0, 0, 8] ++ leBytes 1 flags ++ body

/-- A message from endpoint 8 with tag 3 of which one packet has come. -/
def portState : State := { testState with plat := { partials := [(8, 3, 2, [5])], algo := true, version := true, capab := true, shared := some 8, session := some 8 } }

theorem witness_ManagementPort : (let d := datagram 0xC3 (List.replicate 1024 1)
      9 ≤ d.length ∧ d.length ≤ 1032 ∧ fieldAt d 0 1 = 1 ∧ fieldAt d 2 2 = d.length - 4 ∧ portState.plat.eid = 0 ∧ fieldAt d 5 1 = 0 ∧ 128 ≤ fieldAt d 7 1 ∧ 64 ≤ fieldAt d 7 1 % 128)
    ∧ ¬9 ≤ (datagram 0xC3 []).length ∧ ¬(datagram 0xC3 (List.replicate 1025 1)).length ≤ 1032
    ∧ (let d := datagram 0x83 [1]
       9 ≤ d.length ∧ 128 ≤ fieldAt d 7 1 ∧ ¬64 ≤ fieldAt d 7 1 % 128)
    ∧ (let d := datagram 0x24 [1]
       ¬128 ≤ fieldAt d 7 1 ∧ portState.plat.partials.find? (fun x => x.1 == fieldAt d 6 1 && x.2.1 == fieldAt d 7 1 % 16) = none)
    ∧ (∀ flags ∈ [0x23, 0x63, 0x13], let d := datagram flags [1]
       fieldAt d 2 2 = d.length - 4 ∧ ¬128 ≤ fieldAt d 7 1 ∧ portState.plat.partials.find? (fun x => x.1 == fieldAt d 6 1 && x.2.1 == fieldAt d 7 1 % 16) = some (8, 3, 2, [5]))
    ∧ 128 ≤ fieldAt (datagram 0xC3 [1]) 7 1 := by
  decide +kernel

theorem witness_ManagementPort_sequence : fieldAt (datagram 0x23 [1]) 7 1 / 16 % 4 = 2 ∧ fieldAt (datagram 0x63 [1]) 7 1 / 16 % 4 = 2 ∧ 64 ≤ fieldAt (datagram 0x63 [1]) 7 1 % 128
    ∧ fieldAt (datagram 0x13 [1]) 7 1 / 16 % 4 ≠ 2
    ∧ (let m : List Byte := [0, 0x80, 1, 0, 254]
       fieldAt m 0 1 % 128 = 0 ∧ 5 ≤ m.length ∧ fieldAt m 2 1 = 1 ∧ fieldAt m 3 1 % 4 ≤ 1 ∧ fieldAt m 4 1 ≠ 0 ∧ fieldAt m 4 1 ≠ 255)
    ∧ (let m : List Byte := [0, 0x80, 1, 1, 255]
       5 ≤ m.length ∧ fieldAt m 4 1 = 255)
    ∧ fieldAt ([5, 1] : List Byte) 0 1 % 128 ≠ 0
    ∧ portState.plat.algo = true ∧ testState.plat.algo = false ∧ portState.plat.shared = some 8 ∧ portState.plat.session = some 8 := by
  decide +kernel

/-- An entry of a context, with bits of its flags and a handler. -/
def entryBytes (root flags trap : Nat) : List Byte := leBytes 8 root ++ leBytes 2 7 ++ leBytes 6 flags ++ leBytes 8 trap ++ leBytes 40 0

theorem witness_ManagementCommands_tables : (entryBytes 0x2000 7 0xFFFFFFFFFFFC).length = 64 ∧ fieldAt (entryBytes 0x2000 7 0xFFFFFFFFFFFC) 0 8 % 8192 = 0
    ∧ fieldAt (entryBytes 0x2000 7 0) 10 1 = 7 ∧ fieldAt (entryBytes 0x2000 8 0) 10 1 = 8 ∧ fieldAt (entryBytes 0x2000 0x107 0) 11 5 ≠ 0
    ∧ fieldAt (entryBytes 0x2000 7 0) 11 5 = 0 ∧ fieldAt (entryBytes 0x2000 7 0) 32 32 = 0 ∧ fieldAt (entryBytes 0x1000 7 0) 0 8 % 8192 ≠ 0
    ∧ fieldAt (entryBytes 0x2000 7 0xFFFFFFFFFFFC) 16 8 % 12 = 0 ∧ fieldAt (entryBytes 0x2000 7 0xFFFFFFFFFFFC) 16 8 < 2 ^ 48
    ∧ fieldAt (entryBytes 0x2000 7 10) 16 8 % 12 ≠ 0 ∧ 2 ^ 48 ≤ fieldAt (entryBytes 0x2000 7 (2 ^ 48 + 8)) 16 8 := by
  decide +kernel

/-- A state whose core traces into 0x2000 of D. -/
def traceState : State := { testState with c := { sampRec := 0x0000000100002000 } }

theorem witness_ManagementCommands_grant : traceState.neverGranted 0 0x2000 4096 = true := by
  unfold State.neverGranted
  refine Bool.or_eq_true_iff.2 (.inr ?_)
  decide +kernel

theorem witness_ManagementCommands_ranges : ¬33554432 < 33550336 + 4096 ∧ 33554432 < 33550336 + 8192 := by decide +kernel

/-- A capability of a host window: 32 bytes. -/
def capBytes : List Byte := [1, 1, 4, 0xFF] ++ leBytes 4 0 ++ leBytes 4 1 ++ leBytes 4 0 ++ leBytes 4 1 ++ leBytes 12 0

theorem witness_ManagementCommands_windows : capBytes.length = 32 ∧ fieldAt capBytes 3 1 = 255 ∧ fieldAt ([1, 1, 4, 0] : List Byte) 3 1 ≠ 255
    ∧ (∀ n ∈ [60, 2592000], ¬n < 60 ∧ ¬2592000 < n) ∧ (∀ m ∈ [1, 254], m ≠ 0 ∧ ¬254 < m) := by
  decide +kernel

/-- A package with a retired unit, a host-private range, an idle core 0:5, and the save pool's image 30 in slot 0. -/
def manageState : State := { imageState 1 with levels := [], ck := { retired := [(4, 1, 2)], faults := [{ ns := 5, cls := 1, node := 4, kind := 1, index := 2, addr := 64, opid := 9, count := 1, outcome := 0 }] }, ranges := [(0x4000000, 0x200000)] }

theorem witness_ManagementCommands_units : (4, 1, 2) ∈ manageState.ck.retired ∧ (4, 1, 3) ∉ manageState.ck.retired
    ∧ ((1 ∈ testState.fab.present ∧ (testState.coreAt 1 111).retired = false) ∧ ∀ b ∈ testState.allBlocks, ¬(b.die = 1 ∧ b.core = 111))
    ∧ (0 ∈ manageState.fab.present ∧ (manageState.coreAt 0 0).retired = false ∧ ∃ b ∈ manageState.allBlocks, b.die = 0 ∧ b.core = 0)
    ∧ (manageState.coreAt 0 5).retired = true ∧ 1 ∉ manageState.fab.present
    ∧ manageState.ck.faults[0]? ≠ none
    ∧ (let a : DWord := 0x0200000000400000
       a.toNat % 2 ^ 22 = 0 ∧ a.toNat / 2 ^ 48 % 256 = 0)
    ∧ manageState.fab.car.state ≠ .off ∧ { manageState.fab.car with state := .off }.state = .off := by
  decide +kernel

theorem witness_ManagementCommands_tasks : (let s := { manageState with images := [] }
      (∃ x ∈ s.tasks, x.id = 1 ∧ x.id < 2 ^ 32) ∧ (∀ x ∈ s.tasks, x.id ≠ 2) ∧ (∀ g ∈ s.allGangs, g.task = 1 → g.live = 0))
    ∧ (let s := { manageState with images := [], g := testGang }
       s.g.task = 1 ∧ s.g.uid ≠ 0 ∧ s.g.live ≠ 0 ∧ ∀ g ∈ s.gangs, g.task ≠ 1) := by
  decide +kernel

theorem witness_ManagementCommands_images : (manageState.images.find? (fun im => im.die == 0 && im.core == 0 && im.slot == some 0) = some savedImage ∧ memNat manageState.mem savedImage.addr 2 = 1
      ∧ ∀ l ∈ manageState.levels, QEntry.image savedImage.id ∉ l.2)
    ∧ manageState.images.find? (fun im => im.die == 0 && im.core == 0 && im.slot == some 1) = none
    ∧ (let s := { manageState with mem := memWrite (memWrite manageState.mem 0x4000004 (leBytes 4 savedImage.block.task)) 0x400000C (leBytes 4 savedImage.block.num) }
       s.images.find? (fun im => im.block.task == memNat s.mem (0x4000000 + 4) 4 && im.block.num == memNat s.mem (0x4000000 + 12) 4) = some savedImage ∧ memNat s.mem 0x4000000 2 = 1
       ∧ 0x4000000 % 64 = 0 ∧ ∃ r ∈ s.ranges, r.1 ≤ 0x4000000 ∧ 0x4000000 < r.1 + r.2)
    ∧ (∃ l ∈ (imageState 1).levels, QEntry.image savedImage.id ∈ l.2) := by
  decide +kernel

theorem witness_ManagementCommands_memory : (0x4000000, 0x200000) ∈ manageState.ranges ∧ (0x6000000, 0x200000) ∉ manageState.ranges ∧ ¬64 ≤ manageState.ranges.length
    ∧ 64 ≤ ({ manageState with ranges := (upto 64).map fun i => (2097152 * i, 2097152) }).ranges.length ∧ 0x4000000 % 2097152 = 0
    ∧ (2 ^ 30 : Nat) % 2 ^ 30 = 0 ∧ Memory.wf manageState.mem = true ∧ 1 - activeBank manageState.mem = 1
    ∧ (¬33554432 - 4096 < 33554432 - 4096 - 1 + ([1] : List Byte).length) ∧ 33554432 - 4096 < 33554432 - 4096 + ([1] : List Byte).length := by
  decide +kernel

theorem witness_ManagementCommands_fwselect : testState.goodBank (1 - activeBank testState.mem) = none := rfl

theorem witness_DecodingInvertsEncoding : (Instr.shfl false 5 6 40 3 1).wf = true ∧ encodeNat (.shfl false 5 6 40 3 1) = some 0x07146A31
    ∧ (Instr.tlbinvRange true 62 61).wf = true ∧ (encodeNat (.tlbinvRange true 62 61)).isSome = true := by
  decide +kernel

/-- The page that a fetch finds. -/
def foundPage (x : Except Nat Xlat) : Option Xlat :=
  match x with
  | .error _ => none
  | .ok x => some x

/-- The words that a fetch finds, or the INFO of its failure. -/
def foundWords (x : Except Nat (State × List Fetched)) : Option (List Word) :=
  match x with
  | .error _ => none
  | .ok x => some (x.2.map Fetched.word)

def fetchError (x : Except Nat (State × List Fetched)) : Option Nat :=
  match x with
  | .error e => some e
  | .ok _ => none

/-- The test gang at 0x5004, in a page that is now executable, with three words there: code is at 0x200004. -/
def codeState (w0 w1 w2 : Nat) : State :=
  let s := pageState.eachSlice fun sl => { sl with pc := 0x5004 }
  { s with mem := memWrite (memWrite s.mem 0x106050 [31]) 0x200004 (leBytes 4 w0 ++ leBytes 4 w1 ++ leBytes 4 w2) }

/-- The gang's group as a step takes it up: a counted clock does not change what is fetched. -/
def takenUp (s : State) : State :=
  let f := s.focus 3
  { f with snap := some f.g }

/-- A decoded word. -/
def readsAs (w : Word) (i : Instr) : Bool :=
  match decodeWord w with
  | .ok x => decide (x = i)
  | .error _ => false

/-- A chain as a step begins it. -/
def begun (s : State) : State :=
  let u := takenUp s
  let ws := [fetched (BitVec.ofNat 32 (memNat u.mem 0x200004 4)), fetched (BitVec.ofNat 32 (memNat u.mem 0x200008 4)), fetched (BitVec.ofNat 32 (memNat u.mem 0x20000C 4))]
  (u.cache 0 0x5004 { w0 := 0x2000001F, w1 := 0, leaf := 0x106050, size := 4096, off := 4 }).begin 3 0x5004 (chainOf ws)

theorem witness_StepRunsTheDecodedWord_fetch : (let s := codeState 0x03105678 0x01000000 0x01000000
      s.latchable = [] ∧ s.urgent = [] ∧ s.sel = some (3, 0) ∧ (takenUp s).group ≠ [] ∧ (takenUp s).groupPc = 0x5004 ∧ packetOf 0x5004 = 0x5004
      ∧ ((takenUp s).task (takenUp s).g.task).ctx = 0
      ∧ foundPage ((takenUp s).codeAt 0 0x5004) = some { w0 := 0x2000001F, w1 := 0, leaf := 0x106050, size := 4096, off := 4 }
      ∧ 4 + 12 ≤ 4096 ∧ (∀ k < 12, (takenUp s).reachable (0x200004 + k) = true ∧ (takenUp s).lineBad ((0x200004 + k) / 128) = false)
      ∧ leNat ((takenUp s).seenAt 0 0x200004 4) = 0x03105678 ∧ leNat ((takenUp s).seenAt 0 0x200008 4) = 0x01000000)
    ∧ readsAs 0x03105678 (.movi false 4 0x5678) = true ∧ readsAs 0x83105678 (.movi true 4 0x5678) = true ∧ readsAs 0x5B140003 (.fmovi false 5 3) = true := by
  decide +kernel

/-- A chain of one word, and one of two. -/
def chainState (two : Bool) : State := if two then codeState 0x83105678 0x5B140003 0x01000000 else codeState 0x03105678 0x01000000 0x01000000

theorem witness_StepRunsTheDecodedWord_one : (chainOf [fetched 0x03105678, fetched 0x01000000, fetched 0x01000000]).map Fetched.word = [0x03105678]
    ∧ packetFault (begun (chainState false)).priv 0 [] [fetched 0x03105678, fetched 0x01000000, fetched 0x01000000] = none
    ∧ (begun (chainState false)).debugMatch [0x5004] = none ∧ (begun (chainState false)).windowShut 1 = false := by
  decide +kernel

theorem witness_StepRunsTheDecodedWord_two : (chainOf [fetched 0x83105678, fetched 0x5B140003, fetched 0x01000000]).map Fetched.word = [0x83105678, 0x5B140003]
    ∧ packetFault (begun (chainState true)).priv 0 [] [fetched 0x83105678, fetched 0x5B140003, fetched 0x01000000] = none
    ∧ (begun (chainState true)).debugMatch [0x5004, 0x5005] = none ∧ (begun (chainState true)).windowShut 2 = false
    ∧ lateWord (.movi true 4 0x5678) = false ∧ lateWord (.fmovi false 5 3) = false
    ∧ (let t := got (exec (.movi true 4 0x5678) ((begun (chainState true)).atWord 0))
       t.iss.held = false ∧ t.iss.trapped = false ∧ (got (exec (.fmovi false 5 3) (t.atWord 1))).iss.trapped = false) := by
  decide +kernel

theorem witness_StepRunsTheDecodedWord_late : (let t := got (exec (.movi true 4 0x5678) ((begun (chainState true)).atWord 0))
      let u := got (exec (.movi false 60 1) (t.atWord 1))
      t.iss.trapped = false ∧ u.iss.trapped = true ∧ u.iss.held = false) := by
  decide +kernel

/-- A package in which nothing but one message can happen, and one in which an urgent step is due. -/
theorem witness_StepRunsTheDecodedWord_other : (let s : State := { State.reset with agenda := [], inputs := [.getVersion] }
      s.latchable = [] ∧ s.urgent = [] ∧ s.sel = none ∧ choose s.ctr s.enabled = some .getVersion)
    ∧ (let s : State := { State.reset with urgent := [.packageReset] }
       s.latchable = [] ∧ s.urgent = [.packageReset])
    ∧ (testState.focus 3).g.group 9 = [] := by
  decide +kernel

theorem witness_PacketChecks_words : (match decodeWord 0x00000000 with | .error _ => true | .ok _ => false) = true
    ∧ pipeOf (0x83105678 / 2 ^ 24 % 128) = .int ∧ ([fetched 0x83105678].filter fun e => decide (pipeOf (e.word.toNat / 2 ^ 24 % 128) = .int)).length = 1
    ∧ (∃ d ∈ dests (.fmovi false 4 3), ∃ e ∈ [fetched 0x83105678], d ∈ e.dests)
    ∧ readsAs 0x6C000000 .rte = true ∧ needsPriv .rte = true ∧ needsPriv (.movi false 4 3) = false
    ∧ (0x83105678#32).getLsbD 31 = true ∧ window (.gst false 5 5 2 0 0) = some (2, 0) ∧ 0 < wordsAfter (fetched 0xF914A020) [fetched 0x01000000] := by
  decide +kernel

theorem witness_PacketChecks_faults : (let s := codeState 0x6C000000 0x01000000 0x01000000
      foundWords ((takenUp s).fetch 0x5004) = some [0x6C000000, 0x01000000, 0x01000000]
      ∧ packetFault (begun s).priv 0 [] [fetched 0x6C000000, fetched 0x01000000, fetched 0x01000000] = some (0, 2))
    ∧ (let s := codeState 0x03105678 0x01000000 0x00000000
       packetFault (begun s).priv 0 [] [fetched 0x03105678, fetched 0x01000000, fetched 0x00000000] = some (2, 1))
    ∧ fetchError ((takenUp testState).fetch 0x1200) = some 1
    ∧ fetchError ((takenUp { codeState 0x6C000000 0x01000000 0x01000000 with ue := [0x200008 / 4] }).fetch 0x5004) = some 3 := by
  decide +kernel

theorem witness_StepKeepsMemoryCanonical : Memory.wf ({ State.reset with agenda := [], inputs := [.getVersion] } : State).mem = true
    ∧ ∃ t, step { State.reset with agenda := [], inputs := [.getVersion] } = .next t :=
  ⟨by decide, _, rfl⟩
end

section
/-! PROOFS. What a step does to memory: the operations of the model that leave it as it was (the frame), the operations
that write it and keep its canonical form, every instruction, and so every step. -/

namespace Sys2Proof.Machine

open Sys2Proof

/-! ## The operations that leave memory as it was

One equation for each operation on the state, in the order of the model's files. For an operation that takes an effect
as an argument the hypothesis is that the effect leaves memory alone. An equation that holds by computation is proved by
the tactic `rfl` and not by the term, so that `simp` can discharge such a hypothesis with it. -/

@[simp] theorem mem_ite (c : Prop) [Decidable c] (s t : State) :
    (if c then s else t).mem = if c then s.mem else t.mem := by
  split <;> rfl

@[simp] theorem foldl_mem {α : Type} (f : State → α → State) (l : List α) (s : State)
    (hf : ∀ s x, (f s x).mem = s.mem) : (l.foldl f s).mem = s.mem := by
  induction l generalizing s with
  | nil => rfl
  | cons x t ih => exact (ih (f s x)).trans (hf s x)

/-! ### Machine/Flags.lean -/

@[simp] theorem State.mergeFp_mem (s : State) (fl) : (s.mergeFp fl).mem = s.mem := by rfl
@[simp] theorem State.writeFpstat_mem (s : State) (v) : (s.writeFpstat v).mem = s.mem := by rfl

/-! ### Machine/Ops.lean -/

@[simp] theorem State.focusGang_mem (s : State) (uid) : (s.focusGang uid).mem = s.mem := by
  unfold State.focusGang
  (repeat' split) <;> simp

@[simp] theorem State.focusBlock_mem (s : State) (uid) : (s.focusBlock uid).mem = s.mem := by
  unfold State.focusBlock
  (repeat' split) <;> simp

@[simp] theorem State.focusCore_mem (s : State) (die idx) : (s.focusCore die idx).mem = s.mem := by
  unfold State.focusCore
  (repeat' split) <;> simp

@[simp] theorem State.atBlock_mem (s : State) (uid) : (s.atBlock uid).mem = s.mem := by simp [State.atBlock]
@[simp] theorem State.focus_mem (s : State) (uid) : (s.focus uid).mem = s.mem := by simp [State.focus]
@[simp] theorem State.focusAs_mem (s t : State) : (s.focusAs t).mem = s.mem := by simp [State.focusAs]

@[simp] theorem State.modGang_mem (s : State) (uid f) : (s.modGang uid f).mem = s.mem := by
  unfold State.modGang
  split <;> rfl

@[simp] theorem State.modBlock_mem (s : State) (uid f) : (s.modBlock uid f).mem = s.mem := by
  unfold State.modBlock
  split <;> rfl

@[simp] theorem State.mapGangs_mem (s : State) (f) : (s.mapGangs f).mem = s.mem := by rfl

@[simp] theorem State.modCore_mem (s : State) (die idx f) : (s.modCore die idx f).mem = s.mem := by
  unfold State.modCore
  (repeat' split) <;> simp

@[simp] theorem State.modTask_mem (s : State) (id f) : (s.modTask id f).mem = s.mem := by rfl
@[simp] theorem State.count_mem (s : State) (event n) : (s.count event n).mem = s.mem := by rfl
@[simp] theorem State.addK_mem (s : State) (cls work) : (s.addK cls work).mem = s.mem := by rfl
@[simp] theorem State.doneK_mem (s : State) (gang kid) : (s.doneK gang kid).mem = s.mem := by simp [State.doneK]
@[simp] theorem State.hold_mem (s : State) : s.hold.mem = s.mem := by rfl
@[simp] theorem State.readBanks_mem (s : State) : s.readBanks.mem = s.mem := by rfl
@[simp] theorem State.countChain_mem (s : State) : s.countChain.mem = s.mem := by simp [State.countChain]
@[simp] theorem State.endChain_mem (s : State) : s.endChain.mem = s.mem := by rfl
@[simp] theorem State.haltGang_mem (s : State) : s.haltGang.mem = s.mem := by rfl

@[simp] theorem State.enterHandler_mem (s : State) (st) : (s.enterHandler st).mem = s.mem := by
  simp [State.enterHandler]

@[simp] theorem State.raise_mem (s : State) (st) : (s.raise st).mem = s.mem := by simp [State.raise]

@[simp] theorem State.fault_mem (s : State) (code info addr) : (s.fault code info addr).mem = s.mem := by
  simp [State.fault]

@[simp] theorem State.stopAfter_mem (s : State) (code info addr) : (s.stopAfter code info addr).mem = s.mem := by
  simp [State.stopAfter]

@[simp] theorem State.privileged_mem (s : State) (f) (hf : (f s).mem = s.mem) : (s.privileged f).mem = s.mem := by
  simp [State.privileged, hf]

@[simp] theorem State.withRegs_mem (s : State) (ops f) (hf : (f s).mem = s.mem) : (s.withRegs ops f).mem = s.mem := by
  simp [State.withRegs, hf]

@[simp] theorem State.withDest_mem (s : State) (d ops f) (hf : (f s).mem = s.mem) :
    (s.withDest d ops f).mem = s.mem := by
  simp [State.withDest, hf]

@[simp] theorem State.returnFromTrap_mem (s : State) : s.returnFromTrap.mem = s.mem := by
  unfold State.returnFromTrap
  dsimp only
  split <;> simp

/-! ### Machine/IntOps.lean -/

@[simp] theorem State.put32_mem (s : State) (q d rs f) : (s.put32 q d rs f).mem = s.mem := by simp [State.put32]
@[simp] theorem State.put64_mem (s : State) (q d rs f) : (s.put64 q d rs f).mem = s.mem := by simp [State.put64]
@[simp] theorem State.putPred_mem (s : State) (q k rs f) : (s.putPred q k rs f).mem = s.mem := by simp [State.putPred]

@[simp] theorem State.putAff32_mem (s : State) (q d v) : (s.putAff32 q d v).mem = s.mem := by
  unfold State.putAff32
  split <;> simp

@[simp] theorem State.putAff64_mem (s : State) (q d v) : (s.putAff64 q d v).mem = s.mem := by
  unfold State.putAff64
  split <;> simp

@[simp] theorem State.arith_mem (s : State) (q d a b m f fa) : (s.arith q d a b m f fa).mem = s.mem := by
  simp [State.arith]

@[simp] theorem State.wide2_mem (s : State) (q d a b wide f) : (s.wide2 q d a b wide f).mem = s.mem := by
  simp [State.wide2]

@[simp] theorem State.shiftVar_mem (s : State) (k d a b m q) : (s.shiftVar k d a b m q).mem = s.mem := by
  simp [State.shiftVar]

@[simp] theorem State.shiftImm_mem (s : State) (k d a w n) : (s.shiftImm k d a w n).mem = s.mem := by
  simp [State.shiftImm]

/-! ### Machine/FpOps.lean -/

@[simp] theorem State.fput32_mem (s : State) (q d rs f) : (s.fput32 q d rs f).mem = s.mem := by simp [State.fput32]
@[simp] theorem State.fput64_mem (s : State) (q d rs f) : (s.fput64 q d rs f).mem = s.mem := by simp [State.fput64]
@[simp] theorem State.fop2_mem (s : State) (q d a b m f) : (s.fop2 q d a b m f).mem = s.mem := by simp [State.fop2]

@[simp] theorem State.fop3packed_mem (s : State) (d a b e f) : (s.fop3packed d a b e f).mem = s.mem := by
  simp [State.fop3packed]

@[simp] theorem State.xf_mem (s : State) (q d a f) : (s.xf q d a f).mem = s.mem := by simp [State.xf]

/-! ### Machine/Xlat.lean -/

@[simp] theorem State.cacheBy_mem (s : State) (holders ctx va x) : (s.cacheBy holders ctx va x).mem = s.mem := by
  refine foldl_mem _ holders s fun s k => ?_
  split <;> rfl

@[simp] theorem State.cachePointers_mem (s : State) (die ctx va lvl l) :
    (s.cachePointers die ctx va lvl l).mem = s.mem := by
  fun_induction State.cachePointers with
  | case1 _ _ _ _ _ _ s' ih => exact ih.trans (by unfold s'; split <;> rfl)
  | case2 => rfl

@[simp] theorem State.cache_mem (s : State) (ctx va x) : (s.cache ctx va x).mem = s.mem := by
  simp only [State.cache, State.cacheBy_mem]
  split <;> simp

@[simp] theorem State.uncache_mem (s : State) (leaf) : (s.uncache leaf).mem = s.mem := by rfl
@[simp] theorem State.copyMarks_mem (s : State) (src dst n) : (s.copyMarks src dst n).mem = s.mem := by rfl
@[simp] theorem State.modOper_mem (s : State) (id f) : (s.modOper id f).mem = s.mem := by rfl

@[simp] theorem State.noteWrite_mem (s : State) (task x) : (s.noteWrite task x).mem = s.mem := by
  unfold State.noteWrite
  (repeat' split) <;> simp

@[simp] theorem State.noteRead_mem (s : State) (task x) : (s.noteRead task x).mem = s.mem := by
  unfold State.noteRead
  (repeat' split) <;> simp

/-! ### Machine/Issue.lean -/

theorem State.fetch_mem {s t : State} {va : Nat} {l : List Fetched} (e : s.fetch va = .ok (t, l)) :
    t.mem = s.mem := by
  unfold State.fetch at e
  dsimp only at e
  split at e
  · cases e
  split at e
  · cases e
  split at e
  · cases e
  · cases e
    simp

@[simp] theorem State.begin_mem (s : State) (gang pc chain) : (s.begin gang pc chain).mem = s.mem := by
  simp [State.begin]

/-! ### Machine/Link.lean -/

@[simp] theorem State.modLink_mem (s : State) (i f) : (s.modLink i f).mem = s.mem := by rfl

@[simp] theorem State.enqueue_mem (s : State) (i side dstn raw deliver) :
    (s.enqueue i side dstn raw deliver).mem = s.mem := by
  unfold State.enqueue
  split <;> simp

@[simp] theorem State.probeDone_mem (s : State) (node port) : (s.probeDone node port).mem = s.mem := by
  simp [State.probeDone]

@[simp] theorem State.unsent_mem (s : State) (node deliver) : (s.unsent node deliver).mem = s.mem := by
  unfold State.unsent
  split <;> simp

@[simp] theorem State.hop_mem (s : State) (node dstn raw deliver) : (s.hop node dstn raw deliver).mem = s.mem := by
  unfold State.hop
  dsimp only
  (repeat' split) <;> simp

@[simp] theorem State.enter_mem (s : State) (src dst raw deliver) : (s.enter src dst raw deliver).mem = s.mem := by
  simp [State.enter]

@[simp] theorem State.sendNode_mem (s : State) (h payload deliver) : (s.sendNode h payload deliver).mem = s.mem := by
  simp [State.sendNode]

/-! ### Machine/Life.lean -/

@[simp] theorem State.returnUnit_mem (s : State) (f) : (s.returnUnit f).mem = s.mem := by
  unfold State.returnUnit
  split <;> simp

@[simp] theorem State.flitDone_mem (s : State) (f) : (s.flitDone f).mem = s.mem := by
  unfold State.flitDone
  split <;> simp

@[simp] theorem State.countGang_mem (s : State) (gang event n) : (s.countGang gang event n).mem = s.mem := by
  unfold State.countGang
  (repeat' split) <;> simp

@[simp] theorem State.dropFlit_mem (s : State) (id) : (s.dropFlit id).mem = s.mem := by rfl
@[simp] theorem State.modFlit_mem (s : State) (id h) : (s.modFlit id h).mem = s.mem := by rfl
@[simp] theorem State.signalAll_mem (s : State) : s.signalAll.mem = s.mem := by simp [State.signalAll]
@[simp] theorem State.carry_mem (s : State) (f) : (s.carry f).mem = s.mem := by simp [State.carry]
@[simp] theorem State.sendFlit_mem (s : State) (f) : (s.sendFlit f).mem = s.mem := by simp [State.sendFlit]

@[simp] theorem State.deviceFlit_mem (s : State) (tenant dst payload) :
    (s.deviceFlit tenant dst payload).mem = s.mem := by
  simp [State.deviceFlit]

@[simp] theorem State.mapEvery_mem (s : State) (f) : (s.mapEvery f).mem = s.mem := by rfl
@[simp] theorem State.putBarrier_mem (s : State) (task b) : (s.putBarrier task b).mem = s.mem := by rfl
@[simp] theorem State.rescope_mem (s : State) (task num) : (s.rescope task num).mem = s.mem := by rfl

@[simp] theorem State.rescopeAll_mem (s : State) (task) : (s.rescopeAll task).mem = s.mem := by
  simp [State.rescopeAll]

@[simp] theorem State.tryPhase_mem (s : State) (task num) : (s.tryPhase task num).mem = s.mem := by
  simp [State.tryPhase]

@[simp] theorem State.tryArrive_mem (s : State) (slot) : (s.tryArrive slot).mem = s.mem := by
  unfold State.tryArrive
  split <;> simp

@[simp] theorem State.breakGroup_mem (s : State) (task num) : (s.breakGroup task num).mem = s.mem := by
  simp [State.breakGroup]

@[simp] theorem State.regangs_mem (s : State) : s.regangs.mem = s.mem := by
  unfold State.regangs
  dsimp only
  split <;> simp

@[simp] theorem State.reportAbort_mem (s : State) (task a) : (s.reportAbort task a).mem = s.mem := by
  unfold State.reportAbort
  split <;> rfl

@[simp] theorem State.reportGang_mem (s : State) (g) : (s.reportGang g).mem = s.mem := by
  unfold State.reportGang
  dsimp only
  (repeat' split) <;> simp

@[simp] theorem State.dropImages_mem (s : State) (task) : (s.dropImages task).mem = s.mem := by
  simp [State.dropImages]

@[simp] theorem State.retireGang_mem (s : State) : s.retireGang.mem = s.mem := by
  unfold State.retireGang
  dsimp only
  split
  · exact foldl_mem _ _ _ fun s k => by split <;> simp
  · rw [State.rescopeAll_mem, foldl_mem _ _ _ fun s k => by split <;> simp]
    simp

@[simp] theorem State.replayBlock_mem (s : State) (task block orig screen) :
    (s.replayBlock task block orig screen).mem = s.mem := by
  simp [State.replayBlock]

@[simp] theorem State.screenChoice_mem (s : State) (b) : (s.screenChoice b).mem = s.mem := by
  simp [State.screenChoice]

@[simp] theorem State.retireBlock_mem (s : State) : s.retireBlock.mem = s.mem := by
  unfold State.retireBlock
  dsimp only
  (repeat' split) <;> simp

@[simp] theorem State.endSlices_mem (s : State) (l) : (s.endSlices l).mem = s.mem := by
  unfold State.endSlices
  dsimp only
  (repeat' split) <;> simp

@[simp] theorem State.endGangs_mem (s : State) (pick) : (s.endGangs pick).mem = s.mem := by simp [State.endGangs]

/-! ### Machine/Checker.lean -/

@[simp] theorem State.recordFault_mem (s : State) (cls node kind index addr opid counted) :
    (s.recordFault cls node kind index addr opid counted).mem = s.mem := by
  simp [State.recordFault]

@[simp] theorem State.reportUE_mem (s : State) (node kind index addr task) :
    (s.reportUE node kind index addr task).mem = s.mem := by
  unfold State.reportUE
  dsimp only
  split <;> simp

@[simp] theorem State.exitRecord_mem (s : State) (t status reason) : (s.exitRecord t status reason).mem = s.mem := by
  unfold State.exitRecord
  split <;> simp

@[simp] theorem State.endTask_mem (s : State) (id status reason) : (s.endTask id status reason).mem = s.mem := by
  simp [State.endTask]

@[simp] theorem State.receipt_mem (s : State) (o verdict pages) : (s.receipt o verdict pages).mem = s.mem := by rfl

@[simp] theorem State.endEntry_mem (s : State) (o released) : (s.endEntry o released).mem = s.mem := by
  simp [State.endEntry]

@[simp] theorem State.redispatch_mem (s : State) (id) : (s.redispatch id).mem = s.mem := by simp [State.redispatch]

@[simp] theorem State.failTask_mem (s : State) (id reason) : (s.failTask id reason).mem = s.mem := by
  simp [State.failTask]

@[simp] theorem State.recordBlame_mem (s : State) (o t die) : (s.recordBlame o t die).mem = s.mem := by
  unfold State.recordBlame
  dsimp only
  (repeat' split) <;> simp

@[simp] theorem State.afterDiscard_mem (s : State) (o) : (s.afterDiscard o).mem = s.mem := by
  simp [State.afterDiscard]

@[simp] theorem State.tryReleases_mem (s : State) : s.tryReleases.mem = s.mem := by simp [State.tryReleases]
@[simp] theorem State.freeTags_mem (s : State) : s.freeTags.mem = s.mem := by simp [State.freeTags]

/-! ### Machine/Sample.lean -/

@[simp] theorem State.putSampler_mem (s : State) (sched x) : (s.putSampler sched x).mem = s.mem := by rfl
@[simp] theorem State.sample_mem (s : State) : s.sample.mem = s.mem := by simp [State.sample]

/-! ### Machine/Chain.lean -/

@[simp] theorem State.faultAt_mem (s : State) (pc code info addr) : (s.faultAt pc code info addr).mem = s.mem := by
  simp [State.faultAt]

/-! ### Machine/Ctl.lean -/

@[simp] theorem State.transfer_mem (s : State) (call l target) : (s.transfer call l target).mem = s.mem := by rfl
@[simp] theorem State.branch_mem (s : State) (call q any disp) : (s.branch call q any disp).mem = s.mem := by rfl

@[simp] theorem State.jump_mem (s : State) (call l target) : (s.jump call l target).mem = s.mem := by
  unfold State.jump
  split <;> simp

@[simp] theorem State.waitHere_mem (s : State) (l w) : (s.waitHere l w).mem = s.mem := by rfl
@[simp] theorem State.waitAfter_mem (s : State) (l w) : (s.waitAfter l w).mem = s.mem := by rfl

/-! ### Machine/Flit.lean -/

@[simp] theorem State.carSend_mem (s : State) (pkg raw) : (s.carSend pkg raw).mem = s.mem := by
  unfold State.carSend
  split <;> rfl

/-! ### Machine/Gmem.lean -/

@[simp] theorem State.askHome_mem (s : State) (h n cls i) : (s.askHome h n cls i).mem = s.mem := by
  simp [State.askHome]

@[simp] theorem State.noteAsked_mem (s : State) (h n) : (s.noteAsked h n).mem = s.mem := by simp [State.noteAsked]

@[simp] theorem State.sendRequest_mem (s : State) (h n own) : (s.sendRequest h n own).mem = s.mem := by
  simp [State.sendRequest]

@[simp] theorem State.wantLine_mem (s : State) (h n own) : (s.wantLine h n own).mem = s.mem := by
  unfold State.wantLine
  dsimp only
  (repeat' split) <;> simp

@[simp] theorem State.usedLine_mem (s : State) (h n wrote) : (s.usedLine h n wrote).mem = s.mem := by
  simp [State.usedLine]

@[simp] theorem State.giveUp_mem (s : State) (h n) : (s.giveUp h n).mem = s.mem := by simp [State.giveUp]

@[simp] theorem State.gaveUp_mem (s : State) (k lines) : (s.gaveUp k lines).mem = s.mem :=
  foldl_mem _ _ s fun _ _ => by rfl

@[simp] theorem State.readyLines_mem (s : State) (h own lines) : (s.readyLines h own lines).2.mem = s.mem := by
  simp [State.readyLines]

@[simp] theorem State.healLine_mem (s : State) (n) : (s.healLine n).mem = s.mem := by rfl

@[simp] theorem State.reportAt_mem (s : State) (place task) : (s.reportAt place task).mem = s.mem := by
  simp [State.reportAt]

@[simp] theorem State.reportAll_mem (s : State) (places task) : (s.reportAll places task).mem = s.mem := by
  simp [State.reportAll]

@[simp] theorem State.reportWalk_mem (s : State) (ctx va task) : (s.reportWalk ctx va task).mem = s.mem := by
  simp [State.reportWalk]

@[simp] theorem State.addTerm_mem (s : State) (block t) : (s.addTerm block t).mem = s.mem := by
  unfold State.addTerm
  dsimp only
  (repeat' split) <;> simp

@[simp] theorem State.noteLate_mem (s : State) (task late) : (s.noteLate task late).mem = s.mem := by
  unfold State.noteLate
  (repeat' split) <;> simp

/-! ### Machine/Lsu.lean -/

@[simp] theorem State.killLanes_mem (s : State) (lanes cause) : (s.killLanes lanes cause).mem = s.mem := by
  unfold State.killLanes
  split <;> rfl

@[simp] theorem State.openFlag_mem (s : State) (flag look id) : (s.openFlag flag look id).mem = s.mem := by
  unfold State.openFlag
  split <;> rfl

@[simp] theorem State.launchFlight_mem (s : State) (f) : (s.launchFlight f).mem = s.mem := by
  simp [State.launchFlight]

@[simp] theorem State.issueSpad_mem (s : State) (op word d nd a flag look) :
    (s.issueSpad op word d nd a flag look).mem = s.mem := by
  simp [State.issueSpad]

@[simp] theorem State.load_mem (s : State) (op word nd a flag look) :
    (s.load op word nd a flag look).mem = s.mem := by
  simp [State.load]

@[simp] theorem State.store_mem (s : State) (op word nd a flag look) :
    (s.store op word nd a flag look).mem = s.mem := by
  simp [State.store]

@[simp] theorem State.settleOrders_mem (s : State) : s.settleOrders.mem = s.mem := by rfl

@[simp] theorem State.endFlight_mem (s : State) (f) : (s.endFlight f).mem = s.mem := by
  unfold State.endFlight
  split <;> simp

@[simp] theorem State.faultWord_mem (s : State) (f code info addr) : (s.faultWord f code info addr).mem = s.mem := by
  simp [State.faultWord]

@[simp] theorem State.dropCached_mem (s : State) (n f) : (s.dropCached n f).mem = s.mem := by rfl

@[simp] theorem State.deliver_mem (s : State) (n f) : (s.deliver n f).mem = s.mem := by
  unfold State.deliver
  dsimp only
  split <;> simp

@[simp] theorem State.reportLanes_mem (s : State) (f lanes) : (s.reportLanes f lanes).mem = s.mem := by
  simp [State.reportLanes]

@[simp] theorem State.readLanes_mem (s : State) (f lanes) : (s.readLanes f lanes).1.mem = s.mem := by rfl
@[simp] theorem State.again_mem (s : State) (f) : (s.again f).mem = s.mem := by simp [State.again]
@[simp] theorem State.park_mem (s : State) (f) : (s.park f).mem = s.mem := by simp [State.park]

@[simp] theorem State.serveWord_mem (s : State) (id) : (s.serveWord id).mem = s.mem := by
  unfold State.serveWord
  split <;> simp

@[simp] theorem State.serveGrans_mem (s : State) (grans) : (s.serveGrans grans).mem = s.mem := by
  simp [State.serveGrans]

@[simp] theorem State.stepLoad_mem (s : State) (f) : (s.stepLoad f).mem = s.mem := by
  unfold State.stepLoad
  dsimp only
  (repeat' split) <;> simp

@[simp] theorem State.failXlat_mem (s : State) (f L e) : (s.failXlat f L e).mem = s.mem := by simp [State.failXlat]

@[simp] theorem State.cacheLanes_mem (s : State) (need f) : (s.cacheLanes need f).mem = s.mem := by
  refine foldl_mem _ _ s fun s L => ?_
  split <;> simp

/-! ### Machine/Order.lean -/

@[simp] theorem State.enterMiss_mem (s : State) (op page) : (s.enterMiss op page).mem = s.mem := by
  simp [State.enterMiss]

@[simp] theorem State.abortPosted_mem (s : State) (p places) : (s.abortPosted p places).mem = s.mem := by
  simp [State.abortPosted]

@[simp] theorem State.raiseDrained_mem (s : State) : s.raiseDrained.mem = s.mem := by
  unfold State.raiseDrained
  dsimp only
  (repeat' split) <;> simp

@[simp] theorem State.postedEnd_mem (s : State) (p) : (s.postedEnd p).mem = s.mem := by simp [State.postedEnd]

/-! ### Machine/Matrix.lean -/

@[simp] theorem State.substituted_mem (s : State) (gang x) : (s.substituted gang x).mem = s.mem := by
  simp [State.substituted]

@[simp] theorem State.substAll_mem (s : State) (gang task l) : (s.substAll gang task l).mem = s.mem := by
  simp [State.substAll]

@[simp] theorem State.fireInj_mem (s : State) (kind index) : (s.fireInj kind index).mem = s.mem := by
  simp [State.fireInj]

/-! ### Machine/Engine.lean -/

@[simp] theorem State.reportFail_mem (s : State) (f) : (s.reportFail f).mem = s.mem := by
  unfold State.reportFail
  split <;> simp

@[simp] theorem State.readSegs_mem (s : State) (l) : (s.readSegs l).2.mem = s.mem := by simp [State.readSegs]

@[simp] theorem State.withRead_mem (s : State) (off n go) (hf : (go s).mem = s.mem) :
    (s.withRead off n go).mem = s.mem := by
  unfold State.withRead
  split <;> simp [hf]

/-! ### Machine/Mx.lean -/

@[simp] theorem State.noteReady_mem (s : State) : s.noteReady.mem = s.mem := by rfl
@[simp] theorem State.accept_mem (s : State) (c) : (s.accept c).mem = s.mem := by simp [State.accept]
@[simp] theorem State.mxf_mem (s : State) (addr) : (s.mxf addr).mem = s.mem := by simp [State.mxf]

@[simp] theorem State.mxWord_mem (s : State) (regs go) (hf : ∀ v w, (go v w s).mem = s.mem) :
    (s.mxWord regs go).mem = s.mem := by
  unfold State.mxWord
  split
  · rfl
  · refine State.withRegs_mem s _ _ ?_
    split <;> simp [hf]

@[simp] theorem State.withSlot_mem (s : State) (n go) (hf : ∀ b, (go b).mem = s.mem) :
    (s.withSlot n go).mem = s.mem := by
  unfold State.withSlot
  split <;> simp [hf]

@[simp] theorem State.mma_mem (s : State) (m word zn a b) : (s.mma m word zn a b).mem = s.mem := by
  refine State.mxWord_mem _ _ _ fun v w => ?_
  split <;> simp

theorem State.focusCmd_mem {s t : State} {id : Nat} {c : MxCmd} (e : s.focusCmd id = some (c, t)) :
    t.mem = s.mem := by
  unfold State.focusCmd at e
  dsimp only at e
  split at e
  · cases e
  split at e
  · cases e
  · cases e
    simp

@[simp] theorem State.modCmd_mem (s : State) (id f) : (s.modCmd id f).mem = s.mem := by rfl

@[simp] theorem State.doneParts3_mem (s : State) (ps) : (s.doneParts3 ps).mem = s.mem := by
  refine foldl_mem _ ps s fun s p => ?_
  split <;> simp

@[simp] theorem State.endCmd_mem (s : State) (c) : (s.endCmd c).mem = s.mem := by
  unfold State.endCmd
  dsimp only
  (repeat' split) <;> simp

@[simp] theorem State.spadSubst_mem (s : State) (c bad) : (s.spadSubst c bad).mem = s.mem := by simp [State.spadSubst]

@[simp] theorem State.countTile_mem (s : State) (gang) : (s.countTile gang).mem = s.mem := by
  unfold State.countTile
  split <;> rfl

/-! ### Machine/Mgemm.lean -/

@[simp] theorem State.retype_mem (s : State) (p slots) : (s.retype p slots).mem = s.mem := by
  refine foldl_mem _ _ s fun s i => ?_
  split
  · dsimp only
    split <;> rfl
  · rfl

@[simp] theorem State.startCmd_mem (s : State) (c) : (s.startCmd c).mem = s.mem := by simp [State.startCmd]

@[simp] theorem State.gemmNext_mem (s : State) (cmd p i) : (s.gemmNext cmd p i).mem = s.mem := by
  simp [State.gemmNext]

/-! ### Machine/Copy.lean -/

@[simp] theorem State.enterCpmx_mem (s : State) (n d follow) : (s.enterCpmx n d follow).mem = s.mem := by
  unfold State.enterCpmx
  (repeat' split) <;> simp

@[simp] theorem State.putPart_mem (s : State) (minor desc) : (s.putPart minor desc).mem = s.mem := by
  simp [State.putPart]

@[simp] theorem State.issuePart_mem (s : State) (minor off) : (s.issuePart minor off).mem = s.mem := by
  unfold State.issuePart
  dsimp only
  (repeat' split) <;> simp

@[simp] theorem State.collective_mem (s : State) (minor y) : (s.collective minor y).mem = s.mem := by
  unfold State.collective
  split
  · rfl
  · refine State.withRegs_mem s _ _ ?_
    dsimp only
    (repeat' split) <;> simp

@[simp] theorem State.doneParts_mem (s : State) (ps) : (s.doneParts ps).mem = s.mem := by simp [State.doneParts]
@[simp] theorem State.dropEntry_mem (s : State) (n) : (s.dropEntry n).mem = s.mem := by rfl
@[simp] theorem State.modColl_mem (s : State) (n f) : (s.modColl n f).mem = s.mem := by rfl
@[simp] theorem State.countPart_mem (s : State) (event ps) : (s.countPart event ps).mem = s.mem := by rfl

@[simp] theorem State.noteSource_mem (s : State) (x) : (s.noteSource x).mem = s.mem := by
  unfold State.noteSource
  split <;> simp

@[simp] theorem State.fill_mem (s : State) (grans) : (s.fill grans).mem = s.mem := by simp [State.fill]

@[simp] theorem State.failChunk_mem (s : State) (coll f) : (s.failChunk coll f).mem = s.mem := by
  simp [State.failChunk]

@[simp] theorem State.fillGranules_mem (s : State) (c bytes ks) : (s.fillGranules c bytes ks).mem = s.mem := by
  simp [State.fillGranules]

@[simp] theorem State.sendRemote_mem (s before : State) (c k rs) : (s.sendRemote before c k rs).mem = s.mem := by
  simp [State.sendRemote]

@[simp] theorem State.answered_mem (s : State) (n k) : (s.answered n k).mem = s.mem := by
  unfold State.answered
  split <;> rfl

@[simp] theorem State.lateReply_mem (s : State) (r) : (s.lateReply r).mem = s.mem := by
  unfold State.lateReply
  split <;> rfl

/-! ### Machine/Event.lean -/

@[simp] theorem State.tryAny_mem (s : State) (poll i) : (s.tryAny poll i).mem = s.mem := by
  unfold State.tryAny
  dsimp only
  (repeat' split) <;> simp

@[simp] theorem State.wakeAny_mem (s : State) : s.wakeAny.mem = s.mem := by simp [State.wakeAny]

@[simp] theorem State.latch_mem (s : State) (gang bind) : (s.latch gang bind).mem = s.mem := by
  unfold State.latch
  dsimp only
  split <;> simp

@[simp] theorem State.endTaskGangs_mem (s : State) (task) : (s.endTaskGangs task).mem = s.mem := by
  simp [State.endTaskGangs]

/-! ### Machine/Queue.lean -/

@[simp] theorem State.sendVia_mem (s : State) (capNo chan payload) : (s.sendVia capNo chan payload).mem = s.mem := by
  simp [State.sendVia]

@[simp] theorem State.placeFlit_mem (s : State) (f) : (s.placeFlit f).mem = s.mem := by
  unfold State.placeFlit
  dsimp only
  (repeat' split) <;> simp

@[simp] theorem State.discardFlit_mem (s : State) (f) : (s.discardFlit f).mem = s.mem := by
  unfold State.discardFlit
  split <;> simp

@[simp] theorem State.refuseFlit_mem (s : State) (f) : (s.refuseFlit f).mem = s.mem := by
  unfold State.refuseFlit
  split <;> simp

/-! ### Machine/Sreg.lean -/

@[simp] theorem State.sregAccess_mem (s : State) (n f) (hf : (f s).mem = s.mem) : (s.sregAccess n f).mem = s.mem := by
  simp [State.sregAccess, hf]

@[simp] theorem State.disarm_mem (s : State) : s.disarm.mem = s.mem := by rfl

@[simp] theorem State.arm_mem (s : State) (v) : (s.arm v).mem = s.mem := by
  unfold State.arm
  dsimp only
  (repeat' split) <;> simp

@[simp] theorem State.writeInj_mem (s : State) (v) : (s.writeInj v).mem = s.mem := by simp [State.writeInj]

@[simp] theorem State.inject_mem (s : State) (kind d) : (s.inject kind d).mem = s.mem := by
  refine State.privileged_mem s _ (State.withRegs_mem s _ _ ?_)
  split <;> simp

@[simp] theorem State.writeSlices_mem (s : State) (f) : (s.writeSlices f).mem = s.mem := by rfl

@[simp] theorem State.writeSreg_mem (s : State) (n v) : (s.writeSreg n v).mem = s.mem := by
  unfold State.writeSreg
  split <;> simp

@[simp] theorem State.wrs_mem (s : State) (wide d f) (hf : ∀ v, (f s v).mem = s.mem) :
    (s.wrs wide d f).mem = s.mem := by
  unfold State.wrs
  refine State.withRegs_mem s _ _ ?_
  split <;> simp [hf]

@[simp] theorem State.mapResident_mem (s : State) (f) : (s.mapResident f).mem = s.mem := by rfl
@[simp] theorem State.setDbgCtl_mem (s : State) (v) : (s.setDbgCtl v).mem = s.mem := by simp [State.setDbgCtl]

/-! ### Machine/Token.lean -/

@[simp] theorem State.sendTokens_mem (s : State) (n src dst c) : (s.sendTokens n src dst c).mem = s.mem := by
  simp [State.sendTokens]

@[simp] theorem State.homeRequest_mem (s : State) (die n own) : (s.homeRequest die n own).mem = s.mem := by
  simp [State.homeRequest]

@[simp] theorem State.tokensReach_mem (s : State) (h src n c) : (s.tokensReach h src n c).mem = s.mem := by
  unfold State.tokensReach
  dsimp only
  (repeat' split) <;> simp

@[simp] theorem State.tellDies_mem (s : State) (n cls i) : (s.tellDies n cls i).mem = s.mem := by
  simp [State.tellDies]

@[simp] theorem State.activateEntry_mem (s : State) (n die own) : (s.activateEntry n die own).mem = s.mem := by
  simp [State.activateEntry]

@[simp] theorem State.startPersistent_mem (n) (s : State) (home) : (State.startPersistent n s home).mem = s.mem := by
  induction n generalizing s with
  | zero => rfl
  | succ n ih =>
    unfold State.startPersistent
    (repeat' split) <;> simp [ih]

@[simp] theorem State.recountLine_mem (s : State) (die n) : (s.recountLine die n).mem = s.mem := by
  simp [State.recountLine]

@[simp] theorem State.recount_mem (s : State) (die) : (s.recount die).mem = s.mem := by simp [State.recount]

/-! ### Machine/Table.lean -/

@[simp] theorem State.invalidate_mem (s : State) (drop dropPtr) : (s.invalidate drop dropPtr).mem = s.mem := by rfl
@[simp] theorem State.tlbinv_mem (s : State) (y n good) : (s.tlbinv y n good).mem = s.mem := by simp [State.tlbinv]

@[simp] theorem State.writeBack_mem (s : State) (inv hbm n) : (s.writeBack inv hbm n).mem = s.mem := by
  simp [State.writeBack]

@[simp] theorem State.awaitBacks_mem (s : State) (lines) : (s.awaitBacks lines).mem = s.mem := by rfl

@[simp] theorem State.cwbLines_mem (inv hbm n va) (s : State) : (State.cwbLines inv hbm n va s).mem = s.mem := by
  induction n generalizing s va with
  | zero => rfl
  | succ n ih =>
    unfold State.cwbLines
    split <;> simp [ih]

/-! ### Machine/Witness.lean -/

@[simp] theorem State.emit_mem (s : State) (item off first count) : (s.emit item off first count).mem = s.mem := by
  simp [State.emit]

@[simp] theorem State.askChecker_mem (s : State) (oper reg) : (s.askChecker oper reg).mem = s.mem := by rfl
@[simp] theorem State.replied_mem (s : State) (id) : (s.replied id).mem = s.mem := by rfl

/-! ### Machine/Dispatcher.lean -/

@[simp] theorem State.launchBlock_mem (s : State) (t b die core) : (s.launchBlock t b die core).mem = s.mem := by
  simp [State.launchBlock]

@[simp] theorem State.openOper_mem (s : State) (t) : (s.openOper t).mem = s.mem := by
  unfold State.openOper
  split <;> rfl

@[simp] theorem State.admitBlock_mem (s : State) (t die core) : (s.admitBlock t die core).mem = s.mem := by
  simp [State.admitBlock]

@[simp] theorem State.partialEviction_mem (s : State) (e cores b) : (s.partialEviction e cores b).mem = s.mem := by
  unfold State.partialEviction
  dsimp only
  split <;> simp

@[simp] theorem State.noCore_mem (s : State) (e cores b) : (s.noCore e cores b).mem = s.mem := by
  unfold State.noCore
  split <;> simp

@[simp] theorem State.queueTask_mem (s : State) (rc) : (s.queueTask rc).mem = s.mem := by simp [State.queueTask]

/-! ### Machine/Save.lean -/

@[simp] theorem State.forgetCmd_mem (s : State) (id) : (s.forgetCmd id).mem = s.mem := by simp [State.forgetCmd]

@[simp] theorem State.gangEvents_mem (s : State) (g) : (s.gangEvents g).mem = s.mem := by
  unfold State.gangEvents
  dsimp only
  rw [foldl_mem _ _ _ fun s i => by split <;> simp]
  simp

@[simp] theorem State.leaveLevels_mem (s : State) (image) : (s.leaveLevels image).mem = s.mem := by
  simp [State.leaveLevels]

/-! ### Machine/Verdict.lean -/

@[simp] theorem State.dropReplay_mem (s : State) (r) : (s.dropReplay r).mem = s.mem := by rfl
@[simp] theorem State.replayOver_mem (s : State) (r) : (s.replayOver r).mem = s.mem := by simp [State.replayOver]

@[simp] theorem State.launchReplay_mem (s : State) (r die core) : (s.launchReplay r die core).mem = s.mem := by
  simp [State.launchReplay]

@[simp] theorem State.forgetReplay_mem (s : State) (b) : (s.forgetReplay b).mem = s.mem := by rfl
@[simp] theorem State.retire_mem (s : State) (node kind index) : (s.retire node kind index).mem = s.mem := by rfl

@[simp] theorem State.killLinkAt_mem (s : State) (node port) : (s.killLinkAt node port).mem = s.mem := by
  unfold State.killLinkAt
  split <;> simp

@[simp] theorem State.reportFrames_mem (s : State) (node index) : (s.reportFrames node index).mem = s.mem := by rfl

@[simp] theorem State.recordFatal_mem (s : State) (die) : (s.recordFatal die).mem = s.mem := by
  simp [State.recordFatal]

@[simp] theorem State.dropDie_mem (s : State) (die uids) : (s.dropDie die uids).mem = s.mem := by rfl

@[simp] theorem State.failForDie_mem (s : State) (die id uids) : (s.failForDie die id uids).mem = s.mem := by
  unfold State.failForDie
  dsimp only
  split <;> simp

@[simp] theorem State.restartReplays_mem (s : State) (die) : (s.restartReplays die).mem = s.mem := by
  simp [State.restartReplays]

/-! ### Machine/Fabric.lean -/

@[simp] theorem State.publish_mem (s : State) : s.publish.mem = s.mem := by rfl

@[simp] theorem State.resendAll_mem (s : State) (i) : (s.resendAll i).mem = s.mem := by
  unfold State.resendAll
  split <;> simp

@[simp] theorem State.sendProbe_mem (s : State) (node port) : (s.sendProbe node port).mem = s.mem := by
  unfold State.sendProbe
  (repeat' split) <;> simp

@[simp] theorem State.learn_mem (s : State) (node) : (s.learn node).mem = s.mem := by rfl
@[simp] theorem State.rerouteDead_mem (s : State) : s.rerouteDead.mem = s.mem := by rfl
@[simp] theorem State.settleHeld_mem (s : State) : s.settleHeld.mem = s.mem := by simp [State.settleHeld]
@[simp] theorem State.releaseHeld_mem (s : State) : s.releaseHeld.mem = s.mem := by simp [State.releaseHeld]
@[simp] theorem State.cutOff_mem (s : State) (levels) : (s.cutOff levels).mem = s.mem := by rfl

@[simp] theorem State.sendWrite_mem (s : State) : s.sendWrite.mem = s.mem := by
  unfold State.sendWrite
  split <;> simp

@[simp] theorem State.applyRetired_mem (s : State) : s.applyRetired.mem = s.mem := by
  unfold State.applyRetired
  dsimp only
  rw [foldl_mem _ _ _ fun s u => by (repeat' split) <;> simp]
  simp

@[simp] theorem State.localReady_mem (s : State) : s.localReady.mem = s.mem := by simp [State.localReady]
@[simp] theorem State.finishBoot_mem (s : State) : s.finishBoot.mem = s.mem := by simp [State.finishBoot]

@[simp] theorem State.abortRequest_mem (s : State) (r) : (s.abortRequest r).mem = s.mem := by
  unfold State.abortRequest
  dsimp only
  split <;> simp

@[simp] theorem State.lineTimedOut_mem (s : State) (h n) : (s.lineTimedOut h n).mem = s.mem := by
  unfold State.lineTimedOut
  split <;> simp

/-! ### Machine/Carriage.lean -/

@[simp] theorem State.answerOrigin_mem (s : State) (cls o) : (s.answerOrigin cls o).mem = s.mem := by
  simp [State.answerOrigin]

@[simp] theorem State.isolate_mem (s : State) : s.isolate.mem = s.mem := by simp [State.isolate]

@[simp] theorem State.replyRemote_mem (s : State) (cls origin) : (s.replyRemote cls origin).mem = s.mem := by
  simp [State.replyRemote]

@[simp] theorem State.remoteReply_mem (s : State) (cls r) : (s.remoteReply cls r).mem = s.mem := by
  simp [State.remoteReply]

@[simp] theorem State.leftPackage_mem (s : State) (tag) : (s.leftPackage tag).mem = s.mem := by
  unfold State.leftPackage
  split <;> simp

@[simp] theorem State.egress_mem (s : State) (dst raw) : (s.egress dst raw).mem = s.mem := by simp [State.egress]
@[simp] theorem State.clearCarCounters_mem (s : State) : s.clearCarCounters.mem = s.mem := by rfl
@[simp] theorem State.resetCarriage_mem (s : State) : s.resetCarriage.mem = s.mem := by simp [State.resetCarriage]

/-! ### Machine/HostIf.lean -/

@[simp] theorem State.tellHost_mem (s : State) (status data) : (s.tellHost status data).mem = s.mem := by rfl

@[simp] theorem State.apertureCached_mem (s : State) (ctx l) : (s.apertureCached ctx l).mem = s.mem := by
  simp [State.apertureCached]

@[simp] theorem State.hostAborts_mem (s : State) (lines) : (s.hostAborts lines).mem = s.mem := by
  simp [State.hostAborts]

@[simp] theorem State.hostWaits_mem (s : State) (i) : (s.hostWaits i).mem = s.mem := by rfl

@[simp] theorem State.hostRead_mem (s : State) (i lines bytes) : (s.hostRead i lines bytes).mem = s.mem := by
  simp [State.hostRead]

/-! ### Machine/Platform.lean -/

@[simp] theorem State.localReset_mem (s : State) : s.localReset.mem = s.mem := by simp [State.localReset]
@[simp] theorem State.bootStops_mem (s : State) (step) : (s.bootStops step).mem = s.mem := by rfl
@[simp] theorem State.discover_mem (s : State) : s.discover.mem = s.mem := by simp [State.discover]

/-! ### Machine/Mgmt.lean -/

@[simp] theorem State.command_mem (s : State) (ses malformed refused f) (hf : (f s).mem = s.mem) :
    (s.command ses malformed refused f).mem = s.mem := by
  simp [State.command, hf]

@[simp] theorem State.takeEid_mem (s : State) (source eid) : (s.takeEid source eid).mem = s.mem := by
  unfold State.takeEid
  split <;> rfl

@[simp] theorem State.message_mem (s : State) (src l) : (s.message src l).mem = s.mem := by simp [State.message]

@[simp] theorem State.spdm_mem (s : State) (ok f) (hf : (f s).mem = s.mem) : (s.spdm ok f).mem = s.mem := by
  simp [State.spdm, hf]

@[simp] theorem State.untagUnmapped_mem (s : State) : s.untagUnmapped.mem = s.mem := by simp [State.untagUnmapped]

/-! ### Machine/Sched.lean -/

@[simp] theorem State.closeAbort_mem (s : State) : s.closeAbort.mem = s.mem := by
  unfold State.closeAbort
  split <;> simp

@[simp] theorem State.release_mem (s : State) : s.release.mem = s.mem := by simp [State.release]
@[simp] theorem State.countHeld_mem (s : State) : s.countHeld.mem = s.mem := by simp [State.countHeld]

@[simp] theorem State.countTimes_mem (s : State) (events who) : (s.countTimes events who).mem = s.mem := by
  simp [State.countTimes]

@[simp] theorem State.newCycle_mem (s : State) : s.newCycle.mem = s.mem := by rfl
@[simp] theorem State.look_mem (s : State) (uid) : (s.look uid).mem = s.mem := by simp [State.look]

@[simp] theorem State.passOver_mem (s : State) (uid) : (s.passOver uid).mem = s.mem := by
  unfold State.passOver
  dsimp only
  split <;> simp

@[simp] theorem State.issueNext_mem (s : State) (r) : (s.issueNext r).mem = s.mem := by simp [State.issueNext]

@[simp] theorem State.schedule_mem (s : State) (k) : (s.schedule k).mem = s.mem := by
  unfold State.schedule
  dsimp only
  split <;> simp

/-! ### Machine/Step.lean -/

@[simp] theorem State.taken_mem (s : State) (i) : (s.taken i).mem = s.mem := by
  unfold State.taken
  split <;> rfl

/-! ## The operations that write memory

They write through the operations of Machine/Mem.lean, each of which keeps the canonical form (Laws/Memory.lean). -/

theorem foldl_wf {α : Type} (f : State → α → State) (l : List α) (s : State)
    (hf : ∀ s x, Memory.wf s.mem = true → Memory.wf (f s x).mem = true) (h : Memory.wf s.mem = true) :
    Memory.wf (l.foldl f s).mem = true := by
  induction l generalizing s with
  | nil => exact h
  | cons x t ih => exact ih _ (hf s x h)

/-! ### Machine/Ops.lean -/

@[simp] theorem State.withRegs_wf (s : State) (ops f) (h : Memory.wf s.mem = true) (hf : Memory.wf (f s).mem = true) :
    Memory.wf (s.withRegs ops f).mem = true := by
  unfold State.withRegs
  split <;> simp [h, hf]

/-! ### Machine/Cipher.lean -/

@[simp] theorem State.putG_wf (s : State) (slot a bytes) (h : Memory.wf s.mem = true) :
    Memory.wf (s.putG slot a bytes).mem = true :=
  wf_memWrite h _ _

/-! ### Machine/Xlat.lean -/

@[simp] theorem State.setWord1_wf (s : State) (entries w) (h : Memory.wf s.mem = true) :
    Memory.wf (s.setWord1 entries w).mem = true :=
  wf_foldl _ (fun _ _ hm => wf_memWriteNat hm _ _ _) entries h

@[simp] theorem State.makePending_wf (s : State) (x) (h : Memory.wf s.mem = true) :
    Memory.wf (s.makePending x).mem = true := by
  unfold State.makePending
  split
  · refine State.setWord1_wf _ _ _ ?_
    simp [wf_memCopy, wf_memZero, h]
  · exact h

/-! ### Machine/Checker.lean -/

@[simp] theorem State.dropPending_wf (s : State) (p) (h : Memory.wf s.mem = true) :
    Memory.wf (s.dropPending p).mem = true := by
  simp [State.dropPending, h]

@[simp] theorem State.discardLoop_wf (fuel) (s : State) (ids plain cause) (h : Memory.wf s.mem = true) :
    Memory.wf (State.discardLoop fuel s ids plain cause).mem = true := by
  induction fuel generalizing s ids plain cause with
  | zero => exact h
  | succ fuel ih =>
    unfold State.discardLoop
    split
    · exact h
    · exact ih _ _ _ _ (foldl_wf _ _ _ (fun s p hs => State.dropPending_wf s p hs) (by simpa using h))

@[simp] theorem State.discard_wf (s : State) (ids plain cause) (h : Memory.wf s.mem = true) :
    Memory.wf (s.discard ids plain cause).mem = true := by
  unfold State.discard
  dsimp only
  rw [foldl_mem _ _ _ fun s o => by split <;> simp]
  exact State.discardLoop_wf _ _ _ _ _ h

@[simp] theorem State.promote_wf (s : State) (p tags) (h : Memory.wf s.mem = true) :
    Memory.wf (s.promote p tags).mem = true := by
  refine State.setWord1_wf _ _ _ (wf_foldl _ (fun _ _ hm => wf_memWriteNat hm _ _ _) _ ?_)
  simpa using h

@[simp] theorem State.releaseOpers_wf (s : State) (set) (h : Memory.wf s.mem = true) :
    Memory.wf (s.releaseOpers set).mem = true := by
  unfold State.releaseOpers
  dsimp only
  split
  · simp [h]
  · refine foldl_wf _ _ _ (fun s o hs => by simpa using hs) ?_
    exact foldl_wf _ _ _ (fun s p hs => State.promote_wf s p _ hs) h

@[simp] theorem State.settleTask_wf (s : State) (id) (h : Memory.wf s.mem = true) :
    Memory.wf (s.settleTask id).mem = true := by
  unfold State.settleTask
  (repeat' split) <;> simp [h]

@[simp] theorem State.settle_wf (s : State) (h : Memory.wf s.mem = true) : Memory.wf s.settle.mem = true :=
  State.settleTask_wf s _ h

/-! ### Machine/Chain.lean -/

@[simp] theorem State.finishChain_wf (s : State) (h : Memory.wf s.mem = true) :
    Memory.wf s.finishChain.mem = true := by
  unfold State.finishChain
  dsimp only
  (repeat' split) <;> simp [h]

@[simp] theorem State.finish_wf (before s : State) (hb : Memory.wf before.mem = true) (h : Memory.wf s.mem = true) :
    Memory.wf (before.finish s).mem = true := by
  unfold State.finish
  (repeat' split) <;> simp [h, hb]

/-! ### Machine/Gmem.lean -/

@[simp] theorem State.gWrite_wf (s : State) (block task x late bytes) (h : Memory.wf s.mem = true) :
    Memory.wf (s.gWrite block task x late bytes).mem = true := by
  unfold State.gWrite
  split <;> simp [h]

/-! ### Machine/Lsu.lean -/

@[simp] theorem State.writeLanes_wf (s : State) (f lanes) (h : Memory.wf s.mem = true) :
    Memory.wf (s.writeLanes f lanes).mem = true :=
  foldl_wf _ lanes s (fun _ _ hs => wf_memWriteNat hs _ _ _) h

@[simp] theorem State.stepStore_wf (s : State) (f) (h : Memory.wf s.mem = true) :
    Memory.wf (s.stepStore f).mem = true := by
  unfold State.stepStore
  dsimp only
  (repeat' split) <;> simp [h]

@[simp] theorem State.gstLane_wf (s : State) (f L) (h : Memory.wf s.mem = true) :
    Memory.wf (s.gstLane f L).mem = true := by
  unfold State.gstLane
  dsimp only
  (repeat' split) <;> simp [h]

@[simp] theorem State.storeLanes_wf (s : State) (f left) (h : Memory.wf s.mem = true) :
    Memory.wf (s.storeLanes f left).mem = true := by
  unfold State.storeLanes
  dsimp only
  have hl (l : List Nat) : Memory.wf (l.foldl (fun s L => s.gstLane f L) s).mem = true :=
    foldl_wf _ l s (fun s L hs => State.gstLane_wf s f L hs) h
  (repeat' split) <;> simp [h, hl]

@[simp] theorem State.stepGst_wf (s : State) (f) (h : Memory.wf s.mem = true) :
    Memory.wf (s.stepGst f).mem = true := by
  unfold State.stepGst
  dsimp only
  (repeat' split) <;> simp [h]

/-! ### Machine/Order.lean -/

@[simp] theorem State.spillOne_wf (s : State) (p) (h : Memory.wf s.mem = true) :
    Memory.wf (s.spillOne p).mem = true := by
  simp [State.spillOne, h, wf_memWrite]

theorem State.spill_cases (s : State) :
    s.spill = s ∨ ∃ (l : List Posted) (c : Core), s.spill = { List.foldl State.spillOne s l with c := c } := by
  unfold State.spill
  generalize s.postedIn s.b.die s.b.core - 4096 = n
  dsimp only
  split
  · exact .inl rfl
  · exact .inr ⟨_, _, rfl⟩

@[simp] theorem State.spill_wf (s : State) (h : Memory.wf s.mem = true) : Memory.wf s.spill.mem = true := by
  obtain e | ⟨l, c, e⟩ := s.spill_cases
  · rw [e]; exact h
  · rw [e]
    exact foldl_wf _ l s (fun s p hs => State.spillOne_wf s p hs) h

theorem State.post_cases (s : State) (f xl) : ∃ t : State, s.post f xl = t.spill ∧ t.mem = s.mem := by
  unfold State.post
  exact ⟨_, rfl, by simp⟩

@[simp] theorem State.post_wf (s : State) (f xl) (h : Memory.wf s.mem = true) :
    Memory.wf (s.post f xl).mem = true := by
  obtain ⟨t, e, ht⟩ := s.post_cases f xl
  rw [e]
  exact State.spill_wf t (ht ▸ h)

@[simp] theorem State.issueAtom_wf (s : State) (op word n d a flag) (h : Memory.wf s.mem = true) :
    Memory.wf (s.issueAtom op word n d a flag).mem = true := by
  unfold State.issueAtom
  dsimp only
  (repeat' split) <;> simp [h]

@[simp] theorem State.stepWalk_wf (s : State) (f) (h : Memory.wf s.mem = true) :
    Memory.wf (s.stepWalk f).mem = true := by
  unfold State.stepWalk
  dsimp only
  (repeat' split) <;> simp [h]

@[simp] theorem State.serveMiss_wf (failed) (s : State) (who) (h : Memory.wf s.mem = true) :
    Memory.wf (State.serveMiss failed s who).mem = true := by
  unfold State.serveMiss
  dsimp only
  (repeat' split) <;> simp [h]

@[simp] theorem State.endMiss_wf (s : State) (m) (h : Memory.wf s.mem = true) :
    Memory.wf (s.endMiss m).mem = true := by
  unfold State.endMiss
  dsimp only
  rw [State.focus_mem]
  refine foldl_wf _ _ _ (fun s who hs => State.serveMiss_wf _ s who hs) ?_
  split <;> simp [h]

@[simp] theorem State.stepMiss_wf (s : State) (f) (h : Memory.wf s.mem = true) :
    Memory.wf (s.stepMiss f).mem = true := by
  unfold State.stepMiss
  dsimp only
  (repeat' split) <;> simp [h]

@[simp] theorem State.atomSpad_wf (s : State) (f L) (h : Memory.wf s.mem = true) :
    Memory.wf (s.atomSpad f L).1.mem = true :=
  wf_memWriteNat h _ _ _

@[simp] theorem State.atomG_wf (s : State) (block task x late op va data nv) (h : Memory.wf s.mem = true) :
    Memory.wf (s.atomG block task x late op va data nv).2.mem = true := by
  simp [State.atomG, h]

@[simp] theorem State.atomLaneG_wf (s : State) (f L) (h : Memory.wf s.mem = true) :
    Memory.wf (s.atomLaneG f L).1.mem = true := by
  unfold State.atomLaneG
  split <;> simp [h]

/-- The lanes of an ATOM performed one after the other, each of them keeping memory canonical. -/
theorem State.atomAll_wf
    (s : State) (f one) (h1 : ∀ s f L, Memory.wf s.mem = true → Memory.wf (one s f L).1.mem = true)
    (h : Memory.wf s.mem = true) : Memory.wf (s.atomAll f one).mem = true := by
  have key (l : List Nat) (p : State × Flight) (hp : Memory.wf p.1.mem = true) :
      Memory.wf (l.foldl (fun (p : State × Flight) L => one p.1 p.2 L) p).1.mem = true := by
    induction l generalizing p with
    | nil => exact hp
    | cons L t ih => exact ih _ (h1 _ _ L hp)
  simpa [State.atomAll] using key _ (s, f) h

@[simp] theorem State.stepAtom_wf (s : State) (f) (h : Memory.wf s.mem = true) :
    Memory.wf (s.stepAtom f).mem = true := by
  have hS (s : State) (h : Memory.wf s.mem = true) :=
    State.atomAll_wf s f _ (fun s f L hs => State.atomSpad_wf s f L hs) h
  have hG (s : State) (h : Memory.wf s.mem = true) :=
    State.atomAll_wf s f _ (fun s f L hs => State.atomLaneG_wf s f L hs) h
  unfold State.stepAtom
  dsimp only
  (repeat' split) <;> simp [h, hS, hG]

/-! ### Machine/Matrix.lean -/

@[simp] theorem State.putAcc_wf (s : State) (m blk zn i j v) (h : Memory.wf s.mem = true) :
    Memory.wf (s.putAcc m blk zn i j v).mem = true := by
  unfold State.putAcc
  generalize m.place zn i j = l
  induction l generalizing s v with
  | nil => exact h
  | cons w t ih => exact ih _ _ (wf_memWriteNat h _ _ _)

@[simp] theorem State.microTile_wf (s : State) (m gang task zn pa pb na nb t) (h : Memory.wf s.mem = true) :
    Memory.wf (s.microTile m gang task zn pa pb na nb t).mem = true := by
  unfold State.microTile
  dsimp only
  have hv (l : List ((Nat × Nat) × Nat)) (s : State) (blk : Nat) (hs : Memory.wf s.mem = true) :
      Memory.wf (l.foldl (fun s x => s.putAcc m blk zn x.1.1 x.1.2 x.2) s).mem = true :=
    foldl_wf _ l s (fun s x hs => State.putAcc_wf s _ _ _ _ _ _ hs) hs
  split
  · exact hv _ _ _ (by simpa using h)
  · rw [State.fireInj_mem]
    exact wf_memWriteNat (hv _ _ _ (by simpa using h)) _ _ _

/-! ### Machine/Engine.lean -/

@[simp] theorem State.writeSegs_wf (s : State) (late l bytes) (h : Memory.wf s.mem = true) :
    Memory.wf (s.writeSegs late l bytes).mem = true := by
  induction l generalizing s bytes with
  | nil => exact h
  | cons g t ih => exact ih _ _ (by split <;> simp [h])

@[simp] theorem State.writeS_wf (s : State) (off bytes) (h : Memory.wf s.mem = true) :
    Memory.wf (s.writeS off bytes).mem = true := by
  simp [State.writeS, wf_memWrite, h]

@[simp] theorem State.writeRows_wf {α : Type} (s : State) (off : α → Nat) (bytes : α → List Byte) (l : List α)
    (h : Memory.wf s.mem = true) : Memory.wf (l.foldl (fun s x => s.writeS (off x) (bytes x)) s).mem = true :=
  foldl_wf _ l s (fun s _ hs => State.writeS_wf s _ _ hs) h

/-! ### Machine/Mx.lean -/

theorem State.focusCmd_wf {s t : State} {id : Nat} {c : MxCmd} (e : s.focusCmd id = some (c, t))
    (h : Memory.wf s.mem = true) : Memory.wf t.mem = true :=
  State.focusCmd_mem e ▸ h

@[simp] theorem State.putSlot_wf (s : State) (phys off bytes) (h : Memory.wf s.mem = true) :
    Memory.wf (s.putSlot phys off bytes).mem = true :=
  wf_memWrite h _ _

@[simp] theorem State.formF_wf (s : State) (phys) (h : Memory.wf s.mem = true) :
    Memory.wf (s.formF phys).mem = true := by
  simp [State.formF, h]

@[simp] theorem State.doTld_wf (s : State) (c phys ty base pitch) (h : Memory.wf s.mem = true) :
    Memory.wf (s.doTld c phys ty base pitch).mem = true := by
  unfold State.doTld
  dsimp only
  split
  · refine State.formF_wf _ _ (State.putSlot_wf _ _ _ _ (State.putSlot_wf _ _ _ _ ?_))
    simp [h]
  · split <;> simp [h]

@[simp] theorem State.doTldt_wf (s : State) (c phys ty base pitch) (h : Memory.wf s.mem = true) :
    Memory.wf (s.doTldt c phys ty base pitch).mem = true := by
  simp [State.doTldt, h]

@[simp] theorem State.doZld_wf (s : State) (c tile base pitch) (h : Memory.wf s.mem = true) :
    Memory.wf (s.doZld c tile base pitch).mem = true := by
  simp [State.doZld, h, wf_memWrite]

@[simp] theorem State.doZclr_wf (s : State) (tile) (h : Memory.wf s.mem = true) :
    Memory.wf (s.doZclr tile).mem = true :=
  wf_memZero h _ _

@[simp] theorem State.doZst_wf (s : State) (c mode tile base pitch scale) (h : Memory.wf s.mem = true) :
    Memory.wf (s.doZst c mode tile base pitch scale).mem = true := by
  unfold State.doZst
  dsimp only
  split <;> simp [h]

@[simp] theorem State.doTst_wf (s : State) (c name phys ty base pitch) (h : Memory.wf s.mem = true) :
    Memory.wf (s.doTst c name phys ty base pitch).mem = true := by
  unfold State.doTst
  dsimp only
  simp [h]

@[simp] theorem State.mxEffect_wf (s : State) (c) (h : Memory.wf s.mem = true) :
    Memory.wf (s.mxEffect c).mem = true := by
  unfold State.mxEffect
  dsimp only
  split <;> simp [h]

/-! ### Machine/Mgemm.lean -/

/-- The state that a step of an MGEMM or of a copy leaves. -/
def CopyStep.state : CopyStep → State
  | .waits s | .failed _ s | .done s => s

@[simp] theorem CopyStep.state_waits (s : State) : (CopyStep.waits s).state = s := rfl
@[simp] theorem CopyStep.state_failed (e) (s : State) : (CopyStep.failed e s).state = s := rfl
@[simp] theorem CopyStep.state_done (s : State) : (CopyStep.done s).state = s := rfl

theorem State.gemmIn_wf (s : State) (t dst pitch) (h : Memory.wf s.mem = true) :
    Memory.wf (s.gemmIn t dst pitch).state.mem = true := by
  unfold State.gemmIn
  dsimp only
  (repeat' split) <;> simp [h]

theorem State.gemmOut_wf (s : State) (c t src pitch) (h : Memory.wf s.mem = true) :
    Memory.wf (s.gemmOut c t src pitch).state.mem = true := by
  unfold State.gemmOut
  dsimp only
  (repeat' split) <;> simp [h]

theorem State.gemmStep_wf (s : State) (c p) (h : Memory.wf s.mem = true) :
    Memory.wf (s.gemmStep c p).state.mem = true := by
  unfold State.gemmStep
  split <;> simp [h, State.gemmIn_wf, State.gemmOut_wf]

/-! ### Machine/Copy.lean -/

@[simp] theorem State.writeS_writeS_wf (s : State) (off off' l l') (h : Memory.wf s.mem = true) :
    Memory.wf ((s.writeS off l).writeS off' l').mem = true :=
  State.writeS_wf _ _ _ (State.writeS_wf s _ _ h)

@[simp] theorem State.startColl_wf (s : State) (h : Memory.wf s.mem = true) : Memory.wf s.startColl.mem = true := by
  unfold State.startColl
  dsimp only
  (repeat' split) <;> simp [h]

@[simp] theorem State.storeSegs_wf (s : State) (late l bytes) (h : Memory.wf s.mem = true) :
    Memory.wf (s.storeSegs late l bytes).mem = true := by
  induction l generalizing s bytes with
  | nil => exact h
  | cons g t ih => exact ih _ _ (by simp [h])

@[simp] theorem State.performElem_wf (s before : State) (c i r) (h : Memory.wf s.mem = true) :
    Memory.wf (s.performElem before c i r).mem = true := by
  unfold State.performElem
  dsimp only
  (repeat' split) <;> simp [h, wf_memWrite]

@[simp] theorem State.performElems_wf (s : State) (c rs) (h : Memory.wf s.mem = true) :
    Memory.wf (s.performElems c rs).mem = true :=
  foldl_wf _ _ s (fun _ _ hs => State.performElem_wf _ s c _ _ hs) h

@[simp] theorem State.setBit_wf (s : State) (c k) (h : Memory.wf s.mem = true) :
    Memory.wf (s.setBit c k).mem = true := by
  unfold State.setBit
  dsimp only
  (repeat' split) <;> simp [h, wf_memPut]

@[simp] theorem State.follow_wf (s : State) (c) (h : Memory.wf s.mem = true) : Memory.wf (s.follow c).mem = true := by
  unfold State.follow
  (repeat' split) <;> simp [h]

@[simp] theorem State.landed_wf (s : State) (c k) (h : Memory.wf s.mem = true) :
    Memory.wf (s.landed c k).mem = true := by
  unfold State.landed
  dsimp only
  split <;> simp [h]

@[simp] theorem State.stepChunk_wf (s : State) (c k) (h : Memory.wf s.mem = true) :
    Memory.wf (s.stepChunk c k).mem = true := by
  unfold State.stepChunk
  dsimp only
  (repeat' split) <;> simp [h]

@[simp] theorem State.landedLate_wf (s : State) (c k) (h : Memory.wf s.mem = true) :
    Memory.wf (s.landedLate c k).mem = true := by
  unfold State.landedLate
  split <;> simp [h]

/-! ### Machine/Save.lean -/

@[simp] theorem State.writeImage_wf (s : State) (addr b gangs mx grant) (h : Memory.wf s.mem = true) :
    Memory.wf (s.writeImage addr b gangs mx grant).mem = true := by
  unfold State.writeImage
  dsimp only
  exact wf_memWrite (wf_foldl _ (fun _ _ hm => wf_memWrite hm _ _) _ (wf_memWrite (wf_memZero h _ _) _ _)) _ _

@[simp] theorem State.saveBlock_wf (s : State) (b slot) (h : Memory.wf s.mem = true) :
    Memory.wf (s.saveBlock b slot).mem = true := by
  simp [State.saveBlock, h]

theorem withSection_wf (m : List Host.Cell) (addr kind rank unit_ : Nat) (s : State) (f : Nat → State)
    (h : Memory.wf s.mem = true) (hf : ∀ a, Memory.wf (f a).mem = true) :
    Memory.wf (withSection m addr kind rank unit_ s f).mem = true := by
  unfold withSection
  split
  · exact hf _
  · exact h

/-- A section of an image read into a space of memory. -/
theorem copySection_wf (m : List Host.Cell)
    (addr kind rank unit_ dst n : Nat) (s : State) (h : Memory.wf s.mem = true) :
    Memory.wf (withSection m addr kind rank unit_ s fun a =>
      { s with mem := memWrite s.mem dst (memBytes m a n) }).mem = true :=
  withSection_wf m addr kind rank unit_ s _ h fun _ => wf_memWrite h _ _

@[simp] theorem State.readSpaces_wf (s : State) (b gangs addr) (h : Memory.wf s.mem = true) :
    Memory.wf (s.readSpaces b gangs addr).mem = true := by
  unfold State.readSpaces
  dsimp only
  refine foldl_wf _ _ _ (fun s n hs => copySection_wf _ _ _ _ _ _ _ s hs) ?_
  refine foldl_wf _ _ _ (fun s n hs => ?_) ?_
  · split
    · exact copySection_wf _ _ _ _ _ _ _ s hs
    · exact hs
  refine withSection_wf _ _ _ _ _ _ _ ?_ fun _ => ?_
  all_goals
    refine copySection_wf _ _ _ _ _ _ _ _
      (foldl_wf _ gangs s (fun s g hs => withSection_wf _ _ _ _ _ s _ hs fun _ => ?_) h)
    exact wf_foldl _ (fun _ _ hm => wf_memWrite hm _ _) _ hs

@[simp] theorem State.restoreBlock_wf (s : State) (im die core) (h : Memory.wf s.mem = true) :
    Memory.wf (s.restoreBlock im die core).mem = true := by
  unfold State.restoreBlock
  refine foldl_wf _ _ _ (fun s g hs => ?_) ?_
  · dsimp only
    split <;> simp [hs]
  · simp [h]

@[simp] theorem State.noRoomFor_wf (s : State) (im) (h : Memory.wf s.mem = true) :
    Memory.wf (s.noRoomFor im).mem = true := by
  simp [State.noRoomFor, h]

/-! ### Machine/Verdict.lean -/

@[simp] theorem State.replayFails_wf (s : State) (r blame) (h : Memory.wf s.mem = true) :
    Memory.wf (s.replayFails r blame).mem = true := by
  unfold State.replayFails
  dsimp only
  (repeat' split) <;> simp [h]

@[simp] theorem State.replayNowhere_wf (s : State) (r) (h : Memory.wf s.mem = true) :
    Memory.wf (s.replayNowhere r).mem = true := by
  unfold State.replayNowhere
  split <;> simp [h]

@[simp] theorem State.settleReplay_wf (s : State) (r) (h : Memory.wf s.mem = true) :
    Memory.wf (s.settleReplay r).mem = true := by
  unfold State.settleReplay
  dsimp only
  split <;> simp [h]

/-! ### Machine/Fabric.lean -/

@[simp] theorem State.discardLost_wf (s : State) (lines) (h : Memory.wf s.mem = true) :
    Memory.wf (s.discardLost lines).mem = true := by
  unfold State.discardLost
  dsimp only
  split <;> simp [h]

@[simp] theorem State.recountFailed_wf (s : State) (h : Memory.wf s.mem = true) :
    Memory.wf s.recountFailed.mem = true := by
  simp [State.recountFailed, h]

/-! ### Machine/Carriage.lean -/

@[simp] theorem State.performRemote_wf (s : State) (raw) (h : Memory.wf s.mem = true) :
    Memory.wf (s.performRemote raw).mem = true := by
  simp [State.performRemote, h]

@[simp] theorem State.remoteRequest_wf (s : State) (hops raw) (h : Memory.wf s.mem = true) :
    Memory.wf (s.remoteRequest hops raw).mem = true := by
  unfold State.remoteRequest
  dsimp only
  (repeat' split) <;> simp [h]

@[simp] theorem State.localFlit_wf (s : State) (hops raw) (h : Memory.wf s.mem = true) :
    Memory.wf (s.localFlit hops raw).mem = true := by
  unfold State.localFlit
  dsimp only
  (repeat' split) <;> simp [h]

/-! ### Machine/HostIf.lean -/

@[simp] theorem State.served_wf (s t : State) (h : Memory.wf s.mem = true) (ht : Memory.wf t.mem = true) :
    Memory.wf (s.served t).mem = true := by
  unfold State.served
  split <;> assumption

@[simp] theorem State.hostPut_wf (s : State) (slot a bytes) (h : Memory.wf s.mem = true) :
    Memory.wf (s.hostPut slot a bytes).mem = true := by
  simp [State.hostPut, h]

@[simp] theorem State.hostPutSeg_wf (s : State) (g bytes) (h : Memory.wf s.mem = true) :
    Memory.wf (s.hostPutSeg g bytes).mem = true := by
  unfold State.hostPutSeg
  split <;> simp [h]

@[simp] theorem State.hostPutSegs_wf (s : State) (l bytes) (h : Memory.wf s.mem = true) :
    Memory.wf (s.hostPutSegs l bytes).mem = true := by
  induction l generalizing s bytes with
  | nil => exact h
  | cons g t ih => exact ih _ _ (State.hostPutSeg_wf s g _ h)

/-! ### Machine/Platform.lean -/

@[simp] theorem State.clearPackage_wf (s : State) (h : Memory.wf s.mem = true) :
    Memory.wf s.clearPackage.mem = true := by
  unfold State.clearPackage
  refine wf_filter ?_ _
  simpa using h

/-! ### Machine/Mgmt.lean -/

@[simp] theorem State.command_wf (s : State) (ses malformed refused f) (h : Memory.wf s.mem = true)
    (hf : Memory.wf (f s).mem = true) : Memory.wf (s.command ses malformed refused f).mem = true := by
  unfold State.command
  (repeat' split) <;> simp [h, hf]

/-! ## The instructions

A lemma for each instruction whose effect is more than a composition of the operations above; the others are unfolded
into those operations in `exec_canonical`. -/

/-- Whatever state an outcome goes on in, its memory is in canonical form. -/
def Canonical (r : Res) : Prop := ∀ t, r = .next t → Memory.wf t.mem = true

@[simp] theorem canonical_next {t : State} : Canonical (.next t) ↔ Memory.wf t.mem = true :=
  ⟨fun h => h t rfl, fun h _ e => by cases e; exact h⟩

theorem canonical_fault (r : Fault) : Canonical (.fault r) := fun _ e => by simp at e

theorem canonical_refused (r : Refusal) : Canonical (.refused r) := fun _ e => by simp at e

theorem canonical_of_mem_eq {s t : State} (h : Memory.wf s.mem = true) (e : t.mem = s.mem) : Canonical (.next t) :=
  canonical_next.2 (e ▸ h)

section Instructions

variable {s : State} (h : Memory.wf s.mem = true)
include h

/-! ### Machine/Sample.lean -/

@[simp] theorem execSamplingChoice_canonical (die core sched) : Canonical (execSamplingChoice die core sched s) := by
  unfold execSamplingChoice
  dsimp only
  split <;> simp [h]

@[simp] theorem execSamplingRecord_canonical (die core sched) : Canonical (execSamplingRecord die core sched s) := by
  unfold execSamplingRecord
  dsimp only
  (repeat' split) <;> simp [h, wf_memWrite]

/-! ### Machine/Ctl.lean -/

@[simp] theorem execSleepExpiry_canonical (gang slice) : Canonical (execSleepExpiry gang slice s) := by
  unfold execSleepExpiry
  dsimp only
  split <;> simp [h]

@[simp] theorem execRte_canonical : Canonical (execRte s) := by
  refine canonical_of_mem_eq h (State.privileged_mem s _ ?_)
  split
  · rfl
  · rw [State.regangs_mem, foldl_mem _ _ _ fun s k => by split <;> simp]
    simp

/-! ### Machine/Lsu.lean -/

@[simp] theorem execGst_canonical (d a f l z) : Canonical (execGst d a f l z s) := by
  refine canonical_of_mem_eq h ?_
  split
  · rfl
  · refine State.withRegs_mem s _ _ ?_
    split <;> simp

@[simp] theorem execScratchpadLoadComplete_canonical (gang op) :
    Canonical (execScratchpadLoadComplete gang op s) := by
  unfold execScratchpadLoadComplete
  dsimp only
  split <;> simp [h]

@[simp] theorem execScratchpadStoreComplete_canonical (gang op) :
    Canonical (execScratchpadStoreComplete gang op s) := by
  unfold execScratchpadStoreComplete
  dsimp only
  (repeat' split) <;> simp [h]

@[simp] theorem execGstComplete_canonical (gang op) : Canonical (execGstComplete gang op s) := by
  unfold execGstComplete
  dsimp only
  (repeat' split) <;> simp [h]

@[simp] theorem execFeset_canonical (x y sp v) : Canonical (execFeset x y sp v s) := by
  refine canonical_of_mem_eq h ?_
  split
  · rfl
  · refine State.withRegs_mem s _ _ ?_
    dsimp only
    (repeat' split) <;> simp

@[simp] theorem execFesetEffect_canonical (gang op) : Canonical (execFesetEffect gang op s) := by
  unfold execFesetEffect
  (repeat' split) <;> simp [h]

/-! ### Machine/Order.lean -/

@[simp] theorem execFence_canonical (r k sc) : Canonical (execFence r k sc s) := by
  unfold execFence
  dsimp only
  split <;> simp [h]

@[simp] theorem execAtom_canonical (d a t o p f) : Canonical (execAtom d a t o p f s) := by
  refine canonical_next.2 ?_
  split
  · exact h
  split
  · refine State.withRegs_wf s _ _ h ?_
    split
    · simp [h]
    · dsimp only
      generalize (if p = 1 then s.badVa a.toNat (4 * atomRegs t.toNat) else none) = bad
      cases bad <;> simp [h]
  · refine State.withRegs_wf s _ _ h ?_
    generalize (if p = 1 then s.badVa a.toNat (4 * atomRegs t.toNat) else none) = bad
    cases bad <;> simp [h]

@[simp] theorem execWalkEnd_canonical (gang op) : Canonical (execWalkEnd gang op s) := by
  unfold execWalkEnd
  dsimp only
  (repeat' split) <;> simp [h]

@[simp] theorem execAtomComplete_canonical (gang op) : Canonical (execAtomComplete gang op s) := by
  unfold execAtomComplete
  dsimp only
  (repeat' split) <;> simp [h]

@[simp] theorem execPostedAtomicPerform_canonical (op) : Canonical (execPostedAtomicPerform op s) := by
  unfold execPostedAtomicPerform
  dsimp only
  (repeat' split) <;> simp [h, wf_memWriteNat]

/-! ### Machine/Mx.lean -/

@[simp] theorem execClaim_canonical (n t) : Canonical (execClaim n t s) := by
  refine canonical_of_mem_eq h (State.mxWord_mem _ _ _ fun v w => ?_)
  (repeat' split) <;> simp

@[simp] theorem execTld_canonical (n y z) : Canonical (execTld n y z s) := by
  refine canonical_of_mem_eq h (State.mxWord_mem _ _ _ fun v w => State.withSlot_mem _ _ _ fun b => ?_)
  dsimp only
  (repeat' split) <;> simp

@[simp] theorem execTldt_canonical (n y z) : Canonical (execTldt n y z s) := by
  refine canonical_of_mem_eq h (State.mxWord_mem _ _ _ fun v w => State.withSlot_mem _ _ _ fun b => ?_)
  dsimp only
  (repeat' split) <;> simp

@[simp] theorem execTldm_canonical (n y) : Canonical (execTldm n y s) := by
  refine canonical_of_mem_eq h (State.mxWord_mem _ _ _ fun v w => State.withSlot_mem _ _ _ fun b => ?_)
  (repeat' split) <;> simp

@[simp] theorem execZld_canonical (n y z) : Canonical (execZld n y z s) := by
  refine canonical_of_mem_eq h (State.mxWord_mem _ _ _ fun v w => ?_)
  (repeat' split) <;> simp

@[simp] theorem execZst_canonical (m n y z) : Canonical (execZst m n y z s) := by
  refine canonical_of_mem_eq h (State.mxWord_mem _ _ _ fun v w => ?_)
  dsimp only
  (repeat' split) <;> simp

@[simp] theorem execTst_canonical (n y z) : Canonical (execTst n y z s) := by
  refine canonical_of_mem_eq h (State.mxWord_mem _ _ _ fun v w => State.withSlot_mem _ _ _ fun b => ?_)
  dsimp only
  (repeat' split) <;> simp

@[simp] theorem execMxCommandComplete_canonical (cmd) : Canonical (execMxCommandComplete cmd s) := by
  refine canonical_next.2 ?_
  split
  · exact h
  next e =>
    have ht := State.focusCmd_wf e h
    (repeat' split) <;> simp [ht]

/-! ### Machine/Mgemm.lean -/

@[simp] theorem execMxCommandStart_canonical (cmd) : Canonical (execMxCommandStart cmd s) := by
  refine canonical_next.2 ?_
  split
  · exact h
  next e =>
    have ht := State.focusCmd_wf e h
    dsimp only
    (repeat' split) <;> simp [ht]

@[simp] theorem execMicroTileComplete_canonical (cmd) : Canonical (execMicroTileComplete cmd s) := by
  refine canonical_next.2 ?_
  split
  · exact h
  next e =>
    have ht := State.focusCmd_wf e h
    dsimp only
    (repeat' split) <;> simp [ht]

@[simp] theorem execMgemmStepComplete_canonical (cmd) : Canonical (execMgemmStepComplete cmd s) := by
  refine canonical_next.2 ?_
  split
  · exact h
  next c t e =>
    have ht := State.focusCmd_wf e h
    have hg := State.gemmStep_wf t c (parseGemm c.params) ht
    dsimp only
    (repeat' split) <;> simp_all

@[simp] theorem execMgemmEnd_canonical (cmd) : Canonical (execMgemmEnd cmd s) := by
  refine canonical_next.2 ?_
  split
  · exact h
  next e =>
    have ht := State.focusCmd_wf e h
    split <;> simp [ht]

/-! ### Machine/Copy.lean -/

@[simp] theorem execCollectiveStart_canonical (block) : Canonical (execCollectiveStart block s) := by
  refine canonical_next.2 ?_
  dsimp only
  (repeat' split) <;> simp [h]

@[simp] theorem execChunkLanded_canonical (block coll chunk) : Canonical (execChunkLanded block coll chunk s) := by
  unfold execChunkLanded
  dsimp only
  (repeat' split) <;> simp [h]

@[simp] theorem execCopyFailure_canonical (block coll chunk) : Canonical (execCopyFailure block coll chunk s) := by
  unfold execCopyFailure
  dsimp only
  (repeat' split) <;> simp [h]

@[simp] theorem execCollectiveEnd_canonical (block coll) : Canonical (execCollectiveEnd block coll s) := by
  refine canonical_next.2 ?_
  dsimp only
  (repeat' split) <;> simp -implicitDefEqProofs [h]

@[simp] theorem execChreset_canonical (y) : Canonical (execChreset y s) := by
  refine canonical_of_mem_eq h ?_
  split
  · rfl
  · refine State.withRegs_mem s _ _ ?_
    dsimp only
    (repeat' split) <;> simp

@[simp] theorem execChresetEffect_canonical (gang op) : Canonical (execChresetEffect gang op s) := by
  unfold execChresetEffect
  (repeat' split) <;> simp [h]

/-! ### Machine/Event.lean -/

@[simp] theorem execBind_canonical (k n y z) : Canonical (execBind k n y z s) := by
  refine canonical_of_mem_eq h (State.withRegs_mem s _ _ ?_)
  dsimp only
  (repeat' split) <;> simp

@[simp] theorem execBar_canonical (w sl) : Canonical (execBar w sl s) := by
  unfold execBar
  dsimp only
  split <;> simp [h]

@[simp] theorem execBrokenTaskTimeout_canonical (task) : Canonical (execBrokenTaskTimeout task s) := by
  unfold execBrokenTaskTimeout
  (repeat' split) <;> simp [h]

/-! ### Machine/Queue.lean -/

@[simp] theorem execWrsMqSend_canonical (d) : Canonical (execWrsMqSend d s) := by
  refine canonical_of_mem_eq h (State.withRegs_mem s _ _ ?_)
  (repeat' split) <;> simp

@[simp] theorem execRdsMqRecv_canonical (d n) : Canonical (execRdsMqRecv d n s) := by
  refine canonical_of_mem_eq h (State.withDest_mem s _ _ _ ?_)
  dsimp only
  (repeat' split) <;> simp

@[simp] theorem execLaunch_canonical (n y) : Canonical (execLaunch n y s) := by
  refine canonical_of_mem_eq h (State.withRegs_mem s _ _ ?_)
  dsimp only
  (repeat' split) <;> simp

@[simp] theorem execFlitPlacement_canonical (flit) : Canonical (execFlitPlacement flit s) := by
  unfold execFlitPlacement
  split <;> simp [h]

@[simp] theorem execFlitResend_canonical (flit) : Canonical (execFlitResend flit s) := by
  unfold execFlitResend
  split <;> simp [h]

/-! ### Machine/Token.lean -/

@[simp] theorem execPersistentActivate_canonical (die line own) :
    Canonical (execPersistentActivate die line own s) := by
  unfold execPersistentActivate
  split <;> simp [h]

@[simp] theorem execPersistentDeactivate_canonical (die line) : Canonical (execPersistentDeactivate die line s) := by
  unfold execPersistentDeactivate
  dsimp only
  split <;> simp [h]

@[simp] theorem execTransientRetryTimeout_canonical (die line) :
    Canonical (execTransientRetryTimeout die line s) := by
  unfold execTransientRetryTimeout
  dsimp only
  split <;> simp [h]

/-! ### Machine/Table.lean -/

@[simp] theorem execTlbinvRange_canonical (y z) : Canonical (execTlbinvRange y z s) := by
  refine canonical_of_mem_eq h (State.privileged_mem s _ (State.withRegs_mem s _ _ ?_))
  split <;> simp

@[simp] theorem execCwb_canonical (k v y z) : Canonical (execCwb k v y z s) := by
  refine canonical_of_mem_eq h (State.privileged_mem s _ (State.withRegs_mem s _ _ ?_))
  dsimp only
  (repeat' split) <;> simp

/-! ### Machine/Witness.lean -/

@[simp] theorem execWemit_canonical (i y z) : Canonical (execWemit i y z s) := by
  refine canonical_of_mem_eq h (State.withRegs_mem s _ _ ?_)
  dsimp only
  (repeat' split) <;> simp

@[simp] theorem execWitnessItemStore_canonical (gang op) : Canonical (execWitnessItemStore gang op s) := by
  unfold execWitnessItemStore
  (repeat' split) <;> simp [h]

@[simp] theorem execRelreq_canonical (x y) : Canonical (execRelreq x y s) := by
  refine canonical_of_mem_eq h (State.withDest_mem s _ _ _ ?_)
  split <;> simp

@[simp] theorem execSigrdReply_canonical (gang op) : Canonical (execSigrdReply gang op s) := by
  unfold execSigrdReply
  dsimp only
  split <;> simp [h]

@[simp] theorem execRelreqReply_canonical (gang op) : Canonical (execRelreqReply gang op s) := by
  unfold execRelreqReply
  dsimp only
  split <;> simp [h]

/-! ### Machine/WitnessTest.lean -/

@[simp] theorem execWitnessTest_canonical (oper) : Canonical (execWitnessTest oper s) := by
  refine canonical_next.2 ?_
  split
  · exact h
  split
  · exact h
  split
  · simp [h]
  dsimp only
  split
  · split <;> simp [h]
  split
  · rw [foldl_mem _ _ _ fun s b => by split <;> simp]
    simp [h]
  · simp [h]

/-! ### Machine/Dispatcher.lean -/

@[simp] theorem execBlockAdmission_canonical : Canonical (execBlockAdmission s) := by
  unfold execBlockAdmission
  dsimp only
  (repeat' split) <;> simp [h]

@[simp] theorem execTaskRecordArrival_canonical (record) : Canonical (execTaskRecordArrival record s) := by
  unfold execTaskRecordArrival
  split <;> simp [h]

/-! ### Machine/Save.lean -/

@[simp] theorem execBlockEvictionSave_canonical (block) : Canonical (execBlockEvictionSave block s) := by
  refine canonical_next.2 ?_
  (repeat' split) <;> simp [h]

@[simp] theorem execBlockRestore_canonical (image) : Canonical (execBlockRestore image s) := by
  refine canonical_next.2 ?_
  dsimp only
  (repeat' split) <;> simp [h]

/-! ### Machine/Verdict.lean -/

@[simp] theorem execOperatorRelease_canonical (oper) : Canonical (execOperatorRelease oper s) := by
  unfold execOperatorRelease
  (repeat' split) <;> simp [h]

@[simp] theorem execReplayStart_canonical (replay) : Canonical (execReplayStart replay s) := by
  unfold execReplayStart
  dsimp only
  (repeat' split) <;> simp [h]

@[simp] theorem execReplayEnd_canonical (replay) : Canonical (execReplayEnd replay s) := by
  unfold execReplayEnd
  dsimp only
  (repeat' split) <;> simp [h]

@[simp] theorem execReplayAbandon_canonical (replay) : Canonical (execReplayAbandon replay s) := by
  unfold execReplayAbandon
  (repeat' split) <;> simp [h]

@[simp] theorem execUnitRetirement_canonical (node kind index) :
    Canonical (execUnitRetirement node kind index s) := by
  unfold execUnitRetirement
  (repeat' split) <;> simp [h]

@[simp] theorem execDieFatalError_canonical (die) : Canonical (execDieFatalError die s) := by
  refine canonical_next.2 ?_
  split
  · exact h
  · rw [State.tryReleases_mem, State.later_mem]
    refine foldl_wf _ _ _ (fun s t hs => State.settleTask_wf s t hs) ?_
    split <;> simp [h]

/-! ### Machine/Fabric.lean -/

@[simp] theorem execLinkFlitReceive_canonical (link side seqno raw) :
    Canonical (execLinkFlitReceive link side seqno raw s) := by
  unfold execLinkFlitReceive
  (repeat' split) <;> simp [h]

@[simp] theorem execLinkAck_canonical (link side seqno) : Canonical (execLinkAck link side seqno s) := by
  unfold execLinkAck
  split <;> simp [h]

@[simp] theorem execLinkReplayRequest_canonical (link side seqno) :
    Canonical (execLinkReplayRequest link side seqno s) := by
  unfold execLinkReplayRequest
  (repeat' split) <;> simp [h]

@[simp] theorem execLinkRetrain_canonical (link) : Canonical (execLinkRetrain link s) := by
  unfold execLinkRetrain
  split <;> simp [h]

@[simp] theorem execLinkRetrainingEnd_canonical (link trained) :
    Canonical (execLinkRetrainingEnd link trained s) := by
  unfold execLinkRetrainingEnd
  (repeat' split) <;> simp [h]

@[simp] theorem execProbe_canonical (node port) : Canonical (execProbe node port s) := by
  unfold execProbe
  split <;> simp [h]

@[simp] theorem execProbeReply_canonical (node port) : Canonical (execProbeReply node port s) := by
  unfold execProbeReply
  split <;> simp [h]

@[simp] theorem execRouteRecompute_canonical : Canonical (execRouteRecompute s) := by
  unfold execRouteRecompute
  dsimp only
  (repeat' split) <;> simp [h]

@[simp] theorem execRouteWrite_canonical (node) : Canonical (execRouteWrite node s) := by
  refine canonical_next.2 ?_
  dsimp only
  (repeat' split) <;> simp [h]

@[simp] theorem execRequestTimeout_canonical (request) : Canonical (execRequestTimeout request s) := by
  unfold execRequestTimeout
  (repeat' split) <;> simp [h]

@[simp] theorem execNackEndpointAbsent_canonical (request) : Canonical (execNackEndpointAbsent request s) := by
  unfold execNackEndpointAbsent
  split <;> simp [h]

/-! ### Machine/Carriage.lean -/

@[simp] theorem execCarriageTransitFlit_canonical (dst hops raw) :
    Canonical (execCarriageTransitFlit dst hops raw s) := by
  unfold execCarriageTransitFlit
  (repeat' split) <;> simp [h]

@[simp] theorem execCarriageReset_canonical : Canonical (execCarriageReset s) := by
  unfold execCarriageReset
  split <;> simp [h]

/-! ### Machine/HostIf.lean -/

@[simp] theorem execHostWindowSend_canonical (window payload) : Canonical (execHostWindowSend window payload s) := by
  refine canonical_next.2 (State.served_wf s _ h ?_)
  dsimp only
  (repeat' split) <;> simp [h]

@[simp] theorem execHostWindowRecv_canonical (place) : Canonical (execHostWindowRecv place s) := by
  refine canonical_next.2 (State.served_wf s _ h ?_)
  dsimp only
  (repeat' split) <;> simp [h]

@[simp] theorem execHostApertureRead_canonical (aperture offset count) :
    Canonical (execHostApertureRead aperture offset count s) := by
  refine canonical_next.2 (State.served_wf s _ h ?_)
  dsimp only
  (repeat' split) <;> simp [h]

@[simp] theorem execHostApertureWrite_canonical (aperture offset bytes) :
    Canonical (execHostApertureWrite aperture offset bytes s) := by
  refine canonical_next.2 (State.served_wf s _ h ?_)
  dsimp only
  (repeat' split) <;> simp [h]

/-! ### Machine/Platform.lean -/

@[simp] theorem execPackageReset_canonical : Canonical (execPackageReset s) := by
  refine canonical_next.2 ?_
  dsimp only
  split
  · simp [h]
  · rw [State.discover_mem]
    refine wf_memWriteNat (wf_memPut ?_ _ _) _ _ _
    simp [h]

/-! ### Machine/Mgmt.lean -/

@[simp] theorem execMctpPacket_canonical (source checksumOk datagram) :
    Canonical (execMctpPacket source checksumOk datagram s) := by
  unfold execMctpPacket
  dsimp only
  (repeat' split) <;> simp [h]

@[simp] theorem execGetMeasurements_canonical (index nonce) : Canonical (execGetMeasurements index nonce s) :=
  canonical_of_mem_eq h (State.spdm_mem s _ _ (by split <;> rfl))

@[simp] theorem execGrant_canonical (ses die num ctx base len) :
    Canonical (execGrant ses die num ctx base len s) :=
  canonical_next.2 (State.command_wf s _ _ _ _ h (wf_memZero h _ _))

@[simp] theorem execImgqueue_canonical (ses source) : Canonical (execImgqueue ses source s) := by
  unfold execImgqueue
  dsimp only
  (repeat' split) <;> simp [h]

@[simp] theorem execFwwrite_canonical (ses offset bytes) : Canonical (execFwwrite ses offset bytes s) :=
  canonical_next.2 (State.command_wf s _ _ _ _ h (wf_memWrite h _ _))

@[simp] theorem execFwselect_canonical (ses) : Canonical (execFwselect ses s) :=
  canonical_next.2 (State.command_wf s _ _ _ _ h (wf_memPut h _ _))

/-! ### Machine/Sched.lean -/

@[simp] theorem execHandlerEntry_canonical (gang) : Canonical (execHandlerEntry gang s) := by
  unfold execHandlerEntry
  dsimp only
  split <;> simp [h]

/-- Every instruction keeps memory canonical: by its lemma above, or as a composition of operations that do. -/
theorem exec_canonical (i : Instr) : Canonical (exec i s) := by
  cases i <;> simp [exec, h,
    -- Machine/IntOps.lean
    execNop, execMov, execMovi, execMovhi, execLaneid, execSel, execShfl, execBcast, execUnif, execIcmp, execIcmpi,
    execPlog, execP2v, execV2p, execVoteAnyAll, execVoteBallot, execIadd, execIsub, execIaddi, execImul, execImulhs,
    execImulhn, execImad, execImadw, execImadwn, execImin, execImax, execIabs, execIneg, execIdiv, execIrem,
    execIaccw, execAddr, execAddri, execAnd, execOr, execXor, execAndn, execNot, execAndi, execOri, execXori,
    execShl, execShr, execSar, execShli, execShri, execSari, execBfx, execBfxs, execBfi, execBitop, execScan,
    execIred,
    -- Machine/FpOps.lean
    execFadd, execFsub, execFmul, execFfma32, execFfma64, execFfmabf, execFfmah, execFdot2, execFmin, execFmax,
    execFsgn, execFcmp, execFclass, execFrnd, execFdiv, execFsqrt, execFscale, execFrcp, execFrsq, execFexp2,
    execFlog2, execFsin, execFcos, execFmovi, execCvt, execCvtp, execQenc, execQdec, execFsum, execFscan,
    -- Machine/Ctl.lean
    execBra, execCall, execJmp, execCalli, execRet, execMkpush, execMkctl, execWaitf, execWaitc, execRegang,
    execExit, execYield, execSleep, execTrap, execBrk,
    -- Machine/Lsu.lean
    execLd, execLdw, execLdt, execLda, execLdx, execSt, execStf, execStrel, execStx, execFesetComplete,
    -- Machine/Mx.lean
    execFree, execZclr, execMmabf, execMmah, execMmai8, execMmai16, execMmaf64, execMmaq4, execMmasbf, execMmasi8,
    -- Machine/Mgemm.lean
    execMgemm,
    -- Machine/Copy.lean
    execCpart, execCpmx, execGather, execScatter, execCred, execChtest,
    -- Machine/Event.lean
    execWaitany, execBindingPending, execTimerBindingExpiry, execUnbind, execGinfo,
    -- Machine/Queue.lean
    execChopen, execChclose, execChsel,
    -- Machine/Sreg.lean
    execRds, execRdsGangFpstat, execInjectZFlipMma, execInjectZFlipZst, execInjectZUe, execInjectSlotUe,
    execInjectFatal, execWrs, execWrsGangFpstat, execWrsSliceStatus, execWrsMxUe, execWrsPerfSel, execWrsDbgCtl,
    execWrsTrapQ,
    -- Machine/Token.lean
    execReadRequest, execOwnRequest, execForwardedRequest, execTokensArrive, execDieCacheEviction,
    execDeactivateAcknowledge,
    -- Machine/Table.lean
    execTlbinvPage, execTlbinvCtx, execTlbinvAll,
    -- Machine/Witness.lean
    execWseed, execWclose, execSigrd,
    -- Machine/Save.lean
    execEvict,
    -- Machine/Verdict.lean
    execErrorCountAgeing,
    -- Machine/Carriage.lean
    execCarriageTrainingDone, execHeartbeat, execHeartbeatMiss, execQuiesce, execGovernorLevelChange,
    -- Machine/Platform.lean
    execPowerOn, execComputeRailFall, execPackageRailFall, execVcarFall, execVcarPowerOn, execThermalStepDown,
    execThermalStepUp, execThermalTrip,
    -- Machine/Mgmt.lean
    State.spdm, execSetEndpointId, execGetVersion, execGetCapabilities, execNegotiateAlgorithms, execGetDigests,
    execGetCertificate, execChallenge, execKeyExchange, execFinish, execEndSession, execCtxwrite, execWinbind,
    execPkgnum, execFwdtab, execScreen, execWindow, execKeyload, execRetireRemove, execInjlock, execHalt, execTlbi,
    execSavepool, execFaultread, execCountread, execReset, execCoreinit, execCarreset, execTaskend, execAperbind,
    execHostrange,
    -- Machine/Sched.lean
    execSchedulerCycle, execAgeingLevelRise]

end Instructions

/-! ## The step -/

theorem runWords_canonical (before s : State) (l : List (Nat × Instr)) (hb : Memory.wf before.mem = true)
    (h : Memory.wf s.mem = true) : Canonical (runWords before s l) := by
  induction l generalizing s with
  | nil => exact canonical_next.2 h
  | cons w l ih =>
    obtain ⟨j, i⟩ := w
    have hi : Canonical (exec i (s.atWord j)) := exec_canonical (by simpa using h) i
    unfold runWords
    split
    next t e =>
      have ht := hi t e
      split
      · exact canonical_next.2 ht
      split
      · exact exec_canonical (by simpa using hb) i
      · exact ih t ht
    · exact canonical_fault _
    · exact canonical_refused _

theorem issueChain_canonical (s : State) (ws : List (Nat × Instr)) (h : Memory.wf s.mem = true) :
    Canonical (issueChain s ws) := by
  have hr (l : List (Nat × Instr)) := runWords_canonical s s l h h
  unfold issueChain
  split
  next t e =>
    split
    · exact canonical_next.2 (State.finish_wf s t h (hr ws t e))
    split
    next u e => exact canonical_next.2 (State.finish_wf s u h (hr _ u e))
    · exact canonical_fault _
    · exact canonical_refused _
  · exact canonical_fault _
  · exact canonical_refused _

theorem issueGroup_canonical (s : State) (gang : Nat) (h : Memory.wf s.mem = true) : Canonical (issueGroup s gang) := by
  unfold issueGroup
  dsimp only
  split
  · exact canonical_fault _
  split
  · split <;> simp [h]
  next t words e =>
    have ht : Memory.wf t.mem = true := by
      rw [State.fetch_mem e]
      simpa using h
    split
    · simp [ht]
    split
    · simp [ht]
    split
    · simp [ht]
    · exact issueChain_canonical _ _ (by simpa using ht)

theorem step_canonical (s : State) (h : Memory.wf s.mem = true) : Canonical (step s) := by
  unfold step
  dsimp only
  split
  · exact exec_canonical (by simpa using h) _
  split
  · exact issueGroup_canonical _ _ h
  split
  · exact exec_canonical (by simpa using h) _
  · exact canonical_next.2 h

/-- Settles O60: a step writes memory only through operations that keep its canonical form. -/
theorem stepKeepsMemoryCanonical : Obligations.StepKeepsMemoryCanonical := by
  unfold Obligations.StepKeepsMemoryCanonical
  exact fun s t h e => step_canonical s h t e

end Sys2Proof.Machine
end

section
/-! PROOFS. A step and the issue of a chain: which execution a step is, what the checks of a packet come to, and that
every word and step has a next state. -/

namespace Sys2Proof.Machine

open Sys2Proof

/-! ## Totality -/

/-- Every word and step has a next state: each arm of `exec` answers one. -/
theorem exec_total (i : Instr) (s : State) : ∃ t, exec i s = .next t := by
  cases i <;> exact ⟨_, rfl⟩

theorem runWords_total (before s : State) (l : List (Nat × Instr)) : ∃ t, runWords before s l = .next t := by
  induction l generalizing s with
  | nil => exact ⟨s, rfl⟩
  | cons w l ih =>
    obtain ⟨j, i⟩ := w
    obtain ⟨t, ht⟩ := exec_total i (s.atWord j)
    simp only [runWords, ht]
    split
    · exact ⟨t, rfl⟩
    · split
      · exact exec_total i _
      · exact ih t

theorem issueChain_total (s : State) (ws : List (Nat × Instr)) : ∃ t, issueChain s ws = .next t := by
  obtain ⟨t, ht⟩ := runWords_total s s ws
  obtain ⟨u, hu⟩ := runWords_total s s (effectOrder ws)
  simp only [issueChain, ht, hu]
  split <;> exact ⟨_, rfl⟩

/-! ## The focus -/

@[simp] theorem State.focusGang_sel (s : State) (uid) : (s.focusGang uid).sel = s.sel := by
  unfold State.focusGang
  (repeat' split) <;> rfl

@[simp] theorem State.focusBlock_sel (s : State) (uid) : (s.focusBlock uid).sel = s.sel := by
  unfold State.focusBlock
  (repeat' split) <;> rfl

@[simp] theorem State.focusCore_sel (s : State) (die idx) : (s.focusCore die idx).sel = s.sel := by
  unfold State.focusCore
  (repeat' split) <;> rfl

@[simp] theorem State.focus_sel (s : State) (uid) : (s.focus uid).sel = s.sel := by simp [State.focus, State.atBlock]

/-- A gang in focus, its registers kept for the words of its chain to read (R40). -/
def State.takenUp (s : State) (gang : Nat) : State := { s.focus gang with snap := some (s.focus gang).g }

/-! ## Which execution a step is -/

theorem step_urgent {s : State} {i : Instr} {rest : List Instr} (hl : s.tick.latchable = []) (hu : s.urgent = i :: rest) :
    step s = exec i { s.tick with urgent := rest } := by
  have hk : rest.filter (i :: rest).contains = rest := List.filter_eq_self.mpr fun x hx => by simp [hx]
  simp [step, hl, hu, hk]

theorem step_chosen {s : State} {i : Instr} (hl : s.tick.latchable = []) (hu : s.urgent = []) (hs : s.sel = none)
    (hc : choose s.tick.ctr s.tick.enabled = some i) : step s = exec i (s.tick.taken i) := by
  simp [step, hl, hu, hs, hc]

theorem step_issue {s : State} {gang k : Nat} (hl : s.tick.latchable = []) (hu : s.urgent = []) (hs : s.sel = some (gang, k)) :
    step s = issueGroup s.tick gang := by
  simp [step, hl, hu, hs]

/-! ## Fetching -/

theorem State.seenAt_four (s : State) (slot a : Nat) :
    s.seenAt slot a 4 = [s.seenGet slot a, s.seenGet slot (a + 1), s.seenGet slot (a + 2), s.seenGet slot (a + 3)] := by
  unfold State.seenAt State.seenGet
  split <;> rfl

/-- Word k of a packet on one page. -/
def State.packetWord (s : State) (x : Xlat) (k : Nat) : Fetched :=
  fetched (BitVec.ofNat 32 (leNat (s.seenAt x.key (x.phys + 4 * k) 4)))

theorem State.packetBytes_inPage {s : State} {x y : Xlat} (h : x.off + 12 ≤ x.size) :
    s.packetBytes x y = (upto 12).map fun k => s.seenGet x.key (x.phys + k) := by
  refine List.map_congr_left fun k hk => if_pos ?_
  have := (mem_upto _ _).mp hk
  omega

theorem packetPlaces_inPage {x y : Xlat} (h : x.off + 12 ≤ x.size) :
    packetPlaces x y = (upto 12).map fun k => x.phys + k := by
  refine List.map_congr_left fun k hk => if_pos ?_
  have := (mem_upto _ _).mp hk
  omega

/-- The fetch of a packet that translates, lies on one page and whose bytes can all be read (R36, R37). -/
theorem State.fetch_inPage {s : State} {va : Nat} {x : Xlat} (hx : s.codeAt (s.task s.g.task).ctx va = .ok x)
    (hp : x.off + 12 ≤ x.size) (hr : ∀ k < 12, s.reachable (x.phys + k) = true ∧ s.lineBad ((x.phys + k) / 128) = false) :
    s.fetch va = .ok (s.cache (s.task s.g.task).ctx va x, [s.packetWord x 0, s.packetWord x 1, s.packetWord x 2]) := by
  have hgood : (packetPlaces x x).any (fun p => !s.reachable p || s.lineBad (p / 128)) = false := by
    rw [packetPlaces_inPage hp, List.any_eq_false]
    intro p hm
    obtain ⟨k, hk, rfl⟩ := List.mem_map.mp hm
    obtain ⟨h1, h2⟩ := hr k ((mem_upto _ _).mp hk)
    simp [h1, h2]
  unfold State.fetch
  simp only [hx, if_pos hp, hgood, State.packetBytes_inPage hp, State.packetWord, State.seenAt_four]
  rfl

/-! ## The issue of a chain -/

variable {s : State} {gang : Nat}

/-- The word address at which the group chosen stands, and the place of its word in the packet (R24, R39). -/
def State.issuePc (s : State) (gang : Nat) : DWord := (s.takenUp gang).groupPc

theorem issueGroup_fetchError (hg : (s.takenUp gang).group ≠ []) {info : Nat}
    (hf : (s.takenUp gang).fetch (packetOf (s.issuePc gang)).toNat = .error info) :
    issueGroup s gang =
      let t := s.takenUp gang
      let u := if info = 3 then t.reportAll (t.fetchErrors (packetOf (s.issuePc gang)).toNat) t.g.task else t
      .next ((u.begin gang (s.issuePc gang) []).faultAt (packetOf (s.issuePc gang)) (xlatStop 0 info).1 (xlatStop 0 info).2 0).idleIssue := by
  have hg' : (s.takenUp gang).group.isEmpty = false := by simpa using hg
  unfold State.issuePc State.takenUp at *
  unfold issueGroup
  simp only [hg', hf]
  rfl

theorem issueGroup_packetFault (hg : (s.takenUp gang).group ≠ []) {t : State} {words : List Fetched}
    (hf : (s.takenUp gang).fetch (packetOf (s.issuePc gang)).toNat = .ok (t, words)) {n c : Nat}
    (hp : let rest := words.drop ((s.issuePc gang) &&& 3).toNat
      packetFault (t.begin gang (s.issuePc gang) (chainOf rest)).priv ((s.issuePc gang) &&& 3).toNat [] rest = some (n, c)) :
    issueGroup s gang = .next ((t.begin gang (s.issuePc gang) (chainOf (words.drop ((s.issuePc gang) &&& 3).toNat))).faultAt
      (packetOf (s.issuePc gang) ||| BitVec.ofNat 64 n) c 0 0).idleIssue := by
  have hg' : (s.takenUp gang).group.isEmpty = false := by simpa using hg
  unfold State.issuePc State.takenUp at *
  unfold issueGroup
  simp only [hg', hf, hp]
  rfl

theorem issueGroup_chain (hg : (s.takenUp gang).group ≠ []) {t : State} {words : List Fetched}
    (hf : (s.takenUp gang).fetch (packetOf (s.issuePc gang)).toNat = .ok (t, words))
    {rest chain : List Fetched} (hrest : words.drop ((s.issuePc gang) &&& 3).toNat = rest) (hch : chainOf rest = chain)
    (hp : packetFault (t.begin gang (s.issuePc gang) chain).priv ((s.issuePc gang) &&& 3).toNat [] rest = none)
    (hd : (t.begin gang (s.issuePc gang) chain).debugMatch
      ((upto chain.length).map fun k => s.issuePc gang + BitVec.ofNat 64 k) = none)
    (hw : (t.begin gang (s.issuePc gang) chain).windowShut chain.length = false) :
    issueGroup s gang = issueChain (t.begin gang (s.issuePc gang) chain) (chainWords 0 chain) := by
  have hg' : (s.takenUp gang).group.isEmpty = false := by simpa using hg
  subst hrest hch
  unfold State.issuePc State.takenUp at *
  unfold issueGroup
  simp only [hg', hf, hp, hd, hw]
  rfl

/-- An issue has a next state unless its group is empty. -/
theorem issueGroup_total (hg : (s.takenUp gang).group ≠ []) : ∃ t, issueGroup s gang = .next t := by
  have hg' : (s.takenUp gang).group.isEmpty = false := by simpa using hg
  unfold State.takenUp at hg'
  unfold issueGroup
  simp only [hg']
  split
  · contradiction
  · split
    · exact ⟨_, rfl⟩
    · split
      · exact ⟨_, rfl⟩
      · split
        · exact ⟨_, rfl⟩
        · split
          · exact ⟨_, rfl⟩
          · exact issueChain_total _ _

/-- A chain of one word is the execution of that word, and then the end of the chain. -/
theorem issueChain_one {i : Instr} {t : State} (h : exec i (s.atWord 0) = .next t) :
    issueChain s [(0, i)] = .next (s.finish t) := by
  have hr : runWords s s [(0, i)] = .next t := by
    simp only [runWords, h]
    split
    · rfl
    · split <;> rfl
  have he : effectOrder [(0, i)] = [(0, i)] := by
    cases hl : lateWord i <;> simp [effectOrder, hl]
  simp [issueChain, hr, he]

/-- A chain of two words in their own order of effect runs both; one that holds the chain back ends it, and one that is
stopped runs in the state before the chain (R40, R44). -/
theorem issueChain_two {i i' : Instr} {t t' r : State} (hi : lateWord i = false) (hi' : lateWord i' = false)
    (h : exec i (s.atWord 0) = .next t) (hh : t.iss.held = false) (ht : t.iss.trapped = false)
    (h' : exec i' (t.atWord 1) = .next t')
    (hr : if t'.iss.held = false ∧ t'.iss.trapped = true then exec i' (s.atWord 1) = .next r else r = t') :
    issueChain s [(0, i), (1, i')] = .next (s.finish r) := by
  have hrun : runWords s s [(0, i), (1, i')] = .next r := by
    simp only [runWords, h, hh, ht, h', Bool.false_eq_true, if_false]
    cases hd : t'.iss.held
    · cases hp : t'.iss.trapped
      · simp_all
      · simp_all
    · simp_all
  have he : effectOrder [(0, i), (1, i')] = [(0, i), (1, i')] := by simp [effectOrder, hi, hi']
  simp [issueChain, hrun, he]

theorem takenUp_group {s : State} {gang k : Nat} (hs : s.sel = some (gang, k)) :
    (s.takenUp gang).group = (s.focus gang).g.group k := by
  simp [State.takenUp, State.group, State.grp, State.src, hs]

theorem exec_ne_fault (i : Instr) (s : State) (r : Fault) : exec i s ≠ .fault r := by
  obtain ⟨t, ht⟩ := exec_total i s
  simp [ht]

/-- A step stops only at an issue whose group has no live slice. -/
theorem step_fault {s : State} {r : Fault} (h : step s = .fault r) :
    ∃ gang k, s.sel = some (gang, k) ∧ (s.tick.focus gang).g.group k = [] := by
  unfold step at h
  dsimp only at h
  split at h
  · exact absurd h (exec_ne_fault _ _ r)
  split at h
  next gang k hs =>
    refine ⟨gang, k, hs, ?_⟩
    by_contra hne
    obtain ⟨t, ht⟩ := issueGroup_total (s := s.tick) (gang := gang) (by rwa [takenUp_group hs])
    simp [ht] at h
  split at h
  · exact absurd h (exec_ne_fault _ _ r)
  · cases h

/-- Settles O57: a step is the execution that its case of `step` names; an issue is that of the fetched chain. -/
theorem stepRunsTheDecodedWord : Obligations.StepRunsTheDecodedWord := by
  unfold Obligations.StepRunsTheDecodedWord
  intro s
  refine ⟨fun i rest hl hu => step_urgent hl hu, fun i hl hu hs hc => step_chosen hl hu hs hc, ?_, fun i => exec_total i s, ?_⟩
  · intro gang k hl hu hs f s1 pc va j x hg hx hp hr word words chain s2 hpf hdm hws
    have hstep : step s = issueChain s2 (chainWords 0 chain) :=
      (step_issue hl hu hs).trans
        (issueGroup_chain (s := s.tick) (gang := gang) hg (State.fetch_inPage hx hp hr) rfl rfl hpf hdm hws)
    have hdec {w : Fetched} {i : Instr} (hi : decodeWord w.word = .ok i) (hw : w = fetched w.word) : w.dec = .ok i := by
      rw [hw]; exact hi
    refine ⟨fun w i hc hi hw t ht => ?_, fun w w' i i' hc hi hi' hw hw' hl hl' t t' ht hh htr ht' => ⟨fun hn => ?_, fun t'' hh' htr' ht'' => ?_⟩⟩
    · rw [hstep, hc]
      simp only [chainWords, hdec hi hw]
      exact issueChain_one ht
    all_goals
      rw [hstep, hc]
      simp only [chainWords, hdec hi hw, hdec hi' hw']
    · exact issueChain_two hl hl' ht hh htr ht' (by simp [hn])
    · exact issueChain_two hl hl' ht hh htr ht' (by simpa [hh', htr'] using ht'')
  · exact fun r hr => step_fault hr

/-! ## The checks of a packet -/

/-- Words share a pipe beyond its places: two for the floating-point pipes, one for any other, none for no pipe (R41). -/
theorem pipeClash_iff (earlier : List Fetched) (f : Fetched) :
    pipeClash earlier f = true ↔ pipeOf (majorOf f.word) ≠ .none
      ∧ (if pipeOf (majorOf f.word) = .fp then 2 else 1)
        ≤ (earlier.filter fun e => decide (pipeOf (majorOf e.word) = pipeOf (majorOf f.word))).length := by
  unfold pipeClash
  simp only [beq_eq_decide]
  cases pipeOf (majorOf f.word) <;> simp

theorem destClash_iff {earlier : List Fetched} {f : Fetched} {i : Instr} (hf : f.dec = .ok i) :
    destClash earlier f = true ↔ ∃ d ∈ dests i, ∃ e ∈ earlier, d ∈ e.dests := by
  simp [destClash, Fetched.dests, hf]

/-- The conditions under which a word that decodes is illegal where it stands (R59). -/
def IllPlaced (i : Instr) (earlier rest : List Fetched) (f : Fetched) : Prop :=
  pipeClash earlier f = true ∨ destClash earlier f = true
    ∨ (∃ flag look, window i = some (flag, look) ∧ look < wordsAfter f rest) ∨ (rest = [] ∧ chained f.word = true)

/-- The fault of a word that decodes: ILL before PRV (R59). -/
theorem wordFault_ok {f : Fetched} {i : Instr} (hf : f.dec = .ok i) (priv : Bool) (earlier rest : List Fetched) :
    (IllPlaced i earlier rest f → wordFault priv earlier rest f = 1)
      ∧ (¬IllPlaced i earlier rest f → wordFault priv earlier rest f = if needsPriv i = true ∧ priv = false then 2 else 0) := by
  unfold IllPlaced wordFault
  simp only [hf]
  cases window i with
  | none =>
    simp only [Bool.or_eq_true, Bool.and_eq_true, List.isEmpty_iff, Bool.not_eq_true', Bool.false_eq_true, or_false, or_assoc,
      reduceCtorEq, false_and, exists_false, false_or]
    exact ⟨fun h => if_pos h, fun h => if_neg h⟩
  | some w =>
    obtain ⟨flag, look⟩ := w
    have hw : (∃ a b, some (flag, look) = some (a, b) ∧ b < wordsAfter f rest) ↔ look < wordsAfter f rest :=
      ⟨by rintro ⟨_, _, ⟨⟩, h⟩; exact h, fun h => ⟨flag, look, rfl, h⟩⟩
    simp only [hw, Bool.or_eq_true, Bool.and_eq_true, List.isEmpty_iff, Bool.not_eq_true', decide_eq_true_eq, or_assoc]
    exact ⟨fun h => if_pos h, fun h => if_neg h⟩

theorem wordFault_undefined {f : Fetched} {e : Reject} (hf : f.dec = .error e) (priv : Bool) (earlier rest : List Fetched) :
    wordFault priv earlier rest f = 1 := by
  simp [wordFault, hf]

/-- Settles O58: an issue whose packet fails ends with its fault, and a word's fault is ILL exactly where it is
ill placed. -/
theorem packetChecks : Obligations.PacketChecks := by
  unfold Obligations.PacketChecks
  intro s gang k s0 f s1 pc j
  refine ⟨fun hl hu hs hg s2 words hf n c hp => ?_, fun hl hu hs hg info hf => ?_, ?_⟩
  · exact (step_issue hl hu hs).trans (issueGroup_packetFault (s := s.tick) hg hf hp)
  · refine (step_issue hl hu hs).trans ((issueGroup_fetchError (s := s.tick) hg hf).trans ?_)
    by_cases h3 : info = 3
    · simp only [h3, if_true, xlatStop]; rfl
    · simp only [h3, if_false, xlatStop]; rfl
  · intro earlier rest w x
    refine ⟨fun e he => ⟨wordFault_undefined he _ _ _, wordFault_undefined he _ _ _⟩, ?_⟩
    intro i hi pipe sharing ill
    have hill : ill ↔ IllPlaced i earlier rest x :=
      or_congr (pipeClash_iff earlier x).symm (or_congr (destClash_iff (f := x) hi).symm Iff.rfl)
    refine ⟨fun h p => (wordFault_ok (f := x) hi p _ _).1 (hill.mp h), fun h => ⟨?_, ?_⟩⟩
    · simpa using (wordFault_ok (f := x) hi true _ _).2 (mt hill.mpr h)
    · simpa using (wordFault_ok (f := x) hi false _ _).2 (mt hill.mpr h)

end Sys2Proof.Machine
end

section
/-! PROOFS. A scheduler's turn in a state with more slices than a gang has. -/

namespace Sys2Proof.Machine

open Sys2Proof

/-- A core whose one gang lists nine slices: the eight of R23 sleep, and the ninth awaits a word that is not
outstanding. -/
def ninthSliceOwes : State :=
  { g := { uid := 1, block := 1, live := 1, slices := List.replicate 8 { wait := .sleep 0 1 5 } ++ [{ sync := [5] }] }
    b := { uid := 1 } }

/-- A sleeping slice does not go on at its scheduler's turn. -/
theorem State.overSlices_of_asleep {s : State} (h : ∀ i < 8, ∃ n k u, (s.g.slice i).wait = .sleep n k u) : s.overSlices = [] := by
  refine List.filter_eq_nil_iff.mpr fun i hi => ?_
  obtain ⟨n, k, u, hw⟩ := h i ((mem_upto _ _).mp hi)
  simp [State.waitOver, hw]

theorem ninthSliceOwes_asleep : ∀ i < 8, (ninthSliceOwes.g.slice i).wait = .sleep 0 1 5 := by decide

/-- A turn takes from every slice the gang lists what it no longer awaits. -/
theorem ninthSliceOwes_turn {t : State} (h : exec (.schedulerCycle 0 0) ninthSliceOwes = .next t) : (t.g.slice 8).sync = [] := by
  have hk : ((got (exec (.schedulerCycle 0 0) ninthSliceOwes)).g.slice 8).sync = [] := by decide +kernel
  rwa [h] at hk

/-- Refutes O33: the statement's hypotheses speak of slices 0 to 7 alone, and a turn drops what a ninth slice no longer
awaits, where the statement has every slice as it was. -/
theorem not_schedulingSteps : ¬ Obligations.SchedulingSteps := by
  unfold Obligations.SchedulingSteps
  intro h
  obtain ⟨⟨v, hv, -, -, hturn⟩, -⟩ := h ninthSliceOwes 0 0 1 0
  have hg : v.g = ninthSliceOwes.g := by rw [hv]; rfl
  obtain ⟨t, ht, hd⟩ := hturn (by rw [hv]; rfl) (by rw [hv]; rfl) (by rw [hg]; rfl) (by decide)
    (State.overSlices_of_asleep fun i hi => ⟨0, 1, 5, by rw [hg]; exact ninthSliceOwes_asleep i hi⟩)
    (fun i hi m => by rw [hg, ninthSliceOwes_asleep i hi]; simp) (by rw [hg]; rfl) (by rw [hg]; decide) (by rw [hg]; decide)
  have h8 := ninthSliceOwes_turn ht
  rcases hd with he | ⟨k, w, -, -, -, he⟩
  all_goals
    rw [he] at h8
    change (v.g.slice 8).sync = [] at h8
    rw [hg] at h8
    exact absurd h8 (by decide)

end Sys2Proof.Machine
end

section
/-! PROOFS. The dispatcher: what admitting a block, dropping a task and making room leave behind. -/

namespace Sys2Proof.Machine

open Sys2Proof

/-! ## Tasks that keep their records -/

/-- A task changed in nothing that admission and retirement look at. -/
def SameTask (t t' : Task) : Prop :=
  t'.id = t.id ∧ t'.record = t.record ∧ t'.nextBlock = t.nextBlock ∧ t'.retired = t.retired ∧ t'.failed = t.failed
    ∧ t'.brokenAt = t.brokenAt ∧ t'.ending = t.ending

theorem SameTask.refl (t : Task) : SameTask t t := ⟨rfl, rfl, rfl, rfl, rfl, rfl, rfl⟩

theorem SameTask.trans {a b c : Task} (h : SameTask a b) (k : SameTask b c) : SameTask a c := by
  obtain ⟨h1, h2, h3, h4, h5, h6, h7⟩ := h
  obtain ⟨k1, k2, k3, k4, k5, k6, k7⟩ := k
  exact ⟨k1.trans h1, k2.trans h2, k3.trans h3, k4.trans h4, k5.trans h5, k6.trans h6, k7.trans h7⟩

/-- A table of tasks with each task changed in nothing that admission and retirement look at. -/
def SameTasks (l l' : List Task) : Prop := ∃ f : Task → Task, l' = l.map f ∧ ∀ t, SameTask t (f t)

theorem SameTasks.refl (l : List Task) : SameTasks l l := ⟨id, by simp, SameTask.refl⟩

theorem SameTasks.trans {a b c : List Task} (h : SameTasks a b) (k : SameTasks b c) : SameTasks a c := by
  obtain ⟨f, rfl, hf⟩ := h
  obtain ⟨g, rfl, hg⟩ := k
  exact ⟨g ∘ f, by simp, fun t => (hf t).trans (hg (f t))⟩

/-- The task with a number, in a table whose tasks have been changed but keep their numbers. -/
theorem find?_map_task {f : Task → Task} (hf : ∀ t, (f t).id = t.id) (l : List Task) (id : Nat) :
    (l.map f).find? (fun t => t.id == id) = (l.find? fun t => t.id == id).map f := by
  rw [List.find?_map]
  congr 1
  exact congrArg (List.find? · l) (funext fun t => by simp [hf])

theorem SameTasks.find? {l l' : List Task} (h : SameTasks l l') (id : Nat) :
    (l.find? (fun t => t.id == id) = none ∧ l'.find? (fun t => t.id == id) = none)
      ∨ ∃ t t', l.find? (fun t => t.id == id) = some t ∧ l'.find? (fun t => t.id == id) = some t' ∧ SameTask t t' := by
  obtain ⟨f, rfl, hf⟩ := h
  rw [find?_map_task fun t => (hf t).1]
  cases hx : l.find? fun t => t.id == id with
  | none => exact .inl ⟨rfl, rfl⟩
  | some t => exact .inr ⟨t, f t, rfl, rfl, hf t⟩

theorem State.modTask_sameTasks (s : State) (id : Nat) (f : Task → Task) (hf : ∀ t, SameTask t (f t)) :
    SameTasks s.tasks (s.modTask id f).tasks := by
  refine ⟨fun t => if t.id = id then f t else t, rfl, fun t => ?_⟩
  dsimp only
  split
  · exact hf t
  · exact SameTask.refl t

/-! ## Folds -/

/-- A fold of steps that each stand in a relation stands in it. -/
theorem foldl_rel {α β : Type} {R : α → α → Prop} (hr : ∀ s, R s s) (ht : ∀ {a b c}, R a b → R b c → R a c) (f : α → β → α)
    (hf : ∀ s x, R s (f s x)) (l : List β) (s : α) : R s (l.foldl f s) := by
  induction l generalizing s with
  | nil => exact hr s
  | cons x t ih => exact ht (hf s x) (ih (f s x))

/-- Only flits and the agenda change. -/
def FlitsOnly (s t : State) : Prop := ∃ fl ag, t = { s with flits := fl, agenda := ag }

theorem FlitsOnly.refl (s : State) : FlitsOnly s s := ⟨s.flits, s.agenda, rfl⟩

theorem FlitsOnly.trans {a b c : State} (h : FlitsOnly a b) (k : FlitsOnly b c) : FlitsOnly a c := by
  obtain ⟨_, _, rfl⟩ := h
  obtain ⟨_, _, rfl⟩ := k
  exact ⟨_, _, rfl⟩

theorem State.later_flitsOnly (s : State) (i : Instr) : FlitsOnly s (s.later i) := ⟨s.flits, _, (s.later_spec i).1⟩

/-- Refused flits are told to be sent again: nothing but flits and the agenda changes. -/
theorem State.signalAll_flitsOnly (s : State) : FlitsOnly s s.signalAll := by
  refine foldl_rel FlitsOnly.refl FlitsOnly.trans _ (fun s f => ?_) _ s
  split
  · exact s.later_flitsOnly _
  split
  · exact FlitsOnly.refl s
  · exact FlitsOnly.trans ⟨_, _, rfl⟩ (State.later_flitsOnly (s.modFlit f.id _) _)

/-- Only tasks change, and not in what admission and retirement look at. -/
def TasksOnly (s t : State) : Prop := ∃ T, t = { s with tasks := T } ∧ SameTasks s.tasks T

theorem TasksOnly.refl (s : State) : TasksOnly s s := ⟨s.tasks, rfl, SameTasks.refl _⟩

theorem TasksOnly.trans {a b c : State} (h : TasksOnly a b) (k : TasksOnly b c) : TasksOnly a c := by
  obtain ⟨_, rfl, h⟩ := h
  obtain ⟨_, rfl, k⟩ := k
  exact ⟨_, rfl, h.trans k⟩

theorem State.putBarrier_tasksOnly (s : State) (task : Nat) (b : Barrier) : TasksOnly s (s.putBarrier task b) :=
  ⟨_, rfl, s.modTask_sameTasks task _ fun t => SameTask.refl t⟩

theorem State.rescope_tasksOnly (s : State) (task num : Nat) : TasksOnly s (s.rescope task num) := s.putBarrier_tasksOnly _ _

theorem State.rescopeAll_tasksOnly (s : State) (task : Nat) : TasksOnly s (s.rescopeAll task) := by
  refine foldl_rel TasksOnly.refl TasksOnly.trans _ (fun s b => ?_) _ s
  split
  · exact s.rescope_tasksOnly _ _
  · exact TasksOnly.refl s

/-! ## Admission -/

/-- The lineage entry made with a task's first block: an identity is taken, and only the checker changes. -/
theorem State.openOper_spec (s : State) (t : Task) :
    ∃ K n, s.openOper t = { s with ck := K, next := n } ∧ s.next ≤ n ∧ (t.record.wclass = 0 → K = s.ck)
      ∧ (t.record.wclass ≠ 0 → s.operOf t.id = none → ∃ o, K.opers = s.ck.opers ++ [o] ∧ o.task = t.id
        ∧ o.opid = t.record.opid ∧ o.tenant = t.tenant ∧ o.cls = t.record.wclass ∧ o.state = .running) := by
  unfold State.openOper
  split
  next h =>
    refine ⟨s.ck, s.next, rfl, Nat.le_refl _, fun _ => rfl, fun hw ho => ?_⟩
    simp [hw, ho] at h
  next h =>
    exact ⟨_, _, rfl, Nat.le_succ _, fun hw => by simp [hw] at h, fun _ _ => ⟨_, rfl, rfl, rfl, rfl, rfl, rfl⟩⟩

/-- A gang as it is launched has every register at 0 (R70). -/
theorem launchGang_val (t : Task) (b : Block) (i sched uid r K : Nat) : (launchGang t b i sched uid).val r K = 0 := by
  unfold Gang.val
  cases (launchGang t b i sched uid).shape r <;>
    simp [launchGang, Gang.genAt, Gang.uniAt, Uni.at]

theorem nth_map_upto {α : Type} (d : α) (f : Nat → α) (n k : Nat) (h : k < n) : nth d ((upto n).map f) k = f k := by
  have key (l : List α) (k : Nat) : nth d l k = l.getD k d := by
    induction l generalizing k with
    | nil => rfl
    | cons x t ih => cases k <;> simp [nth, ih]
  simp [key, upto, List.getD, h]

/-- Its slices stand at the record's address, all lanes active, unprivileged (R23, R24). -/
theorem launchGang_slice (t : Task) (b : Block) (i sched uid k : Nat) (h : k < b.width / 4) :
    (launchGang t b i sched uid).slice k = { pc := BitVec.ofNat 64 t.record.code, active := 15 } :=
  nth_map_upto _ _ _ _ h

theorem State.focusCore_frame (s : State) (die idx : Nat) :
    ∃ C CS, s.focusCore die idx = { s with c := C, cores := CS } := by
  unfold State.focusCore
  split
  · exact ⟨s.c, s.cores, rfl⟩
  split
  · exact ⟨_, _, rfl⟩
  · exact ⟨_, _, rfl⟩

/-- The block that the admission of a task's next block makes. -/
def admittedBlock (x : Task) (d c n : Nat) : Block :=
  { x.record.block with num := x.nextBlock, uid := n, task := x.id, die := d, core := c, admitted := n, attempt := x.attempt }

/-- The gangs launched with it, dealt to the schedulers in turn from one on (R28). -/
def admittedGangs (x : Task) (y : Block) (start : Nat) : List Gang :=
  (upto y.home).map fun i => launchGang x y i ((start + i) % 4) (y.uid + 1 + i)

theorem State.launchBlock_spec (s : State) (x : Task) (d c : Nat) :
    ∃ C CS, s.launchBlock x { x.record.block with num := x.nextBlock } d c =
      { s with
        c := C, cores := CS, blocks := s.blocks ++ [admittedBlock x d c s.next]
        gangs := s.gangs ++ admittedGangs x (admittedBlock x d c s.next) (s.freeOf d c []).start
        next := s.next + 1 + x.record.home } := by
  obtain ⟨C, CS, h⟩ := s.focusCore_frame d c
  exact ⟨C, CS, by simp only [State.launchBlock, h]; rfl⟩

/-- A task with its count of blocks admitted one higher. -/
def Task.admittedOn (x : Task) (d c : Nat) (t : Task) : Task :=
  { t with nextBlock := x.nextBlock + 1, ran := t.ran ++ [(x.nextBlock, d, c)] }

/-- What the admission of a task's next block leaves (R23, R28, R377): a block and its gangs more, the operator's lineage
entry, the task's count of blocks; the gang and block in focus and memory are as they were. -/
theorem State.admitBlock_spec (s : State) (x : Task) (d c : Nat) :
    ∃ K n C CS T fl ag lv, s.next ≤ n ∧ SameTasks (s.modTask x.id (x.admittedOn d c)).tasks T
      ∧ (x.record.wclass = 0 → K = s.ck)
      ∧ (x.record.wclass ≠ 0 → s.operOf x.id = none → ∃ o, K.opers = s.ck.opers ++ [o] ∧ o.task = x.id
        ∧ o.opid = x.record.opid ∧ o.tenant = x.tenant ∧ o.cls = x.record.wclass ∧ o.state = .running)
      ∧ s.admitBlock x d c =
        { s with
          c := C, cores := CS, ck := K, tasks := T, flits := fl, agenda := ag, levels := lv, evictFor := none, evictAt := none
          blocks := s.blocks ++ [admittedBlock x d c n]
          gangs := s.gangs ++ admittedGangs x (admittedBlock x d c n) (s.freeOf d c []).start
          next := n + 1 + x.record.home } := by
  obtain ⟨K, n, ho, hn, hk0, hk1⟩ := s.openOper_spec x
  obtain ⟨C, CS, hl⟩ := State.launchBlock_spec { s with ck := K, next := n } x d c
  unfold State.admitBlock
  rw [ho]
  dsimp only
  rw [hl]
  generalize hs : ({ State.modTask _ x.id _ with levels := _, evictFor := none, evictAt := none } : State) = s2
  obtain ⟨T, hT, hS⟩ := s2.rescopeAll_tasksOnly x.id
  obtain ⟨fl, ag, hf⟩ := (s2.rescopeAll x.id).signalAll_flitsOnly.trans (State.later_flitsOnly _ .blockAdmission)
  subst hs
  exact ⟨K, n, C, CS, T, fl, ag, _, hn, hS, hk0, hk1, by rw [hf, hT]; rfl⟩

/-! ## The next block's task -/

theorem State.task_of_id_ne {s : State} {id : Nat} (h : (s.task id).id ≠ 0) :
    s.tasks.find? (fun t => t.id == id) = some (s.task id) ∧ (s.task id).id = id := by
  unfold State.task at h ⊢
  cases hx : s.tasks.find? fun t => t.id == id with
  | none => simp [hx] at h
  | some t => exact ⟨rfl, by simpa using List.find?_some hx⟩

/-- The task of an admitted block counts one block more. -/
theorem nextBlock_admitted {s t : State} {id d c : Nat} (hx : (s.task id).id ≠ 0)
    (ht : SameTasks (s.modTask (s.task id).id ((s.task id).admittedOn d c)).tasks t.tasks) :
    (t.task id).nextBlock = (s.task id).nextBlock + 1 := by
  obtain ⟨hf, hid⟩ := State.task_of_id_ne hx
  have hm : (s.modTask (s.task id).id ((s.task id).admittedOn d c)).tasks.find? (fun t => t.id == id)
      = some ((s.task id).admittedOn d c (s.task id)) := by
    unfold State.modTask
    rw [find?_map_task (fun t => by split <;> rfl), hf]
    simp
  rcases ht.find? id with ⟨hn, -⟩ | ⟨y, y', hy, hy', -, -, hnb, -⟩
  · rw [hm] at hn; cases hn
  · rw [hm] at hy
    cases hy
    unfold State.task at hnb ⊢
    rw [hy']
    exact hnb

/-! ## The core -/

/-- Levels of the dispatcher with entries taken out. -/
theorem get_levels_filter (l : Store (List QEntry)) (keep : QEntry → Bool) (p : Nat) :
    Store.get [] (l.map fun (x : Nat × List QEntry) => (x.1, x.2.filter keep)) p = (Store.get [] l p).filter keep := by
  induction l with
  | nil => rfl
  | cons x t ih =>
    simp only [List.map_cons, Store.get]
    split
    · rfl
    · exact ih

theorem State.coreFor_free {s : State} (h : s.evictAt = none) (cores : List (Nat × Nat)) (b : Block) :
    s.coreFor cores b = s.chooseCore cores b := by
  simp [State.coreFor, h]

/-- While blocks are being evicted from a core, no other core is chosen (R282). -/
theorem State.coreFor_evicting {s : State} {p q : Nat × Nat} {cores : List (Nat × Nat)} {b : Block} (h : s.evictAt = some p)
    (hq : s.coreFor cores b = some q) : q = p ∧ p ∈ cores := by
  simp only [State.coreFor, h, State.chooseCore] at hq
  obtain ⟨hm, hp⟩ := List.mem_filter.mp (List.mem_of_find?_eq_some hq)
  obtain rfl : q = p := by simpa using hp
  exact ⟨rfl, hm⟩

/-- Partial eviction that finds no victim only makes the entry wait. -/
theorem State.partialEviction_none {s : State} {e : QEntry} {cores : List (Nat × Nat)} {b : Block}
    (hv : ∀ p ∈ cores, s.evictionFor b p.1 p.2 = none) : s.partialEviction e cores b = { s with evictFor := some e } := by
  have hf : (cores.findSome? fun p => (State.evictionFor { s with evictFor := some e } b p.1 p.2).map fun l => (p, l)) = none := by
    rw [List.findSome?_eq_none_iff]
    exact fun p hp => by rw [Option.map_eq_none_iff]; exact hv p hp
  simp only [State.partialEviction]
  rw [hf]

/-- It begins on the first core where a block in the way is enough, here the block in focus (R282). -/
theorem State.partialEviction_first {s : State} {e : QEntry} {before after : List (Nat × Nat)} {p : Nat × Nat} {b : Block}
    (hb : ∀ q ∈ before, s.evictionFor b q.1 q.2 = none) (hp : s.evictionFor b p.1 p.2 = some [s.b.uid]) :
    s.partialEviction e (before ++ p :: after) b =
      { s with evictFor := some e, evictAt := some p, b := { s.b with evicting := true } }.later (.blockEvictionSave s.b.uid) := by
  have hf : ((before ++ p :: after).findSome? fun p => (State.evictionFor { s with evictFor := some e } b p.1 p.2).map fun l => (p, l))
      = some (p, [s.b.uid]) := by
    have hb' : (before.findSome? fun p => (State.evictionFor { s with evictFor := some e } b p.1 p.2).map fun l => (p, l)) = none := by
      rw [List.findSome?_eq_none_iff]
      exact fun q hq => by rw [Option.map_eq_none_iff]; exact hb q hq
    have hp' : State.evictionFor { s with evictFor := some e } b p.1 p.2 = some [s.b.uid] := hp
    rw [List.findSome?_append, hb', List.findSome?_cons, hp']
    rfl
  simp only [State.partialEviction]
  rw [hf]
  simp only [List.foldl_cons, List.foldl_nil, State.modBlock, if_true]

/-- What becomes of a block that fits no core (R281, R282). -/
theorem State.noCore_spec (s : State) (e : QEntry) (cores : List (Nat × Nat)) (b : Block) :
    (∀ p, s.evictAt = some p → p ∈ cores → s.noCore e cores b = s)
      ∧ (∀ p, s.evictAt = some p → p ∉ cores → s.noCore e cores b = { s with evictAt := none }.later .blockAdmission)
      ∧ (s.evictAt = none → s.noCore e cores b = s.partialEviction e cores b) :=
  ⟨fun p hp hm => by simp [State.noCore, hp, hm], fun p hp hm => by simp [State.noCore, hp, hm], fun hn => by simp [State.noCore, hn]⟩

/-- A step added, and so much of the state that it is added to. -/
theorem State.later_awaits {s u : State} {i : Instr} (h : s.agenda = u.agenda) :
    u.later i = { u with agenda := (u.later i).agenda } ∧ Awaits s (u.later i) [i] := by
  obtain ⟨h1, h2, h3⟩ := u.later_spec i
  exact ⟨h1, h2, h ▸ h3⟩

/-- The gangs admitted with a block, one by one. -/
theorem admittedGangs_getElem? {x : Task} {y : Block} {start i : Nat} {g : Gang} (h : (admittedGangs x y start)[i]? = some g) :
    g = launchGang x y i ((start + i) % 4) (y.uid + 1 + i) := by
  unfold admittedGangs upto at h
  rw [List.getElem?_map, Option.map_eq_some_iff] at h
  obtain ⟨j, hj, rfl⟩ := h
  obtain ⟨-, rfl⟩ := List.getElem?_eq_some_iff.mp hj
  simp

/-- Settles O41: each branch of BLOCK_ADMISSION by the lemma on what it does. -/
theorem blockAdmission : Obligations.BlockAdmission := by
  unfold Obligations.BlockAdmission
  intro s waits
  have hw (e : QEntry) (cores : List (Nat × Nat)) (b : Block) (h : exec .blockAdmission s = .next (s.noCore e cores b)) :
      waits e cores b := by
    obtain ⟨h1, h2, h3⟩ := s.noCore_spec e cores b
    refine ⟨fun p hp hm => by rw [h, h1 p hp hm], fun p hp hm => ⟨_, h, ?_⟩,
      fun hn hv => by rw [h, h3 hn, State.partialEviction_none hv], fun before p after hn hc hb hp => ⟨_, h, ?_⟩⟩
    · rw [h2 p hp hm]
      exact State.later_awaits (u := { s with evictAt := none }) rfl
    · rw [h3 hn, hc, State.partialEviction_first hb hp]
      exact State.later_awaits (u := { s with evictFor := some e, evictAt := some p, b := { s.b with evicting := true } }) rfl
  refine ⟨fun e he => by simp [State.headEntry, he], fun cores b => ⟨fun hn => State.coreFor_free hn cores b, fun p q hp hq => State.coreFor_evicting hp hq⟩,
    fun hn => by simp [exec, execBlockAdmission, hn], ?_, ?_⟩
  · intro id he x b cores
    refine ⟨fun hx => ?_, fun h0 hfl hnb => ⟨fun ho => ?_, fun ho d c hc => ?_, fun ho hc => hw _ _ _ ?_⟩⟩
    · have hx' : (x.id = 0 || x.failing || decide (x.blocks ≤ x.nextBlock)) = true := by simpa [or_assoc] using hx
      refine ⟨_, by simp only [exec, execBlockAdmission, he]; rw [if_pos hx'], ?_⟩
      obtain ⟨h1, h2⟩ := State.later_awaits (s := s) (i := .blockAdmission) (u := { s with
        evictFor := none, evictAt := none
        levels := s.levels.map fun (l : Nat × List QEntry) => (l.1, l.2.filter (· != QEntry.task id)) }) rfl
      refine ⟨?_, fun p => ?_, h2⟩
      · rw [h1]
      · rw [State.later_levels]
        exact get_levels_filter _ _ p
    all_goals
      have hx' : ¬ (x.id = 0 || x.failing || decide (x.blocks ≤ x.nextBlock)) = true := by simp [h0, hfl, hnb]
    · simp only [exec, execBlockAdmission, he]
      rw [if_neg hx', if_pos ho]
    · obtain ⟨K, n, C, CS, T, fl, ag, lv, hn, hT, hk0, hk1, ha⟩ := s.admitBlock_spec x d c
      refine ⟨s.admitBlock x d c, admittedBlock x d c n, admittedGangs x (admittedBlock x d c n) (s.freeOf d c []).start, ?_, ?_⟩
      · simp only [exec, execBlockAdmission, he]
        rw [if_neg hx', if_neg (by rw [ho]; exact Bool.false_ne_true)]
        simp only [x, b, cores] at hc
        rw [hc]
      rw [ha]
      refine ⟨rfl, rfl, rfl, rfl, rfl, rfl, rfl, rfl, hn, Nat.add_lt_add_right (Nat.lt_succ_self n) x.record.home,
        by simp [admittedGangs, upto, admittedBlock, b], fun i g hg => ?_, hk0, hk1, fun _ => nextBlock_admitted h0 hT⟩
      obtain rfl := admittedGangs_getElem? hg
      refine ⟨rfl, rfl, rfl, rfl, rfl, rfl, rfl, rfl, rfl, rfl, rfl, rfl, fun k hk => ?_, launchGang_val _ _ _ _ _⟩
      rw [launchGang_slice _ (admittedBlock x d c n) _ _ _ _ hk]
      exact ⟨rfl, rfl, rfl⟩
    · simp only [exec, execBlockAdmission, he]
      rw [if_neg hx', if_neg (by rw [ho]; exact Bool.false_ne_true)]
      simp only [x, b, cores] at hc ⊢
      rw [hc]
  · intro id im he him cores
    refine ⟨fun h => ⟨s.later (.blockRestore id), ?_, State.later_awaits rfl⟩, fun hc hf => hw _ _ _ ?_⟩
    · have h' : ((s.coreFor cores im.block).isSome || !s.fitsEmpty s.presentDies im.block) = true := by
        simpa [Option.isSome_iff_ne_none] using h
      simp only [exec, execBlockAdmission, he, him]
      rw [if_pos h']
    · simp only [exec, execBlockAdmission, he, him]
      rw [if_neg (by simp only [cores] at hc; simp [hc, hf])]

end Sys2Proof.Machine
end

section
/-! PROOFS. Lines written back: what sending a holder's tokens home does, whether or not they find a way (R357, R364). -/

namespace Sys2Proof.Machine

open Sys2Proof

/-! ## The fabric as seen from a node -/

theorem findSome?_zipIdx_modAt {α β : Type} (f : α → α) (p : α × Nat → Option β) (hp : ∀ x k, p (f x, k) = p (x, k)) (l : List α)
    (i k : Nat) : ((modAt f l i).zipIdx k).findSome? p = (l.zipIdx k).findSome? p := by
  induction l generalizing i k with
  | nil => rfl
  | cons x t ih =>
    cases i with
    | zero => simp [modAt, List.findSome?_cons, hp]
    | succ i => simp [modAt, List.findSome?_cons, ih]

/-- The link i of the state with a flit more stands at the same ports. -/
theorem State.enqueue_linkAt (s : State) (i side dstn : Nat) (raw : List Byte) (d : Instr) (node port : Nat) :
    (s.enqueue i side dstn raw d).fab.linkAt node port = s.fab.linkAt node port := by
  unfold State.enqueue
  split
  · rfl
  · rename_i l hl
    have hk (f : Link → Link) (hf : ∀ x, (f x).nodeA = x.nodeA ∧ (f x).portA = x.portA ∧ (f x).nodeB = x.nodeB ∧ (f x).portB = x.portB) :
        (s.modLink i f).fab.linkAt node port = s.fab.linkAt node port :=
      findSome?_zipIdx_modAt f _ (fun x k => by obtain ⟨h1, h2, h3, h4⟩ := hf x; simp only [h1, h2, h3, h4]) _ _ _
    simp only
    split
    · rw [State.later_fab]
      exact hk _ fun x => by unfold Link.setBuf; split <;> exact ⟨rfl, rfl, rfl, rfl⟩
    · exact hk _ fun x => by unfold Link.setBuf; split <;> exact ⟨rfl, rfl, rfl, rfl⟩

/-- Only lines, links, waiting flits and the agenda of the state u differ from s; nothing on its way is lost, and every
link stands where it stood. -/
def LinesOnly (s u : State) : Prop :=
  u = { s with fab := { s.fab with lines := u.fab.lines, links := u.fab.links, held := u.fab.held }, agenda := u.agenda }
    ∧ (∀ j ∈ s.agenda, j ∈ u.agenda) ∧ KeepsFlits s.fab.links u.fab.links ∧ (∀ x ∈ s.fab.held, x ∈ u.fab.held)
    ∧ ∀ node port, u.fab.linkAt node port = s.fab.linkAt node port

theorem KeepsFlits.trans {a b c : List Link} (h : KeepsFlits a b) (k : KeepsFlits b c) : KeepsFlits a c := fun x hx y hy => by
  obtain ⟨x', hx', y', hy', e⟩ := h x hx y hy
  obtain ⟨x2, hx2, y2, hy2, e2⟩ := k x' hx' y' hy'
  exact ⟨x2, hx2, y2, hy2, e2.trans e⟩

theorem LinesOnly.refl (s : State) : LinesOnly s s :=
  ⟨rfl, fun _ h => h, KeepsFlits.refl _, fun _ h => h, fun _ _ => rfl⟩

theorem LinesOnly.trans {s u v : State} (h : LinesOnly s u) (k : LinesOnly u v) : LinesOnly s v := by
  obtain ⟨h1, h2, h3, h4, h5⟩ := h
  obtain ⟨k1, k2, k3, k4, k5⟩ := k
  refine ⟨?_, fun j hj => k2 j (h2 j hj), h3.trans k3, fun x hx => k4 x (h4 x hx), fun n p => (k5 n p).trans (h5 n p)⟩
  rw [k1, h1]

theorem LinesOnly.onWay {s u : State} (h : LinesOnly s u) {i : Instr} (w : OnWay s i) : OnWay u i :=
  w.mono h.2.1 h.2.2.1 h.2.2.2.1

theorem LinesOnly.canSend {s u : State} (h : LinesOnly s u) {src dst : Nat} (w : CanSend s src dst) : CanSend u src dst := by
  obtain ⟨h1, -, -, -, h5⟩ := h
  have hp : u.fab.paused = s.fab.paused := congrArg (·.fab.paused) h1
  have hg : u.fab.gen = s.fab.gen := congrArg (·.fab.gen) h1
  have hn : u.fab.node src = s.fab.node src := by rw [h1]; rfl
  unfold CanSend HasWay at w ⊢
  rw [hp, hg, hn]
  simpa only [h5] using w

theorem LinesOnly.putLine (s : State) (n : Nat) (l : Line) : LinesOnly s (s.putLine n l) :=
  ⟨rfl, fun _ h => h, KeepsFlits.refl _, fun _ h => h, fun _ _ => rfl⟩

theorem State.line_putLine (s : State) (n : Nat) (l : Line) (m : Nat) : (s.putLine n l).line m = if m = n then l else s.line m :=
  Store.get_put _ _ _ _ _

theorem Line.of_set (l : Line) (h : Nat) (x : Holding) (d : Nat) : (l.set h x).of d = if d = h then x else l.of d :=
  Store.get_put _ _ _ _ _

/-! ## Tokens that enter the fabric -/

/-- The flag byte of a flit that carries tokens has no DOWN bit yet. -/
theorem linkFlit_up (h : LinkHead) (payload : List Byte) (hl : h.lf < 4) : (fieldAt (linkFlit h payload) 11 1).testBit 2 = false := by
  have : fieldAt (linkFlit h payload) 11 1 = h.lf := by
    simp [fieldAt, linkFlit, leBytes, leNat]
    omega
  rw [this]
  exact Nat.testBit_lt_two_pow hl

/-- A flit that can be sent is on its way, and no line changes. -/
theorem State.enter_canSend (s : State) {src dst : Nat} {raw : List Byte} (d : Instr) (hr : (fieldAt raw 11 1).testBit 2 = false)
    (hne : src ≠ dst) (h : CanSend s src dst) : OnWay (s.enter src dst raw d) d ∧ (s.enter src dst raw d).fab.lines = s.fab.lines := by
  rcases h with h | h
  · have hw : (s.fab.paused && src != dst) = true := by simp [h, hne]
    rw [State.enter, if_pos hw]
    exact ⟨.inr (.inr ⟨_, List.mem_append_right _ (List.mem_singleton_self _), rfl⟩), rfl⟩
  · obtain ⟨h1, h2, -⟩ := s.enter_spec src dst raw d (hr ▸ h)
    exact ⟨h2, congrArg (·.fab.lines) h1⟩

/-- Of all the copies of lines, the state u differs from s in at most that of line n at holder d. -/
def OnlyCopy (s u : State) (n d : Nat) : Prop :=
  (∀ m, m ≠ n → u.line m = s.line m) ∧ ∀ k, k ≠ d → (u.line n).of k = (s.line n).of k

theorem OnlyCopy.of_lines {s u : State} (h : u.fab.lines = s.fab.lines) (n d : Nat) : OnlyCopy s u n d :=
  ⟨fun m _ => congrArg (fun L => (Store.get {} L m : Line)) h, fun k _ => congrArg (fun L => (Store.get {} L n : Line).of k) h⟩

theorem OnlyCopy.putLine (s : State) {n d : Nat} {l : Line} (h : ∀ k, k ≠ d → l.of k = (s.line n).of k) :
    OnlyCopy s (s.putLine n l) n d :=
  ⟨fun m hm => by rw [State.line_putLine, if_neg hm], fun k hk => by rw [State.line_putLine, if_pos rfl, h k hk]⟩

theorem OnlyCopy.trans {s u v : State} {n d : Nat} (h : OnlyCopy s u n d) (k : OnlyCopy u v n d) : OnlyCopy s v n d :=
  ⟨fun m hm => (k.1 m hm).trans (h.1 m hm), fun j hj => (k.2 j hj).trans (h.2 j hj)⟩

/-- Tokens that enter the fabric toward a home from a die: they leave all lines alone, or come back to that die (R364). -/
theorem State.enter_tokens (s : State) (d n : Nat) (raw : List Byte) (c : Carried) (dst : Nat) :
    LinesOnly s (s.enter d dst raw (.tokensArrive 4 d n c.tokens c.owner c.dirty c.data))
      ∧ OnlyCopy s (s.enter d dst raw (.tokensArrive 4 d n c.tokens c.owner c.dirty c.data)) n d := by
  have harr (i : Instr) : LinesOnly s (s.arrives i) :=
    ⟨rfl, fun j hj => by simp [State.arrives, hj], KeepsFlits.refl _, fun _ h => h, fun _ _ => rfl⟩
  unfold State.enter
  split
  · exact ⟨⟨rfl, fun _ h => h, KeepsFlits.refl _, fun x hx => List.mem_append_left _ hx, fun _ _ => rfl⟩, OnlyCopy.of_lines rfl _ _⟩
  simp only [State.hop]
  split
  · exact ⟨harr _, OnlyCopy.of_lines rfl _ _⟩
  split
  · split
    · exact ⟨harr _, OnlyCopy.of_lines rfl _ _⟩
    · have hw : (if (decide (d < 4) && (s.fab.node d).excluded) = true then d
          else if (decide (4 < 4) && (s.fab.node 4).excluded) = true then 4 else d) = d := by simp
      simp only [State.unsent, hw]
      refine ⟨LinesOnly.putLine _ _ _, OnlyCopy.putLine s fun k hk => ?_⟩
      rw [Line.of_set, if_neg hk]
      split <;> rfl
  · rename_i i side hp
    obtain ⟨p, -, hp'⟩ := Option.bind_eq_some_iff.mp hp
    obtain ⟨l, h1, -⟩ := Fabric.linkAt_some hp'
    obtain ⟨e1, e2, e3, -⟩ := s.enqueue_spec i side dst
      (if s.fab.key d < s.fab.key (((s.fab.links[i]?).map fun l => l.far side).getD dst) then setDown raw else raw)
      (.tokensArrive 4 d n c.tokens c.owner c.dirty c.data) l h1
    have hl := congrArg (·.fab.lines) e1
    have hh := congrArg (·.fab.held) e1
    refine ⟨⟨?_, e2, e3, fun x hx => by rw [hh]; exact hx, fun n p => State.enqueue_linkAt _ _ _ _ _ _ _ _⟩, OnlyCopy.of_lines hl _ _⟩
    rw [hl, hh]
    exact e1

/-! ## One holder's tokens, one line, several lines -/

/-- What has become of the copy of line m that die d held, when it was to be written back: a copy that goes home is on its way
where a flit can be sent, and one that stays is as it was (R357). -/
def Brought (inv : Bool) (s u : State) (m d : Nat) : Prop :=
  CanSend s d (homeNode m) →
    if inv = true ∨ ((s.line m).of d).dirty = true then
      ((u.line m).of d).tokens = 0 ∧ (((s.line m).of d).tokens ≠ 0 →
        OnWay u (.tokensArrive 4 d m ((s.line m).of d).tokens ((s.line m).of d).owner ((s.line m).of d).dirty ((s.line m).of d).valid))
    else (u.line m).of d = (s.line m).of d

theorem Brought.stays {inv : Bool} {s u v : State} {m d : Nat} (h : Brought inv s u m d) (hv : LinesOnly u v)
    (hs : (v.line m).of d = (u.line m).of d) : Brought inv s v m d := fun hc => by
  have := h hc
  rw [hs]
  split at this
  · rename_i hi
    rw [if_pos hi]
    exact ⟨this.1, fun ht => hv.onWay (this.2 ht)⟩
  · rename_i hi
    rw [if_neg hi]
    exact this

theorem Brought.after {inv : Bool} {s u v : State} {m d : Nat} (hu : LinesOnly s u) (hs : (u.line m).of d = (s.line m).of d)
    (h : Brought inv u v m d) : Brought inv s v m d := fun hc => by
  have := h (hu.canSend hc)
  rwa [hs] at this

theorem Brought.trans {inv : Bool} {s u v : State} {m d : Nat} (h : Brought inv s u m d) (hu : LinesOnly s u) (hv : LinesOnly u v)
    (k : Brought inv u v m d) : Brought inv s v m d := fun hc => by
  have h1 := h hc
  have k1 := k (hu.canSend hc)
  split at h1
  · rename_i hi
    rw [if_pos hi]
    refine ⟨?_, fun ht => hv.onWay (h1.2 ht)⟩
    split at k1
    · exact k1.1
    · rw [k1]; exact h1.1
  · rename_i hi
    rw [h1, if_neg hi] at k1
    rw [if_neg hi]
    exact k1

/-- One holder's copy sent home, if it is to be (R357). -/
def State.bringBack (inv : Bool) (n : Nat) (s : State) (h : Nat) : State :=
  if inv || ((s.line n).of h).dirty then s.sendTokens n h homeHolder ((s.line n).of h).all else s

theorem State.bringBack_spec (inv : Bool) (n : Nat) (s : State) (h : Nat) (h4 : h < 4) :
    LinesOnly s (s.bringBack inv n h) ∧ Brought inv s (s.bringBack inv n h) n h
      ∧ OnlyCopy s (s.bringBack inv n h) n h := by
  unfold State.bringBack
  split
  case isFalse hi =>
    refine ⟨LinesOnly.refl s, fun _ => ?_, OnlyCopy.of_lines rfl _ _⟩
    rw [if_neg (by simpa using hi)]
  case isTrue hi =>
    have hi' : inv = true ∨ ((s.line n).of h).dirty = true := by simpa using hi
    unfold State.sendTokens
    have hh : h ≠ homeHolder := Nat.ne_of_lt h4
    split
    · rename_i ht
      have ht' : ((s.line n).of h).tokens = 0 := ht.resolve_right hh
      refine ⟨LinesOnly.refl s, fun _ => ?_, OnlyCopy.of_lines rfl _ _⟩
      rw [if_pos hi']
      exact ⟨ht', fun hne => absurd ht' hne⟩
    · simp only [if_true, State.sendNode]
      generalize hx : s.putLine n _ = u
      have hu : LinesOnly s u := hx ▸ LinesOnly.putLine _ _ _
      have hul (k : Nat) : (u.line n).of k = if k = h then ((s.line n).of h).less ((s.line n).of h).all else (s.line n).of k := by
        rw [← hx, State.line_putLine, if_pos rfl]
        exact Line.of_set _ _ _ _
      have hou : OnlyCopy s u n h := hx ▸ OnlyCopy.putLine s fun k hk => (Line.of_set _ _ _ _).trans (if_neg hk)
      have hsrc : holderNode h n = h := if_neg hh
      have hdst : holderNode homeHolder n = homeNode n := if_pos rfl
      have hne : h ≠ homeNode n := by unfold homeNode; omega
      rw [hsrc, hdst]
      generalize hr : linkFlit _ _ = raw
      have hup : (fieldAt raw 11 1).testBit 2 = false := by
        subst hr
        refine linkFlit_up _ _ ?_
        cases ((s.line n).of h).all.dirty <;> cases ((s.line n).of h).all.data <;> simp
      obtain ⟨e1, e2⟩ := u.enter_tokens h n raw ((s.line n).of h).all (homeNode n)
      refine ⟨hu.trans e1, fun hc => ?_, hou.trans e2⟩
      · obtain ⟨w1, w2⟩ := u.enter_canSend (.tokensArrive 4 h n ((s.line n).of h).all.tokens ((s.line n).of h).all.owner
          ((s.line n).of h).all.dirty ((s.line n).of h).all.data) hup hne (hu.canSend hc)
        rw [if_pos hi']
        refine ⟨?_, fun _ => w1⟩
        have : (State.line _ n).of h = (u.line n).of h := congrArg (fun L => (Store.get {} L n : Line).of h) w2
        refine (congrArg Holding.tokens this).trans ?_
        rw [hul, if_pos rfl]
        exact Nat.sub_self _

theorem State.foldl_bringBack (inv : Bool) (n : Nat) (l : List Nat) (hl : ∀ h ∈ l, h < 4) (s : State) :
    LinesOnly s (l.foldl (State.bringBack inv n) s) ∧ (∀ d ∈ l, Brought inv s (l.foldl (State.bringBack inv n) s) n d)
      ∧ (∀ m, m ≠ n → (l.foldl (State.bringBack inv n) s).line m = s.line m)
      ∧ ∀ k, k ∉ l → ((l.foldl (State.bringBack inv n) s).line n).of k = (s.line n).of k := by
  induction l generalizing s with
  | nil => exact ⟨LinesOnly.refl s, fun _ h => absurd h List.not_mem_nil, fun _ _ => rfl, fun _ _ => rfl⟩
  | cons h t ih =>
    obtain ⟨a1, a2, a3, a4⟩ := State.bringBack_spec inv n s h (hl h (by simp))
    obtain ⟨b1, b2, b3, b4⟩ := ih (fun x hx => hl x (by simp [hx])) (s.bringBack inv n h)
    rw [List.foldl_cons]
    refine ⟨a1.trans b1, fun d hd => ?_, fun m hm => (b3 m hm).trans (a3 m hm), fun k hk => ?_⟩
    · by_cases hdt : d ∈ t
      · by_cases hdh : d = h
        · subst hdh; exact a2.trans a1 b1 (b2 d hdt)
        · exact (b2 d hdt).after a1 (a4 d hdh)
      · obtain rfl : d = h := by simpa [hdt] using hd
        exact a2.stays b1 (b4 d hdt)
    · obtain ⟨h1, h2⟩ := not_or.mp (List.mem_cons.not.mp hk)
      exact (b4 k h2).trans (a4 k h1)

/-- One line written back (R357). -/
theorem State.writeBack_spec (inv hbm : Bool) (s : State) (n : Nat) :
    LinesOnly s (s.writeBack inv hbm n) ∧ (∀ d < 4, Brought inv s (s.writeBack inv hbm n) n d)
      ∧ (∀ m, m ≠ n → (s.writeBack inv hbm n).line m = s.line m)
      ∧ (hbm = true → (((s.writeBack inv hbm n).line n).of 4).dirty = false) := by
  obtain ⟨a1, a2, a3, -⟩ := State.foldl_bringBack inv n (upto 4) (fun h hh => by simpa using hh) s
  have hw : s.writeBack inv hbm n = (if hbm then
      let u := (upto 4).foldl (State.bringBack inv n) s
      u.putLine n { (u.line n).set homeHolder { (u.line n).of homeHolder with dirty := false } with hbm := decide (0 < (u.line n).coming) }
      else (upto 4).foldl (State.bringBack inv n) s) := rfl
  rw [hw]
  generalize (upto 4).foldl (State.bringBack inv n) s = u at a1 a2 a3
  split
  · have hl (k : Nat) (x : Bool) : ((u.putLine n { (u.line n).set homeHolder { (u.line n).of homeHolder with dirty := false } with
        hbm := x }).line n).of k = if k = 4 then { (u.line n).of 4 with dirty := false } else (u.line n).of k := by
      rw [State.line_putLine, if_pos rfl]
      exact Line.of_set _ _ _ _
    refine ⟨a1.trans (LinesOnly.putLine _ _ _), fun d hd => (a2 d (by simpa using hd)).stays (LinesOnly.putLine _ _ _) ?_,
      fun m hm => ?_, fun _ => ?_⟩
    · rw [hl, if_neg (Nat.ne_of_lt hd)]
    · rw [State.line_putLine, if_neg hm, a3 m hm]
    · rw [hl, if_pos rfl]
  · rename_i hb
    exact ⟨a1, fun d hd => a2 d (by simpa using hd), a3, fun h => absurd h hb⟩

/-- Several lines written back, the same one perhaps twice (R357). -/
theorem State.foldl_writeBack (inv hbm : Bool) (l : List Nat) (s : State) :
    LinesOnly s (l.foldl (fun s n => s.writeBack inv hbm n) s)
      ∧ (∀ m ∈ l, ∀ d < 4, Brought inv s (l.foldl (fun s n => s.writeBack inv hbm n) s) m d)
      ∧ (∀ m, m ∉ l → (l.foldl (fun s n => s.writeBack inv hbm n) s).line m = s.line m)
      ∧ (hbm = true → ∀ m ∈ l, (((l.foldl (fun s n => s.writeBack inv hbm n) s).line m).of 4).dirty = false) := by
  induction l generalizing s with
  | nil => exact ⟨LinesOnly.refl s, fun _ h => absurd h List.not_mem_nil, fun _ _ => rfl, fun _ _ h => absurd h List.not_mem_nil⟩
  | cons n t ih =>
    obtain ⟨a1, a2, a3, a4⟩ := s.writeBack_spec inv hbm n
    obtain ⟨b1, b2, b3, b4⟩ := ih (s.writeBack inv hbm n)
    rw [List.foldl_cons]
    refine ⟨a1.trans b1, fun m hm d hd => ?_, fun m hm => ?_, fun hb m hm => ?_⟩
    · by_cases hmt : m ∈ t
      · by_cases hmn : m = n
        · subst hmn; exact (a2 d hd).trans a1 b1 (b2 m hmt d hd)
        · exact (b2 m hmt d hd).after a1 (by rw [a3 m hmn])
      · obtain rfl : m = n := by simpa [hmt] using hm
        exact (a2 d hd).stays b1 (by rw [b3 m hmt])
    · obtain ⟨h1, h2⟩ := not_or.mp (List.mem_cons.not.mp hm)
      exact (b3 m h2).trans (a3 m h1)
    · by_cases hmt : m ∈ t
      · exact b4 hb m hmt
      · obtain rfl : m = n := by simpa [hmt] using hm
        rw [b3 m hmt]
        exact a4 hb

/-! ## CWB line by line -/

theorem State.cacheBy_frame (s : State) (holders : List Nat) (ctx va : Nat) (x : Xlat) :
    ∃ T, s.cacheBy holders ctx va x = { s with tlb := T } := by
  unfold State.cacheBy
  induction holders generalizing s with
  | nil => exact ⟨s.tlb, rfl⟩
  | cons h t ih =>
    rw [List.foldl_cons]
    split
    · exact ih s
    · obtain ⟨T, hT⟩ := ih _
      exact ⟨T, hT⟩

theorem State.cachePointers_frame (s : State) (die ctx va lvl : Nat) (l : List Nat) :
    ∃ W, s.cachePointers die ctx va lvl l = { s with walks := W } := by
  induction lvl generalizing s l with
  | zero => exact ⟨s.walks, by unfold State.cachePointers; rfl⟩
  | succ k ih =>
    match l with
    | [] => exact ⟨s.walks, by unfold State.cachePointers; rfl⟩
    | [_] => exact ⟨s.walks, by unfold State.cachePointers; rfl⟩
    | _ :: n :: t =>
      simp only [State.cachePointers]
      split
      · exact ih s _
      · obtain ⟨W, hW⟩ := ih _ (n :: t)
        exact ⟨W, hW⟩

/-- A translation that enters the caches changes nothing else. -/
theorem State.cache_frame (s : State) (ctx va : Nat) (x : Xlat) : ∃ T W, s.cache ctx va x = { s with tlb := T, walks := W } := by
  unfold State.cache
  split
  · obtain ⟨W, hW⟩ := s.cachePointers_frame s.b.die ctx va 3 _
    rw [hW]
    obtain ⟨T, hT⟩ := State.cacheBy_frame { s with walks := W } (State.coreCaches { s with walks := W }) ctx va x
    exact ⟨T, W, hT⟩
  · obtain ⟨T, hT⟩ := s.cacheBy_frame s.coreCaches ctx va x
    exact ⟨T, s.walks, hT⟩

theorem State.cwbLines_error {s : State} {inv hbm : Bool} {a k e : Nat} (h : s.cwbXlat a = .error e) :
    State.cwbLines inv hbm (k + 1) a s = if e = 3 then (s.reportWalk (s.ctxOf s.b) a s.g.task).stopAfter 7 0 (BitVec.ofNat 64 a)
      else s.stopAfter 6 e (BitVec.ofNat 64 a) := by
  simp only [State.cwbLines, h, xlatStop]
  split <;> rfl

theorem State.cwbLines_ok {s : State} {inv hbm : Bool} {a k : Nat} {x : Xlat} (h : s.cwbXlat a = .ok x) :
    ∃ u, State.cwbLines inv hbm (k + 1) a s = State.cwbLines inv hbm k (a + 128) u
      ∧ u = { s with
          tlb := u.tlb, walks := u.walks, g := { s.g with slices := u.g.slices }
          fab := { s.fab with lines := u.fab.lines, links := u.fab.links, held := u.fab.held }, agenda := u.agenda }
      ∧ (SlicesAre s.g u.g fun i =>
          if i ∈ s.group then { s.g.slice i with backs := (s.g.slice i).backs ++ x.bothLines } else s.g.slice i)
      ∧ (∀ m, m ∉ x.bothLines → u.line m = s.line m)
      ∧ ∀ m ∈ x.bothLines, (hbm = true → ((u.line m).of 4).dirty = false) ∧ ∀ d < 4, Brought inv s u m d := by
  obtain ⟨T, W, hc⟩ := s.cache_frame (s.ctxOf s.b) a x
  obtain ⟨b1, b2, b3, b4⟩ := State.foldl_writeBack inv hbm x.bothLines { s with tlb := T, walks := W }
  refine ⟨_, by simp only [State.cwbLines, h]; rfl, ?_⟩
  rw [hc]
  generalize List.foldl (fun s n => State.writeBack s inv hbm n) _ _ = v at b1 b2 b3 b4
  obtain ⟨e1, -⟩ := b1
  have hg : v.g = s.g := congrArg (·.g) e1
  have hgrp : v.group = s.group := by rw [e1]; rfl
  obtain ⟨S, hS, -⟩ := v.g.modSlices_frame v.group fun _ sl => { sl with backs := sl.backs ++ x.bothLines }
  obtain ⟨-, hs⟩ := slicesOnly_modSlices v v.group v.group_nodup fun _ sl => { sl with backs := sl.backs ++ x.bothLines }
  refine ⟨?_, ?_, b3, fun m hm => ⟨fun hb => b4 hb m hm, b2 m hm⟩⟩
  · unfold State.awaitBacks
    rw [hS, e1]
  · rw [hgrp, hg] at hs
    unfold State.awaitBacks
    rw [hgrp, hg]
    exact hs

/-! ## TLBINV -/

theorem coversAny_iff {tlb : List TlbEntry} {drop : TlbEntry → Bool} {ctx : Nat} {vas : List Nat} :
    coversAny (tlb.filter drop) ctx vas = true
      ↔ ∃ a ∈ vas, ∃ e ∈ tlb, drop e = true ∧ e.ctx = ctx ∧ e.va ≤ a ∧ a < e.va + e.size := by
  simp only [coversAny, List.any_eq_true, List.mem_filter, Bool.and_eq_true, beq_iff_eq, decide_eq_true_eq]
  constructor
  · rintro ⟨e, ⟨h1, h2⟩, h3, a, h4, h5, h6⟩
    exact ⟨a, h4, e, h1, h2, h3, h5, h6⟩
  · rintro ⟨a, h4, e, h1, h2, h3, h5, h6⟩
    exact ⟨e, ⟨h1, h2⟩, h3, a, h4, h5, h6⟩

/-- The GSTs in flight that hold on to dropped translations (R186, R356). -/
theorem State.mem_holding {s : State} {gone : List TlbEntry} {w : Nat} :
    w ∈ s.holding gone ↔ ∃ g ∈ s.allGangs, ∃ b f, s.findBlock g.block = some b ∧ f ∈ g.flights ∧ f.id = w
      ∧ coversAny gone (s.ctxOf b)
        (((maskLanes f.remain).filter fun L => (Store.find f.held L).isSome).map fun L => (Store.get 0 f.addr L).toNat) = true := by
  unfold State.holding
  rw [List.mem_flatMap]
  refine exists_congr fun g => and_congr_right fun _ => ?_
  cases s.findBlock g.block with
  | none => simp
  | some b =>
    simp only [List.mem_map, List.mem_filter, Option.some.injEq, exists_and_left, exists_eq_left']
    exact exists_congr fun f => ⟨fun ⟨⟨h1, h2⟩, h3⟩ => ⟨h1, h3, h2⟩, fun ⟨h1, h3, h2⟩ => ⟨⟨h1, h2⟩, h3⟩⟩

/-- The words that wait on dropped translations: posted operations, and GSTs partly performed (R356). -/
def State.dropWaits (s : State) (gone : List TlbEntry) : List Nat :=
  ((s.posted.filter fun p => p.op.space == .g && coversAny gone p.ctx [p.addr.toNat]).map Posted.word).eraseDups ++ s.holding gone

/-- An address of a context that one of the entries dropped translates. -/
def State.Dropped (s : State) (drop : TlbEntry → Bool) (x a : Nat) : Prop :=
  ∃ e ∈ s.tlb, drop e = true ∧ e.ctx = x ∧ e.va ≤ a ∧ a < e.va + e.size

theorem State.mem_dropWaits {s : State} {drop : TlbEntry → Bool} {w : Nat} :
    w ∈ s.dropWaits (s.tlb.filter drop) ↔ (∃ p ∈ s.posted, p.word = w ∧ p.op.space = .g ∧ s.Dropped drop p.ctx p.addr.toNat)
      ∨ ∃ g ∈ s.allGangs, ∃ b f L, s.findBlock g.block = some b ∧ f ∈ g.flights ∧ f.id = w ∧ L ∈ maskLanes f.remain
          ∧ Store.find f.held L ≠ none ∧ s.Dropped drop (s.ctxOf b) (Store.get 0 f.addr L).toNat := by
  unfold State.dropWaits
  rw [List.mem_append, State.mem_holding, List.mem_eraseDups, List.mem_map]
  refine or_congr ?_ ?_
  · simp only [List.mem_filter, Bool.and_eq_true, beq_iff_eq, coversAny_iff, List.mem_singleton, exists_eq_left]
    exact exists_congr fun p => ⟨fun ⟨⟨h1, h2, h3⟩, h4⟩ => ⟨h1, h4, h2, h3⟩, fun ⟨h1, h4, h2, h3⟩ => ⟨⟨h1, h2, h3⟩, h4⟩⟩
  · simp only [coversAny_iff, List.mem_map, List.mem_filter, Option.isSome_iff_ne_none]
    refine exists_congr fun g => and_congr_right fun _ => exists_congr fun b => exists_congr fun f => ?_
    constructor
    · rintro ⟨h1, h2, h3, -, ⟨K, ⟨hK1, hK2⟩, rfl⟩, h4⟩
      exact ⟨K, h1, h2, h3, hK1, hK2, h4⟩
    · rintro ⟨K, h1, h2, h3, hK1, hK2, h4⟩
      exact ⟨h1, h2, h3, _, ⟨K, ⟨hK1, hK2⟩, rfl⟩, h4⟩

/-- The entries dropped, and the words that the issuing group then waits for (R356). -/
theorem State.invalidate_spec (s : State) (drop : TlbEntry → Bool) (dropPtr : WalkEntry → Bool) :
    ∃ S, s.invalidate drop dropPtr = { s with
        tlb := s.tlb.filter fun e => !drop e, walks := s.walks.filter fun w => !dropPtr w, g := { s.g with slices := S } }
      ∧ SlicesAre s.g { s.g with slices := S } fun i =>
          if i ∈ s.group then { s.g.slice i with sync := (s.g.slice i).sync ++ s.dropWaits (s.tlb.filter drop) } else s.g.slice i := by
  have h (waits : List Nat) := slicesOnly_modSlices s s.group s.group_nodup fun _ sl => { sl with sync := sl.sync ++ waits }
  obtain ⟨S, hS, -⟩ := s.g.modSlices_frame s.group fun _ sl => { sl with sync := sl.sync ++ s.dropWaits (s.tlb.filter drop) }
  refine ⟨S, ?_, ?_⟩
  · rw [← hS]; rfl
  · rw [← hS]; exact (h _).2

theorem State.privileged_pos {s : State} (h : s.priv = true) (f : State → State) : s.privileged f = f s := if_pos h

theorem State.privileged_neg {s : State} (h : s.priv = false) (f : State → State) : s.privileged f = s.fault 2 0 0 := by
  simp [State.privileged, h]

/-- Settles O32: the entries that TLBINV drops by `invalidate_spec`, the lines of CWB by `cwbLines_ok`. -/
theorem tableWords : Obligations.TableWords := by
  unfold Obligations.TableWords
  intro s c h v y z L va n ctx prv overlaps leads dropped addressed badVa
  have hprv (w : Instr) (f : State → State) (he : exec w s = .next (s.privileged f)) : prv w := fun hp => by
    rw [he, State.privileged_neg hp]
  have hadd (w : Instr) (ops : List (Nat × Nat)) (bad done : Prop) (f : State → State)
      (he : exec w s = .next (s.privileged fun s => s.withRegs ops f)) (hnil : s.lanes = [] → f s = s)
      (hbad : s.lanes ≠ [] → bad → f s = s.fault 3 0 0)
      (hdone : s.lanes ≠ [] → ¬bad → exec w s = .next (f s) → done) : addressed w ops bad done := fun hp => by
    rw [State.privileged_pos hp] at he
    refine ⟨fun hr => by rw [Opr, he, State.withRegs_bad hr], fun hr => ?_⟩
    rw [State.withRegs_ok hr] at he
    exact ⟨fun hl => by rw [he, hnil hl], fun hl => ⟨fun hb => by rw [Opr, he, hbad hl hb], fun hb => hdone hl hb he⟩⟩
  have hdrop (w : Instr) (set : TlbEntry → Prop) (ptr : WalkEntry → Prop) (drop : TlbEntry → Bool) (dropPtr : WalkEntry → Bool)
      (he : exec w s = .next (s.invalidate drop dropPtr)) (hs : ∀ e, drop e = true ↔ set e) (hp : ∀ p, dropPtr p = true ↔ ptr p) :
      dropped w set ptr := by
    obtain rfl : set = fun e => drop e = true := funext fun e => propext (hs e).symm
    obtain rfl : ptr = fun p => dropPtr p = true := funext fun p => propext (hp p).symm
    obtain ⟨S, h1, h2⟩ := s.invalidate_spec drop dropPtr
    rw [h1] at he
    exact ⟨_, s.dropWaits (s.tlb.filter drop), he, rfl, fun e => by simp, fun p => by simp, h2, fun w => State.mem_dropWaits⟩
  have hpages (w : Instr) (k : Nat) (good : Bool) (he : exec w s = .next (s.tlbinv (2 * y.toNat) k good)) (hb : ¬badVa)
      (hg : good = true) : dropped w (overlaps (4096 * k)) (leads (4096 * k)) := by
    refine hdrop w _ _ _ _ (he.trans (congrArg Host.Outcome.next (if_neg ?_))) (fun e => ?_) fun p => ?_
    · simpa [hg, badVa] using hb
    · simp only [TlbEntry.hits, Bool.and_eq_true, bne_iff_ne, beq_iff_eq, decide_eq_true_eq, and_assoc]
      exact Iff.rfl
    · simp only [WalkEntry.hits, Bool.and_eq_true, beq_iff_eq, decide_eq_true_eq, and_assoc]
      exact Iff.rfl
  have hfault (k : Nat) (good : Bool) (hb : badVa ∨ good = false) : s.tlbinv (2 * y.toNat) k good = s.fault 3 0 0 := by
    refine if_pos ?_
    rcases hb with hb | hg
    · exact hb.elim .inl fun h => .inr (.inl h)
    · exact .inr (.inr (by simp [hg]))
  have hcons (hl : s.lanes ≠ []) : ∃ t, s.lanes = L :: t := by
    obtain ⟨K, t, h⟩ := List.exists_cons_of_ne_nil hl
    exact ⟨t, by simp [L, h, leader]⟩
  refine ⟨hprv _ _ rfl, hprv _ _ rfl, hprv _ _ rfl, hprv _ _ rfl, hprv _ _ rfl, hprv _ _ rfl, ?_, ?_, fun hp hl => ?_, fun hp hl => ?_,
    ?_, fun inv hbm a k => ⟨rfl, fun e he => State.cwbLines_error he, fun x hx => ?_⟩, fun hp => ⟨fun h0 => ?_, fun h0 => ?_⟩⟩
  · refine hadd _ _ _ _ _ rfl (fun hl => by simp [hl]) (fun hl hb => ?_) fun hl hb he => ?_
    · simp only [List.isEmpty_iff, hl, if_false]
      exact hfault _ _ (.inl hb)
    · simp only [List.isEmpty_iff, hl, if_false] at he
      exact hpages _ 1 true he hb rfl
  · refine hadd _ _ _ _ _ rfl (fun hl => by simp [hl]) (fun hl hb => ?_) fun hl hb he => ?_
    · obtain ⟨t, ht⟩ := hcons hl
      simp only [ht]
      exact hfault _ _ (hb.imp id fun h => decide_eq_false (by omega))
    · obtain ⟨t, ht⟩ := hcons hl
      simp only [ht] at he
      exact hpages _ n _ he (fun h => hb (.inl h)) (decide_eq_true (by omega))
  · simp [exec, execTlbinvCtx, execTlbinvAll, State.privileged_pos hp, hl]
  · refine ⟨hdrop _ _ _ _ _ (congrArg Host.Outcome.next ((State.privileged_pos hp _).trans (if_neg (by simpa using hl)))) (fun e => by simp [ctx])
      fun p => by simp [ctx], hdrop _ _ _ _ _ (congrArg Host.Outcome.next ((State.privileged_pos hp _).trans (if_neg (by simpa using hl))))
      (fun e => by simp) fun p => by simp⟩
  · refine hadd _ _ _ _ _ rfl (fun hl => by simp [hl]) (fun hl hb => ?_) fun hl hb he => ?_
    · obtain ⟨t, ht⟩ := hcons hl
      simp only [ht]
      exact if_pos hb
    · obtain ⟨t, ht⟩ := hcons hl
      simp only [ht] at he
      exact he.trans (congrArg Host.Outcome.next (if_neg hb))
  · obtain ⟨u, h1, h2, h3, h4, h5⟩ := State.cwbLines_ok (inv := inv) (hbm := hbm) (k := k) hx
    exact ⟨u, h1, h2, h3, h4, h5⟩
  · exact congrArg Host.Outcome.next ((State.privileged_pos hp _).trans (if_pos h0))
  · exact ⟨_, congrArg Host.Outcome.next ((State.privileged_pos hp _).trans (if_neg h0)),
      State.later_awaits (u := { s with b := { s.b with evicting := true } }) rfl⟩

end Sys2Proof.Machine
end

section
/-! PROOFS. The collective words, CHTEST, CHRESET and FESET at issue (R187, R244 to R247, R258, R263, R264). -/

namespace Sys2Proof.Machine

open Sys2Proof

/-! ## Counters and holds -/

theorem State.kHold_iff {s : State} {cls : Nat} : s.kHold cls = true ↔ ¬(s.src.kops.filter fun k => k.cls == cls).length < 63 := by
  rw [State.kHold, decide_eq_true_eq]
  exact Nat.not_lt.symm

theorem State.kHold_false {s : State} {cls : Nat} (h : (s.src.kops.filter fun k => k.cls == cls).length < 63) : s.kHold cls = false :=
  Bool.eq_false_iff.mpr fun hh => State.kHold_iff.mp hh h

/-- The leader of some lanes, where there are any. -/
theorem lanes_cons {l : List Nat} (h : l ≠ []) : ∃ t, l = leader l :: t := by
  obtain ⟨K, t, rfl⟩ := List.exists_cons_of_ne_nil h
  exact ⟨t, rfl⟩

/-- A word that reads bytes of S goes on where none of them is marked, and takes ABRT where one is (R32). -/
theorem State.withRead_clean {s : State} {off n : Nat} (h : s.markedIn [(atS s.b.uid off, n)] = []) (go : State → State) :
    s.withRead off n go = go s := by
  simp only [State.withRead, h]

theorem State.withRead_marked {s : State} {off n : Nat} (h : s.markedIn [(atS s.b.uid off, n)] ≠ []) (go : State → State) :
    s.withRead off n go
      = (s.reportAll (s.markedIn [(atS s.b.uid off, n)]) s.b.task).fault 7 0 (BitVec.ofNat 64 off) := by
  unfold State.withRead
  split
  · rename_i hn; exact absurd hn h
  · rfl

/-! ## Parts -/

/-- What a part of a collective says when it issues (R244). -/
def issuedPart (s : State) (minor : Nat) (desc : Option (List Byte)) (kid : Nat) (kid3 : Option Nat) (base : Nat) (late : Bool) : Part :=
  { coll := s.g.collN, rank := s.g.rank0, gang := s.g.uid, minor := minor, desc := desc, kid := kid, kid3 := kid3, late := late, base := base }

theorem State.putPart_spec (s : State) {minor : Nat} (hm : minor ≠ 1) (desc : Option (List Byte)) : ∃ late,
    s.putPart minor desc = State.later { s with
        g := { s.g with kops := s.g.kops ++ [{ id := s.next, cls := copyClass minor }], collN := s.g.collN + 1 }
        b := { s.b with parts := s.b.parts ++ [issuedPart s minor desc s.next none (s.next + 1) late] }, next := s.next + 1 }
      (.collectiveStart s.b.uid) := by
  unfold State.putPart
  simp only [if_neg hm]
  exact ⟨_, rfl⟩

theorem State.putPart_cpmx (s : State) (desc : Option (List Byte)) : ∃ late,
    s.putPart 1 desc = State.later { s with
        g := { s.g with kops := s.g.kops ++ [{ id := s.next, cls := 0 }, { id := s.next + 1, cls := 3 }], collN := s.g.collN + 1 }
        b := { s.b with parts := s.b.parts ++ [issuedPart s 1 desc s.next (some (s.next + 1)) (s.next + 2) late] }, next := s.next + 2 }
      (.collectiveStart s.b.uid) := by
  unfold State.putPart
  simp only [if_true, State.addK, List.append_assoc]
  exact ⟨_, rfl⟩

/-! ## The words step by step -/

/-- A collective word that is not CPMX waits for its class, and for its gang's stores to its descriptor (R198, R245). -/
theorem State.copyHold_eq_false {s : State} {minor : Nat} (hm : minor ≠ 1) {y : Nat} :
    s.copyHold minor y = false ↔ (s.src.kops.filter fun k => k.cls == copyClass minor).length < 63
      ∧ (s.lanes = [] ∨ s.storesPending (s.src.val y (leader s.lanes)).toNat 128 = false) := by
  have hk : s.kHold (copyClass minor) = false ↔ (s.src.kops.filter fun k => k.cls == copyClass minor).length < 63 :=
    ⟨fun h => Decidable.byContradiction fun hh => Bool.eq_false_iff.mp h (State.kHold_iff.mpr hh), State.kHold_false⟩
  rw [← hk]
  by_cases hl : s.lanes = [] <;> simp [State.copyHold, hm, hl]

theorem State.copyHold_cpmx {s : State} {y : Nat} (h0 : (s.src.kops.filter fun k => k.cls == 0).length < 63)
    (h3 : (s.src.kops.filter fun k => k.cls == 3).length < 63) (hq : s.c.mxq.length < 32)
    (hs : s.lanes = [] ∨ s.storesPending (s.src.val y (leader s.lanes)).toNat 128 = false) : s.copyHold 1 y = false := by
  have hd : decide (32 ≤ s.c.mxq.length) = false := decide_eq_false (Nat.not_le.mpr hq)
  rcases hs with hs | hs <;>
    simp [State.copyHold, copyClass, State.kHold_false h0, State.kHold_false h3, hd, hs]

section
variable {s : State} {minor : Nat} {y : BitVec 6} (hh : s.copyHold minor y.toNat = false)
include hh

theorem State.collective_bad (hr : ¬Readable s [(1, y.toNat)]) : s.collective minor y = s.fault 3 0 0 := by
  rw [State.collective, hh, if_neg Bool.false_ne_true]
  exact State.withRegs_bad hr _

theorem State.collective_none (hr : Readable s [(1, y.toNat)]) (hl : s.lanes = []) : s.collective minor y = s.putPart minor none := by
  rw [State.collective, hh, if_neg Bool.false_ne_true]
  refine (State.withRegs_ok hr _).trans ?_
  simp only [hl]

theorem State.collective_some (hr : Readable s [(1, y.toNat)]) (hl : s.lanes ≠ []) : s.collective minor y =
    let off := (s.src.val y.toNat (leader s.lanes)).toNat
    if off % 128 ≠ 0 ∨ s.b.sbytes < off + 128 then s.fault 11 0 (BitVec.ofNat 64 off)
    else s.withRead off 128 fun s => s.issuePart minor off := by
  rw [State.collective, hh, if_neg Bool.false_ne_true]
  refine (State.withRegs_ok hr _).trans ?_
  obtain ⟨t, ht⟩ := lanes_cons hl
  rw [ht]
  rfl

/-- A descriptor in range, aligned and unmarked is read (R258). -/
theorem State.collective_read (hr : Readable s [(1, y.toNat)]) (hl : s.lanes ≠ []) {off : Nat}
    (ho : (s.src.val y.toNat (leader s.lanes)).toNat = off) (h1 : off % 128 = 0) (h2 : off + 128 ≤ s.b.sbytes)
    (hb : s.markedIn [(atS s.b.uid off, 128)] = []) : s.collective minor y = s.issuePart minor off := by
  rw [State.collective_some hh hr hl]
  simp only [ho]
  rw [if_neg (by omega), State.withRead_clean hb]

end

/-- CPMX's entry in the matrix queue: none where it has no executing lane or stands there already (R218, R259). -/
theorem State.enterCpmx_spec {s : State} {n : Nat} {d : Desc} {i : Instr} {m zn a b}
    (hi : mmaOf i = some (m, zn, a, b)) (hs : Store.find s.b.slotTab d.dslot ≠ none) (hm : s.mmaSlots m zn a b ≠ none) :
    (s.hasEntry n = true → s.enterCpmx n d i = s)
      ∧ (s.hasEntry n = false → ∃ cmd, cmd.coll = some n ∧ cmd.ready = false ∧ cmd.block = s.b.uid ∧ cmd.word = i
          ∧ s.enterCpmx n d i = State.later { s with c := { s.c with mxq := s.c.mxq ++ [cmd] }, next := s.next + 1 }
            (.mxCommandStart s.next)) := by
  obtain ⟨sl, hsl⟩ := Option.ne_none_iff_exists'.mp hs
  obtain ⟨⟨pa, pb⟩, hp⟩ := Option.ne_none_iff_exists'.mp hm
  refine ⟨fun h => by simp [State.enterCpmx, h], fun h => ?_⟩
  unfold State.enterCpmx
  rw [h, hi, show s.b.bound d.dslot = some sl from hsl]
  simp only [hp]
  exact ⟨_, rfl, rfl, rfl, rfl, rfl⟩

theorem State.objOk_eq_true {s : State} {off : Nat} : s.objOk off = true ↔ off % 64 = 0 ∧ off + 64 ≤ s.b.sbytes := by
  simp [State.objOk]

theorem memNat_one (m : List Host.Cell) (a : Nat) : memNat m a 1 = (memGet m a).toNat := by
  simp [memNat, memBytes, leNat]

/-- A CPMX with a sound descriptor goes by its follow-on word (R258, R259). -/
theorem State.issuePart_cpmx {s : State} {off : Nat} {d : Desc} (hd : parseDesc (memBytes s.mem (atS s.b.uid off) 128) = d)
    (ho : ¬(d.chobj % 64 ≠ 0 ∨ s.b.sbytes < d.chobj + 64)) :
    (followOf d.follow = none → s.issuePart 1 off = s.fault 11 0 (BitVec.ofNat 64 off))
      ∧ ∀ i m zn a b, followOf d.follow = some i → mmaOf i = some (m, zn, a, b) →
        (Store.find s.b.slotTab d.dslot = none ∨ s.mmaSlots m zn a b = none → s.issuePart 1 off = s.fault 10 0 0)
        ∧ (Store.find s.b.slotTab d.dslot ≠ none → s.mmaSlots m zn a b ≠ none →
          s.issuePart 1 off = (s.enterCpmx s.g.collN d i).putPart 1 (some (memBytes s.mem (atS s.b.uid off) 128))) := by
  unfold State.issuePart
  simp only [hd, if_neg ho, if_true]
  refine ⟨fun hf => by rw [hf], fun i m zn a b hf hi => ⟨fun hn => ?_, fun hs hm => ?_⟩⟩
  · rw [hf]
    simp only [hi, Block.bound]
    cases hs : Store.find s.b.slotTab d.dslot with
    | none => rfl
    | some sl =>
      have hm : s.mmaSlots m zn a b = none := hn.resolve_left (by rw [hs]; exact Option.some_ne_none _)
      simp only [hm]
      rfl
  · obtain ⟨sl, hsl⟩ := Option.ne_none_iff_exists'.mp hs
    obtain ⟨p, hp⟩ := Option.ne_none_iff_exists'.mp hm
    rw [hf]
    simp only [hi, Block.bound, hsl, hp]
    rfl

/-- The test of a chunk object's bits or status (R263). -/
theorem State.chValue_iff (s : State) (off : Nat) (r : Word) : s.chValue off r = true ↔
    let first := (r.extractLsb' 0 8).toNat
    let n := (r.extractLsb' 8 8).toNat + 1
    let bit (k : Nat) : Prop := k < 256 ∧ (memGet s.mem (atS s.b.uid (off + k / 8))).getLsbD (k % 8) = true
    let status := (memGet s.mem (atS s.b.uid (off + 32))).toNat
    match (r.extractLsb' 16 2).toNat with
    | 0 => ∀ i < n, bit (first + i)
    | 1 => ∃ i < n, bit (first + i)
    | 2 => 2 ≤ status ∧ status ≤ 6
    | _ => 3 ≤ status ∧ status ≤ 6 := by
  unfold State.chValue
  rw [memNat_one]
  generalize (r.extractLsb' 16 2).toNat = m
  match m with
  | 0 => simp
  | 1 => simp
  | 2 => simp
  | k + 3 => simp

theorem State.wrotePred_setPred (s : State) (k : Nat) (f : Nat → Bool) :
    WrotePred s { s with g := s.g.setPred k s.lanes f } k s.lanes f := by
  obtain ⟨P, hP⟩ := s.g.setPred_frame k s.lanes f
  exact ⟨by rw [hP], fun j L hL => Gang.setPred_pred _ _ _ _ s.lanes_lt j L hL⟩

theorem State.counted_later (s : State) (cls : Nat) (work : KWork) (i : Instr) : Counted s ((s.addK cls work).later i) cls work [i] := by
  obtain ⟨h1, h2⟩ := State.later_awaits (s := s) (u := s.addK cls work) (i := i) rfl
  exact ⟨h1, h2⟩

theorem State.eq_with_mxq {t u : State} (h : t = { u with agenda := t.agenda }) :
    t = { u with c := { u.c with mxq := t.c.mxq }, agenda := t.agenda } := by
  generalize t.agenda = a at h
  subst h
  rfl

section
variable {s : State} {c : Bool} {x y : BitVec 6} {sd v : BitVec 1}

theorem exec_chreset_nil (hr : Readable s [(1, y.toNat)]) (hl : s.lanes = []) : exec (.chreset c y) s = .next s := by
  have h : ¬(!s.lanes.isEmpty && s.kHold 0) = true := by simp [hl]
  refine congrArg Host.Outcome.next ((if_neg h).trans ((State.withRegs_ok hr _).trans ?_))
  simp only [hl]

/-- CHRESET with executing lanes (R264). -/
theorem exec_chreset (hk : s.kHold 0 = false) (hr : Readable s [(1, y.toNat)]) (hl : s.lanes ≠ []) :
    exec (.chreset c y) s = .next (
      let off := (s.src.val y.toNat (leader s.lanes)).toNat
      if !s.objOk off then s.fault 11 0 (BitVec.ofNat 64 off)
      else (s.addK 0 (.chreset off)).later (.chresetEffect s.g.uid s.next)) := by
  have h : ¬(!s.lanes.isEmpty && s.kHold 0) = true := by simp [hk]
  refine congrArg Host.Outcome.next ((if_neg h).trans ((State.withRegs_ok hr _).trans ?_))
  obtain ⟨t, ht⟩ := lanes_cons hl
  rw [ht]
  rfl

theorem exec_feset_nil (hr : Readable s [(1, x.toNat), (1, y.toNat)]) (hl : s.lanes = []) : exec (.feset c x y sd v) s = .next s := by
  have h : ¬(!s.lanes.isEmpty && s.kHold 0) = true := by simp [hl]
  refine congrArg Host.Outcome.next ((if_neg h).trans ((State.withRegs_ok hr _).trans ?_))
  simp only [hl]

/-- FESET with executing lanes (R187). -/
theorem exec_feset (hk : s.kHold 0 = false) (hr : Readable s [(1, x.toNat), (1, y.toNat)]) (hl : s.lanes ≠ []) :
    exec (.feset c x y sd v) s = .next (
      let start := (s.src.val x.toNat (leader s.lanes)).toNat
      let len := (s.src.val y.toNat (leader s.lanes)).toNat
      if start % 16 ≠ 0 ∨ len % 16 ≠ 0 ∨ len = 0 ∨ 1048576 < len then s.fault 3 0 0
      else match s.spadAt s.g s.b (spaceSD sd) 3 (leader s.lanes) start len with
        | none => s.fault 3 0 0
        | some base => (s.addK 0 (.feset base len (v == 1) false)).later (.fesetEffect s.g.uid s.next)) := by
  have h : ¬(!s.lanes.isEmpty && s.kHold 0) = true := by simp [hk]
  refine congrArg Host.Outcome.next ((if_neg h).trans ((State.withRegs_ok hr _).trans ?_))
  obtain ⟨t, ht⟩ := lanes_cons hl
  rw [ht]
  rfl

end

/-- Settles O28: the collective words by `putPart_spec` and `enterCpmx_spec`, the others by their checks in order. -/
theorem copyWords : Obligations.CopyWords := by
  unfold Obligations.CopyWords
  intro s c y z x p sd v L off below quiet bad abrt cpf bytes d objBad isPart part part3 word
  have hword (w : Instr) (minor : Nat) (hm : minor ≠ 1) (he : exec w s = .next (s.collective minor y)) : word w minor (copyClass minor) := by
    have hput (desc : Option (List Byte)) (he : exec w s = .next (s.putPart minor desc)) : part w minor (copyClass minor) desc := by
      obtain ⟨late, h⟩ := s.putPart_spec hm desc
      rw [h] at he
      obtain ⟨h1, h2, h3⟩ := State.later_awaits (s := s) (i := .collectiveStart s.b.uid) (u := { s with
        g := { s.g with kops := s.g.kops ++ [{ id := s.next, cls := copyClass minor }], collN := s.g.collN + 1 }
        b := { s.b with parts := s.b.parts ++ [issuedPart s minor desc s.next none (s.next + 1) late] }, next := s.next + 1 }) rfl
      exact ⟨_, _, he, ⟨rfl, rfl, rfl, rfl, rfl⟩, rfl, rfl, h1, h2 _ (List.mem_singleton_self _), h3⟩
    refine ⟨fun h => ?_, fun hk hq => ?_⟩
    · have hh : s.copyHold minor y.toNat = true :=
        Bool.of_not_eq_false fun hh => h ((State.copyHold_eq_false hm).mp hh)
      rw [he, State.collective, if_pos hh]
    have hh : s.copyHold minor y.toNat = false := (State.copyHold_eq_false hm).mpr ⟨hk, hq⟩
    refine ⟨fun hr => by rw [Opr, he, State.collective_bad hh hr], fun hr => ⟨fun hl => ?_, fun hl ho => ?_, fun hl h1 h2 => ⟨fun hb => ?_,
      fun hb => ⟨fun ho => ?_, fun ho => ?_⟩⟩⟩⟩
    · exact hput none (by rw [he, State.collective_none hh hr hl])
    · exact he.trans (congrArg _ ((State.collective_some hh hr hl).trans (if_pos ho)))
    · refine he.trans (congrArg _ ((State.collective_some hh hr hl).trans ((if_neg ?_).trans (State.withRead_marked hb _))))
      exact not_or.mpr ⟨not_not.mpr h1, Nat.not_lt.mpr h2⟩
    · exact he.trans (congrArg _ ((State.collective_read hh hr hl rfl h1 h2 hb).trans (if_pos ho)))
    · exact hput _ (he.trans (congrArg _ ((State.collective_read hh hr hl rfl h1 h2 hb).trans ((if_neg ho).trans (if_neg hm)))))
  have hput3 (w : Instr) (desc : Option (List Byte)) (q : List MxCmd) (n : Nat) (ag : List Instr) (ha : ∀ i ∈ s.agenda, i ∈ ag)
      (he : exec w s = .next (State.putPart { s with c := { s.c with mxq := q }, next := n, agenda := ag } 1 desc))
      (h0 : s.lanes = [] ∨ s.hasEntry s.g.collN = true → q = s.c.mxq)
      (h1 : s.lanes ≠ [] → s.hasEntry s.g.collN = false → ∃ cmd, q = s.c.mxq ++ [cmd] ∧ cmd.coll = some s.g.collN
        ∧ cmd.ready = false ∧ cmd.block = s.b.uid ∧ some cmd.word = followOf d.follow) : part3 w desc := by
    obtain ⟨late, h⟩ := State.putPart_cpmx { s with c := { s.c with mxq := q }, next := n, agenda := ag } desc
    rw [h] at he
    obtain ⟨e1, e2, e3⟩ := State.later_awaits (s := { s with agenda := ag }) (i := .collectiveStart s.b.uid) (u := { s with
      g := { s.g with kops := s.g.kops ++ [{ id := n, cls := 0 }, { id := n + 1, cls := 3 }], collN := s.g.collN + 1 }
      b := { s.b with parts := s.b.parts ++ [issuedPart s 1 desc n (some (n + 1)) (n + 2) late] }
      c := { s.c with mxq := q }, next := n + 2, agenda := ag }) rfl
    have hm := congrArg (fun t => t.c.mxq) e1
    refine ⟨_, issuedPart s 1 desc n (some (n + 1)) (n + 2) late, n, he, ⟨rfl, rfl, rfl, rfl, rfl⟩, rfl, rfl, ?_, fun hn => hm.trans (h0 hn), fun hl hn => ?_,
      e2 _ (List.mem_singleton_self _), fun i hi => e3 i (ha i hi)⟩
    · exact State.eq_with_mxq e1
    · obtain ⟨cmd, k1, k2⟩ := h1 hl hn
      exact ⟨cmd, hm.trans k1, k2⟩
  have hobj : (!s.objOk off) = true ↔ off % 64 ≠ 0 ∨ s.b.sbytes < off + 64 := by
    rw [Bool.not_eq_true', Bool.eq_false_iff, ne_eq, State.objOk_eq_true]
    omega
  have hct (hq : quiet 64) : exec (.chtest c p y z) s = .next (s.withRegs [(1, y.toNat), (1, z.toNat)] fun s =>
      if s.lanes.isEmpty then s
      else if !s.objOk off then s.fault 11 0 (BitVec.ofNat 64 off)
      else s.withRead off 64 fun s => { s with g := s.g.setPred p.toNat s.lanes fun L => s.chValue off (s.src.val z.toNat L) }) :=
    congrArg _ (if_neg fun h => by
      obtain ⟨h1, h2⟩ := Bool.and_eq_true_iff.mp h
      rcases hq with hq | hq
      · rw [hq] at h1; cases h1
      · exact Bool.false_ne_true (hq.symm.trans h2))
  refine ⟨hword _ 0 (by decide) rfl, hword _ 2 (by decide) rfl, hword _ 3 (by decide) rfl, hword _ 4 (by decide) rfl,
    fun h0 h3 hq hx hr => ?_, fun hq => ⟨fun hr => ?_, fun hr => ?_⟩,
    ⟨fun hl hk => ?_, fun hk => ⟨fun hr => ?_, fun hr => ?_⟩⟩,
    fun hl hk => ?_, fun hk => ?_⟩
  · have hh := State.copyHold_cpmx h0 h3 hx hq
    refine ⟨fun hl => ?_, fun hl h1 h2 hb ho => ?_⟩
    · exact hput3 _ none s.c.mxq s.next s.agenda (fun _ hi => hi) (congrArg _ (State.collective_none hh hr hl)) (fun _ => rfl)
        fun hn => absurd hl hn
    have he : exec (.cpmx c y) s = .next (s.issuePart 1 off) := congrArg _ (State.collective_read hh hr hl rfl h1 h2 hb)
    obtain ⟨k0, k⟩ := State.issuePart_cpmx (d := d) rfl ho
    refine ⟨fun hf => he.trans (congrArg _ (k0 hf)), fun i m zn a b hf hi => ?_⟩
    obtain ⟨k1, k2⟩ := k i m zn a b hf hi
    refine ⟨fun hn => he.trans (congrArg _ (k1 hn)), fun hs hm => ?_⟩
    rw [k2 hs hm] at he
    obtain ⟨j0, j1⟩ := State.enterCpmx_spec (n := s.g.collN) hi hs hm
    cases hent : s.hasEntry s.g.collN with
    | true =>
      rw [j0 hent] at he
      exact hput3 _ _ s.c.mxq s.next s.agenda (fun _ hi => hi) he (fun _ => rfl) fun _ hn => Bool.noConfusion (hent.symm.trans hn)
    | false =>
      obtain ⟨cmd, c1, c2, c3, c4, c5⟩ := j1 hent
      obtain ⟨l1, -, l2⟩ := State.later_awaits (s := s) (u := { s with c := { s.c with mxq := s.c.mxq ++ [cmd] }, next := s.next + 1 })
        (i := .mxCommandStart s.next) rfl
      rw [c5, l1] at he
      exact hput3 _ _ _ _ _ l2 he (fun hn => absurd hn (by simp [hl, hent])) fun _ _ => ⟨cmd, rfl, c1, c2, c3, by rw [c4, hf]⟩
  · rw [Opr, hct hq]
    exact congrArg _ (State.withRegs_bad hr _)
  · have he := (hct hq).trans (congrArg _ (State.withRegs_ok hr _))
    refine ⟨fun hl => he.trans (congrArg _ (if_pos (List.isEmpty_iff.mpr hl))), fun hl ho => ?_, fun hl h1 h2 hb => ?_, fun hl h1 h2 hb => ?_⟩
    all_goals replace he := he.trans (congrArg _ (if_neg (List.isEmpty_iff.not.mpr hl)))
    · exact he.trans (congrArg _ (if_pos (hobj.mpr ho)))
    · exact he.trans (congrArg _ ((if_neg (hobj.not.mpr (by omega))).trans (State.withRead_marked hb _)))
    · exact ⟨_, _, he.trans (congrArg _ ((if_neg (hobj.not.mpr (by omega))).trans (State.withRead_clean hb _))),
        s.wrotePred_setPred _ _, fun K => State.chValue_iff s off _⟩
  · exact congrArg _ (if_pos (by simp [hl, State.kHold_iff.mpr hk]))
  · exact congrArg _ ((if_neg (by simp [State.kHold_false hk])).trans (State.withRegs_bad hr _))
  · refine ⟨fun hl => ?_, fun hl ho => ?_, fun hl h1 h2 => ?_⟩
    · exact exec_chreset_nil hr hl
    · exact (exec_chreset (State.kHold_false hk) hr hl).trans (congrArg _ (if_pos (hobj.mpr ho)))
    · exact ⟨_, (exec_chreset (State.kHold_false hk) hr hl).trans (congrArg _ (if_neg (hobj.not.mpr (by omega)))),
        s.counted_later 0 (.chreset off) _⟩
  · exact congrArg _ (if_pos (by simp [hl, State.kHold_iff.mpr hk]))
  · intro start
    refine ⟨fun hr => ?_, fun hr => ?_⟩
    · exact congrArg _ ((if_neg (by simp [State.kHold_false hk])).trans (State.withRegs_bad hr _))
    intro range wrong
    have hwrong : wrong ↔ (start % 16 ≠ 0 ∨ off % 16 ≠ 0 ∨ off = 0 ∨ 1048576 < off) ∨ range = none := by
      simp only [wrong, or_assoc]
    refine ⟨fun hl => ?_, fun hl hw => ?_, fun hl hw => ?_⟩
    · exact exec_feset_nil hr hl
    · refine (exec_feset (State.kHold_false hk) hr hl).trans (congrArg _ ?_)
      by_cases hq : start % 16 ≠ 0 ∨ off % 16 ≠ 0 ∨ off = 0 ∨ 1048576 < off
      · exact if_pos hq
      · refine (if_neg hq).trans ?_
        rw [show s.spadAt s.g s.b (spaceSD sd) 3 (leader s.lanes) (s.src.val x.toNat (leader s.lanes)).toNat
          (s.src.val y.toNat (leader s.lanes)).toNat = none from (hwrong.mp hw).resolve_left hq]
    · obtain ⟨hq, hn⟩ := not_or.mp (hwrong.not.mp hw)
      obtain ⟨base, hb⟩ := Option.ne_none_iff_exists'.mp hn
      refine ⟨_, base, hb, (exec_feset (State.kHold_false hk) hr hl).trans (congrArg _ ((if_neg hq).trans ?_)),
        s.counted_later 0 (.feset base off (v == 1) false) _⟩
      rw [show s.spadAt s.g s.b (spaceSD sd) 3 (leader s.lanes) (s.src.val x.toNat (leader s.lanes)).toNat
        (s.src.val y.toNat (leader s.lanes)).toNat = some base from hb]

end Sys2Proof.Machine
end

section
/-! PROOFS. The end of a chain and REGANG: what the slices of a gang are afterwards (R43, R58, R160, R161). -/

namespace Sys2Proof.Machine

open Sys2Proof

/-! ## Sets of slices -/

/-- A part of a slice that a change of several slices keeps. -/
theorem Gang.modSlices_keeps {α : Type} (p : Slice → α) (g : Gang) (l : List Nat) (f : Nat → Slice → Slice) (hf : ∀ i x, p (f i x) = p x)
    (j : Nat) : p ((g.modSlices l f).slice j) = p (g.slice j) := by
  unfold Gang.modSlices
  induction l generalizing g with
  | nil => rfl
  | cons i t ih =>
    rw [List.foldl_cons, ih]
    unfold Gang.modSlice Gang.slice
    rw [nth_modAt]
    split
    · exact hf _ _
    · rfl

theorem Gang.modSlices_live (g : Gang) (l : List Nat) (f : Nat → Slice → Slice) : (g.modSlices l f).live = g.live := by
  obtain ⟨S, h, -⟩ := g.modSlices_frame l f
  rw [h]

/-- The first of the numbers below n that pass a test. -/
theorem filter_upto_cons {n i : Nat} {p : Nat → Bool} (hi : i < n) (hp : p i = true) (hl : ∀ j < n, p j = true → i ≤ j) :
    ∃ t, (upto n).filter p = i :: t ∧ ∀ j ∈ t, j < n ∧ p j = true ∧ i < j := by
  have hh : ((upto n).filter p).head? = some i := by
    rw [List.head?_filter, upto, List.find?_range_eq_some]
    exact ⟨hp, List.mem_range.mpr hi, fun j hj => by
      rw [Bool.not_eq_true', Bool.eq_false_iff]
      exact fun h => absurd (hl j (by omega) h) (by omega)⟩
  obtain ⟨t, ht⟩ := List.head?_eq_some_iff.mp hh
  refine ⟨t, ht, fun j hj => ?_⟩
  have hm : j ∈ (upto n).filter p := ht ▸ List.mem_cons_of_mem _ hj
  obtain ⟨h1, h2⟩ := List.mem_filter.mp hm
  have hs : ((upto n).filter p).Pairwise (· < ·) := List.pairwise_lt_range.filter _
  rw [ht, List.pairwise_cons] at hs
  exact ⟨(mem_upto n j).mp h1, h2, hs.1 j hj⟩

/-! ## The end of a chain -/

/-- The register cache at the end of a chain. -/
theorem Gang.foldl_cache_frame (m : BitVec 8) (drops writes : List Nat) (g : Gang) :
    ∃ C, writes.foldl (Gang.cacheReg m) (drops.foldl (Gang.uncacheReg m) g) = { g with cached := C } := by
  have hd (l : List Nat) (g : Gang) : ∃ C, l.foldl (Gang.uncacheReg m) g = { g with cached := C } := by
    induction l generalizing g with
    | nil => exact ⟨g.cached, rfl⟩
    | cons r t ih => obtain ⟨C, h⟩ := ih (g.uncacheReg m r); exact ⟨C, h⟩
  have hw (l : List Nat) (g : Gang) : ∃ C, l.foldl (Gang.cacheReg m) g = { g with cached := C } := by
    induction l generalizing g with
    | nil => exact ⟨g.cached, rfl⟩
    | cons r t ih =>
      obtain ⟨C, h⟩ := ih (g.cacheReg m r)
      rw [List.foldl_cons, h]
      unfold Gang.cacheReg
      split <;> exact ⟨_, rfl⟩
  obtain ⟨C, hC⟩ := hd drops g
  obtain ⟨D, hD⟩ := hw writes { g with cached := C }
  exact ⟨D, hC ▸ hD⟩

/-- Only counters of the core and the register cache of the gang in focus change. -/
def Counts (s t : State) : Prop := ∃ C P, t = { s with g := { s.g with cached := C }, c := { s.c with perfCnt := P } }

theorem Counts.trans {a b c : State} (h : Counts a b) (k : Counts b c) : Counts a c := by
  obtain ⟨_, _, rfl⟩ := h
  obtain ⟨_, _, rfl⟩ := k
  exact ⟨_, _, rfl⟩

theorem State.count_counts (s : State) (event n : Nat) : Counts s (s.count event n) := ⟨s.g.cached, _, rfl⟩

theorem State.recached_counts (s : State) (m : BitVec 8) (drops writes : List Nat) :
    Counts s { s with g := writes.foldl (Gang.cacheReg m) (drops.foldl (Gang.uncacheReg m) s.g) } := by
  obtain ⟨C, hC⟩ := s.g.foldl_cache_frame m drops writes
  exact ⟨C, s.c.perfCnt, by rw [hC]⟩

theorem State.readBanks_counts (s : State) : Counts s s.readBanks :=
  (((s.count_counts _ _).trans (State.count_counts _ _ _)).trans (State.count_counts _ _ _)).trans (State.recached_counts _ _ _ _)

/-- A chain counted (R419). -/
theorem State.countChain_counts (s : State) : Counts s s.countChain :=
  (((s.count_counts _ _).trans (State.count_counts _ _ _)).trans (State.readBanks_counts _)).trans ⟨_, _, rfl⟩

theorem Gang.part_frame (g : Gang) (l : List Nat) : ∃ S, g.part l = { g with slices := S } ∧ S.length = g.slices.length := by
  unfold Gang.part
  dsimp only
  split
  · exact ⟨g.slices, rfl, rfl⟩
  · exact Gang.modSlices_frame _ _ _

/-- A part of a slice other than its group is kept when its group parts (R24). -/
theorem Gang.part_keeps {α : Type} (p : Slice → α) (hp : ∀ (x : Slice) k, p { x with grp := k } = p x) (g : Gang) (l : List Nat) (j : Nat) :
    p ((g.part l).slice j) = p (g.slice j) := by
  unfold Gang.part
  dsimp only
  split
  · rfl
  · exact Gang.modSlices_keeps p _ _ _ (fun i x => hp x _) j

theorem Gang.part_slice_outside (g : Gang) {l : List Nat} (hn : l.Nodup) {j : Nat} (hj : j ∉ l) (hlt : j < g.slices.length) :
    (g.part l).slice j = g.slice j := by
  unfold Gang.part
  dsimp only
  split
  · rfl
  · rw [Gang.modSlices_slice _ _ _ (hn.filter _) j hlt, if_neg fun h => hj (List.mem_filter.mp h).1]

/-- Slices that all stand together stay one group (R24). -/
theorem Gang.part_together {g : Gang} {l : List Nat} (h : ∀ i ∈ l, ∀ j ∈ l, (g.slice i).together (g.slice j) = true) : g.part l = g := by
  unfold Gang.part
  refine if_pos (List.all_eq_true.mpr fun i hi => h i (List.mem_filter.mp hi).1 _ ?_)
  cases hf : l.filter g.live.getLsbD with
  | nil => rw [hf] at hi; cases hi
  | cons a t => exact (List.mem_filter.mp (hf ▸ List.mem_cons_self : a ∈ l.filter g.live.getLsbD)).1

/-- What the end of a chain changes (R24, R43, R58, R320, R419). -/
theorem State.endChain_frame (s : State) : ∃ S e n C P, S.length = s.g.slices.length
    ∧ s.endChain = { s with
        g := { s.g with slices := S, exempt := e, lastGrp := n, cached := C }
        c := { s.c with perfCnt := P }, iss := { s.iss with ended := true } }
    ∧ S = ((s.g.modSlices s.group fun i sl => sl.afterChain (s.iss.moved.getLsbD i) s.iss).part s.group).slices := by
  obtain ⟨S, hS, hl⟩ := s.g.modSlices_frame s.group fun i sl => sl.afterChain (s.iss.moved.getLsbD i) s.iss
  obtain ⟨T, hT, hl'⟩ := (s.g.modSlices s.group fun i sl => sl.afterChain (s.iss.moved.getLsbD i) s.iss).part_frame s.group
  rw [hS] at hT hl'
  obtain ⟨C, P, h⟩ := State.countChain_counts { s with
    g := { s.g with slices := T, exempt := s.g.exempt &&& ~~~(sliceMask s.group), lastGrp := s.group.headD 0 }
    iss := { s.iss with ended := true } }
  refine ⟨T, s.g.exempt &&& ~~~(sliceMask s.group), s.group.headD 0, C, P, hl'.trans hl, ?_, ?_⟩
  · unfold State.endChain
    dsimp only
    rw [hS, hT]
    exact h
  · rw [hS, hT]

/-! ## Waiting at a REGANG -/

theorem Gang.mem_named {g : Gang} {i j : Nat} : j ∈ g.named i ↔
    ∃ m w, (g.slice i).regangAt = some (m, w) ∧ j < 8 ∧ (j = i ∨ m.getLsbD j = true ∧ g.live.getLsbD j = true) := by
  unfold Gang.named
  cases h : (g.slice i).regangAt with
  | none => simp
  | some mw => obtain ⟨m, w⟩ := mw; simp

/-- A live slice's named set waits whole when it waits and so does each live slice of its mask, at its word with its
mask (R160). -/
theorem Gang.whole_iff {g : Gang} {i : Nat} (hi : i < 8) : g.whole i = true ↔ g.live.getLsbD i = true ∧
    ∃ m w, (g.slice i).regangAt = some (m, w)
      ∧ ∀ j < 8, m.getLsbD j = true → g.live.getLsbD j = true → (g.slice j).regangAt = some (m, w) := by
  have hne : (g.named i = []) ↔ (g.slice i).regangAt = none := by
    constructor
    · intro h
      cases hr : (g.slice i).regangAt with
      | none => rfl
      | some mw => exact absurd (Gang.mem_named.mpr ⟨mw.1, mw.2, hr, hi, .inl rfl⟩) (h ▸ List.not_mem_nil)
    · intro h
      simp [Gang.named, h]
  simp only [Gang.whole, Bool.and_eq_true, List.all_eq_true, beq_iff_eq, Bool.not_eq_true', List.isEmpty_eq_false_iff, ne_eq, hne]
  constructor
  · rintro ⟨⟨h1, h2⟩, h3⟩
    obtain ⟨mw, hr⟩ := Option.ne_none_iff_exists'.mp h1
    refine ⟨h2, mw.1, mw.2, hr, fun j hj hm hl => ?_⟩
    rw [← hr]
    exact h3 j (Gang.mem_named.mpr ⟨mw.1, mw.2, hr, hj, .inr ⟨hm, hl⟩⟩)
  · rintro ⟨h2, m, w, hr, h3⟩
    refine ⟨⟨by rw [hr]; exact Option.some_ne_none _, h2⟩, fun j hj => ?_⟩
    obtain ⟨m', w', hr', hlt, h⟩ := Gang.mem_named.mp hj
    cases hr.symm.trans hr'
    rcases h with rfl | ⟨hm, hl⟩
    · rfl
    · rw [h3 j hlt hm hl, hr]

/-- A slice waits in vain while its mask names a live slice that waits elsewhere, or not at all (R160). -/
theorem Gang.not_whole {g : Gang} {i : Nat} (hi : i < 8) (h : (g.slice i).regangAt = none ∨ ∃ m w j,
    (g.slice i).regangAt = some (m, w) ∧ j < 8 ∧ m.getLsbD j = true ∧ g.live.getLsbD j = true ∧ (g.slice j).regangAt ≠ some (m, w)) :
    g.whole i = false := by
  rw [Bool.eq_false_iff]
  intro hw
  obtain ⟨-, m, w, hr, ha⟩ := (Gang.whole_iff hi).mp hw
  rcases h with h | ⟨m', w', j, h1, h2, h3, h4, h5⟩
  · rw [h] at hr; cases hr
  · cases hr.symm.trans h1
    exact h5 (ha j h2 h3 h4)

/-- What the merge of the slices that rejoin slice i leaves (R160). -/
def Gang.merged (g : Gang) (fresh i : Nat) (x : Gang) : Gang :=
  let ns := g.rejoining i
  let waits := (g.outstanding.filter fun f => (f.slices &&& sliceMask ns) != 0 && f.op.covered).map (·.id)
  let x := x.modSlices ns fun _ sl => { sl with wait := .none, pc := nextWord sl.pc, grp := ns.headD i }
  if waits.isEmpty then x else { x with fences := x.fences ++ [{ at_ := fresh, waits := waits, writesOnly := false }] }

theorem Gang.mergeFrom_cons (g : Gang) (fresh i : Nat) (t : List Nat) (x : Gang) : g.mergeFrom fresh (i :: t) x =
    if g.whole i && (x.slice i).regangAt.isSome then g.mergeFrom fresh t (g.merged fresh i x) else g.mergeFrom fresh t x := rfl

theorem Gang.merged_frame (g : Gang) (fresh i : Nat) (x : Gang) :
    ∃ F, g.merged fresh i x = { x with slices := (g.merged fresh i x).slices, fences := F }
      ∧ (g.merged fresh i x).slices.length = x.slices.length := by
  obtain ⟨S, hS, hl⟩ := x.modSlices_frame (g.rejoining i)
    fun _ sl => { sl with wait := .none, pc := nextWord sl.pc, grp := (g.rejoining i).headD i }
  unfold Gang.merged
  simp only [hS]
  split
  · exact ⟨x.fences, rfl, hl⟩
  · exact ⟨_, rfl, hl⟩

theorem Gang.rejoining_nodup (g : Gang) (i : Nat) : (g.rejoining i).Nodup := by
  unfold Gang.rejoining
  split
  · exact List.nodup_nil
  · split
    · exact List.nodup_singleton i
    · exact List.nodup_range.filter _

/-- A slice that has gone on from the REGANG it waited at (R160). -/
def Slice.rejoined (sl : Slice) (k : Nat) : Slice := { sl with wait := .none, pc := nextWord sl.pc, grp := k }

theorem Gang.merged_slice (g : Gang) (fresh i : Nat) (x : Gang) {j : Nat} (hj : j < x.slices.length) :
    (g.merged fresh i x).slice j = if j ∈ g.rejoining i then (x.slice j).rejoined ((g.rejoining i).headD i) else x.slice j := by
  rw [Slice.rejoined, ← Gang.modSlices_slice x (g.rejoining i)
    (fun _ sl => { sl with wait := .none, pc := nextWord sl.pc, grp := (g.rejoining i).headD i }) (g.rejoining_nodup i) j hj]
  unfold Gang.merged
  dsimp only
  split <;> rfl

/-- A merge changes slices and orders of the gang only. -/
theorem Gang.mergeFrom_frame (g : Gang) (fresh : Nat) (l : List Nat) (x : Gang) :
    ∃ F, g.mergeFrom fresh l x = { x with slices := (g.mergeFrom fresh l x).slices, fences := F }
      ∧ (g.mergeFrom fresh l x).slices.length = x.slices.length := by
  induction l generalizing x with
  | nil => exact ⟨x.fences, rfl, rfl⟩
  | cons i t ih =>
    rw [Gang.mergeFrom_cons]
    split
    · obtain ⟨F, h1, h2⟩ := ih (g.merged fresh i x)
      obtain ⟨E, k1, k2⟩ := g.merged_frame fresh i x
      refine ⟨F, ?_, h2.trans k2⟩
      rw [k1] at h1 ⊢
      exact h1
    · exact ih x

/-- The slices that rejoin slice i, when it waits whole and its mask names a live slice: those that wait whole where it
waits (R160). -/
theorem Gang.mem_rejoining {g : Gang} {i j : Nat} {m : BitVec 8} {w : DWord} (hr : (g.slice i).regangAt = some (m, w))
    (hm : m &&& g.live ≠ 0) : j ∈ g.rejoining i ↔ j < 8 ∧ g.whole j = true ∧ (g.slice j).regangAt = some (m, w) := by
  unfold Gang.rejoining
  rw [hr]
  simp only
  rw [if_neg hm, List.mem_filter]
  simp

theorem Gang.rejoining_alone {g : Gang} {i : Nat} {m : BitVec 8} {w : DWord} (hr : (g.slice i).regangAt = some (m, w))
    (hm : m &&& g.live = 0) : g.rejoining i = [i] := by
  unfold Gang.rejoining
  simp [hr, hm]

/-- Nothing merges where each slice that waits whole has merged already. -/
theorem Gang.mergeFrom_rest {g : Gang} {fresh : Nat} {l : List Nat} {x : Gang}
    (h : ∀ i ∈ l, g.whole i = true → (x.slice i).regangAt = none) : g.mergeFrom fresh l x = x := by
  induction l with
  | nil => rfl
  | cons i t ih =>
    unfold Gang.mergeFrom
    rw [if_neg, ih fun j hj => h j (List.mem_cons_of_mem _ hj)]
    rw [Bool.and_eq_true]
    exact fun ⟨h1, h2⟩ => by rw [h i List.mem_cons_self h1] at h2; cases h2

theorem Slice.rejoined_regangAt (sl : Slice) (k : Nat) : (sl.rejoined k).regangAt = none := rfl

/-- Where all that wait whole rejoin together, one merge does it. -/
theorem Gang.mergeFrom_all {g : Gang} {fresh i : Nat} {a t : List Nat} (ha : ∀ j ∈ a, g.whole j = false) (hi : g.whole i = true)
    (hr : (g.slice i).regangAt ≠ none) (ht : ∀ j ∈ t, g.whole j = true → j ∈ g.rejoining i ∧ j < g.slices.length) :
    g.mergeFrom fresh (a ++ i :: t) g = g.merged fresh i g := by
  induction a with
  | nil =>
    rw [List.nil_append, Gang.mergeFrom_cons, hi, Option.isSome_iff_ne_none.mpr hr]
    refine Gang.mergeFrom_rest fun j hj hw => ?_
    obtain ⟨h1, h2⟩ := ht j hj hw
    rw [Gang.merged_slice _ _ _ _ h2, if_pos h1]
    rfl
  | cons b a ih =>
    rw [List.cons_append, Gang.mergeFrom_cons, ha b List.mem_cons_self]
    exact ih fun j hj => ha j (List.mem_cons_of_mem _ hj)

/-- Where each that waits whole rejoins no other, each goes on alone (R160). -/
theorem Gang.mergeFrom_alone {g : Gang} {fresh : Nat} {l : List Nat} (hn : l.Nodup) (hl : ∀ i ∈ l, g.whole i = true → g.rejoining i = [i])
    (x : Gang) (hx : ∀ i ∈ l, g.whole i = true → (x.slice i).regangAt ≠ none ∧ i < x.slices.length) {j : Nat} (hj : j < x.slices.length) :
    (g.mergeFrom fresh l x).slice j = if j ∈ l ∧ g.whole j = true then (x.slice j).rejoined j else x.slice j := by
  induction l generalizing x with
  | nil => simp [Gang.mergeFrom]
  | cons i t ih =>
    obtain ⟨hi, hn'⟩ := List.nodup_cons.mp hn
    have hl' : ∀ k ∈ t, g.whole k = true → g.rejoining k = [k] := fun k hk => hl k (List.mem_cons_of_mem _ hk)
    rw [Gang.mergeFrom_cons]
    cases hw : g.whole i with
    | false =>
      rw [Bool.false_and, if_neg Bool.false_ne_true, ih hn' hl' x (fun k hk => hx k (List.mem_cons_of_mem _ hk)) hj]
      by_cases hji : j = i
      · subst hji; simp [hi, hw]
      · simp [hji]
    | true =>
      have hri := hl i List.mem_cons_self hw
      obtain ⟨F, -, hlen⟩ := g.merged_frame fresh i x
      have hm (k : Nat) (hk : k < x.slices.length) : (g.merged fresh i x).slice k = if k = i then (x.slice k).rejoined i else x.slice k := by
        rw [Gang.merged_slice _ _ _ _ hk, hri]
        simp
      rw [Bool.true_and, if_pos (Option.isSome_iff_ne_none.mpr (hx i List.mem_cons_self hw).1), ih hn' hl' _ ?_ (hlen ▸ hj), hm j hj]
      · by_cases hji : j = i
        · subst hji; simp [hi, hw]
        · simp [hji]
      · intro k hk hwk
        have hki : k ≠ i := fun h => hi (h ▸ hk)
        obtain ⟨h1, h2⟩ := hx k (List.mem_cons_of_mem _ hk) hwk
        exact ⟨by rw [hm k h2, if_neg hki]; exact h1, hlen ▸ h2⟩

/-- No set mismatches while each live slice is free to go or waits for one that does not wait (R161). -/
theorem Gang.mismatch_none {g : Gang} (h : ∀ i < 8, g.live.getLsbD i = true → (g.slice i).regangAt = none ∨ ∃ m w j,
    (g.slice i).regangAt = some (m, w) ∧ j < 8 ∧ m.getLsbD j = true ∧ g.live.getLsbD j = true ∧ (g.slice j).regangAt = none) :
    g.mismatch = none := by
  unfold Gang.mismatch
  rw [List.findSome?_eq_none_iff]
  intro i hi
  obtain ⟨hi8, hlive⟩ := List.mem_filter.mp hi
  rcases h i ((mem_upto 8 i).mp hi8) hlive with h | ⟨m, w, j, h1, h2, h3, h4, h5⟩
  · simp [Gang.named, h]
  · have hn : (g.named i).all (fun j => (g.slice j).regangAt.isSome) = false := by
      rw [List.all_eq_false]
      exact ⟨j, Gang.mem_named.mpr ⟨m, w, h1, h2, .inr ⟨h3, h4⟩⟩, by simp [h5]⟩
    simp [hn]

/-- Where all live slices wait and each waits for one that waits elsewhere, the mismatch that is told has the lowest live slice
first (R161). -/
theorem Gang.mismatch_all {g : Gang} {low : Nat} (hlow : low < 8) (hlive : g.live.getLsbD low = true)
    (hmin : ∀ j < 8, g.live.getLsbD j = true → low ≤ j)
    (h : ∀ i < 8, g.live.getLsbD i = true → ∃ m w j, (g.slice i).regangAt = some (m, w) ∧ j < 8 ∧ m.getLsbD j = true
      ∧ g.live.getLsbD j = true ∧ (g.slice j).regangAt ≠ some (m, w)) :
    ∃ ns, g.mismatch = some (low :: ns) := by
  obtain ⟨m, w, j, h1, h2, h3, h4, h5⟩ := h low hlow hlive
  obtain ⟨t, ht, -⟩ := filter_upto_cons hlow hlive hmin
  have hnamed : ∃ ns, g.named low = low :: ns := by
    unfold Gang.named
    rw [h1]
    obtain ⟨ns, hns, -⟩ := filter_upto_cons (p := fun j => j == low || (m.getLsbD j && g.live.getLsbD j)) hlow (by simp) fun k hk hp => by
      rcases Bool.or_eq_true_iff.mp hp with hp | hp
      · exact Nat.le_of_eq (beq_iff_eq.mp hp).symm
      · exact hmin k hk (Bool.and_eq_true_iff.mp hp).2
    exact ⟨ns, hns⟩
  obtain ⟨ns, hns⟩ := hnamed
  refine ⟨ns, ?_⟩
  have hall : (g.named low).all (fun j => (g.slice j).regangAt.isSome) = true := by
    rw [List.all_eq_true]
    intro k hk
    obtain ⟨m', w', hr, hk8, hk'⟩ := Gang.mem_named.mp hk
    rcases hk' with rfl | ⟨-, hkl⟩
    · rw [hr]; rfl
    · obtain ⟨m2, w2, -, hr2, -⟩ := h k hk8 hkl
      rw [hr2]; rfl
  have hany : (g.named low).any (fun j => (g.slice j).regangAt != (g.slice low).regangAt) = true := by
    rw [List.any_eq_true]
    refine ⟨j, Gang.mem_named.mpr ⟨m, w, h1, h2, .inr ⟨h3, h4⟩⟩, ?_⟩
    rw [h1, bne_iff_ne]
    exact h5
  unfold Gang.mismatch
  rw [ht, List.findSome?_cons]
  simp only [hall, hany, Bool.and_true]
  rw [hns]
  rfl

/-! ## What a stop and a REGANG leave alone -/

/-- A gang that has gone on, merged or stopped: its registers, its predicates and its live slices are as they were. -/
def GangRuns (g g' : Gang) : Prop :=
  g' = { g with
    slices := g'.slices, fences := g'.fences, arrivals := g'.arrivals, exempt := g'.exempt, lastGrp := g'.lastGrp, cached := g'.cached
    stop := g'.stop, mode := g'.mode, flights := g'.flights, hlist := g'.hlist, frame := g'.frame, trapCause := g'.trapCause
    trapPc := g'.trapPc, trapAddr := g'.trapAddr, hslices := g'.hslices }

theorem GangRuns.trans {a b c : Gang} (h : GangRuns a b) (k : GangRuns b c) : GangRuns a c := by
  unfold GangRuns at *
  rw [k, h]

/-- The gang in focus has gone on, merged or stopped, and nothing else of the package but counters, reports and the agenda has
changed. -/
def Runs (s t : State) : Prop :=
  GangRuns s.g t.g ∧ t = { s with g := t.g, c := t.c, plat := t.plat, iss := t.iss, next := t.next, agenda := t.agenda }

theorem Runs.refl (s : State) : Runs s s := ⟨rfl, rfl⟩

theorem Runs.trans {a b c : State} (h : Runs a b) (k : Runs b c) : Runs a c := by
  obtain ⟨h1, h2⟩ := h
  obtain ⟨k1, k2⟩ := k
  refine ⟨h1.trans k1, ?_⟩
  rw [k2, h2]

theorem State.haltGang_runs (s : State) : Runs s s.haltGang := ⟨rfl, rfl⟩

theorem State.enterHandler_runs (s : State) (st : Stop) : Runs s (s.enterHandler st) := by
  unfold State.enterHandler
  dsimp only
  split
  · exact s.haltGang_runs
  split
  · exact ⟨rfl, rfl⟩
  · generalize hm : Gang.modSlices _ _ _ = g
    obtain ⟨S, hS, -⟩ := Gang.modSlices_frame _ (bitsOf 8 st.group.toNat) _
    rw [hm] at hS
    subst hS
    exact ⟨rfl, rfl⟩

/-- A stop told to the gang in focus is taken at once, unless words before it have still to end (R310). -/
theorem State.raise_eq (s : State) (st : Stop) : ∃ pick, (s.g.stop = none → pick = st) ∧ s.raise st =
    if s.g.mode == .halted then s
    else if Gang.stopWaits { s.g with stop := some pick } then State.later { s with g := { s.g with stop := some pick } } (.handlerEntry s.g.uid)
    else State.enterHandler { s with g := { s.g with stop := some pick } } pick := by
  refine ⟨match s.g.stop, st.opid with
    | some old, some n => match old.opid with
      | some m => if n < m then st else old
      | none => st
    | some old, none => old
    | none, _ => st, fun h => by rw [h], ?_⟩
  unfold State.raise
  rfl

theorem State.raise_runs (s : State) (st : Stop) : Runs s (s.raise st) ∧ (s.raise st).iss = s.iss := by
  have he (s : State) (st : Stop) : (s.enterHandler st).iss = s.iss := by
    unfold State.enterHandler
    dsimp only
    split
    · rfl
    split <;> rfl
  obtain ⟨pick, -, h⟩ := s.raise_eq st
  rw [h]
  have hp : Runs s { s with g := { s.g with stop := some pick } } := ⟨rfl, rfl⟩
  split
  · exact ⟨Runs.refl s, rfl⟩
  split
  · refine ⟨hp.trans ⟨?_, ?_⟩, State.later_iss _ _⟩
    · rw [State.later_g]; exact rfl
    · rw [State.later_g, State.later_c, State.later_plat, State.later_iss, State.later_next]
      exact (State.later_spec _ _).1
  · exact ⟨hp.trans (State.enterHandler_runs _ _), he _ _⟩

theorem State.regangs_runs (s : State) : Runs s s.regangs ∧ s.regangs.iss = s.iss := by
  obtain ⟨F, hF, -⟩ := s.g.mergeFrom_frame s.next ((upto 8).filter s.g.live.getLsbD) s.g
  have hm : Runs s { s with g := s.g.mergeFrom s.next ((upto 8).filter s.g.live.getLsbD) s.g, next := s.next + 1 } := by
    rw [hF]
    exact ⟨rfl, rfl⟩
  unfold State.regangs
  dsimp only
  split
  · exact ⟨hm, rfl⟩
  · obtain ⟨h1, h2⟩ := State.raise_runs { s with g := s.g.mergeFrom s.next ((upto 8).filter s.g.live.getLsbD) s.g, next := s.next + 1 } _
    exact ⟨hm.trans h1, h2⟩

theorem State.endChain_runs (s : State) : Runs s s.endChain ∧ s.endChain.iss = { s.iss with ended := true } := by
  obtain ⟨S, e, n, C, P, -, h, -⟩ := s.endChain_frame
  rw [h]
  exact ⟨⟨rfl, rfl⟩, rfl⟩

theorem State.waitHere_runs (s : State) (l : List Nat) (w : Nat → Wait) : Runs s (s.waitHere l w) := by
  obtain ⟨S, hS, -⟩ := s.g.modSlices_frame l fun i sl => { sl with pc := s.iss.wpc, wait := w i }
  unfold State.waitHere
  dsimp only
  rw [hS]
  exact ⟨rfl, rfl⟩

/-- A gang that waits at the word at hand keeps its group until the chain ends. -/
theorem State.waitHere_group (s : State) (l : List Nat) (w : Nat → Wait) : (s.waitHere l w).group = s.group := by
  have hg (k i : Nat) : (s.waitHere l w).g.inGroup k i = s.g.inGroup k i := by
    have h1 : (s.waitHere l w).g.live = s.g.live := Gang.modSlices_live _ _ _
    have h2 : ((s.waitHere l w).g.slice i).grp = (s.g.slice i).grp := Gang.modSlices_keeps Slice.grp s.g l
      (fun i sl => { sl with pc := s.iss.wpc, wait := w i }) (fun _ _ => rfl) i
    unfold Gang.inGroup
    rw [h1, h2]
  unfold State.group Gang.group State.src
  have hs : (s.waitHere l w).snap = s.snap := rfl
  have hr : (s.waitHere l w).grp = s.grp := rfl
  rw [hs, hr]
  cases s.snap with
  | none => exact List.filter_congr fun i _ => hg _ i
  | some g => rfl

/-- A slice that waits at a REGANG at the end of its chain. -/
def Slice.atRegang (sl : Slice) (m : BitVec 8) (iss : Issue) : Slice :=
  { sl with pc := iss.wpc, wait := .regang m iss.wpc, flags := sl.flags.map fun f => { f with win := f.win - iss.len } }

/-- The slices at the end of a chain whose last word is REGANG: those of the group wait at it, the others stand as they
stood (R160). -/
theorem State.regangChain (s : State) (m : BitVec 8) (h8 : s.g.slices.length = 8) :
    ∃ S e n C P i, S.length = 8 ∧ i.ended = true
      ∧ (s.waitHere s.group fun _ => .regang m s.iss.wpc).endChain = { s with
        g := { s.g with slices := S, exempt := e, lastGrp := n, cached := C }, c := { s.c with perfCnt := P }, iss := i }
      ∧ ∀ j < 8, nth {} S j = if j ∈ s.group then (s.g.slice j).atRegang m s.iss else s.g.slice j := by
  obtain ⟨T, hT, hTl⟩ := s.g.modSlices_frame s.group fun _ sl => { sl with pc := s.iss.wpc, wait := .regang m s.iss.wpc }
  have hw : s.waitHere s.group (fun _ => .regang m s.iss.wpc) = { s with
      g := { s.g with slices := T }, iss := { s.iss with moved := s.iss.moved ||| sliceMask s.group } } := by
    rw [← hT]; rfl
  have hgrp := s.waitHere_group s.group fun _ => .regang m s.iss.wpc
  obtain ⟨S, e, n, C, P, hl, h, hS⟩ := (s.waitHere s.group fun _ => .regang m s.iss.wpc).endChain_frame
  rw [hgrp] at hS
  rw [hw] at h hl hS hgrp ⊢
  have hT8 : T.length = 8 := hTl.trans h8
  have hTj (j : Nat) (hj : j < 8) : nth {} T j = if j ∈ s.group then { s.g.slice j with pc := s.iss.wpc, wait := .regang m s.iss.wpc } else s.g.slice j := by
    have := Gang.modSlices_slice s.g s.group (fun _ sl => { sl with pc := s.iss.wpc, wait := .regang m s.iss.wpc }) s.group_nodup j (h8 ▸ hj)
    rw [hT] at this
    exact this
  refine ⟨S, e, n, C, P, _, hl.trans hT8, rfl, h, ?_⟩
  have hmv (j : Nat) (hj : j ∈ s.group) : (s.iss.moved ||| sliceMask s.group).getLsbD j = true := by
    rw [BitVec.getLsbD_or, getLsbD_sliceMask _ _ (s.group_lt j hj) s.group_lt, List.contains_iff_mem.mpr hj, Bool.or_true]
  have hA (j : Nat) (hj : j < 8) : (({ s.g with slices := T } : Gang).modSlices s.group fun i sl =>
      sl.afterChain ((s.iss.moved ||| sliceMask s.group).getLsbD i) { s.iss with moved := s.iss.moved ||| sliceMask s.group }).slice j
      = if j ∈ s.group then (s.g.slice j).atRegang m s.iss else s.g.slice j := by
    rw [Gang.modSlices_slice _ _ _ s.group_nodup j (hT8 ▸ hj)]
    have hTj' : ({ s.g with slices := T } : Gang).slice j = _ := hTj j hj
    rw [hTj']
    split
    · rename_i hm
      rw [hmv j hm]
      rfl
    · rfl
  have hP := Gang.part_together (g := ({ s.g with slices := T } : Gang).modSlices s.group fun i sl =>
      sl.afterChain ((s.iss.moved ||| sliceMask s.group).getLsbD i) { s.iss with moved := s.iss.moved ||| sliceMask s.group }) (l := s.group)
    fun i hi j hj => by
      rw [hA i (s.group_lt i hi), hA j (s.group_lt j hj), if_pos hi, if_pos hj]
      simp [Slice.together, Slice.atRegang]
  intro j hj
  rw [hS]
  exact (congrArg (fun g => Gang.slice g j) hP).trans (hA j hj)

/-! ## What becomes of those who wait -/

/-- The live slices, lowest first. -/
def Gang.liveList (g : Gang) : List Nat := (upto 8).filter g.live.getLsbD

theorem Gang.mem_liveList {g : Gang} {i : Nat} : i ∈ g.liveList ↔ i < 8 ∧ g.live.getLsbD i = true := by
  simp [Gang.liveList]

theorem Gang.liveList_nodup (g : Gang) : g.liveList.Nodup := List.nodup_range.filter _

/-- Waits that match no mismatch: the merge is all that is done (R160). -/
theorem State.regangs_matched {s : State} (h : (s.g.mergeFrom s.next s.g.liveList s.g).mismatch = none) :
    s.regangs = { s with g := s.g.mergeFrom s.next s.g.liveList s.g, next := s.next + 1 } := by
  unfold State.regangs
  dsimp only
  split
  · rfl
  · rename_i ns e
    cases h.symm.trans e

/-- Slice i waits for a live slice of its mask for which p holds. -/
def Gang.awaits (g : Gang) (i : Nat) (p : Nat → Prop) : Prop :=
  ∃ k w j, (g.slice i).regangAt = some (k, w) ∧ j < 8 ∧ k.getLsbD j = true ∧ g.live.getLsbD j = true ∧ p j

/-- Where nothing waits whole, and none that wait mismatch, nothing merges (R160). -/
theorem Gang.regang_waits {g : Gang} (h : ∀ i < 8, g.live.getLsbD i = true →
    (g.slice i).regangAt = none ∨ g.awaits i fun j => (g.slice j).regangAt = none) (fresh : Nat) :
    g.mergeFrom fresh g.liveList g = g ∧ g.mismatch = none := by
  refine ⟨Gang.mergeFrom_rest fun i hi hw => ?_, Gang.mismatch_none h⟩
  obtain ⟨hi8, hl⟩ := Gang.mem_liveList.mp hi
  rcases h i hi8 hl with h | ⟨k, w, j, h1, h2, h3, h4, h5⟩
  · exact h
  · rw [Gang.not_whole hi8 (.inr ⟨k, w, j, h1, h2, h3, h4, by rw [h5]; exact (Option.some_ne_none _).symm⟩)] at hw
    cases hw

/-- Where the named set of a mask waits whole at one word, it merges into one group at the following word, and the others go on
waiting (R160). -/
theorem Gang.regang_completes {g : Gang} {m : BitVec 8} {w : DWord} (h8 : g.slices.length = 8)
    (h : ∀ j < 8, g.live.getLsbD j = true → (g.slice j).regangAt = some (m, w) ∨ (m.getLsbD j = false ∧ ((g.slice j).regangAt = none
      ∨ g.awaits j fun k => (g.slice k).regangAt = none ∨ (g.slice k).regangAt = some (m, w))))
    (hn : ∃ j < 8, m.getLsbD j = true ∧ g.live.getLsbD j = true) (fresh : Nat) :
    ∃ low < 8, g.live.getLsbD low = true ∧ (g.slice low).regangAt = some (m, w)
      ∧ (∀ j < 8, g.live.getLsbD j = true → (g.slice j).regangAt = some (m, w) → low ≤ j)
      ∧ (∀ j < 8, (g.mergeFrom fresh g.liveList g).slice j = if g.live.getLsbD j = true ∧ (g.slice j).regangAt = some (m, w)
          then (g.slice j).rejoined low else g.slice j)
      ∧ (g.mergeFrom fresh g.liveList g).mismatch = none := by
  have hnamed : ∀ j < 8, m.getLsbD j = true → g.live.getLsbD j = true → (g.slice j).regangAt = some (m, w) := fun j hj hm hl =>
    (h j hj hl).resolve_right fun ⟨hf, _⟩ => by rw [hm] at hf; cases hf
  have hwhole (j : Nat) (hj : j < 8) (hl : g.live.getLsbD j = true) : g.whole j = true ↔ (g.slice j).regangAt = some (m, w) := by
    constructor
    · intro hw
      by_contra hne
      obtain ⟨-, ha⟩ := (h j hj hl).resolve_left hne
      rw [Gang.not_whole hj] at hw
      · cases hw
      · refine ha.imp_right fun ⟨k, v, i, h1, h2, h3, h4, h5⟩ => ⟨k, v, i, h1, h2, h3, h4, ?_⟩
        rcases h5 with h5 | h5
        · rw [h5]; exact (Option.some_ne_none _).symm
        · rw [h5, ← h1]; exact fun e => hne e.symm
    · exact fun hr => (Gang.whole_iff hj).mpr ⟨hl, m, w, hr, hnamed⟩
  have hmask : m &&& g.live ≠ 0 := by
    obtain ⟨j, hj, h1, h2⟩ := hn
    intro h0
    have := congrArg (fun v => BitVec.getLsbD v j) h0
    simp [h1, h2] at this
  obtain ⟨low, hlow, hlive, hat, hmin⟩ : ∃ low < 8, g.live.getLsbD low = true ∧ (g.slice low).regangAt = some (m, w)
      ∧ ∀ j < 8, g.live.getLsbD j = true → (g.slice j).regangAt = some (m, w) → low ≤ j := by
    have hex : ∃ j, j < 8 ∧ g.live.getLsbD j = true ∧ (g.slice j).regangAt = some (m, w) := by
      obtain ⟨j, hj, h1, h2⟩ := hn
      exact ⟨j, hj, h2, hnamed j hj h1 h2⟩
    classical
    obtain ⟨h1, h2, h3⟩ := Nat.find_spec hex
    exact ⟨Nat.find hex, h1, h2, h3, fun j hj hl hr => Nat.find_min' hex ⟨hj, hl, hr⟩⟩
  have hrejoin (j : Nat) : j ∈ g.rejoining low ↔ j < 8 ∧ g.live.getLsbD j = true ∧ (g.slice j).regangAt = some (m, w) := by
    rw [Gang.mem_rejoining hat hmask]
    constructor
    · rintro ⟨h1, h2, h3⟩
      exact ⟨h1, ((Gang.whole_iff h1).mp h2).1, h3⟩
    · rintro ⟨h1, h2, h3⟩
      exact ⟨h1, (hwhole j h1 h2).mpr h3, h3⟩
  have hhead : (g.rejoining low).headD low = low := by
    obtain ⟨t, ht, -⟩ := filter_upto_cons (p := fun j => g.whole j && (g.slice j).regangAt == (g.slice low).regangAt) hlow
      (by simp [(hwhole low hlow hlive).mpr hat]) fun j hj hp => by
        obtain ⟨h1, h2⟩ := Bool.and_eq_true_iff.mp hp
        exact hmin j hj ((Gang.whole_iff hj).mp h1).1 ((beq_iff_eq.mp h2).trans hat)
    unfold Gang.rejoining
    rw [hat] at ht ⊢
    simp only
    rw [if_neg hmask, ht]
    rfl
  obtain ⟨a, t, hat', ha⟩ : ∃ a t, g.liveList = a ++ low :: t ∧ ∀ j ∈ a, j < low := by
    obtain ⟨a, t, e⟩ := List.append_of_mem (Gang.mem_liveList.mpr ⟨hlow, hlive⟩)
    have hs : g.liveList.Pairwise (· < ·) := List.pairwise_lt_range.filter _
    rw [e, List.pairwise_append] at hs
    exact ⟨a, t, e, fun j hj => hs.2.2 j hj low List.mem_cons_self⟩
  have hmem (j : Nat) (hj : j ∈ a ++ low :: t) := Gang.mem_liveList.mp (hat' ▸ hj)
  have hmerge : g.mergeFrom fresh g.liveList g = g.merged fresh low g := by
    rw [hat']
    refine Gang.mergeFrom_all (fun j hj => ?_) ((hwhole low hlow hlive).mpr hat) (by rw [hat]; exact Option.some_ne_none _) fun j hj hw => ?_
    · obtain ⟨h1, h2⟩ := hmem j (List.mem_append_left _ hj)
      rw [Bool.eq_false_iff]
      exact fun hw => absurd (hmin j h1 h2 ((hwhole j h1 h2).mp hw)) (Nat.not_le.mpr (ha j hj))
    · obtain ⟨h1, h2⟩ := hmem j (List.mem_append_right _ (List.mem_cons_of_mem _ hj))
      exact ⟨(hrejoin j).mpr ⟨h1, h2, (hwhole j h1 h2).mp hw⟩, h8 ▸ h1⟩
  have hslice : ∀ j < 8, (g.mergeFrom fresh g.liveList g).slice j = if g.live.getLsbD j = true ∧ (g.slice j).regangAt = some (m, w)
      then (g.slice j).rejoined low else g.slice j := fun j hj => by
    rw [hmerge, Gang.merged_slice _ _ _ _ (h8 ▸ hj), hhead]
    simp only [hrejoin, hj, true_and]
  refine ⟨low, hlow, hlive, hat, hmin, hslice, Gang.mismatch_none fun i hi hl => ?_⟩
  obtain ⟨F, hF, -⟩ := g.mergeFrom_frame fresh g.liveList g
  have hlv : (g.mergeFrom fresh g.liveList g).live = g.live := by rw [hF]
  have hgone (j : Nat) (hj : j < 8) (hjl : g.live.getLsbD j = true)
      (hr : (g.slice j).regangAt = none ∨ (g.slice j).regangAt = some (m, w)) : ((g.mergeFrom fresh g.liveList g).slice j).regangAt = none := by
    rw [hslice j hj]
    split
    · rfl
    · rename_i hne
      exact hr.resolve_right fun hr => hne ⟨hjl, hr⟩
  rw [hlv] at hl ⊢
  rcases h i hi hl with hr | ⟨-, hr | ⟨k, v, j, h1, h2, h3, h4, h5⟩⟩
  · exact .inl (hgone i hi hl (.inr hr))
  · exact .inl (hgone i hi hl (.inl hr))
  · by_cases hme : (g.slice i).regangAt = some (m, w)
    · exact .inl (hgone i hi hl (.inr hme))
    · refine .inr ⟨k, v, j, ?_, h2, h3, h4, hgone j h2 h4 h5⟩
      rw [hslice i hi, if_neg fun h => hme h.2, h1]

/-- Where a mask names no live slice, each slice of it goes on alone (R160). -/
theorem Gang.regang_alone {g : Gang} {m : BitVec 8} {w : DWord} (h8 : g.slices.length = 8) (hm : m &&& g.live = 0)
    (h : ∀ j < 8, g.live.getLsbD j = true → (g.slice j).regangAt = none ∨ (g.slice j).regangAt = some (m, w)) (fresh : Nat) :
    (∀ j < 8, (g.mergeFrom fresh g.liveList g).slice j = if g.live.getLsbD j = true ∧ (g.slice j).regangAt = some (m, w)
        then (g.slice j).rejoined j else g.slice j)
      ∧ (g.mergeFrom fresh g.liveList g).mismatch = none := by
  have hno (j : Nat) (h1 : m.getLsbD j = true) (h2 : g.live.getLsbD j = true) : False := by
    have := congrArg (fun v => BitVec.getLsbD v j) hm
    simp [h1, h2] at this
  have hwhole (j : Nat) (hj : j < 8) (hl : g.live.getLsbD j = true) : g.whole j = true ↔ (g.slice j).regangAt = some (m, w) := by
    rw [Gang.whole_iff hj]
    constructor
    · rintro ⟨-, m', w', hr, -⟩
      exact (h j hj hl).resolve_left fun h => by rw [h] at hr; cases hr
    · exact fun hr => ⟨hl, m, w, hr, fun k _ h1 h2 => (hno k h1 h2).elim⟩
  have hslice : ∀ j < 8, (g.mergeFrom fresh g.liveList g).slice j = if g.live.getLsbD j = true ∧ (g.slice j).regangAt = some (m, w)
      then (g.slice j).rejoined j else g.slice j := fun j hj => by
    rw [Gang.mergeFrom_alone g.liveList_nodup (fun i hi hw => ?_) g (fun i hi hw => ?_) (h8 ▸ hj)]
    · simp only [Gang.mem_liveList, hj, true_and]
      by_cases hl : g.live.getLsbD j = true
      · simp only [hl, true_and, hwhole j hj hl]
      · simp [hl]
    · obtain ⟨h1, h2⟩ := Gang.mem_liveList.mp hi
      exact Gang.rejoining_alone ((hwhole i h1 h2).mp hw) hm
    · obtain ⟨h1, h2⟩ := Gang.mem_liveList.mp hi
      exact ⟨by rw [(hwhole i h1 h2).mp hw]; exact Option.some_ne_none _, h8 ▸ h1⟩
  refine ⟨hslice, Gang.mismatch_none fun i hi hl => .inl ?_⟩
  obtain ⟨F, hF, -⟩ := g.mergeFrom_frame fresh g.liveList g
  rw [hF] at hl
  rw [hslice i hi]
  split
  · rfl
  · rename_i hne
    exact (h i hi hl).resolve_right fun hr => hne ⟨hl, hr⟩

/-- Where a slice waits once the issuing group has come to the REGANG at hand. -/
def State.rejoinsAt (s : State) (m : BitVec 8) (j : Nat) : Option (BitVec 8 × DWord) :=
  if j ∈ s.group then some (m, s.iss.wpc) else (s.g.slice j).regangAt

/-- REGANG at the end of its chain: the gang `w`, whose group has come to wait, is looked at anew (R160, R161). -/
theorem exec_regang (s : State) (m : BitVec 8) (h8 : s.g.slices.length = 8) :
    ∃ w : State, exec (.regang m) s = .next w.regangs ∧ ChainEnded s w id ∧ w.g.slices.length = 8
      ∧ (∀ j < 8, w.g.slice j = if j ∈ s.group then (s.g.slice j).atRegang m s.iss else s.g.slice j)
      ∧ ∀ j < 8, (w.g.slice j).regangAt = s.rejoinsAt m j := by
  obtain ⟨S, e, n, C, P, i, hl, hi, h, hS⟩ := s.regangChain m h8
  refine ⟨_, congrArg (fun w : State => Host.Outcome.next w.regangs) h, ⟨rfl, rfl, rfl, hi⟩, hl, hS, fun j hj => ?_⟩
  refine (congrArg Slice.regangAt (hS j hj)).trans ?_
  unfold State.rejoinsAt
  split <;> rfl

/-- The live slices of a gang whose word is at hand hold its group. -/
theorem AtLastWord.group_live {s : State} (h : AtLastWord s) {j : Nat} (hj : j ∈ s.group) : s.g.live.getLsbD j = true := by
  obtain ⟨-, -, -, hl, -⟩ := h
  rw [hl]
  simp only [State.group, Gang.group, List.mem_filter, Gang.inGroup, Bool.and_eq_true] at hj
  exact hj.2.1

/-- A REGANG whose waits match leaves the chain ended and the gang as it has merged (R160). -/
theorem ChainEnded.regangs {s w : State} (h : ChainEnded s w id) (hm : (w.g.mergeFrom w.next w.g.liveList w.g).mismatch = none) :
    ChainEnded { s with next := s.next + 1 } w.regangs (fun g => { g with fences := w.regangs.g.fences })
      ∧ w.regangs.g = w.g.mergeFrom w.next w.g.liveList w.g := by
  obtain ⟨h1, h2, h3, h4⟩ := h
  rw [State.regangs_matched hm]
  obtain ⟨F, hF, -⟩ := w.g.mergeFrom_frame w.next w.g.liveList w.g
  generalize w.g.mergeFrom w.next w.g.liveList w.g = G at hF
  refine ⟨⟨?_, ?_, h3, h4⟩, rfl⟩
  · rw [h1]
  · rw [hF, h2]
    rfl

/-- REGANG, in each of its ways (R160, R161). -/
theorem regang_spec (s : State) (m : BitVec 8) (hs : AtLastWord s) :
    let here (j : Nat) : Prop := j ∈ s.group ∨ (s.g.live.getLsbD j = true ∧ (s.g.slice j).regangAt = some (m, s.iss.wpc))
    let named (j : Nat) : Prop := m.getLsbD j = true ∧ s.g.live.getLsbD j = true
    let awaits (i : Nat) (p : Nat → Prop) : Prop :=
      ∃ k w j, s.rejoinsAt m i = some (k, w) ∧ j < 8 ∧ k.getLsbD j = true ∧ s.g.live.getLsbD j = true ∧ p j
    ((∀ j < 8, j ∉ s.group → s.g.live.getLsbD j = true → s.rejoinsAt m j = some (m, s.iss.wpc)
          ∨ (¬named j ∧ (s.rejoinsAt m j = none ∨ awaits j fun k => s.rejoinsAt m k = none ∨ here k))) →
      (∃ j < 8, named j) →
      ∃ t low, exec (.regang m) s = .next t ∧ here low ∧ (∀ j < 8, here j → low ≤ j)
        ∧ ChainEnded { s with next := s.next + 1 } t (fun g => { g with fences := t.g.fences })
        ∧ ∀ j < 8, (here j → (t.g.slice j).grp = low ∧ (t.g.slice j).wait = .none ∧ (t.g.slice j).active = (s.g.slice j).active
              ∧ (t.g.slice j).stack = (s.g.slice j).stack ∧ (t.g.slice j).link = (s.g.slice j).link
              ∧ (j ∈ s.group → (t.g.slice j).pc = nextWord s.iss.wpc))
            ∧ (¬here j → t.g.slice j = s.g.slice j))
    ∧ ((∀ j < 8, ¬named j) → NoneRejoins s → ∃ t, exec (.regang m) s = .next t
        ∧ ∀ j < 8, if j ∈ s.group then (t.g.slice j).grp = j ∧ (t.g.slice j).wait = .none ∧ (t.g.slice j).pc = nextWord s.iss.wpc
            else t.g.slice j = s.g.slice j)
    ∧ ((∀ i < 8, i ∈ s.group ∨ s.g.live.getLsbD i = true → s.rejoinsAt m i = none ∨ awaits i fun j => s.rejoinsAt m j = none) →
      ∃ t, exec (.regang m) s = .next t
        ∧ ChainEnded { s with next := s.next + 1 } t id
        ∧ ∀ j < 8, t.g.slice j = if j ∈ s.group then
            { s.g.slice j with pc := s.iss.wpc, wait := .regang m s.iss.wpc, flags := (t.g.slice j).flags } else s.g.slice j) := by
  intro here named awaits
  obtain ⟨-, -, h8, -, -⟩ := id hs
  obtain ⟨w, he, hw, hl, hsl, hat⟩ := exec_regang s m h8
  have hlive : w.g.live = s.g.live := by
    obtain ⟨-, h, -⟩ := hw
    rw [h]
    rfl
  have hhere (j : Nat) (hj : j < 8) : here j ↔ w.g.live.getLsbD j = true ∧ (w.g.slice j).regangAt = some (m, s.iss.wpc) := by
    rw [hat j hj, hlive]
    unfold State.rejoinsAt
    by_cases hg : j ∈ s.group
    · simp [here, hg, hs.group_live hg]
    · simp [here, hg]
  have hawait {i : Nat} (hi : i < 8) {p q : Nat → Prop} (hpq : ∀ j < 8, s.g.live.getLsbD j = true → p j → q j) (h : awaits i p) : w.g.awaits i q := by
    obtain ⟨k, v, j, h1, h2, h3, h4, h5⟩ := h
    exact ⟨k, v, j, (hat i hi).trans h1, h2, h3, hlive ▸ h4, hpq j h2 h4 h5⟩
  refine ⟨fun h hn => ?_, fun h hno => ?_, fun h => ?_⟩
  · obtain ⟨low, k1, k2, k3, k4, k5, k6⟩ := Gang.regang_completes (g := w.g) (m := m) (w := s.iss.wpc) hl (fun j hj hjl => by
      by_cases hg : j ∈ s.group
      · exact .inl (by rw [hat j hj, State.rejoinsAt, if_pos hg])
      · rw [hat j hj]
        refine (h j hj hg (hlive ▸ hjl)).imp_right fun ⟨h1, h2⟩ => ⟨?_, h2.imp_right (hawait hj fun k hk hkl hp => ?_)⟩
        · rw [Bool.eq_false_iff]
          exact fun hm => h1 ⟨hm, hlive ▸ hjl⟩
        · rw [hat k hk]
          exact hp.imp_right fun hk' => hat k hk ▸ ((hhere k hk).mp hk').2) (by rw [hlive]; exact hn) w.next
    obtain ⟨c1, c2⟩ := hw.regangs k6
    refine ⟨_, low, he, (hhere low k1).mpr ⟨k2, k3⟩, fun j hj hh => ?_, c1, fun j hj => ?_⟩
    · obtain ⟨h1, h2⟩ := (hhere j hj).mp hh
      exact k4 j hj h1 h2
    · rw [c2, k5 j hj]
      refine ⟨fun hh => ?_, fun hh => ?_⟩
      · rw [if_pos ((hhere j hj).mp hh), hsl j hj]
        by_cases hg : j ∈ s.group
        · rw [if_pos hg]; exact ⟨rfl, rfl, rfl, rfl, rfl, fun _ => rfl⟩
        · rw [if_neg hg]; exact ⟨rfl, rfl, rfl, rfl, rfl, fun h => absurd h hg⟩
      · rw [if_neg fun h => hh ((hhere j hj).mpr h), hsl j hj, if_neg fun h => hh (.inl h)]
  · have hmask : m &&& w.g.live = 0 := by
      refine BitVec.eq_of_getLsbD_eq fun j hj => ?_
      rw [BitVec.getLsbD_and, hlive, show BitVec.getLsbD (0 : BitVec 8) j = false from BitVec.getLsbD_zero]
      have := h j hj
      cases hm : m.getLsbD j
      · rfl
      · exact Bool.eq_false_iff.mpr fun hl => this ⟨hm, hl⟩
    obtain ⟨k1, k2⟩ := Gang.regang_alone (g := w.g) (m := m) (w := s.iss.wpc) hl hmask (fun j hj _ => by
      rw [hat j hj, State.rejoinsAt]
      split
      · exact .inr rfl
      · rename_i hg
        exact .inl (hno j hj hg)) w.next
    obtain ⟨-, c2⟩ := hw.regangs k2
    refine ⟨_, he, fun j hj => ?_⟩
    rw [c2, k1 j hj]
    split
    · rename_i hg
      rw [if_pos ((hhere j hj).mp (.inl hg)), hsl j hj, if_pos hg]
      exact ⟨rfl, rfl, rfl⟩
    · rename_i hg
      rw [if_neg, hsl j hj, if_neg hg]
      rintro ⟨-, h2⟩
      rw [hat j hj, State.rejoinsAt, if_neg hg, hno j hj hg] at h2
      cases h2
  · obtain ⟨k1, k2⟩ := Gang.regang_waits (g := w.g) (fun i hi hil => by
      rw [hat i hi]
      exact (h i hi (.inr (hlive ▸ hil))).imp_right (hawait hi fun j hj _ hp => (hat j hj).trans hp)) w.next
    rw [← k1] at k2
    obtain ⟨c1, c2⟩ := hw.regangs k2
    rw [k1] at c2
    refine ⟨_, he, ?_, fun j hj => ?_⟩
    · obtain ⟨e1, e2, e3, e4⟩ := c1
      refine ⟨e1, ?_, e3, e4⟩
      rw [c2]
      exact hw.2.1
    · rw [c2, hsl j hj]
      split <;> rfl

theorem trapCauseWord_code (info slice : Nat) (more : Bool) (code : Nat) :
    (trapCauseWord code info slice more).extractLsb' 0 8 = BitVec.ofNat 8 code := by
  refine BitVec.eq_of_toNat_eq ?_
  simp only [trapCauseWord, BitVec.extractLsb'_toNat, BitVec.toNat_ofNat, Nat.shiftRight_zero]
  split <;> omega

/-- The numbers of a set of slices told as a mask. -/
theorem mem_bitsOf_sliceMask {l : List Nat} (hl : ∀ j ∈ l, j < 8) {i : Nat} : i ∈ bitsOf 8 (sliceMask l).toNat ↔ i ∈ l := by
  unfold bitsOf
  rw [List.mem_filter, mem_upto]
  constructor
  · rintro ⟨h1, h2⟩
    exact List.contains_iff_mem.mp ((getLsbD_sliceMask l i h1 hl).symm.trans h2)
  · exact fun h => ⟨hl i h, (getLsbD_sliceMask l i (hl i h) hl).trans (List.contains_iff_mem.mpr h)⟩

/-- A slice of the group that stops, at the entry of the handler (R315). -/
def Slice.entering (sl : Slice) (entry : DWord) (keep : BitVec 4) : Slice :=
  { sl with pc := entry, priv := true, step := false, stack := [], active := keep, flags := [], wait := .none, sync := [], backs := [] }

/-- A handler that is entered: the registers of the report, and the slices of the group at the entry (R313 to R316). -/
theorem State.enterHandler_eq {s : State} {st : Stop} (hp : ∀ i ∈ bitsOf 8 st.group.toNat, (s.g.slice i).priv = false)
    (he : s.handlerEntry st.code ≠ 0) :
    ∃ (saved : Gang) (more : Bool), saved.slices = s.g.slices ∧ saved.trapPc = st.pc
      ∧ saved.trapCause = trapCauseWord st.code st.info st.slice more
      ∧ s.enterHandler st = State.count { s with
          g := saved.modSlices (bitsOf 8 st.group.toNat)
            fun i sl => sl.entering (s.handlerEntry st.code) (~~~(s.g.killed.extractLsb' (4 * i) 4)) } 0x01B 1 := by
  have hany : ¬(bitsOf 8 st.group.toNat).any (fun i => (s.g.slice i).priv) = true := by
    rw [List.any_eq_true]
    rintro ⟨i, hi, h⟩
    rw [hp i hi] at h
    cases h
  unfold State.enterHandler
  dsimp only
  rw [if_neg hany, if_neg (by simpa using he)]
  refine ⟨_, s.g.flights.any fun f => f.cause != 0 && some f.id != st.opid, ?_, ?_, ?_, rfl⟩
  exacts [rfl, rfl, rfl]

/-- A stop that is taken at once: the registers of the report, and where a slice of the group stands (R310, R313 to R316). -/
theorem State.raise_enters {s : State} {st : Stop} (hs : StopsAtOnce s.g) (hp : ∀ i ∈ bitsOf 8 st.group.toNat, (s.g.slice i).priv = false)
    (he : s.handlerEntry st.code ≠ 0) {i : Nat} (hi : i ∈ bitsOf 8 st.group.toNat) (hlt : i < s.g.slices.length) :
    (∃ more, (s.raise st).g.trapCause = trapCauseWord st.code st.info st.slice more) ∧ (s.raise st).g.trapPc = st.pc
      ∧ ((s.raise st).g.slice i).pc = s.handlerEntry st.code ∧ ((s.raise st).g.slice i).priv = true := by
  obtain ⟨hm, hn, hf⟩ := hs
  obtain ⟨pick, hpick, h⟩ := s.raise_eq st
  obtain rfl := hpick hn
  have hw : ¬Gang.stopWaits { s.g with stop := some pick } = true := by
    unfold Gang.stopWaits
    rw [List.any_eq_true]
    rintro ⟨f, hfm, hc⟩
    obtain ⟨h1, h2⟩ := Bool.and_eq_true_iff.mp hc
    rcases hf f hfm with h | ⟨h3, h4⟩
    · exact h (beq_iff_eq.mp h2)
    · exact (Bool.or_eq_true_iff.mp h1).elim (fun h => h3 (beq_iff_eq.mp h)) fun h => h4 (beq_iff_eq.mp h)
  obtain ⟨saved, more, e1, e2, e3, e4⟩ := State.enterHandler_eq (s := { s with g := { s.g with stop := some pick } }) hp he
  rw [h, if_neg (fun e => hm (beq_iff_eq.mp e)), if_neg hw, e4]
  obtain ⟨S, hS, -⟩ := saved.modSlices_frame (bitsOf 8 pick.group.toNat) fun i sl =>
    sl.entering (s.handlerEntry pick.code) (~~~(s.g.killed.extractLsb' (4 * i) 4))
  have hsl := saved.modSlices_slice (bitsOf 8 pick.group.toNat) (fun i sl =>
    sl.entering (s.handlerEntry pick.code) (~~~(s.g.killed.extractLsb' (4 * i) 4))) (List.nodup_range.filter _) i (e1 ▸ hlt)
  rw [if_pos hi] at hsl
  refine ⟨⟨more, ?_⟩, ?_, ?_⟩
  · exact (congrArg Gang.trapCause hS).trans e3
  · exact (congrArg Gang.trapPc hS).trans e2
  · exact ⟨congrArg Slice.pc hsl, congrArg Slice.priv hsl⟩

/-- REGANG where every live slice waits, and each for one that waits elsewhere (R161). -/
theorem regang_sync (s : State) (m : BitVec 8) (hs : AtLastWord s) (hstop : StopsAtOnce s.g)
    (h : ∀ j < 8, s.g.live.getLsbD j = true → s.rejoinsAt m j ≠ none ∧ ∃ k w i, s.rejoinsAt m j = some (k, w) ∧ i < 8
      ∧ k.getLsbD i = true ∧ s.g.live.getLsbD i = true ∧ s.rejoinsAt m i ≠ s.rejoinsAt m j)
    (hp : ∀ j < 8, s.g.live.getLsbD j = true → (s.g.slice j).priv = false)
    (hv : (s.ctx (s.task s.g.task).ctx).valid = true) (he : (s.ctx (s.task s.g.task).ctx).trapent ≠ 0) :
    ∃ t low, exec (.regang m) s = .next t ∧ low < 8 ∧ s.g.live.getLsbD low = true
      ∧ (∀ j < 8, s.g.live.getLsbD j = true → low ≤ j)
      ∧ t.g.trapCause.extractLsb' 0 8 = 5 ∧ t.g.trapPc = (if low ∈ s.group then s.iss.wpc else (s.g.slice low).pc)
      ∧ (t.g.slice low).pc = (s.ctx (s.task s.g.task).ctx).trapent ∧ (t.g.slice low).priv = true := by
  obtain ⟨-, -, h8, -, -, -, hne⟩ := id hs
  obtain ⟨w, hex, hw, hl, hsl, hat⟩ := exec_regang s m h8
  obtain ⟨w1, w2, -, -⟩ := hw
  have hlive : w.g.live = s.g.live := by rw [w2]; rfl
  obtain ⟨low, hlow, hll, hmin⟩ : ∃ low < 8, s.g.live.getLsbD low = true ∧ ∀ j < 8, s.g.live.getLsbD j = true → low ≤ j := by
    have hex : ∃ j, j < 8 ∧ s.g.live.getLsbD j = true := by
      obtain ⟨i, hi⟩ := List.exists_mem_of_ne_nil _ hne
      exact ⟨i, s.group_lt i hi, hs.group_live hi⟩
    classical
    obtain ⟨h1, h2⟩ := Nat.find_spec hex
    exact ⟨Nat.find hex, h1, h2, fun j hj hl => Nat.find_min' hex ⟨hj, hl⟩⟩
  have hall : ∀ i < 8, w.g.live.getLsbD i = true → ∃ m w' j, (w.g.slice i).regangAt = some (m, w') ∧ j < 8 ∧ m.getLsbD j = true
      ∧ w.g.live.getLsbD j = true ∧ (w.g.slice j).regangAt ≠ some (m, w') := fun i hi hil => by
    obtain ⟨-, k, v, j, h1, h2, h3, h4, h5⟩ := h i hi (hlive ▸ hil)
    exact ⟨k, v, j, (hat i hi).trans h1, h2, h3, hlive ▸ h4, by rw [hat j h2, ← h1]; exact h5⟩
  have hmerge : w.g.mergeFrom w.next w.g.liveList w.g = w.g := Gang.mergeFrom_rest fun i hi hwh => by
    obtain ⟨h1, h2⟩ := Gang.mem_liveList.mp hi
    rw [Gang.not_whole h1 (.inr (hall i h1 h2))] at hwh
    cases hwh
  obtain ⟨ns, hmis⟩ := Gang.mismatch_all (g := w.g) hlow (hlive ▸ hll) (fun j hj hjl => hmin j hj (hlive ▸ hjl)) hall
  let st : Stop := { code := 5, info := 0, pc := (w.g.slice low).pc, addr := 0, slice := low, group := sliceMask (w.g.group (w.g.slice low).grp) }
  have hraise : w.regangs = State.raise { w with next := w.next + 1 } st := by
    unfold State.regangs
    have hm : w.g.mergeFrom w.next ((upto 8).filter w.g.live.getLsbD) w.g = w.g := hmerge
    dsimp only
    rw [hm, hmis]
    rfl
  have hbits (i : Nat) : i ∈ bitsOf 8 st.group.toNat ↔ i ∈ w.g.group (w.g.slice low).grp :=
    mem_bitsOf_sliceMask fun j hj => (mem_upto 8 j).mp (List.mem_filter.mp hj).1
  have hgl (i : Nat) (hi : i ∈ w.g.group (w.g.slice low).grp) : i < 8 ∧ s.g.live.getLsbD i = true := by
    simp only [Gang.group, Gang.inGroup, List.mem_filter, mem_upto, Bool.and_eq_true] at hi
    exact ⟨hi.1, hlive ▸ hi.2.1⟩
  have hpriv (i : Nat) (hi : i < 8) : (w.g.slice i).priv = (s.g.slice i).priv := by
    rw [hsl i hi]
    split <;> rfl
  have hlowm : low ∈ bitsOf 8 st.group.toNat := by
    rw [hbits]
    simp only [Gang.group, Gang.inGroup, List.mem_filter, mem_upto, Bool.and_eq_true, beq_self_eq_true, and_true]
    exact ⟨hlow, hlive ▸ hll⟩
  have hentry : State.handlerEntry { w with next := w.next + 1 } 5 = (s.ctx (s.task s.g.task).ctx).trapent := by
    have h1 : w.g.task = s.g.task := by rw [w2]; rfl
    have h2 : ∀ x, w.ctx x = s.ctx x := fun x => by rw [w1]; rfl
    have h3 : ∀ x, w.task x = s.task x := fun x => by rw [w1]; rfl
    have h4 : State.handlerEntry { w with next := w.next + 1 } 5 = w.handlerEntry 5 := rfl
    rw [h4, State.handlerEntry, h1, h3, h2]
    simp [hv]
  obtain ⟨⟨more, r1⟩, r2, r3, r4⟩ := State.raise_enters (s := { w with next := w.next + 1 }) (st := st) (i := low) (by
      unfold StopsAtOnce
      have : w.g.mode = s.g.mode ∧ w.g.stop = s.g.stop ∧ w.g.flights = s.g.flights := by rw [w2]; exact ⟨rfl, rfl, rfl⟩
      obtain ⟨a1, a2, a3⟩ := this
      dsimp only
      rw [a1, a2, a3]
      exact hstop)
    (fun i hi => by
      obtain ⟨h1, h2⟩ := hgl i ((hbits i).mp hi)
      exact (hpriv i h1).trans (hp i h1 h2))
    (by rw [show st.code = 5 from rfl, hentry]; exact he) hlowm (hl ▸ hlow)
  refine ⟨_, low, hex, hlow, hll, hmin, ?_, ?_, ?_, ?_⟩
  · rw [hraise, r1]
    exact trapCauseWord_code 0 low more 5
  · rw [hraise, r2]
    exact (congrArg Slice.pc (hsl low hlow)).trans (by split <;> rfl)
  · rw [hraise, r3, show st.code = 5 from rfl, hentry]
  · rw [hraise, r4]

/-- What REGANG leaves alone whatever happens (R160). -/
theorem regang_frame (s : State) (m : BitVec 8) : ∃ t, exec (.regang m) s = .next t ∧ Runs s t ∧ t.iss.ended = true := by
  obtain ⟨h1, h2⟩ := (s.waitHere s.group fun _ => .regang m s.iss.wpc).endChain_runs
  obtain ⟨h3, h4⟩ := (s.waitHere s.group fun _ => .regang m s.iss.wpc).endChain.regangs_runs
  exact ⟨_, rfl, ((s.waitHere_runs _ _).trans h1).trans h3, by rw [h4, h2]⟩

end Sys2Proof.Machine
end

section
/-! PROOFS. EXIT: the slices that leave, the gang and the block that retire, and what stands by (R25, R29, R162, R322). -/

namespace Sys2Proof.Machine

open Sys2Proof

/-! ## What stands by -/

/-- What the end of another gang looks at in a gang out of focus. -/
def Gang.standing (g : Gang) : Nat × Nat × BitVec 8 := (g.uid, g.block, g.live)

/-- Memory, blocks and images are as they were, and so are tasks and the gangs out of focus as far as the end of a gang looks at
them. -/
def StandsBy (s t : State) : Prop :=
  t.mem = s.mem ∧ t.b = s.b ∧ t.blocks = s.blocks ∧ t.images.map Image.block = s.images.map Image.block
    ∧ t.gangs.map Gang.standing = s.gangs.map Gang.standing ∧ SameTasks s.tasks t.tasks

theorem StandsBy.refl (s : State) : StandsBy s s := ⟨rfl, rfl, rfl, rfl, rfl, SameTasks.refl _⟩

theorem StandsBy.trans {a b c : State} (h : StandsBy a b) (k : StandsBy b c) : StandsBy a c := by
  obtain ⟨h1, h2, h3, h4, h5, h6⟩ := h
  obtain ⟨k1, k2, k3, k4, k5, k6⟩ := k
  exact ⟨k1.trans h1, k2.trans h2, k3.trans h3, k4.trans h4, k5.trans h5, h6.trans k6⟩

theorem Runs.standsBy {s t : State} (h : Runs s t) : StandsBy s t := by
  obtain ⟨-, h⟩ := h
  rw [h]
  exact ⟨rfl, rfl, rfl, rfl, rfl, SameTasks.refl _⟩

/-- The gang in focus with orders, arrivals and allowances changed only. -/
def FocusKept (g g' : Gang) : Prop := g' = { g with fences := g'.fences, arrivals := g'.arrivals, allow := g'.allow }

/-- The gang in focus goes on as it is while what stands by is told of an end. -/
def Aside (s t : State) : Prop := StandsBy s t ∧ FocusKept s.g t.g

theorem Aside.refl (s : State) : Aside s s := ⟨StandsBy.refl s, rfl⟩

theorem Aside.trans {a b c : State} (h : Aside a b) (k : Aside b c) : Aside a c := by
  obtain ⟨h1, h2⟩ := h
  obtain ⟨k1, k2⟩ := k
  refine ⟨h1.trans k1, ?_⟩
  unfold FocusKept at *
  rw [k2, h2]

theorem TasksOnly.aside {s t : State} (h : TasksOnly s t) : Aside s t := by
  obtain ⟨T, rfl, h⟩ := h
  exact ⟨⟨rfl, rfl, rfl, rfl, rfl, h⟩, rfl⟩

theorem FlitsOnly.aside {s t : State} (h : FlitsOnly s t) : Aside s t := by
  obtain ⟨fl, ag, rfl⟩ := h
  exact ⟨⟨rfl, rfl, rfl, rfl, rfl, SameTasks.refl _⟩, rfl⟩

theorem State.mapEvery_aside (s : State) (f : Gang → Gang) (hf : ∀ g, ∃ F, f g = { g with fences := F }) : Aside s (s.mapEvery f) := by
  refine ⟨⟨rfl, rfl, rfl, ?_, ?_, SameTasks.refl _⟩, ?_⟩
  · simp [State.mapEvery, State.mapGangs, Function.comp_def]
  · simp only [State.mapEvery, State.mapGangs, List.map_map]
    refine List.map_congr_left fun g _ => ?_
    obtain ⟨F, hF⟩ := hf g
    simp only [Function.comp_apply, hF]
    rfl
  · obtain ⟨F, hF⟩ := hf s.g
    simp only [State.mapEvery, State.mapGangs, FocusKept, hF]

theorem State.modGang_aside (s : State) (uid : Nat) (f : Gang → Gang) (hf : ∀ g, ∃ A, f g = { g with allow := A }) :
    Aside s (s.modGang uid f) := by
  unfold State.modGang
  split
  · obtain ⟨A, hA⟩ := hf s.g
    exact ⟨⟨rfl, rfl, rfl, rfl, rfl, SameTasks.refl _⟩, by simp only [FocusKept, hA]⟩
  · refine ⟨⟨rfl, rfl, rfl, ?_, ?_, SameTasks.refl _⟩, rfl⟩
    · simp [Function.comp_def]
    · rw [List.map_map]
      refine List.map_congr_left fun g _ => ?_
      simp only [Function.comp_apply]
      split
      · obtain ⟨A, hA⟩ := hf g
        rw [hA]
        rfl
      · rfl

/-! ## Barriers -/

theorem State.tryPhase_aside (s : State) (task num : Nat) : Aside s (s.tryPhase task num) := by
  unfold State.tryPhase
  dsimp only
  split
  · exact Aside.refl s
  · refine Aside.trans (b := { s with next := s.next + 1 }) ⟨⟨rfl, rfl, rfl, rfl, rfl, SameTasks.refl _⟩, rfl⟩ ?_
    refine Aside.trans (State.mapEvery_aside _ _ fun g => ?_)
      ((State.putBarrier_tasksOnly _ _ _).aside.trans (State.rescope_tasksOnly _ _ _).aside)
    split
    · exact ⟨_, rfl⟩
    · exact ⟨g.fences, rfl⟩

theorem State.tryArrive_aside (s : State) (slot : Nat) : Aside s (s.tryArrive slot) := by
  unfold State.tryArrive
  split
  · exact Aside.refl s
  dsimp only
  split
  · refine Aside.trans ⟨?_, ?_⟩ ((State.putBarrier_tasksOnly _ _ _).aside.trans (State.tryPhase_aside _ _ _))
    · exact ⟨rfl, rfl, rfl, rfl, rfl, SameTasks.refl _⟩
    · exact rfl
  · exact Aside.refl s

/-! ## Retirement -/

theorem State.modOper_aside (s : State) (id : Nat) (f : Oper → Oper) : Aside s (s.modOper id f) :=
  ⟨⟨rfl, rfl, rfl, rfl, rfl, SameTasks.refl _⟩, rfl⟩

theorem State.modTask_aside (s : State) (id : Nat) (f : Task → Task) (hf : ∀ t, SameTask t (f t)) : Aside s (s.modTask id f) :=
  ⟨⟨rfl, rfl, rfl, rfl, rfl, s.modTask_sameTasks id f hf⟩, rfl⟩

theorem State.reportAbort_aside (s : State) (task : Nat) (a : DWord) : Aside s (s.reportAbort task a) := by
  have ht (s : State) : Aside s (s.modTask task fun t => if t.pabort = 0 then { t with pabort := a } else t) :=
    s.modTask_aside _ _ fun t => by split <;> exact ⟨rfl, rfl, rfl, rfl, rfl, rfl, rfl⟩
  unfold State.reportAbort
  dsimp only
  split
  · exact ht s
  · exact (s.modOper_aside _ _).trans (ht _)

theorem State.reportGang_aside (s : State) (g : Gang) : Aside s (s.reportGang g) := by
  have ho : ∀ (s : State) (p : Bool), Aside s (match s.operOf g.task with
      | none => s
      | some o => s.modOper o.id fun o => { o with noclose := o.noclose || p }) := fun s p => by
    split
    · exact Aside.refl s
    · exact s.modOper_aside _ _
  have ha : ∀ s : State, Aside s (match g.abort with
      | some a => s.reportAbort g.task a
      | none => s) := fun s => by
    split
    · exact s.reportAbort_aside _ _
    · exact Aside.refl s
  unfold State.reportGang
  exact ((ho s _).trans (ha _)).trans (State.modTask_aside _ _ _ fun t => by
    dsimp only
    split <;> exact ⟨rfl, rfl, rfl, rfl, rfl, rfl, rfl⟩)

/-- A gang that has retired: its bindings are released, its frame is gone, and it has no live slice (R25). -/
def Gang.ended (g : Gang) : Gang := { g with binds := [], frame := none, hlist := [], stop := none, live := 0 }

theorem State.retireGang_spec (s : State) : StandsBy s s.retireGang ∧ FocusKept s.g.ended s.retireGang.g := by
  have h0 : Aside s (if s.b.replay.isSome then s else s.reportGang s.g) := by
    split
    · exact Aside.refl s
    · exact s.reportGang_aside _
  have hstep (s : State) (g : Gang) (k : Nat) : Aside s (match s.groupOf g k with
      | none => s
      | some num =>
        let b := s.barrier g.task num
        let s := s.putBarrier g.task { b with expected := b.expected - 1, arrived := b.arrived.filter (· != g.uid) }
        (s.tryPhase g.task num)) := by
    split
    · exact Aside.refl s
    · exact (State.putBarrier_tasksOnly _ _ _).aside.trans (State.tryPhase_aside _ _ _)
  have hlast (s : State) (p : Bool) (task : Nat) : Aside s (if p then s else s.rescopeAll task) := by
    split
    · exact Aside.refl s
    · exact (s.rescopeAll_tasksOnly _).aside
  have h2 : StandsBy s { (if s.b.replay.isSome then s else s.reportGang s.g) with g := s.g.ended } := h0.1
  obtain ⟨h3, h4⟩ := (foldl_rel Aside.refl Aside.trans _ (fun s k => hstep s _ k) (upto 4)
    { (if s.b.replay.isSome then s else s.reportGang s.g) with g := s.g.ended }).trans (hlast _ s.b.replay.isSome s.g.task)
  exact ⟨h2.trans h3, h4⟩

/-! ## The task afterwards -/

/-- Whether all of a task's blocks have retired is seen from what stands by (R30). -/
theorem StandsBy.allRetired {s t : State} (h : StandsBy s t) {x y : Task} (hx : SameTask x y) : t.allRetired y = s.allRetired x := by
  obtain ⟨-, hb, hbl, him, -, -⟩ := h
  obtain ⟨e1, e2, -, e4, e5, e6, e7⟩ := hx
  have hi : (t.images.all fun im => im.block.task != x.id) = s.images.all fun im => im.block.task != x.id := by
    have := congrArg (fun l : List Block => l.all fun b => b.task != x.id) him
    simpa only [List.all_map, Function.comp_def] using this
  unfold State.allRetired Task.failing State.allBlocks
  rw [hb, hbl, e1, e2, e4, e5, e6, e7, hi]

theorem State.settle_of {t : State} (h : ∀ x, (t.tasks.find? fun x => x.id == t.b.task) = some x → t.allRetired x = false) : t.settle = t := by
  unfold State.settle State.settleTask
  split
  · rfl
  · rename_i x hx
    rw [h x hx]
    rfl

/-- A task with blocks still to retire is left alone (R30). -/
theorem StandsBy.settle {s t : State} (h : StandsBy s t) (hr : ∀ x, (s.tasks.find? fun x => x.id == s.b.task) = some x → s.allRetired x = false) :
    t.settle = t := by
  refine State.settle_of fun y hy => ?_
  obtain ⟨-, hb, -, -, -, ht⟩ := id h
  rw [hb] at hy
  rcases ht.find? s.b.task with ⟨-, hn⟩ | ⟨x, y', hx, hy', hxy⟩
  · rw [hn] at hy; cases hy
  · cases hy'.symm.trans hy
    rw [h.allRetired hxy]
    exact hr x hx

/-! ## The slices that leave -/

/-- A slice that has left: its windows and waits are discarded (R162). -/
def Slice.left (sl : Slice) : Slice := { sl with flags := [], wait := .none, sync := [], backs := [] }

/-- The gang after some of its slices have left (R25). -/
def Gang.without (g : Gang) (l : List Nat) : Gang :=
  let g := g.modSlices l fun _ sl => sl.left
  { g with live := g.live &&& ~~~(sliceMask l) }

theorem Gang.without_frame (g : Gang) (l : List Nat) :
    ∃ S, g.without l = { g with slices := S, live := g.live &&& ~~~(sliceMask l) } ∧ S.length = g.slices.length := by
  obtain ⟨S, hS, hl⟩ := g.modSlices_frame l fun _ sl => sl.left
  exact ⟨S, by unfold Gang.without; rw [hS], hl⟩

/-- The end of live slices: with the last one the gang retires, and with its last gang the block (R25, R29). -/
theorem State.endSlices_eq {s : State} {l : List Nat} (hl : l.filter s.g.live.getLsbD ≠ []) : s.endSlices l =
    let u : State := { s with g := s.g.without (l.filter s.g.live.getLsbD) }
    if u.g.live = 0 then
      if u.retireGang.allGangs.all fun g => g.block != u.retireGang.b.uid || g.live == 0 then u.retireGang.retireBlock else u.retireGang
    else ((upto 4).foldl (fun (s : State) k => s.tryArrive k) u).regangs := by
  unfold State.endSlices
  dsimp only
  rw [if_neg (by simpa using hl)]
  rfl

/-- Which slices are left (R25). -/
theorem getLsbD_without {g : Gang} {l : List Nat} (hl : ∀ j ∈ l, j < 8) {j : Nat} (hj : j < 8) :
    (g.without (l.filter g.live.getLsbD)).live.getLsbD j = (g.live.getLsbD j && !l.contains j) := by
  obtain ⟨S, hS, -⟩ := g.without_frame (l.filter g.live.getLsbD)
  rw [hS]
  simp only [BitVec.getLsbD_and, BitVec.getLsbD_not, hj, decide_true, Bool.true_and]
  rw [getLsbD_sliceMask _ _ hj fun i hi => hl i (List.mem_filter.mp hi).1]
  cases hg : g.live.getLsbD j with
  | false => rfl
  | true =>
    congr 2
    rw [Bool.eq_iff_iff, List.contains_iff_mem, List.contains_iff_mem, List.mem_filter]
    exact ⟨fun h => h.1, fun h => ⟨h, hg⟩⟩

/-- The gang and the block in focus, the tasks and memory are as they were. -/
def Unseen (s t : State) : Prop := t.mem = s.mem ∧ t.b = s.b ∧ t.g = s.g ∧ t.tasks = s.tasks

theorem Unseen.refl (s : State) : Unseen s s := ⟨rfl, rfl, rfl, rfl⟩

theorem Unseen.trans {a b c : State} (h : Unseen a b) (k : Unseen b c) : Unseen a c := by
  obtain ⟨h1, h2, h3, h4⟩ := h
  obtain ⟨k1, k2, k3, k4⟩ := k
  exact ⟨k1.trans h1, k2.trans h2, k3.trans h3, k4.trans h4⟩

theorem FlitsOnly.unseen {s t : State} (h : FlitsOnly s t) : Unseen s t := by
  obtain ⟨fl, ag, rfl⟩ := h
  exact ⟨rfl, rfl, rfl, rfl⟩

theorem State.screenChoice_unseen (s : State) (b : Block) : Unseen s (s.screenChoice b) := by
  unfold State.screenChoice
  dsimp only
  split
  · exact Unseen.refl s
  split
  · exact ⟨rfl, rfl, rfl, rfl⟩
  · refine Unseen.trans ?_ (State.later_flitsOnly _ _).unseen
    exact ⟨rfl, rfl, rfl, rfl⟩

theorem length_insertNat_le (l : List Nat) (k : Nat) : (insertNat l k).length ≤ l.length + 1 := by
  induction l with
  | nil => exact Nat.le_refl _
  | cons x t ih =>
    unfold insertNat
    split
    · exact Nat.le_refl _
    split
    · exact Nat.le_succ _
    · exact Nat.succ_le_succ ih

/-- A task of which at most one block more has retired. -/
def OneMore (t t' : Task) : Prop :=
  t'.id = t.id ∧ t'.record = t.record ∧ t'.failing = t.failing ∧ t'.retired.length ≤ t.retired.length + 1

theorem OneMore.refl (t : Task) : OneMore t t := ⟨rfl, rfl, rfl, Nat.le_succ _⟩

theorem State.returnUnit_aside (s : State) (f : Flit) : Aside s (s.returnUnit f) ∧ (s.returnUnit f).tasks = s.tasks := by
  unfold State.returnUnit
  split
  · exact ⟨State.modGang_aside _ _ _ fun g => ⟨_, rfl⟩, by unfold State.modGang; split <;> rfl⟩
  · exact ⟨⟨⟨rfl, rfl, rfl, rfl, rfl, SameTasks.refl _⟩, rfl⟩, rfl⟩
  · exact ⟨Aside.refl s, rfl⟩

/-- The block in focus without its queues, as it is when its last gang has ended (R29, R269). -/
def State.emptied (s : State) : State :=
  let u := (s.b.queues.flatMap (·.2)).foldl (fun s f => s.returnUnit f) s
  { u with b := { s.b with gone := true, queues := [], evicting := false } }.later .blockAdmission

theorem State.emptied_spec (s : State) : s.emptied.mem = s.mem ∧ FocusKept s.g s.emptied.g
    ∧ s.emptied.b = { s.b with gone := true, queues := [], evicting := false } ∧ s.emptied.tasks = s.tasks := by
  have ha : Aside s ((s.b.queues.flatMap (·.2)).foldl (fun s f => s.returnUnit f) s) :=
    foldl_rel Aside.refl Aside.trans _ (fun s f => (s.returnUnit_aside f).1) _ s
  have ht : ((s.b.queues.flatMap (·.2)).foldl (fun s f => s.returnUnit f) s).tasks = s.tasks :=
    foldl_rel (R := fun a b : State => b.tasks = a.tasks) (fun _ => rfl) (fun h k => k.trans h) _ (fun s f => (s.returnUnit_aside f).2) _ s
  obtain ⟨⟨h1, -⟩, h2⟩ := ha
  unfold State.emptied
  dsimp only
  rw [State.later_mem, State.later_g, State.later_b, State.later_tasks]
  exact ⟨h1, h2, rfl, ht⟩

/-- The block that retires with its last gang (R29). -/
theorem State.retireBlock_spec (s : State) : s.retireBlock.mem = s.mem ∧ FocusKept s.g s.retireBlock.g
    ∧ s.retireBlock.b = { s.b with gone := true, queues := [], evicting := false }
    ∧ ∃ f : Task → Task, s.retireBlock.tasks = s.tasks.map f ∧ ∀ t, OneMore t (f t) := by
  obtain ⟨e1, e2, e3, e4⟩ := s.emptied_spec
  suffices h : s.retireBlock.mem = s.emptied.mem ∧ s.retireBlock.b = s.emptied.b ∧ s.retireBlock.g = s.emptied.g
      ∧ ∃ f : Task → Task, s.retireBlock.tasks = s.emptied.tasks.map f ∧ ∀ t, OneMore t (f t) by
    obtain ⟨h1, h2, h3, f, h4, h5⟩ := h
    exact ⟨h1.trans e1, by rw [h3]; exact e2, h2.trans e3, f, by rw [h4, e4], h5⟩
  have hr : s.retireBlock = match s.b.replay with
      | some r => s.emptied.later (.replayEnd r)
      | none =>
        let u := (s.emptied.modTask s.b.task fun t => { t with retired := insertNat t.retired s.b.num }).signalAll
        match u.operOf s.b.task with
        | none => u.screenChoice s.b
        | some o => (u.modOper o.id fun o => { o with sigs := Store.put o.sigs s.b.num s.b.sig }).screenChoice s.b := rfl
  rw [hr]
  split
  · obtain ⟨h1, h2, h3, h4⟩ := (State.later_flitsOnly s.emptied (.replayEnd _)).unseen
    exact ⟨h1, h2, h3, id, by rw [h4, List.map_id], OneMore.refl⟩
  · have hu : Unseen (s.emptied.modTask s.b.task fun t => { t with retired := insertNat t.retired s.b.num })
        (s.emptied.modTask s.b.task fun t => { t with retired := insertNat t.retired s.b.num }).signalAll :=
      (State.signalAll_flitsOnly _).unseen
    have hc (u : State) : Unseen u (match u.operOf s.b.task with
        | none => u.screenChoice s.b
        | some o => (u.modOper o.id fun o => { o with sigs := Store.put o.sigs s.b.num s.b.sig }).screenChoice s.b) := by
      split
      · exact u.screenChoice_unseen _
      · exact Unseen.trans ⟨rfl, rfl, rfl, rfl⟩ (State.screenChoice_unseen _ _)
    obtain ⟨h1, h2, h3, h4⟩ := hu.trans (hc _)
    refine ⟨h1, h2, h3, _, h4, fun t => ?_⟩
    split
    · exact ⟨rfl, rfl, rfl, length_insertNat_le _ _⟩
    · exact OneMore.refl t

/-! ## EXIT -/

/-- The registers of a gang, and which gang it is. -/
def Gang.regs (g : Gang) : Nat × Store Word × Store Uni × Store LaneMask := (g.uid, g.gen, g.uni, g.preds)

theorem GangRuns.live {g g' : Gang} (h : GangRuns g g') : g'.live = g.live := by
  unfold GangRuns at h
  rw [h]

theorem GangRuns.regs {g g' : Gang} (h : GangRuns g g') : g'.regs = g.regs := by
  unfold GangRuns at h
  rw [h]
  rfl

theorem FocusKept.live {g g' : Gang} (h : FocusKept g g') : g'.live = g.live := by
  unfold FocusKept at h
  rw [h]

theorem FocusKept.regs {g g' : Gang} (h : FocusKept g g') : g'.regs = g.regs := by
  unfold FocusKept at h
  rw [h]
  rfl

/-- The slices that EXIT ends: those of its group, in a handler all, and those whose last lane has been killed (R162, R180, R322). -/
def State.exiting (s : State) : List Nat := (if s.g.frame.isSome && s.priv then upto 8 else s.group) ++ s.g.dying

theorem exec_exit (s : State) : exec .exit s = .next ((s.endChain.endSlices s.exiting).settle) := rfl

theorem Gang.mem_dying {g : Gang} {j : Nat} (hj : j < 8) :
    j ∈ g.dying ↔ g.live.getLsbD j = true ∧ g.killed.extractLsb' (4 * j) 4 = 15 := by
  unfold Gang.dying
  split
  · rename_i h0
    simp [h0]
  · simp [hj]

theorem State.exiting_lt (s : State) : ∀ j ∈ s.exiting, j < 8 := by
  intro j hj
  rcases List.mem_append.mp hj with h | h
  · split at h
    · exact (mem_upto 8 j).mp h
    · exact s.group_lt j h
  · unfold Gang.dying at h
    split at h
    · cases h
    · exact (mem_upto 8 j).mp (List.mem_filter.mp h).1

section
variable {s : State} (hlive : s.g.live = s.src.live)
include hlive

theorem State.group_live {j : Nat} (hj : j ∈ s.group) : s.g.live.getLsbD j = true := by
  rw [hlive]
  simp only [State.group, Gang.group, List.mem_filter, Gang.inGroup, Bool.and_eq_true] at hj
  exact hj.2.1

theorem State.exiting_nonempty (hne : s.group ≠ []) : s.exiting.filter s.endChain.g.live.getLsbD ≠ [] := by
  obtain ⟨i, hi⟩ := List.exists_mem_of_ne_nil _ hne
  have hl : s.endChain.g.live = s.g.live := s.endChain_runs.1.1.live
  refine List.ne_nil_of_mem (List.mem_filter.mpr ⟨List.mem_append_left _ ?_, by rw [hl]; exact State.group_live hlive hi⟩)
  split
  · exact (mem_upto 8 i).mpr (s.group_lt i hi)
  · exact hi

end

/-- The gang after the slices that EXIT ends have left. -/
def State.exited (s : State) : State :=
  { s.endChain with g := s.endChain.g.without (s.exiting.filter s.endChain.g.live.getLsbD) }

theorem State.exited_live (s : State) {j : Nat} (hj : j < 8) : s.exited.g.live.getLsbD j = true ↔
    s.g.live.getLsbD j = true ∧ ¬(s.g.frame.isSome = true ∧ s.priv = true) ∧ j ∉ s.group ∧ s.g.killed.extractLsb' (4 * j) 4 ≠ 15 := by
  have hl : s.endChain.g.live = s.g.live := s.endChain_runs.1.1.live
  have h := getLsbD_without (g := s.endChain.g) s.exiting_lt hj
  rw [State.exited, h, hl, Bool.and_eq_true, Bool.not_eq_true', ← Bool.not_eq_true, List.contains_iff_mem]
  refine and_congr_right fun hjl => ?_
  rw [State.exiting, List.mem_append, Gang.mem_dying hj, not_or]
  by_cases hh : s.g.frame.isSome = true ∧ s.priv = true
  · simp [hh.1, hh.2, hj]
  · have hf : (s.g.frame.isSome && s.priv) = false := by
      rw [Bool.eq_false_iff, ne_eq, Bool.and_eq_true]; exact hh
    simp [hf, hh, hjl]

theorem State.exited_spec (s : State) : StandsBy s s.exited ∧ s.exited.g.regs = s.g.regs := by
  obtain ⟨S, hS, -⟩ := s.endChain.g.without_frame (s.exiting.filter s.endChain.g.live.getLsbD)
  have h : StandsBy s s.endChain := s.endChain_runs.1.standsBy
  exact ⟨h, (congrArg Gang.regs hS).trans s.endChain_runs.1.1.regs⟩

section
variable {s : State} (hlive : s.g.live = s.src.live) (hne : s.group ≠ [])
  (hr : ∀ x, (s.tasks.find? fun x => x.id == s.b.task) = some x → s.allRetired x = false)
include hlive hne

theorem State.endSlices_exiting : s.endChain.endSlices s.exiting =
    if s.exited.g.live = 0 then
      if s.exited.retireGang.allGangs.all fun g => g.block != s.exited.retireGang.b.uid || g.live == 0 then s.exited.retireGang.retireBlock
      else s.exited.retireGang
    else ((upto 4).foldl (fun (s : State) k => s.tryArrive k) s.exited).regangs :=
  State.endSlices_eq (State.exiting_nonempty hlive hne)

include hr

/-- While another slice of the gang is live, only those of the group leave (R25, R162). -/
theorem exit_stays (h0 : s.exited.g.live ≠ 0) : ∃ t, exec .exit s = .next t ∧ StandsBy s t ∧ t.g.regs = s.g.regs
    ∧ t.g.live = s.exited.g.live := by
  obtain ⟨a1, a2⟩ := foldl_rel Aside.refl Aside.trans (fun (s : State) k => s.tryArrive k) (fun s k => s.tryArrive_aside k) (upto 4) s.exited
  obtain ⟨⟨b1, b2⟩, -⟩ := ((upto 4).foldl (fun (s : State) k => s.tryArrive k) s.exited).regangs_runs
  obtain ⟨c1, c2⟩ := s.exited_spec
  have hs : StandsBy s ((upto 4).foldl (fun (s : State) k => s.tryArrive k) s.exited).regangs :=
    (c1.trans a1).trans (Runs.standsBy ⟨b1, b2⟩)
  refine ⟨_, ?_, hs, b1.regs.trans (a2.regs.trans c2), b1.live.trans a2.live⟩
  rw [exec_exit, State.endSlices_exiting hlive hne, if_neg h0, hs.settle hr]

/-- With the last slice the gang retires; with another gang live, its block stays (R25). -/
theorem exit_retires (h0 : s.exited.g.live = 0) (ho : ∃ h ∈ s.gangs, h.uid ≠ 0 ∧ h.block = s.b.uid ∧ h.live ≠ 0) :
    ∃ t, exec .exit s = .next t ∧ StandsBy s t ∧ FocusKept s.exited.g.ended t.g := by
  obtain ⟨c1, -⟩ := s.exited_spec
  obtain ⟨d1, d2⟩ := s.exited.retireGang_spec
  have hs := c1.trans d1
  refine ⟨_, ?_, hs, d2⟩
  have hall : ¬(s.exited.retireGang.allGangs.all fun g => g.block != s.exited.retireGang.b.uid || g.live == 0) = true := by
    obtain ⟨h, hm, hu, hb, hl⟩ := ho
    obtain ⟨-, e2, -, -, e5, -⟩ := hs
    obtain ⟨h', hm', hst⟩ := List.mem_map.mp (e5 ▸ List.mem_map_of_mem hm : h.standing ∈ s.exited.retireGang.gangs.map Gang.standing)
    simp only [Gang.standing, Prod.mk.injEq] at hst
    obtain ⟨k1, k2, k3⟩ := hst
    rw [List.all_eq_true]
    intro hall
    have := hall h' (List.mem_filter.mpr ⟨List.mem_cons_of_mem _ hm', by rw [k1]; simpa using hu⟩)
    rw [k2, k3, e2, hb] at this
    simp at this
    exact hl this
  rw [exec_exit, State.endSlices_exiting hlive hne, if_pos h0, if_neg hall, hs.settle hr]

omit hr in
/-- With the last gang its block retires (R29). -/
theorem exit_last (h0 : s.exited.g.live = 0) (ho : ¬∃ h ∈ s.gangs, h.uid ≠ 0 ∧ h.block = s.b.uid ∧ h.live ≠ 0)
    (hr : ∀ x, (s.tasks.find? fun x => x.id == s.b.task) = some x → x.failing = false ∧ x.retired.length + 1 < x.record.gangs / x.record.home) :
    ∃ t, exec .exit s = .next t ∧ t.mem = s.mem ∧ FocusKept s.exited.retireGang.g t.g
      ∧ t.b = { s.b with gone := true, queues := [], evicting := false } := by
  obtain ⟨c1, -⟩ := s.exited_spec
  obtain ⟨d1, d2⟩ := s.exited.retireGang_spec
  obtain ⟨e1, e2, -, -, e5, e6⟩ := c1.trans d1
  obtain ⟨r1, r2, r3, f, r4, r5⟩ := s.exited.retireGang.retireBlock_spec
  have hall : (s.exited.retireGang.allGangs.all fun g => g.block != s.exited.retireGang.b.uid || g.live == 0) = true := by
    rw [List.all_eq_true]
    intro g hg
    obtain ⟨hm, hu⟩ := List.mem_filter.mp hg
    rcases List.mem_cons.mp hm with rfl | hm
    · have : s.exited.retireGang.g.live = 0 := d2.live
      simp [this]
    · obtain ⟨h, hm', hst⟩ := List.mem_map.mp (e5 ▸ List.mem_map_of_mem hm : g.standing ∈ s.gangs.map Gang.standing)
      simp only [Gang.standing, Prod.mk.injEq] at hst
      obtain ⟨k1, k2, k3⟩ := hst
      rw [e2, ← k2, ← k3]
      by_contra hne
      simp only [Bool.or_eq_true, bne_iff_ne, beq_iff_eq, not_or, not_not] at hne
      exact ho ⟨h, hm', by rw [k1]; simpa using hu, hne.1, hne.2⟩
  refine ⟨s.exited.retireGang.retireBlock, ?_, r1.trans e1, r2, by rw [r3, e2]⟩
  rw [exec_exit, State.endSlices_exiting hlive hne, if_pos h0, if_pos hall, State.settle_of]
  intro y hy
  rw [r3, r4] at hy
  have hb : s.exited.retireGang.b.task = s.b.task := congrArg Block.task e2
  dsimp only at hy
  rw [hb, find?_map_task fun t => (r5 t).1] at hy
  obtain ⟨x', hx', rfl⟩ := Option.map_eq_some_iff.mp hy
  rcases e6.find? s.b.task with ⟨-, hn⟩ | ⟨x, x2, hx, hx2, hxx⟩
  · rw [hn] at hx'; cases hx'
  · cases hx2.symm.trans hx'
    obtain ⟨q1, q2, -, q4, q5, q6, q7⟩ := hxx
    obtain ⟨-, p2, p3, p4⟩ := r5 x'
    obtain ⟨o1, o2⟩ := hr x hx
    have hfail : (f x').failing = false := by
      rw [p3, ← o1]
      unfold Task.failing
      rw [q5, q6, q7]
    unfold State.allRetired
    rw [hfail, p2, q2]
    rw [q4] at p4
    simp only [Bool.false_eq_true, if_false, decide_eq_false_iff_not]
    omega

end

/-- A slot that names no group is nothing to arrive at (R302). -/
theorem State.foldl_tryArrive_none {s : State} (h : ∀ k, s.groupOf s.g k = none) (l : List Nat) :
    l.foldl (fun (s : State) k => s.tryArrive k) s = s := by
  induction l with
  | nil => rfl
  | cons k t ih =>
    have hk : s.tryArrive k = s := by
      unfold State.tryArrive
      rw [h k]
    rw [List.foldl_cons, hk, ih]

/-- The slices once those of EXIT have left, when none of the gang's lanes has been killed (R25, R162). -/
theorem State.exited_slice {s : State} (h8 : s.g.slices.length = 8) (hlive : s.g.live = s.src.live) (hk : s.g.killed = 0)
    (hf : s.g.frame = none) :
    (∃ S L e n C P i, s.exited = { s with
        g := { s.g with slices := S, live := L, exempt := e, lastGrp := n, cached := C }, c := { s.c with perfCnt := P }, iss := i })
      ∧ ∀ j < 8, s.exited.g.slice j = if j ∈ s.group then (s.endChain.g.slice j).left else s.g.slice j := by
  have hx : s.exiting = s.group := by simp [State.exiting, hf, Gang.dying, hk]
  obtain ⟨S, e, n, C, P, hl, h, hS⟩ := s.endChain_frame
  have hcl : s.endChain.g.live = s.g.live := s.endChain_runs.1.1.live
  have hfil : s.exiting.filter s.endChain.g.live.getLsbD = s.group := by
    rw [hx, hcl]
    exact List.filter_eq_self.mpr fun j hj => State.group_live hlive hj
  have he : s.exited = { s.endChain with g := s.endChain.g.without s.group } := by rw [← hfil]; rfl
  obtain ⟨T, hT, hTl⟩ := s.endChain.g.without_frame s.group
  refine ⟨⟨T, s.g.live &&& ~~~(sliceMask s.group), e, n, C, P, { s.iss with ended := true }, ?_⟩, fun j hj => ?_⟩
  · rw [he, hT, h]
  · have hlen : j < s.endChain.g.slices.length := by rw [h]; exact hl ▸ h8 ▸ hj
    have h1 : s.exited.g.slice j = if j ∈ s.group then (s.endChain.g.slice j).left else s.endChain.g.slice j :=
      (congrArg (fun t : State => t.g.slice j) he).trans (Gang.modSlices_slice _ _ _ s.group_nodup j hlen)
    rw [h1]
    split
    · rfl
    · rename_i hg
      obtain ⟨V, hV, hVl⟩ := s.g.modSlices_frame s.group fun i sl => sl.afterChain (s.iss.moved.getLsbD i) s.iss
      have hj8 : j < (s.g.modSlices s.group fun i sl => sl.afterChain (s.iss.moved.getLsbD i) s.iss).slices.length := by
        rw [hV]; exact hVl ▸ h8 ▸ hj
      have h2 : s.endChain.g.slice j = nth {} S j := congrArg (fun t : State => t.g.slice j) h
      have h3 := Gang.part_slice_outside _ s.group_nodup hg hj8
      rw [h2, hS]
      exact h3.trans ((Gang.modSlices_slice _ _ _ s.group_nodup j (h8 ▸ hj)).trans (if_neg hg))

/-- EXIT of some slices of a gang of which nothing waits for them (R25, R162). -/
theorem exit_alone {s : State} (h8 : s.g.slices.length = 8) (hne : s.group ≠ []) (hlive : s.g.live = s.src.live) (hk : s.g.killed = 0)
    (hf : s.g.frame = none) (hr : ∀ x, (s.tasks.find? fun x => x.id == s.b.task) = some x → s.allRetired x = false)
    (hg : ∀ k, s.groupOf s.g k = none) (hw : ∀ j < 8, (s.g.slice j).regangAt = none)
    (ho : ∃ j < 8, s.g.live.getLsbD j = true ∧ j ∉ s.group) :
    ∃ t, exec .exit s = .next t
      ∧ t = { s with g := t.g, c := t.c, iss := t.iss, next := s.next + 1 }
      ∧ t.g = { s.g with slices := t.g.slices, live := t.g.live, exempt := t.g.exempt, lastGrp := t.g.lastGrp, cached := t.g.cached }
      ∧ (∀ j < 8, t.g.live.getLsbD j = (s.g.live.getLsbD j && !s.group.contains j))
      ∧ (∀ j < 8, j ∉ s.group → t.g.slice j = s.g.slice j)
      ∧ ∀ j ∈ s.group, (t.g.slice j).flags = [] ∧ (t.g.slice j).sync = [] ∧ (t.g.slice j).wait = .none := by
  obtain ⟨⟨S, L, e, n, C, P, i, hx⟩, hsl⟩ := State.exited_slice h8 hlive hk hf
  have hL (j : Nat) (hj : j < 8) : s.exited.g.live.getLsbD j = (s.g.live.getLsbD j && !s.group.contains j) := by
    rw [Bool.eq_iff_iff, s.exited_live hj, Bool.and_eq_true, Bool.not_eq_true', ← Bool.not_eq_true, List.contains_iff_mem]
    simp [hf, hk]
  have h0 : s.exited.g.live ≠ 0 := by
    obtain ⟨j, hj, hjl, hjg⟩ := ho
    intro h0
    have := hL j hj
    rw [h0, hjl] at this
    simp [hjg] at this
  have hgrp : ∀ k, s.exited.groupOf s.exited.g k = none := fun k => by rw [hx]; exact hg k
  obtain ⟨m1, m2⟩ := Gang.regang_waits (g := s.exited.g) (fun j hj _ => .inl (by
    rw [hsl j hj]
    split
    · rfl
    · exact hw j hj)) s.exited.next
  rw [← m1] at m2
  have hfin : (s.endChain.endSlices s.exiting) = { s.exited with next := s.exited.next + 1 } := by
    rw [State.endSlices_exiting hlive hne, if_neg h0, State.foldl_tryArrive_none hgrp, State.regangs_matched m2, m1]
  have hset : State.settle { s.exited with next := s.exited.next + 1 } = { s.exited with next := s.exited.next + 1 } :=
    StandsBy.settle (s := s) s.exited_spec.1 hr
  refine ⟨{ s.exited with next := s.exited.next + 1 }, ?_, ?_, ?_, hL, fun j hj hjg => ?_, fun j hj => ?_⟩
  · rw [exec_exit, hfin, hset]
  · rw [hx]
  · rw [hx]
  · exact (hsl j hj).trans (if_neg hjg)
  · have := (hsl j (s.group_lt j hj)).trans (if_pos hj)
    refine ⟨congrArg Slice.flags this, congrArg Slice.sync this, congrArg Slice.wait this⟩

/-- Settles O17: REGANG by `regang_spec`, `regang_sync` and `regang_frame`, EXIT by the lemmas above. -/
theorem rejoiningAndEnding : Obligations.RejoiningAndEnding := by
  unfold Obligations.RejoiningAndEnding
  refine ⟨fun s m => ⟨?_, fun hs _ => ?_⟩, fun s => ?_, fun s h8 hne hlive hk hf hr hg hw ho => exit_alone h8 hne hlive hk hf hr hg hw ho⟩
  · obtain ⟨t, he, ⟨h1, h2⟩, hi⟩ := regang_frame s m
    unfold GangRuns at h1
    refine ⟨t, he, (Runs.standsBy ⟨h1, h2⟩).1, ?_, ?_, ?_, ?_, ?_, ?_, hi⟩ <;> rw [h1]
  · intro here named at_ awaits
    obtain ⟨h1, h2, h3⟩ := regang_spec s m hs
    exact ⟨h1, h2, h3, fun hstop h hp => fun hv he => regang_sync s m hs hstop h hp hv he⟩
  · intro stays retires others h8 hne hlive
    have hzero (h : retires) : s.exited.g.live = 0 := by
      refine BitVec.eq_of_getLsbD_eq fun j hj => ?_
      rw [show BitVec.getLsbD (0 : BitVec 8) j = false from BitVec.getLsbD_zero, Bool.eq_false_iff]
      intro hl
      obtain ⟨h1, h2, h3, h4⟩ := (s.exited_live hj).mp hl
      rcases h with h | ⟨hf, hp⟩
      · exact h j hj ⟨h1, h3, h4⟩
      · exact h2 ⟨Option.isSome_iff_ne_none.mpr hf, List.all_eq_true.mpr hp⟩
    refine ⟨fun ⟨j, hj, hst⟩ hf hr => ?_, fun h ho hr => ?_, fun h ho hr => ?_⟩
    · have hl (j : Nat) (hj : j < 8) : s.exited.g.live.getLsbD j = true ↔ stays j := by
        rw [s.exited_live hj]
        simp [stays, hf]
      obtain ⟨t, he, hs, hg, hlv⟩ := exit_stays hlive hne hr fun h0 => by
        have := (hl j hj).mpr hst
        rw [h0] at this
        simp at this
      simp only [Gang.regs, Prod.mk.injEq] at hg
      obtain ⟨g1, g2, g3, g4⟩ := hg
      exact ⟨t, he, g1, hs.1, g2, g3, g4, fun j hj => by rw [hlv]; exact hl j hj⟩
    · obtain ⟨t, he, hs, hg⟩ := exit_retires hlive hne hr (hzero h) ho
      obtain ⟨m1, m2, -⟩ := hs
      have hu : t.g.uid = s.g.uid := (congrArg Prod.fst hg.regs).trans (congrArg Prod.fst s.exited_spec.2)
      unfold FocusKept at hg
      refine ⟨t, he, hu, ?_, ?_, ?_, ?_, m1, m2⟩ <;> rw [hg] <;> rfl
    · obtain ⟨t, he, hm, hg, hb⟩ := exit_last hlive hne (hzero h) ho hr
      have hg' := s.exited.retireGang_spec.2
      refine ⟨t, he, ?_, hg.live.trans hg'.live, by rw [hb], by rw [hb], by rw [hb], hm⟩
      exact (congrArg Prod.fst hg.regs).trans ((congrArg Prod.fst hg'.regs).trans (congrArg Prod.fst s.exited_spec.2))

end Sys2Proof.Machine
end

section
/-! PROOFS. What the copy engine does to memory, granules and engine counters, an operation at a time (R176, R198, R246,
R264, R265). -/

namespace Sys2Proof.Machine

open Sys2Proof

/-! ## Bytes and numbers -/

/-- Byte j of a number. -/
def byteOf (v j : Nat) : Byte := BitVec.ofNat 8 (v / 256 ^ j)

@[simp] theorem length_memBytes (m : List Host.Cell) (a n : Nat) : (memBytes m a n).length = n := by
  induction n generalizing a with
  | zero => rfl
  | succ n ih => simp [memBytes, ih]

theorem getD_memBytes (m : List Host.Cell) (a n j : Nat) (hj : j < n) : (memBytes m a n).getD j 0 = memGet m (a + j) := by
  induction n generalizing a j with
  | zero => omega
  | succ n ih =>
    cases j with
    | zero => rfl
    | succ j => rw [memBytes, List.getD_cons_succ, ih _ _ (by omega)]; congr 1; omega

theorem memBytes_congr {m m' : List Host.Cell} {a n : Nat} (h : ∀ j < n, memGet m (a + j) = memGet m' (a + j)) :
    memBytes m a n = memBytes m' a n := by
  induction n generalizing a with
  | zero => rfl
  | succ n ih =>
    rw [memBytes, memBytes, ih fun j hj => by rw [show a + 1 + j = a + (j + 1) by omega]; exact h _ (by omega)]
    exact congrArg (· :: _) (h 0 (by omega))

theorem memNat_congr {m m' : List Host.Cell} {a n : Nat} (h : ∀ j < n, memGet m (a + j) = memGet m' (a + j)) :
    memNat m a n = memNat m' a n := congrArg leNat (memBytes_congr h)

theorem getD_leBytes {n j : Nat} (v : Nat) (hj : j < n) : (leBytes n v).getD j 0 = byteOf v j := by
  induction n generalizing v j with
  | zero => omega
  | succ n ih =>
    cases j with
    | zero => simp [leBytes, byteOf]
    | succ j =>
      rw [leBytes, List.getD_cons_succ, ih _ (by omega), byteOf, byteOf, Nat.pow_succ, Nat.mul_comm, Nat.div_div_eq_div_mul]

theorem byteOf_leNat (l : List Byte) (j : Nat) : byteOf (leNat l) j = l.getD j 0 := by
  induction l generalizing j with
  | nil => simp [leNat, byteOf]
  | cons x t ih =>
    cases j with
    | zero => simp [byteOf, leNat, BitVec.ofNat_add, BitVec.ofNat_mul]
    | succ j =>
      have hx := x.isLt
      rw [List.getD_cons_succ, ← ih, byteOf, byteOf, Nat.pow_succ, Nat.mul_comm, ← Nat.div_div_eq_div_mul, leNat]
      congr 2
      omega

theorem leNat_lt (l : List Byte) : leNat l < 256 ^ l.length := by
  induction l with
  | nil => simp [leNat]
  | cons x t ih =>
    have hx := x.isLt
    rw [leNat, List.length_cons, Nat.pow_succ]
    omega

theorem memNat_lt (m : List Host.Cell) (a n : Nat) : memNat m a n < 256 ^ n := by
  have := leNat_lt (memBytes m a n)
  rwa [length_memBytes] at this

theorem byteOf_mod {v n j : Nat} (hj : j < n) : byteOf (v % 256 ^ n) j = byteOf v j := by
  rw [← leNat_leBytes, byteOf_leNat, getD_leBytes _ hj]

/-- The n bytes that have been written read as the list that was written. -/
theorem memBytes_memWrite {m : List Host.Cell} (h : Memory.wf m = true) (a k n : Nat) (l : List Byte) (hn : k + n ≤ l.length) :
    memBytes (memWrite m a l) (a + k) n = (l.drop k).take n := by
  apply List.ext_getElem
  · simp; omega
  · intro j h1 h2
    have hj : j < n := by simpa using h1
    have e := getD_memBytes (memWrite m a l) (a + k) n j hj
    rw [memGet_memWrite h, if_pos ⟨by omega, by omega⟩, show a + k + j - a = k + j by omega,
      List.getD_eq_getElem _ _ (by omega), List.getD_eq_getElem _ _ (by omega)] at e
    rw [e]
    simp

/-! ## Granules -/

theorem mem_insertNat {l : List Nat} {k x : Nat} : x ∈ insertNat l k ↔ x = k ∨ x ∈ l := by
  induction l with
  | nil => simp [insertNat]
  | cons y t ih =>
    rw [insertNat]
    split
    · simp
    split
    case _ _ he => subst he; simp
    · rw [List.mem_cons, List.mem_cons, ih]; tauto

theorem length_insertNat {l : List Nat} {k : Nat} (h : k ∉ l) : (insertNat l k).length = l.length + 1 := by
  induction l with
  | nil => rfl
  | cons y t ih =>
    rw [List.mem_cons, not_or] at h
    rw [insertNat]
    split
    · rfl
    · rw [if_neg h.1, List.length_cons, ih h.2, List.length_cons]

theorem mem_foldl_insertNat {l e : List Nat} {x : Nat} : x ∈ l.foldl insertNat e ↔ x ∈ l ∨ x ∈ e := by
  induction l generalizing e with
  | nil => simp
  | cons y t ih => rw [List.foldl_cons, ih, mem_insertNat, List.mem_cons]; tauto

theorem mem_granules {a n gr : Nat} : gr ∈ granules a n ↔ n ≠ 0 ∧ a / 16 ≤ gr ∧ gr ≤ (a + n - 1) / 16 := by
  unfold granules
  split
  · simp [*]
  · rw [List.mem_map]
    constructor
    · rintro ⟨i, hi, rfl⟩
      rw [mem_upto] at hi
      omega
    · rintro ⟨_, h1, h2⟩
      exact ⟨gr - a / 16, (mem_upto _ _).2 (by omega), by omega⟩

theorem mem_setFull {e : List Nat} {a n gr : Nat} : gr ∈ setFull e a n ↔ gr ∈ e ∧ gr ∉ granules a n := by
  rw [setFull, List.mem_filter, mem_granules]
  simp only [Bool.or_eq_true, decide_eq_true_eq]
  exact and_congr_right fun _ => by omega

theorem mem_setEmpty {e : List Nat} {a n gr : Nat} : gr ∈ setEmpty e a n ↔ gr ∈ granules a n ∨ gr ∈ e := mem_foldl_insertNat

/-- The granules of a range that begins and ends with one (R187). -/
theorem mem_granules_aligned {base len gr : Nat} (hb : base % 16 = 0) (hl : len % 16 = 0) :
    gr ∈ granules base len ↔ base ≤ 16 * gr ∧ 16 * gr < base + len := by
  rw [mem_granules]
  omega

/-! ## Parked words -/

theorem foldl_fixed {α β : Type} {f : β → α → β} {l : List α} {b : β} (h : ∀ x ∈ l, f b x = b) : l.foldl f b = b := by
  induction l with
  | nil => rfl
  | cons x t ih => rw [List.foldl_cons, h x List.mem_cons_self, ih fun y hy => h y (List.mem_cons_of_mem _ hy)]

theorem State.serveGrans_of_waiters {s : State} {l : List Nat} (h : s.waiters l = []) : s.serveGrans l = s := by
  unfold State.serveGrans
  rw [h]
  rfl

theorem NoneParked.waiters {s : State} (h : NoneParked s) (l : List Nat) : s.waiters l = [] := by
  refine congrArg (List.map Prod.snd) (a₂ := []) (foldl_fixed fun g hg => foldl_fixed fun f hf => ?_)
  rw [h g hg f hf]

theorem NoneParked.serveGrans {s : State} (h : NoneParked s) (l : List Nat) : s.serveGrans l = s :=
  State.serveGrans_of_waiters (h.waiters l)

theorem NoneParked.of_gangs {s t : State} (h : NoneParked s) (hg : t.g = s.g) (hgs : t.gangs = s.gangs) : NoneParked t := by
  unfold NoneParked State.allGangs at *
  rwa [hg, hgs]

theorem State.waiters_nil (s : State) : s.waiters [] = [] := by
  refine congrArg (List.map Prod.snd) (a₂ := []) (foldl_fixed fun g _ => foldl_fixed fun f _ => ?_)
  cases f.parked with
  | none => rfl
  | some k => simp

/-- Where no word is parked, the engine's write to S changes bytes, check bits and granules only (R176). -/
theorem State.writeS_eq {s : State} (h : NoneParked s) (off : Nat) (l : List Byte) : s.writeS off l =
    { s with
      mem := memWrite s.mem (atS s.b.uid off) l, ue := clearUE s.ue (atS s.b.uid off) l.length
      empty := setFull s.empty (atS s.b.uid off) l.length } :=
  NoneParked.serveGrans (h.of_gangs (by rfl) (by rfl)) _

theorem State.fill_eq {s : State} (h : NoneParked s) (l : List Nat) : s.fill l =
    { s with empty := s.empty.filter fun g => !l.contains g } :=
  NoneParked.serveGrans (h.of_gangs (by rfl) (by rfl)) _

theorem State.fill_nil (s : State) : s.fill [] = s := by
  have e : s.fill [] = State.serveGrans { s with empty := s.empty.filter fun g => !([] : List Nat).contains g } [] := rfl
  rw [e, State.serveGrans_of_waiters (State.waiters_nil _)]
  simp

/-! ## The block of a collective in focus -/

theorem State.atBlock_frame (s : State) (uid : Nat) :
    ∃ b c bs cs, s.atBlock uid = { s with b := b, c := c, blocks := bs, cores := cs } := by
  have hb : ∃ b bs, s.focusBlock uid = { s with b := b, blocks := bs } := by
    unfold State.focusBlock
    split
    · exact ⟨s.b, s.blocks, rfl⟩
    split
    · exact ⟨s.b, s.blocks, rfl⟩
    · exact ⟨_, _, rfl⟩
  obtain ⟨b, bs, hb⟩ := hb
  obtain ⟨C, CS, hc⟩ := (s.focusBlock uid).focusCore_frame (s.focusBlock uid).b.die (s.focusBlock uid).b.core
  refine ⟨b, C, bs, CS, ?_⟩
  show (s.focusBlock uid).focusCore _ _ = _
  rw [hc, hb]

theorem NoneParked.atBlock {s : State} (h : NoneParked s) (uid : Nat) : NoneParked (s.atBlock uid) := by
  obtain ⟨b, c, bs, cs, e⟩ := s.atBlock_frame uid
  exact h.of_gangs (by rw [e]) (by rw [e])

theorem State.atBlock_fab (s : State) (uid : Nat) : (s.atBlock uid).fab = s.fab := by
  obtain ⟨b, c, bs, cs, e⟩ := s.atBlock_frame uid
  rw [e]

/-- A block and a core that are in focus already stay there. -/
theorem State.atBlock_self {s : State} {uid : Nat} (hb : uid = s.b.uid) (hd : s.b.die = s.c.die) (hc : s.b.core = s.c.idx) :
    s.atBlock uid = s := by
  unfold State.atBlock State.focusBlock State.focusCore
  simp [hb, hd, hc]

/-! ## Operations that complete -/

/-- The operations of a list with one of them completed. -/
def markDone (kid : Nat) (l : List KOp) : List KOp := l.map fun k => if k.id = kid then { k with done := true } else k

theorem mem_of_mem_retireOps {seen : List Nat} {l : List KOp} {k : KOp} (h : k ∈ retireOps seen l) : k ∈ l := by
  induction l generalizing seen with
  | nil => cases h
  | cons x t ih =>
    rw [retireOps] at h
    split at h
    · exact List.mem_cons_of_mem _ (ih h)
    · rcases List.mem_cons.1 h with h | h
      · exact h ▸ List.mem_cons_self
      · exact List.mem_cons_of_mem _ (ih h)

theorem mem_retireOps_of_pending {seen : List Nat} {l : List KOp} {k : KOp} (h : k ∈ l) (hd : k.done = false) : k ∈ retireOps seen l := by
  induction l generalizing seen with
  | nil => cases h
  | cons x t ih =>
    rw [retireOps]
    rcases List.mem_cons.1 h with rfl | h
    · simp [hd]
    · split
      · exact ih h
      · exact List.mem_cons_of_mem _ (ih h)

/-- A completed operation stays only behind one of its class that has not completed (R198). -/
theorem pending_of_mem_retireOps {seen : List Nat} {l : List KOp} {k : KOp} (h : k ∈ retireOps seen l) :
    k.cls ∈ seen ∨ ∃ o ∈ retireOps seen l, o.cls = k.cls ∧ o.done = false := by
  induction l generalizing seen with
  | nil => cases h
  | cons x t ih =>
    rw [retireOps] at h ⊢
    by_cases hx : (x.done && !seen.contains x.cls) = true
    · rw [if_pos hx] at h ⊢
      exact ih h
    rw [if_neg hx] at h ⊢
    have hx' : x.cls ∈ seen ∨ x.done = false := by
      simp only [Bool.and_eq_true, Bool.not_eq_true', List.contains_eq_mem, decide_eq_false_iff_not, not_and, not_not] at hx
      by_cases hd : x.done = true
      · exact .inl (hx hd)
      · exact .inr (by simpa using hd)
    have self : k.cls = x.cls → k.cls ∈ seen ∨ ∃ o ∈ x :: retireOps (x.cls :: seen) t, o.cls = k.cls ∧ o.done = false := by
      intro e
      rw [e]
      exact hx'.imp_right fun hd => ⟨x, List.mem_cons_self, rfl, hd⟩
    rcases List.mem_cons.1 h with rfl | h
    · exact self rfl
    · rcases ih h with h | ⟨o, ho, hc⟩
      · rcases List.mem_cons.1 h with h | h
        · exact self h
        · exact .inl h
      · exact .inr ⟨o, List.mem_cons_of_mem _ ho, hc⟩

theorem Gang.opDone (g : Gang) (kid : Nat) : OpDone g { g with kops := retireOps [] (markDone kid g.kops) } kid := by
  refine ⟨rfl, fun k hk => ?_, fun k hk hne hd => ?_, fun k hk _ => ?_⟩
  · obtain ⟨o, ho, rfl⟩ := List.mem_map.1 (mem_of_mem_retireOps hk)
    refine ⟨o, ho, ?_⟩
    by_cases he : o.id = kid
    · exact .inr ⟨he, if_pos he⟩
    · exact .inl (if_neg he)
  · exact mem_retireOps_of_pending (List.mem_map.2 ⟨k, hk, if_neg hne⟩) hd
  · exact (pending_of_mem_retireOps hk).resolve_left (by simp)

/-- An operation of the gang in focus completes. -/
theorem State.doneK_focus {s : State} {gang : Nat} (h : s.g.uid = gang) (kid : Nat) :
    s.doneK gang kid = { s with g := { s.g with kops := retireOps [] (markDone kid s.g.kops) } } := if_pos h

theorem State.findGang_focus {s : State} {gang : Nat} (h : s.g.uid = gang) (h0 : gang ≠ 0) : s.findGang gang = some s.g := by
  unfold State.findGang State.allGangs
  subst h
  simp [h0]

end Sys2Proof.Machine
end

section
/-! PROOFS. FESET and CHRESET take effect after the earlier operations of k0 (R187, R264, R265). -/

namespace Sys2Proof.Machine

open Sys2Proof

/-- A step added to those that may take place. -/
theorem State.later_adds (s : State) (i : Instr) : ∃ A, s.later i = { s with agenda := A } ∧ i ∈ A ∧ ∀ j ∈ s.agenda, j ∈ A := by
  obtain ⟨hs, hin, hold⟩ := s.later_spec i
  exact ⟨_, hs, hin i List.mem_cons_self, hold⟩

theorem Gang.oldestOf_eq_true {g : Gang} {op : Nat} (h : ∀ o ∈ g.kops, o.cls = 0 → o.id < op → o.done = true) :
    g.oldestOf 0 op = true := by
  refine List.all_eq_true.2 fun o ho => ?_
  by_cases hc : o.cls = 0 ∧ o.id < op
  · rw [h o ho hc.1 hc.2, Bool.or_true]
  · simp only [Bool.or_eq_true, Bool.not_eq_true', Bool.and_eq_false_iff, beq_eq_false_iff_ne, decide_eq_false_iff_not]
    tauto

/-- The word of a FESET marked as having taken effect. -/
def markEffect (op base len : Nat) (full : Bool) (l : List KOp) : List KOp :=
  l.map fun k => if k.id = op then { k with work := .feset base len full true } else k

theorem exec_fesetEffect {s : State} {gang op base len : Nat} {full : Bool} (hn : NoneParked s) (hg : s.g.uid = gang) (h0 : gang ≠ 0)
    (hw : (s.g.kop op).map KOp.work = some (.feset base len full false))
    (ho : ∀ o ∈ s.g.kops, o.cls = 0 → o.id < op → o.done = true) :
    exec (.fesetEffect gang op) s = .next (State.later { s with
      g := { s.g with kops := markEffect op base len full s.g.kops }
      empty := if full then setFull s.empty base len else setEmpty s.empty base len } (.fesetComplete gang op)) := by
  have hs (E : List Nat) : (if full = true then (granules base len).foldl (fun s gr => s.serveGrans [gr]) { s with empty := E }
      else { s with empty := E }) = { s with empty := E } := by
    split
    · exact foldl_fixed fun gr _ => NoneParked.serveGrans (hn.of_gangs (by rfl) (by rfl)) _
    · rfl
  show execFesetEffect gang op s = _
  unfold execFesetEffect
  rw [State.findGang_focus hg h0]
  simp only [hw, Gang.oldestOf_eq_true ho, Bool.not_true, Bool.false_eq_true, if_false, hs, State.modGang, if_pos hg]
  rfl

theorem fesetEffect_spec {s : State} {gang op base len : Nat} {full : Bool} (hn : NoneParked s) (hg : s.g.uid = gang) (h0 : gang ≠ 0)
    (hw : (s.g.kop op).map KOp.work = some (.feset base len full false)) (hb : base % 16 = 0) (hl : len % 16 = 0)
    (ho : ∀ o ∈ s.g.kops, o.cls = 0 → o.id < op → o.done = true) : ∃ t, exec (.fesetEffect gang op) s = .next t
      ∧ t = { s with g := { s.g with kops := t.g.kops }, empty := t.empty, agenda := t.agenda }
      ∧ (∀ gr, gr ∈ t.empty ↔ if base ≤ 16 * gr ∧ 16 * gr < base + len then full = false else gr ∈ s.empty)
      ∧ t.g.kops = s.g.kops.map (fun o => if o.id = op then { o with work := .feset base len full true } else o)
      ∧ Instr.fesetComplete gang op ∈ t.agenda ∧ ∀ i ∈ s.agenda, i ∈ t.agenda := by
  obtain ⟨A, ht, hin, hold⟩ := State.later_adds { s with
    g := { s.g with kops := markEffect op base len full s.g.kops }
    empty := if full then setFull s.empty base len else setEmpty s.empty base len } (.fesetComplete gang op)
  refine ⟨_, (exec_fesetEffect hn hg h0 hw ho).trans (congrArg Host.Outcome.next ht), rfl, fun gr => ?_, rfl, hin, hold⟩
  cases full with
  | true =>
    show gr ∈ setFull s.empty base len ↔ _
    rw [mem_setFull, mem_granules_aligned hb hl]
    split <;> simp [*]
  | false =>
    show gr ∈ setEmpty s.empty base len ↔ _
    rw [mem_setEmpty, mem_granules_aligned hb hl]
    split <;> simp [*]

theorem fesetComplete_spec {s : State} {gang : Nat} (op : Nat) (hg : s.g.uid = gang) :
    ∃ t, exec (.fesetComplete gang op) s = .next t ∧ t = { s with g := t.g } ∧ OpDone s.g t.g op :=
  ⟨_, congrArg Host.Outcome.next (State.doneK_focus hg op), rfl, s.g.opDone op⟩

/-- What CHRESET leaves in the first 56 bytes of its object: its chunk bits and STATUS zero, the next GEN, and then zero (R264). -/
def resetObject (gen : Word) : List Byte := leBytes 36 0 ++ leBytes 4 gen.toNat ++ leBytes 16 0

theorem exec_chresetEffect {s : State} {gang op off : Nat} (hg : s.g.uid = gang) (h0 : gang ≠ 0) (hb : s.g.block = s.b.uid)
    (hd : s.b.die = s.c.die) (hc : s.b.core = s.c.idx) (hw : (s.g.kop op).map KOp.work = some (.chreset off))
    (ho : ∀ o ∈ s.g.kops, o.cls = 0 → o.id < op → o.done = true) :
    exec (.chresetEffect gang op) s = .next ((s.writeS off (resetObject (s.objGen off + 1))).doneK gang op) := by
  show execChresetEffect gang op s = _
  unfold execChresetEffect
  rw [State.findGang_focus hg h0]
  simp only [hw, Gang.oldestOf_eq_true ho, Bool.not_true, Bool.false_eq_true, if_false, State.atBlock_self hb hd hc]
  rfl

theorem leBytes_zero_getD (n j : Nat) : (leBytes n 0).getD j 0 = 0 := by
  rw [← byteOf_leNat, leNat_leBytes]
  simp [byteOf]

theorem resetObject_length (gen : Word) : (resetObject gen).length = 56 := by simp [resetObject, length_leBytes]

theorem resetObject_zero (gen : Word) {j : Nat} (hj : j < 36 ∨ 40 ≤ j) : (resetObject gen).getD j 0 = 0 := by
  have hl : (leBytes 36 0 ++ leBytes 4 gen.toNat).length = 40 := by simp [length_leBytes]
  unfold resetObject
  rcases hj with hj | hj
  · rw [List.getD_append _ _ _ _ (by omega), List.getD_append _ _ _ _ (by rwa [length_leBytes]), leBytes_zero_getD]
  · rw [List.getD_append_right _ _ _ _ (by omega), leBytes_zero_getD]

theorem resetObject_gen (gen : Word) : leNat (((resetObject gen).drop 36).take 4) = gen.toNat := by
  have e : ((resetObject gen).drop 36).take 4 = leBytes 4 gen.toNat := by
    unfold resetObject
    rw [List.append_assoc, List.drop_left' (length_leBytes _ _), List.take_left' (length_leBytes _ _)]
  rw [e, leNat_leBytes]
  exact Nat.mod_eq_of_lt gen.isLt

theorem State.objGen_toNat (s : State) (obj : Nat) : (s.objGen obj).toNat = memNat s.mem (atS s.b.uid (obj + 36)) 4 := by
  rw [State.objGen, BitVec.toNat_ofNat]
  exact Nat.mod_eq_of_lt (memNat_lt _ _ _)

theorem atS_add (block off k : Nat) : atS block (off + k) = atS block off + k := by unfold atS; omega

theorem State.writeS_doneK {s : State} {gang : Nat} (hn : NoneParked s) (hg : s.g.uid = gang) (off : Nat) (l : List Byte) (kid : Nat) :
    (s.writeS off l).doneK gang kid = { s with
      g := { s.g with kops := retireOps [] (markDone kid s.g.kops) }, mem := memWrite s.mem (atS s.b.uid off) l
      ue := clearUE s.ue (atS s.b.uid off) l.length, empty := setFull s.empty (atS s.b.uid off) l.length } := by
  rw [State.writeS_eq hn]
  exact State.doneK_focus (by exact hg) kid

theorem chresetEffect_spec {s : State} {gang op off : Nat} (hm : Memory.wf s.mem = true) (hn : NoneParked s) (hg : s.g.uid = gang)
    (h0 : gang ≠ 0) (hb : s.g.block = s.b.uid) (hd : s.b.die = s.c.die) (hc : s.b.core = s.c.idx)
    (hw : (s.g.kop op).map KOp.work = some (.chreset off)) (ho : ∀ o ∈ s.g.kops, o.cls = 0 → o.id < op → o.done = true) :
    ∃ t, exec (.chresetEffect gang op) s = .next t
      ∧ t = { s with g := t.g, mem := t.mem, ue := t.ue, empty := t.empty } ∧ OpDone s.g t.g op
      ∧ (∀ a, a < atS s.b.uid off ∨ atS s.b.uid (off + 56) ≤ a → memGet t.mem a = memGet s.mem a)
      ∧ (∀ i, i < 36 → memGet t.mem (atS s.b.uid (off + i)) = 0)
      ∧ (∀ i, 40 ≤ i → i < 56 → memGet t.mem (atS s.b.uid (off + i)) = 0)
      ∧ memNat t.mem (atS s.b.uid (off + 36)) 4 = (memNat s.mem (atS s.b.uid (off + 36)) 4 + 1) % 2 ^ 32 := by
  obtain ⟨l, hl⟩ : ∃ l, l = resetObject (s.objGen off + 1) := ⟨_, rfl⟩
  have hlen : l.length = 56 := hl ▸ resetObject_length _
  have zero (i : Nat) (hi : i < 36 ∨ 40 ≤ i ∧ i < 56) : memGet (memWrite s.mem (atS s.b.uid off) l) (atS s.b.uid (off + i)) = 0 := by
    rw [atS_add, memGet_memWrite hm, if_pos (by omega), Nat.add_sub_cancel_left, hl, resetObject_zero _ (by omega)]
  have hx := exec_chresetEffect hg h0 hb hd hc hw ho
  rw [← hl, State.writeS_doneK hn hg] at hx
  refine ⟨_, hx, rfl, s.g.opDone op, fun a ha => ?_, fun i hi => zero i (.inl hi), fun i h1 h2 => zero i (.inr ⟨h1, h2⟩), ?_⟩
  · rw [atS_add] at ha
    exact (memGet_memWrite hm _ _ _).trans (if_neg (by omega))
  · show leNat (memBytes (memWrite _ _ _) _ _) = _
    rw [atS_add, memBytes_memWrite hm _ _ _ _ (by omega), hl, resetObject_gen, BitVec.toNat_add, State.objGen_toNat, atS_add]
    rfl

end Sys2Proof.Machine
end

section
/-! PROOFS. How a collective fails and ends (R246, R252, R253). -/

namespace Sys2Proof.Machine

open Sys2Proof

/-! ## The parts of a collective and its entry in the matrix queue -/

theorem State.doneParts3_single (s : State) {p : Part} (h : p.kid3 = none) : s.doneParts3 [p] = s := by
  simp [State.doneParts3, h]

theorem State.dropEntry_none {s : State} (h : ∀ x ∈ s.c.mxq, x.coll = none) (n : Nat) : s.dropEntry n = s := by
  have e : s.c.mxq.filter (fun c => !(c.block == s.b.uid && c.coll == some n)) = s.c.mxq :=
    List.filter_eq_self.2 fun x hx => by simp [h x hx]
  rw [State.dropEntry, e]

theorem State.foldl_notLater (f : Nat → Instr) (l : List Nat) (s : State) :
    ∃ A, l.foldl (fun s k => s.notLater (f k)) s = { s with agenda := A } ∧ ∀ i ∈ A, i ∈ s.agenda := by
  induction l generalizing s with
  | nil => exact ⟨s.agenda, rfl, fun _ h => h⟩
  | cons k t ih =>
    obtain ⟨A, hA, hsub⟩ := ih (s.notLater (f k))
    exact ⟨A, hA, fun i hi => List.mem_of_mem_filter (hsub i hi)⟩

/-! ## The end -/

/-- The status and the address that a collective ends with (R253). -/
def Coll.final (c : Coll) : Nat × DWord := c.fail.getD (2, 0)

/-- STATUS and FADDR written, while GEN holds. -/
def State.writeFinal (s : State) (c : Coll) : State :=
  if s.objGen c.obj == c.gen then
    (s.writeS (c.obj + 32) (leBytes 1 c.final.1)).writeS (c.obj + 40) (leBytes 8 c.final.2.toNat)
  else s

theorem State.objGen_eq_iff (s : State) (obj : Nat) (gen : Word) :
    (s.objGen obj == gen) = true ↔ memNat s.mem (atS s.b.uid (obj + 36)) 4 = gen.toNat := by
  rw [beq_iff_eq, ← State.objGen_toNat, BitVec.toNat_inj]

/-- Two writes that the engine makes one after the other, where no word is parked. -/
theorem State.writeS_writeS_eq {s : State} (h : NoneParked s) (off off' : Nat) (l l' : List Byte) :
    ∃ U E, (s.writeS off l).writeS off' l' =
      { s with mem := memWrite (memWrite s.mem (atS s.b.uid off) l) (atS s.b.uid off') l', ue := U, empty := E } := by
  rw [State.writeS_eq h]
  exact ⟨_, _, State.writeS_eq (h.of_gangs (by rfl) (by rfl)) _ _⟩

theorem State.writeFinal_spec {s : State} (hm : Memory.wf s.mem = true) (hn : NoneParked s) (c : Coll) (hst : c.final.1 < 256) :
    ∃ M U E, s.writeFinal c = { s with mem := M, ue := U, empty := E }
      ∧ if memNat s.mem (atS s.b.uid (c.obj + 36)) 4 = c.gen.toNat then
          memNat M (atS s.b.uid (c.obj + 32)) 1 = c.final.1 ∧ memNat M (atS s.b.uid (c.obj + 40)) 8 = c.final.2.toNat
          ∧ ∀ a, a ≠ atS s.b.uid (c.obj + 32) → (a < atS s.b.uid (c.obj + 40) ∨ atS s.b.uid (c.obj + 48) ≤ a) → memGet M a = memGet s.mem a
        else M = s.mem := by
  unfold State.writeFinal
  simp only [State.objGen_eq_iff]
  split
  · obtain ⟨U, E, he⟩ := State.writeS_writeS_eq hn (c.obj + 32) (c.obj + 40) (leBytes 1 c.final.1) (leBytes 8 c.final.2.toNat)
    have hm' := wf_memWrite hm (atS s.b.uid (c.obj + 32)) (leBytes 1 c.final.1)
    simp only [atS_add] at he hm' ⊢
    refine ⟨_, _, _, he, ?_, ?_, fun a h1 h2 => ?_⟩
    · rw [memNat_one, memGet_memWrite hm', if_neg (by omega), memGet_memWrite hm, if_pos ⟨le_rfl, by simp [length_leBytes]⟩,
        Nat.sub_self, getD_leBytes _ Nat.one_pos]
      simpa [byteOf] using hst
    · have e := memBytes_memWrite hm' (atS s.b.uid c.obj + 40) 0 8 (leBytes 8 c.final.2.toNat) (by simp [length_leBytes])
      rw [Nat.add_zero, List.drop_zero, List.take_of_length_le (by simp [length_leBytes])] at e
      rw [memNat, e, leNat_leBytes]
      exact Nat.mod_eq_of_lt c.final.2.isLt
    · rw [memGet_memWrite hm', if_neg (by rw [length_leBytes]; omega), memGet_memWrite hm, if_neg (by rw [length_leBytes]; omega)]
  · exact ⟨s.mem, s.ue, s.empty, rfl, rfl⟩

/-- The state without a collective of the block in focus. -/
def State.dropColl (s : State) (n : Nat) : State := { s with b := { s.b with colls := s.b.colls.filter fun x => x.num != n } }

theorem exec_collectiveEnd {s : State} {block coll : Nat} {c : Coll} (hb : (s.atBlock block).b.uid = block)
    (hc : (s.atBlock block).b.colls.find? (fun x => x.num == coll) = some c) (hk : c.kill = false) (hf : c.followed = false)
    (hr : ∀ r ∈ (s.atBlock block).fab.requests, r.block = block → r.coll = coll → r.expired = true) :
    exec (.collectiveEnd block coll) s = .next (State.dropColl (
      (((upto c.expect).foldl (fun s k => s.notLater (.chunkLanded block coll k))
        (((s.atBlock block).writeFinal c).doneParts c.parts)).dropEntry coll).doneParts3 c.parts) coll) := by
  have hr' : (s.atBlock block).fab.requests.any (fun r => r.block == block && r.coll == coll && !r.expired) = false := by
    rw [List.any_eq_false]
    intro r hr0
    have := hr r hr0
    simp
    tauto
  show execCollectiveEnd block coll s = _
  unfold execCollectiveEnd State.writeFinal Coll.final
  extract_lets u
  rw [hc]
  refine congrArg Host.Outcome.next ((if_neg (by simp [u, hb, hk])).trans ((if_neg (by rw [hr']; exact Bool.false_ne_true)).trans ?_))
  extract_lets st v d w w3
  have hst : st = c.fail.getD (2, 0) := by
    unfold st
    cases c.fail <;> rfl
  have hv : v = (if u.objGen c.obj == c.gen then
      (u.writeS (c.obj + 32) (leBytes 1 (c.fail.getD (2, 0)).1)).writeS (c.obj + 40) (leBytes 8 (c.fail.getD (2, 0)).2.toNat) else u) := by
    rw [← hst]
  have hw : w3 = ((((upto c.expect).foldl (fun s k => s.notLater (.chunkLanded block coll k)) (v.doneParts c.parts)).dropEntry coll).doneParts3
      c.parts) := if_neg (by simp [hf])
  exact (if_neg (by simp [hf])).trans (congrArg (State.dropColl · coll) (hv ▸ hw))

theorem collectiveEnd_spec {s : State} {block coll : Nat} {c : Coll} {p : Part} (hm : Memory.wf s.mem = true) (hn : NoneParked s)
    (hb : (s.atBlock block).b.uid = block) (hc : (s.atBlock block).b.colls.find? (fun x => x.num == coll) = some c)
    (hk : c.kill = false) (hf : c.followed = false) (hp : c.parts = [p]) (h3 : p.kid3 = none) (hg : (s.atBlock block).g.uid = p.gang)
    (hq : ∀ x ∈ (s.atBlock block).c.mxq, x.coll = none)
    (hr : ∀ r ∈ (s.atBlock block).fab.requests, r.block = block → r.coll = coll → r.expired = true) (hst : c.final.1 < 256) :
    ∃ t, exec (.collectiveEnd block coll) s = .next t
      ∧ t = { s.atBlock block with
          g := t.g, b := { (s.atBlock block).b with colls := (s.atBlock block).b.colls.filter fun x => x.num != coll }
          mem := t.mem, ue := t.ue, empty := t.empty, agenda := t.agenda }
      ∧ OpDone (s.atBlock block).g t.g p.kid
      ∧ (if memNat (s.atBlock block).mem (atS block (c.obj + 36)) 4 = c.gen.toNat then
          memNat t.mem (atS block (c.obj + 32)) 1 = c.final.1 ∧ memNat t.mem (atS block (c.obj + 40)) 8 = c.final.2.toNat
          ∧ ∀ a, a ≠ atS block (c.obj + 32) → (a < atS block (c.obj + 40) ∨ atS block (c.obj + 48) ≤ a) →
              memGet t.mem a = memGet (s.atBlock block).mem a
        else t.mem = (s.atBlock block).mem)
      ∧ ∀ i ∈ t.agenda, i ∈ (s.atBlock block).agenda := by
  have hx := exec_collectiveEnd hb hc hk hf hr
  have hm' : Memory.wf (s.atBlock block).mem = true := by rwa [State.atBlock_mem]
  have hn' := hn.atBlock block
  revert hx hb hc hg hq hr hm' hn'
  generalize s.atBlock block = u
  intro hb hc hg hq hr hx hm' hn'
  obtain ⟨M, U, E, hw, hmem⟩ := State.writeFinal_spec hm' hn' c hst
  obtain ⟨A, hA, hsub⟩ := State.foldl_notLater (.chunkLanded block coll) (upto c.expect) { u with
    g := { u.g with kops := retireOps [] (markDone p.kid u.g.kops) }, mem := M, ue := U, empty := E }
  rw [hp, hw, State.doneParts3_single _ h3] at hx
  have hd : State.doneParts { u with mem := M, ue := U, empty := E } [p] = { u with
      g := { u.g with kops := retireOps [] (markDone p.kid u.g.kops) }, mem := M, ue := U, empty := E } :=
    State.doneK_focus (by exact hg) p.kid
  rw [hd, hA, State.dropEntry_none (by exact hq)] at hx
  rw [hb] at hmem
  exact ⟨_, hx, rfl, u.g.opDone p.kid, hmem, hsub⟩

/-! ## A failure -/

theorem State.gaveUp_eq {s : State} {h : Nat} {l : List Nat} (hl : ∀ n ∈ l, s.noReply h n = false) : s.gaveUp h l = s := by
  have e : l.filter (s.noReply h) = [] := List.filter_eq_nil_iff.2 fun n hn => by simp [hl n hn]
  rw [State.gaveUp, e]
  rfl

/-- Elements whose ends are in other packages write nothing here. -/
def AllRemote (rs : List Ready) : Prop := ∀ r ∈ rs, ∃ q e, r.dst = .remote q e

theorem AllRemote.chunkAbort {rs : List Ready} (h : AllRemote rs) (s : State) : s.chunkAbort rs = none := by
  refine List.findSome?_eq_none_iff.2 fun r hr => ?_
  obtain ⟨q, e, he⟩ := h r hr
  rw [he]

theorem AllRemote.chunkWriteLines {rs : List Ready} (h : AllRemote rs) (s : State) : s.chunkWriteLines rs = [] := by
  have e : s.chunkWrites rs = [] := by
    refine List.flatMap_eq_nil_iff.2 fun r hr => ?_
    obtain ⟨q, e, he⟩ := h r hr
    rw [he]
  rw [State.chunkWriteLines, e]
  rfl

/-- An element that could be written when another of its chunk failed. -/
def Ready.startable (r : Ready) : Bool :=
  match r.dst with
  | .flat _ | .slot _ _ => true
  | _ => false

theorem AllRemote.started {rs : List Ready} (h : AllRemote rs) : rs.filter Ready.startable = [] := by
  refine List.filter_eq_nil_iff.2 fun r hr => ?_
  obtain ⟨q, e, he⟩ := h r hr
  simp [Ready.startable, he]

/-- Where nothing has been started, nothing is written and no granule filled. -/
theorem State.performElems_nil (s : State) (c : Coll) (ks : List Nat) : (s.performElems c []).fillGranules c (elemsFlat []) ks = s :=
  State.fill_nil s

/-- A failure fixed in its collective, unless an earlier one has been. -/
def Coll.failing (c : Coll) (f : EngineFail) : Coll :=
  if c.fail.isSome then c else { c with fail := some (f.status, BitVec.ofNat 64 f.addr) }

theorem State.request_none {s : State} {n : Nat} (h : ∀ r ∈ s.fab.requests, r.block ≠ s.b.uid ∨ r.coll ≠ n) (k : Nat) :
    s.request n k = none := by
  refine List.find?_eq_none.2 fun r hr => ?_
  have := h r hr
  simp
  tauto

theorem exec_copyFailure {s : State} {block coll k a : Nat} {c : Coll} {rs : List Ready} (hb : (s.atBlock block).b.uid = block)
    (hc : (s.atBlock block).b.colls.find? (fun x => x.num == coll) = some c) (hfail : c.fail = none) (hk : c.kill = false)
    (hl : c.landed.contains k = false) (hr : ∀ r ∈ (s.atBlock block).fab.requests, r.block ≠ block ∨ r.coll ≠ coll)
    (hends : (s.atBlock block).chunkEnds coll (wholeElems (c.elems k)) = (rs, [.range a]))
    (hn : ∀ n, (s.atBlock block).noReply (s.atBlock block).b.die n = false) (hrs : AllRemote rs) :
    exec (.copyFailure block coll k) s = .next ((s.atBlock block).failChunk coll (.range a)) := by
  have hreq : (s.atBlock block).request coll k = none := State.request_none (by rwa [hb]) k
  show execCopyFailure block coll k s = _
  unfold execCopyFailure
  extract_lets u
  rw [hc]
  refine congrArg Host.Outcome.next ((if_neg (by simp [u, hb, hk]; simpa using hl)).trans ((if_neg (by rw [hreq]; exact Bool.false_ne_true)).trans
    ((if_neg (by simp [hfail])).trans ?_)))
  extract_lets r started v lines
  have hends : r = (rs, [.range a]) := hends
  have hs : started = [] := by
    unfold started
    rw [hends]
    exact hrs.started
  have hv : v = u := by
    unfold v
    rw [hs, State.performElems_nil, ite_self]
  rw [hends, hv, hrs.chunkAbort, hrs.chunkWriteLines, State.gaveUp_eq fun n _ => hn n, State.gaveUp_eq (by simp)]
  rfl

theorem copyFailure_spec {s : State} {block coll k a : Nat} {c : Coll} {rs : List Ready} (hb : (s.atBlock block).b.uid = block)
    (hc : (s.atBlock block).b.colls.find? (fun x => x.num == coll) = some c) (hfail : c.fail = none) (hk : c.kill = false)
    (hl : c.landed.contains k = false) (hr : ∀ r ∈ (s.atBlock block).fab.requests, r.block ≠ block ∨ r.coll ≠ coll)
    (hends : (s.atBlock block).chunkEnds coll (wholeElems (c.elems k)) = (rs, [.range a]))
    (hn : ∀ n, (s.atBlock block).noReply (s.atBlock block).b.die n = false) (hrs : AllRemote rs) :
    ∃ t, exec (.copyFailure block coll k) s = .next t
      ∧ t = { s.atBlock block with b := { (s.atBlock block).b with colls := t.b.colls }, agenda := t.agenda }
      ∧ t.b.colls = (s.atBlock block).b.colls.map (fun x =>
          if x.num = coll ∧ x.fail = none then { x with fail := some (3, BitVec.ofNat 64 a) } else x)
      ∧ (∀ i ∈ [Instr.collectiveEnd block coll], i ∈ t.agenda) ∧ ∀ i ∈ (s.atBlock block).agenda, i ∈ t.agenda := by
  have hx := exec_copyFailure hb hc hfail hk hl hr hends hn hrs
  revert hx hb
  generalize s.atBlock block = u
  intro hb hx
  obtain ⟨A, hA, hin, hold⟩ := State.later_adds (u.modColl coll fun x => x.failing (.range a)) (.collectiveEnd u.b.uid coll)
  refine ⟨_, hx.trans (congrArg Host.Outcome.next hA), rfl, List.map_congr_left fun x _ => ?_, ?_, hold⟩
  · cases hxf : x.fail <;> by_cases hxn : x.num = coll <;> simp [Coll.failing, hxf, hxn, EngineFail.status, EngineFail.addr]
  · rw [← hb]
    simpa using hin

end Sys2Proof.Machine
end

section
/-! PROOFS. A collective with one part starts: it is discarded, malformed or running (R244, R249, R251). -/

namespace Sys2Proof.Machine

open Sys2Proof

/-! ## Sources read at the start -/

theorem State.noteRead_frame (s : State) (task : Nat) (x : Xlat) : ∃ K, s.noteRead task x = { s with ck := K } := by
  unfold State.noteRead
  split
  · exact ⟨s.ck, rfl⟩
  cases s.operOf task with
  | none => exact ⟨s.ck, rfl⟩
  | some o =>
    dsimp only
    split
    · exact ⟨_, rfl⟩
    · exact ⟨_, rfl⟩

theorem State.foldl_ck {α : Type} (f : State → α → State) (hf : ∀ s x, ∃ K, f s x = { s with ck := K }) (l : List α) (s : State) :
    ∃ K, l.foldl f s = { s with ck := K } := by
  induction l generalizing s with
  | nil => exact ⟨s.ck, rfl⟩
  | cons x t ih =>
    obtain ⟨K, hK⟩ := hf s x
    obtain ⟨K', hK'⟩ := ih (f s x)
    refine ⟨K', hK'.trans ?_⟩
    rw [hK]

theorem State.noteSource_frame (s : State) (x : Source) : ∃ K, s.noteSource x = { s with ck := K } := by
  cases x with
  | flat p => exact ⟨s.ck, rfl⟩
  | pages l => exact State.foldl_ck _ (fun s g => s.noteRead_frame _ _) l s

theorem locate_mem {l : List (Part × Desc)} {k : Nat} {p : Part} {d : Desc} {i : Nat} (h : locate l k = some (p, d, i)) : (p, d) ∈ l := by
  induction l generalizing k with
  | nil => cases h
  | cons x t ih =>
    rw [locate] at h
    split at h
    · cases h
      exact List.mem_cons_self
    · exact List.mem_cons_of_mem _ (ih h)

theorem elemsOf_mem {l : List (Part × Desc)} {js : List Nat} {e : Elem} (h : e ∈ elemsOf l js) : (e.part, e.d) ∈ l := by
  induction js generalizing e with
  | nil => cases h
  | cons j t ih =>
    rw [elemsOf] at h
    split at h
    · exact ih h
    case _ p d i hloc =>
      have hpd := locate_mem hloc
      dsimp only at h
      split at h
      case _ e0 es heq =>
        rw [heq] at ih
        split at h
        · rcases List.mem_cons.1 h with rfl | h
          · exact ih (e := e0) List.mem_cons_self
          · exact ih (List.mem_cons_of_mem _ h)
        · rcases List.mem_cons.1 h with rfl | h
          · exact hpd
          · exact ih h
      · rw [List.mem_singleton] at h
        subst h
        exact hpd

/-- A source outside G stands at a flat address. -/
theorem State.elemSource_flat {s : State} {e : Elem} {x : Source} (hs : e.d.ssp ≠ 0) (h : s.elemSource e = .ok x) : ∃ p, x = .flat p := by
  unfold State.elemSource at h
  dsimp only at h
  rw [if_neg hs] at h
  split at h
  · cases h
  split at h
  · cases h
  · cases h
    exact ⟨_, rfl⟩

theorem State.sourcesNow_flat {s : State} {l : List (Part × Desc)} {total : Nat} (hl : ∀ x ∈ l, x.2.ssp ≠ 0) :
    ∀ y ∈ s.sourcesNow l total, ∃ p, y.2 = .flat p := by
  intro y hy
  obtain ⟨e, he, hx⟩ := List.mem_filterMap.1 hy
  split at hx
  · cases hx
  split at hx
  case _ x hex =>
    cases hx
    exact State.elemSource_flat (hl _ (elemsOf_mem he)) hex
  · cases hx

/-- The sources of a stream noted: only the checker's records change, and not where none of them is in G. -/
theorem State.noteSources {s : State} (got : List (Elem × Source)) :
    ∃ K, got.foldl (fun s x => s.noteSource x.2) s = { s with ck := K } ∧ ((∀ y ∈ got, ∃ p, y.2 = .flat p) → K = s.ck) := by
  obtain ⟨K, hK⟩ := State.foldl_ck (fun s (x : Elem × Source) => s.noteSource x.2) (fun s x => s.noteSource_frame x.2) got s
  refine ⟨K, hK, fun hflat => ?_⟩
  have e : got.foldl (fun s x => s.noteSource x.2) s = s := foldl_fixed fun y hy => by
    obtain ⟨p, hp⟩ := hflat y hy
    rw [hp]
    rfl
  exact (congrArg State.ck (hK.symm.trans e))

/-! ## The next collective, of one part -/

/-- The next collective of the block in focus has one part, a CPART with a descriptor. -/
structure OnePart (u : State) (p : Part) (d : Desc) : Prop where
  parts : u.b.parts = [p]
  coll : p.coll = u.b.nextColl
  minor : p.minor = 0
  kid3 : p.kid3 = none
  desc : p.desc.map parseDesc = some d

/-- The state in which the parts of the next collective have been taken off the block. -/
def State.partsTaken (u : State) : State := { u with b := { u.b with parts := [], nextColl := u.b.nextColl + 1 } }

/-- The collective made for a malformed one: its parts carry nothing (R249). -/
def State.malformedColl (s : State) (p : Part) (d : Desc) (n : Nat) : Coll :=
  { num := n, parts := [{ p with desc := none }], obj := d.chobj, gen := s.objGen d.chobj, expect := 0, landed := [], fail := some (6, 0) }

/-- The collective made for a part that is to be copied (R251). -/
def State.runningColl (s : State) (p : Part) (d : Desc) (n : Nat) : Coll :=
  { num := n, parts := [p], obj := d.chobj, gen := s.objGen d.chobj, expect := (streamBytes [(p, d)] + 511) / 512, landed := [], fail := none
    orig := (s.sourcesNow [(p, d)] (streamBytes [(p, d)])).map fun x => (x.1.part.rank, x.1.k, s.sourceValue x.2)
    dty := match s.b.bound d.dslot with
      | some sl => sl.ty
      | none => 0 }

/-- A collective added to the block in focus, some granules made empty. -/
def State.addColl (s : State) (c : Coll) (grans : List Nat) : State :=
  { s with b := { s.b with colls := s.b.colls ++ [c] }, empty := grans.foldl insertNat s.empty }

/-- STATUS, the counts of the object and the granules of a collective that starts running, and the collective itself. -/
def State.setRunning (s : State) (p : Part) (d : Desc) (n : Nat) : State :=
  let c := s.runningColl p d n
  let t := (s.sourcesNow [(p, d)] (streamBytes [(p, d)])).foldl (fun s x => s.noteSource x.2) s
  let t := (t.writeS (d.chobj + 32) (leBytes 1 1)).writeS (d.chobj + 48) (leBytes 4 c.expect ++ leBytes 4 (streamBytes [(p, d)]))
  let fe := if p.minor ≤ 3 then (feDests t.b [(p, d)] (upto (streamBytes [(p, d)]))).map (· / 16) else []
  t.addColl c fe.eraseDups

section
variable {u : State} {p : Part} {d : Desc} (h : OnePart u p d)
include h

theorem OnePart.mine : (u.b.parts.filter fun p => p.coll == u.b.nextColl) = [p] := by
  rw [h.parts]
  simp [h.coll]

theorem OnePart.stream : streamParts [p] = [(p, d)] := by
  have e : p.parsed = some d := h.desc
  simp [streamParts, e]

theorem OnePart.canStart (hin : u.partsIn = true) : u.canStart = true := by
  rw [State.canStart, hin, h.mine]
  simp [h.minor]

theorem OnePart.total : streamBytes [(p, d)] = d.count * 2 ^ d.esize := by
  simp [streamBytes, partBytes, Desc.dsz, h.minor]

theorem OnePart.withIndex (s : State) : [p].map s.withIndex = [p] := by
  have e : p.parsed = some d := h.desc
  simp [State.withIndex, e, h.minor]

theorem OnePart.indexFail (s : State) : s.indexFail [(p, d)] = none := by
  simp [State.indexFail, h.minor]

/-- The three outcomes of the start of a collective of one part: discarded, malformed, running (R251). -/
theorem OnePart.startColl_eq : u.startColl =
    if memNat u.mem (atS u.b.uid (d.chobj + 32)) 1 ≠ 0 ∨ memNat u.mem (atS u.b.uid (d.chobj + 36)) 4 ≠ d.gen then
      (((u.partsTaken.countPart 0x016 [p]).dropEntry u.b.nextColl).doneParts [p]).doneParts3 [p]
    else if u.collBad [p] then
      State.later { u.partsTaken.countPart 0x015 [p] with
        b := { u.partsTaken.b with colls := u.b.colls ++ [u.partsTaken.malformedColl p d u.b.nextColl] } } (.collectiveEnd u.b.uid u.b.nextColl)
    else
      let s := (u.partsTaken.countPart 0x015 [p]).setRunning p d u.b.nextColl
      if (streamBytes [(p, d)] + 511) / 512 = 0 then s.later (.collectiveEnd s.b.uid u.b.nextColl)
      else (upto ((streamBytes [(p, d)] + 511) / 512)).foldl (fun s k => s.later (.chunkLanded s.b.uid u.b.nextColl k)) s := by
  unfold State.startColl
  extract_lets +onlyGivenNames n ps x s1
  have hps : ps = [p] := congrArg (List.foldr insertPart []) h.mine
  have hs1 : s1 = u.partsTaken := by
    have e : u.b.parts.filter (fun p => p.coll != u.b.nextColl) = [] := by
      rw [h.parts]
      simp [h.coll]
    unfold s1 State.partsTaken
    rw [e]
  clear_value ps s1
  clear x
  subst hps hs1
  rw [h.stream]
  refine if_congr (by rw [State.objGen_toNat]; rfl) rfl (if_congr Iff.rfl rfl ?_)
  extract_lets +onlyGivenNames s2 ps l
  have hps : ps = [p] := h.withIndex s2
  have hl : l = [(p, d)] := (congrArg streamParts hps).trans h.stream
  clear_value ps l
  subst hps hl
  extract_lets +onlyGivenNames total got dty c s3 s4 s5 fe x s6
  have hadd : s6 = s5.addColl c fe.eraseDups := rfl
  rw [h.indexFail, hadd]
  rfl

end

/-! ## The bytes of an object whose collective runs -/

/-- What the counts of an object hold: chunks, then bytes (R251). -/
def countBytes (total : Nat) : List Byte := leBytes 4 ((total + 511) / 512) ++ leBytes 4 total

/-- Memory with a collective of `total` bytes running at an object. -/
def runningMem (m : List Host.Cell) (block obj total : Nat) : List Host.Cell :=
  memWrite (memWrite m (atS block (obj + 32)) (leBytes 1 1)) (atS block (obj + 48)) (countBytes total)

theorem runningMem_spec {m : List Host.Cell} (hm : Memory.wf m = true) (block obj total : Nat) :
    memNat (runningMem m block obj total) (atS block (obj + 32)) 1 = 1
      ∧ memNat (runningMem m block obj total) (atS block (obj + 48)) 4 = ((total + 511) / 512) % 2 ^ 32
      ∧ memNat (runningMem m block obj total) (atS block (obj + 52)) 4 = total % 2 ^ 32
      ∧ ∀ a, a ≠ atS block (obj + 32) → (a < atS block (obj + 48) ∨ atS block (obj + 56) ≤ a) →
          memGet (runningMem m block obj total) a = memGet m a := by
  have hm' := wf_memWrite hm (atS block (obj + 32)) (leBytes 1 1)
  have hlen : (countBytes total).length = 8 := by simp [countBytes, length_leBytes]
  have hcount : (countBytes total).take 4 = leBytes 4 ((total + 511) / 512) := List.take_left' (length_leBytes _ _)
  have htotal : (countBytes total).drop 4 = leBytes 4 total := List.drop_left' (length_leBytes _ _)
  unfold runningMem
  refine ⟨?_, ?_, ?_, fun a h1 h2 => ?_⟩
  · simp only [atS_add] at hm' ⊢
    rw [memNat_one, memGet_memWrite hm', if_neg (by omega), memGet_memWrite hm, if_pos ⟨le_rfl, by simp [length_leBytes]⟩, Nat.sub_self]
    rfl
  · have e := memBytes_memWrite hm' (atS block (obj + 48)) 0 4 (countBytes total) (by omega)
    rw [List.drop_zero, hcount] at e
    exact (congrArg leNat e).trans (leNat_leBytes _ _)
  · have e := memBytes_memWrite hm' (atS block (obj + 48)) 4 4 (countBytes total) (by omega)
    rw [htotal, List.take_of_length_le (length_leBytes _ _).le] at e
    rw [show atS block (obj + 52) = atS block (obj + 48) + 4 by rw [atS_add, atS_add]]
    exact (congrArg leNat e).trans (leNat_leBytes _ _)
  · simp only [atS_add] at hm' h1 h2 ⊢
    rw [memGet_memWrite hm', if_neg (by omega), memGet_memWrite hm, if_neg (by rw [length_leBytes]; omega)]

theorem State.setRunning_frame {s : State} (hn : NoneParked s) (p : Part) (d : Desc) (n : Nat) : ∃ K U E, s.setRunning p d n = { s with
      b := { s.b with colls := s.b.colls ++ [s.runningColl p d n] }, mem := runningMem s.mem s.b.uid d.chobj (streamBytes [(p, d)])
      ck := K, ue := U, empty := E } ∧ (d.ssp ≠ 0 → K = s.ck) := by
  obtain ⟨K, hK, hflat⟩ := State.noteSources (s := s) (s.sourcesNow [(p, d)] (streamBytes [(p, d)]))
  obtain ⟨U, E, hw⟩ := State.writeS_writeS_eq (s := { s with ck := K }) (hn.of_gangs rfl rfl) (d.chobj + 32) (d.chobj + 48) (leBytes 1 1)
    (countBytes (streamBytes [(p, d)]))
  unfold State.setRunning
  extract_lets c t t2 fe
  refine ⟨K, U, fe.eraseDups.foldl insertNat E, ?_, fun hs => hflat (State.sourcesNow_flat (by simpa using hs))⟩
  have ht : t2 = _ := (congrArg (fun t : State => (t.writeS (d.chobj + 32) (leBytes 1 1)).writeS (d.chobj + 48)
    (countBytes (streamBytes [(p, d)]))) hK).trans hw
  exact congrArg (fun t : State => t.addColl c fe.eraseDups) ht

/-- Steps that name the block in focus, added one by one. -/
theorem State.foldl_later (f : Nat → Nat → Instr) (l : List Nat) (s : State) :
    ∃ A, l.foldl (fun s k => s.later (f s.b.uid k)) s = { s with agenda := A }
      ∧ (∀ i ∈ l.map (f s.b.uid), i ∈ A) ∧ ∀ i ∈ s.agenda, i ∈ A := by
  induction l generalizing s with
  | nil => exact ⟨s.agenda, rfl, by simp, fun _ h => h⟩
  | cons k t ih =>
    obtain ⟨B, hB, hin, hold⟩ := s.later_adds (f s.b.uid k)
    obtain ⟨A, hA, hin', hold'⟩ := ih (s.later (f s.b.uid k))
    rw [hB] at hA hin' hold'
    refine ⟨A, (congrArg (List.foldl _ · t) hB).trans hA, fun i hi => ?_, fun i hi => hold' i (hold i hi)⟩
    rcases List.mem_cons.1 hi with rfl | hi
    · exact hold' _ hin
    · exact hin' i hi

/-! ## COLLECTIVE_START -/

section
variable {s u : State} {block : Nat} {p : Part} {d : Desc} (hu : s.atBlock block = u) (h : OnePart u p d) (hb : u.b.uid = block)
  (hin : u.partsIn = true) (hs : u.servedFirst = true)
include hu h hb hin hs

theorem exec_collectiveStart (he : u.startColl.b.parts = []) : exec (.collectiveStart block) s = .next u.startColl := by
  have hc : (u.b.uid != block || u.b.parts.isEmpty) = false := by simp [hb, h.parts]
  show execCollectiveStart block s = _
  unfold execCollectiveStart
  rw [hu]
  simp only [hc, h.canStart hin, hs, he, Bool.and_self, List.isEmpty_nil, Bool.false_eq_true, if_false, if_true]

theorem collectiveStart_discarded (hg : u.g.uid = p.gang)
    (ha : memNat u.mem (atS block (d.chobj + 32)) 1 ≠ 0 ∨ memNat u.mem (atS block (d.chobj + 36)) 4 ≠ d.gen) :
    ∃ t, exec (.collectiveStart block) s = .next t
      ∧ t = { u with g := t.g, b := { u.b with parts := [], nextColl := u.b.nextColl + 1 }, c := t.c } ∧ OpDone u.g t.g p.kid := by
  subst hb
  have e := h.startColl_eq.trans (if_pos ha)
  rw [State.doneParts3_single _ h.kid3] at e
  have e' := e.trans (State.doneK_focus (by exact hg) p.kid)
  exact ⟨_, (exec_collectiveStart hu h rfl hin hs (by rw [e']; rfl)).trans (congrArg Host.Outcome.next e'), rfl, u.g.opDone p.kid⟩

theorem collectiveStart_malformed (ha : memNat u.mem (atS block (d.chobj + 32)) 1 = 0) (hgen : memNat u.mem (atS block (d.chobj + 36)) 4 = d.gen)
    (hbad : u.collBad [p] = true) : ∃ t cl, exec (.collectiveStart block) s = .next t
      ∧ t = { u with
          b := { u.b with parts := [], nextColl := u.b.nextColl + 1, colls := u.b.colls ++ [cl] }
          c := { u.c with perfCnt := t.c.perfCnt }, agenda := t.agenda }
      ∧ cl.num = u.b.nextColl ∧ cl.fail = some (6, 0) ∧ cl.landed = []
      ∧ (∀ i ∈ [Instr.collectiveEnd block u.b.nextColl], i ∈ t.agenda) ∧ ∀ i ∈ u.agenda, i ∈ t.agenda := by
  subst hb
  have e := h.startColl_eq.trans ((if_neg (by simp [ha, hgen])).trans (if_pos hbad))
  obtain ⟨A, hA, hin', hold⟩ := State.later_adds { u.partsTaken.countPart 0x015 [p] with
        b := { u.partsTaken.b with colls := u.b.colls ++ [u.partsTaken.malformedColl p d u.b.nextColl] } } (.collectiveEnd u.b.uid u.b.nextColl)
  have e' := e.trans hA
  exact ⟨_, u.partsTaken.malformedColl p d u.b.nextColl, (exec_collectiveStart hu h rfl hin hs (by rw [e']; rfl)).trans
    (congrArg Host.Outcome.next e'), rfl, rfl, rfl, rfl, by simpa using hin', hold⟩

theorem collectiveStart_running (hm : Memory.wf u.mem = true) (hn : NoneParked u) (ha : memNat u.mem (atS block (d.chobj + 32)) 1 = 0)
    (hgen : memNat u.mem (atS block (d.chobj + 36)) 4 = d.gen) (hbad : u.collBad [p] = false) {total : Nat} (ht : d.count * 2 ^ d.esize = total)
    (hpos : 0 < total) : ∃ t cl, exec (.collectiveStart block) s = .next t
      ∧ t = { u with
          b := { u.b with parts := [], nextColl := u.b.nextColl + 1, colls := u.b.colls ++ [cl] }
          c := { u.c with perfCnt := t.c.perfCnt }, mem := t.mem, ue := t.ue, empty := t.empty, ck := t.ck, agenda := t.agenda }
      ∧ (d.ssp ≠ 0 → t.ck = u.ck) ∧ cl.num = u.b.nextColl ∧ cl.fail = none ∧ cl.landed = [] ∧ cl.expect = (total + 511) / 512
      ∧ memNat t.mem (atS block (d.chobj + 32)) 1 = 1
      ∧ memNat t.mem (atS block (d.chobj + 48)) 4 = ((total + 511) / 512) % 2 ^ 32
      ∧ memNat t.mem (atS block (d.chobj + 52)) 4 = total % 2 ^ 32
      ∧ (∀ a, a ≠ atS block (d.chobj + 32) → (a < atS block (d.chobj + 48) ∨ atS block (d.chobj + 56) ≤ a) → memGet t.mem a = memGet u.mem a)
      ∧ (∀ i ∈ (List.range ((total + 511) / 512)).map fun i => Instr.chunkLanded block u.b.nextColl i, i ∈ t.agenda)
      ∧ ∀ i ∈ u.agenda, i ∈ t.agenda := by
  subst hb
  have hbytes : streamBytes [(p, d)] = total := h.total.trans ht
  have hbad' : ¬u.collBad [p] = true := by rw [hbad]; exact Bool.false_ne_true
  have e := h.startColl_eq.trans ((if_neg (by simp [ha, hgen])).trans ((if_neg hbad').trans (if_neg (by rw [hbytes]; omega))))
  obtain ⟨K, U, E, hset, hck⟩ := State.setRunning_frame (s := u.partsTaken.countPart 0x015 [p]) (hn.of_gangs (by rfl) (by rfl)) p d u.b.nextColl
  obtain ⟨hstatus, hchunks, htotal, hframe⟩ := runningMem_spec hm u.b.uid d.chobj total
  rw [hbytes] at hset e
  obtain ⟨A, hA, hin', hold⟩ := State.foldl_later (fun b k => .chunkLanded b u.b.nextColl k) (upto ((total + 511) / 512))
    ((u.partsTaken.countPart 0x015 [p]).setRunning p d u.b.nextColl)
  rw [hset] at e hA hin' hold
  have e' := e.trans hA
  exact ⟨_, (u.partsTaken.countPart 0x015 [p]).runningColl p d u.b.nextColl,
    (exec_collectiveStart hu h rfl hin hs (by rw [e']; rfl)).trans (congrArg Host.Outcome.next e'), rfl, hck, rfl, rfl, rfl,
    congrArg (fun n => (n + 511) / 512) hbytes, hstatus, hchunks, htotal, hframe, hin', hold⟩

end

end Sys2Proof.Machine
end

section
/-! PROOFS. The elements of a chunk performed: in a free order, each byte as it was at the start, before the chunk or now
(R253, R254). -/

namespace Sys2Proof.Machine

open Sys2Proof

/-! ## The order -/

theorem inFreeOrder_perm {α : Type} (ctr : Nat) (l : List α) : (inFreeOrder ctr l.length l).Perm l := by
  obtain ⟨n, hn⟩ : ∃ n, n = l.length := ⟨_, rfl⟩
  rw [← hn]
  induction n generalizing l with
  | zero => rw [List.length_eq_zero_iff.1 hn.symm]; rfl
  | succ n ih =>
    have hi : Config.copyOrder (4096 * ctr + n) % l.length < l.length := Nat.mod_lt _ (by omega)
    rw [inFreeOrder]
    rw [List.getElem?_eq_getElem hi]
    exact ((ih _ (by rw [List.length_eraseIdx_of_lt hi]; omega)).cons _).trans (List.getElem_cons_eraseIdx_perm hi)

theorem mem_inFreeOrder_zipIdx {ctr : Nat} {rs : List Ready} :
    (∀ x ∈ inFreeOrder ctr rs.length rs.zipIdx, x.1 ∈ rs) ∧ ∀ r ∈ rs, ∃ x ∈ inFreeOrder ctr rs.length rs.zipIdx, x.1 = r := by
  have hp := inFreeOrder_perm ctr rs.zipIdx
  rw [List.length_zipIdx] at hp
  refine ⟨fun x hx => ?_, fun r hr => ?_⟩
  · exact List.fst_mem_of_mem_zipIdx (hp.mem_iff.1 hx)
  · obtain ⟨i, hi, he⟩ := List.getElem_of_mem hr
    exact ⟨(r, i), hp.mem_iff.2 (List.mem_zipIdx_iff_getElem?.2 (by rw [List.getElem?_eq_getElem hi, he])), rfl⟩

/-! ## Values that agree in their first bytes -/

/-- Two numbers agree in their first n bytes. -/
def Alike (n v w : Nat) : Prop := ∀ j < n, byteOf v j = byteOf w j

theorem Alike.refl (n v : Nat) : Alike n v v := fun _ _ => rfl

theorem alike_mixed {n k v a b : Nat} (hn : n ≤ 16) (ha : Alike n a v) (hb : Alike n b v) : Alike n (mixed k a b) v := by
  intro j hj
  have hl : j < ((upto 16).map fun j => if Config.copyNew (16 * k + j) then BitVec.ofNat 8 (a / 256 ^ j) else BitVec.ofNat 8 (b / 256 ^ j)).length := by
    simp [upto]
    omega
  rw [mixed, byteOf_leNat, List.getD_eq_getElem _ _ hl, List.getElem_map]
  simp only [upto, List.getElem_range]
  split
  · exact ha j hj
  · exact hb j hj

theorem alike_nth {n v : Nat} {d : Nat} {l : List Nat} (hd : Alike n d v) (h : ∀ x ∈ l, Alike n x v) (k : Nat) : Alike n (nth d l k) v := by
  induction l generalizing k with
  | nil => exact hd
  | cons x t ih =>
    cases k with
    | zero => exact h x List.mem_cons_self
    | succ k => exact ih (fun y hy => h y (List.mem_cons_of_mem _ hy)) k

/-- Whatever is taken from a source that reads the same at the start, before the chunk and now, is what it reads (R254). -/
theorem takenValue_alike {s before : State} {c : Coll} {i n v : Nat} {r : Ready} (hn : n ≤ 16) (hnow : Alike n (s.sourceValue r.src) v)
    (hwas : Alike n (before.sourceValue r.src) v) (horig : ∀ x, c.origin r.e = some x → Alike n x v) :
    Alike n (s.takenValue before c i r) v := by
  unfold State.takenValue
  dsimp only
  split
  · cases ho : c.origin r.e with
    | some x =>
      dsimp only
      split
      · exact horig x ho
      · exact alike_nth (horig x ho) (by simp [horig x ho, hnow, hwas]) _
    | none =>
      dsimp only
      split
      · exact hnow
      · exact alike_nth hnow (by simp [hnow, hwas]) _
  · cases ho : c.origin r.e with
    | some x => exact alike_mixed hn (alike_mixed hn hnow hwas) (horig x ho)
    | none => exact alike_mixed hn hnow hwas

theorem origin_eq {c : Coll} {e : Elem} {v : Nat} (h : ∀ x ∈ c.orig, x.1 = e.part.rank → x.2.1 = e.k → x.2.2 = v) :
    ∀ x, c.origin e = some x → x = v := by
  intro x hx
  obtain ⟨y, hy, rfl⟩ := Option.map_eq_some_iff.1 hx
  have hp := List.find?_some hy
  simp only [Bool.and_eq_true, beq_iff_eq] at hp
  exact h y (List.mem_of_find?_eq_some hy) hp.1 hp.2

/-! ## The bytes of an element -/

theorem length_elem_bytes (e : Elem) (v : Nat) : (e.bytes v).length ≤ e.last + 1 - e.first := by
  unfold Elem.bytes
  rw [List.length_take]
  exact Nat.min_le_left _ _

theorem getD_elem_bytes {e : Elem} {v i : Nat} (hi : i < e.last + 1 - e.first) (hl : e.last < e.d.dsz e.part.minor) :
    i < (e.bytes v).length ∧ (e.bytes v).getD i 0 = byteOf v (e.first + i) := by
  have hlen : i < (e.bytes v).length := by
    rw [Elem.bytes, List.length_take, List.length_drop, length_leBytes]
    omega
  refine ⟨hlen, ?_⟩
  rw [← getD_leBytes (n := e.d.dsz e.part.minor) v (by omega), List.getD_eq_getElem _ _ hlen,
    List.getD_eq_getElem _ _ (by rw [length_leBytes]; omega)]
  simp [Elem.bytes]

/-- A copy that is no reduction stores the bytes of its source (R248). -/
theorem byteOf_converted {d : Desc} {minor v j : Nat} (hm : minor ≤ 3) (hj : j < d.ssz) : byteOf (d.converted minor v) j = byteOf v j := by
  have h4 : minor ≠ 4 := by omega
  have e : (2 : Nat) ^ (8 * d.ssz) = 256 ^ d.ssz := by rw [Nat.pow_mul]
  rw [Desc.converted, if_neg h4, e, byteOf_mod hj]

theorem dsz_eq_ssz {d : Desc} {minor : Nat} (hm : minor ≤ 3) : d.dsz minor = d.ssz := by
  have h4 : minor ≠ 4 := by omega
  rw [Desc.dsz, if_neg h4, Desc.ssz]

/-! ## Elements with both ends in S or D -/

/-- The first byte that an element writes in the chunk, and how many it writes. -/
def firstByte (dst : Ready → Nat) (r : Ready) : Nat := dst r + r.e.first
def byteCount (r : Ready) : Nat := r.e.last + 1 - r.e.first

/-- Some element of the list writes the byte. -/
def WritesByte (rs : List Ready) (dst : Ready → Nat) (a : Nat) : Prop :=
  ∃ r ∈ rs, firstByte dst r ≤ a ∧ a < firstByte dst r + byteCount r

/-- Both ends of every element are flat addresses. -/
def FlatEnds (rs : List Ready) (src dst : Ready → Nat) : Prop := ∀ r ∈ rs, r.src = .flat (src r) ∧ r.dst = .flat (dst r)

/-- The state is u with some bytes written that elements of the list write. -/
def Written (u : State) (rs : List Ready) (dst : Ready → Nat) (s : State) : Prop :=
  ∃ M U, s = { u with mem := M, ue := U } ∧ Memory.wf M = true ∧ ∀ a, ¬WritesByte rs dst a → memGet M a = memGet u.mem a

theorem State.performElem_flat {s before : State} {c : Coll} {i p q : Nat} {r : Ready} (hs : r.src = .flat p) (hd : r.dst = .flat q) :
    s.performElem before c i r = { s with
      mem := memWrite s.mem (q + r.e.first) (r.e.bytes (r.e.d.converted r.e.part.minor (s.takenValue before c i r)))
      ue := clearUE s.ue (q + r.e.first) (r.e.last + 1 - r.e.first) } := by
  unfold State.performElem
  dsimp only
  rw [hd, hs]
  rfl

/-- What the clause on unchanged sources assumes of an element. -/
structure Unchanged (u : State) (c : Coll) (rs : List Ready) (src dst : Ready → Nat) (r : Ready) : Prop where
  source : ∀ a, WritesByte rs dst a → a < src r ∨ src r + r.e.d.ssz ≤ a
  size : r.e.d.ssz ≤ 16
  last : r.e.last < r.e.d.ssz
  orig : ∀ x ∈ c.orig, x.1 = r.e.part.rank → x.2.1 = r.e.k → x.2.2 = u.sourceValue (.flat (src r))
  apart : ∀ x ∈ rs, x = r ∨ firstByte dst x + byteCount x ≤ firstByte dst r ∨ firstByte dst r + byteCount r ≤ firstByte dst x
  minor : r.e.part.minor ≤ 3

/-- An element's bytes stand at its destination as its source had them. -/
def Landed (u : State) (src dst : Ready → Nat) (r : Ready) (s : State) : Prop :=
  ∀ i < byteCount r, memGet s.mem (firstByte dst r + i) = memGet u.mem (src r + r.e.first + i)

theorem Written.sourceValue {u s : State} {c : Coll} {rs : List Ready} {src dst : Ready → Nat}
    (h : Written u rs dst s) {r : Ready} (hr : Unchanged u c rs src dst r) :
    Alike r.e.d.ssz (s.sourceValue (.flat (src r))) (u.sourceValue (.flat (src r))) := by
  obtain ⟨M, U, rfl, hw, hM⟩ := h
  intro j hj
  have hj' : j < 16 := by have := hr.size; omega
  show byteOf (leNat (memBytes M (src r) 16)) j = byteOf (leNat (memBytes u.mem (src r) 16)) j
  rw [byteOf_leNat, byteOf_leNat, getD_memBytes _ _ _ _ hj', getD_memBytes _ _ _ _ hj']
  refine hM _ fun hwr => ?_
  have := hr.source _ hwr
  omega

section
variable {u : State} {c : Coll} {rs : List Ready} {src dst : Ready → Nat} (hf : FlatEnds rs src dst)
include hf

theorem Written.step {s : State} (h : Written u rs dst s) {r : Ready} (hr : r ∈ rs) (i : Nat) : Written u rs dst (s.performElem u c i r) := by
  obtain ⟨M, U, rfl, hw, hM⟩ := h
  rw [State.performElem_flat (hf r hr).1 (hf r hr).2]
  refine ⟨_, _, rfl, wf_memWrite hw _ _, fun a ha => ?_⟩
  rw [← hM a ha]
  refine (memGet_memWrite hw _ _ _).trans (if_neg fun hin => ha ⟨r, hr, hin.1, ?_⟩)
  have := length_elem_bytes r.e (r.e.d.converted r.e.part.minor (State.takenValue { u with mem := M, ue := U } u c i r))
  unfold firstByte byteCount
  omega

theorem Landed.self {s : State} (h : Written u rs dst s) {r : Ready} (hin : r ∈ rs) (hr : Unchanged u c rs src dst r) (i : Nat) :
    Landed u src dst r (s.performElem u c i r) := by
  intro j hj
  have hjs : r.e.first + j < r.e.d.ssz := by
    have := hr.last
    unfold byteCount at hj
    omega
  have hval := takenValue_alike (i := i) hr.size (r := r) (by rw [(hf r hin).1]; exact h.sourceValue hr)
    (by rw [(hf r hin).1]; exact Alike.refl _ (u.sourceValue (.flat (src r)))) fun x hx => by rw [origin_eq hr.orig x hx]; exact Alike.refl _ _
  obtain ⟨hlen, hget⟩ := getD_elem_bytes (e := r.e) (v := r.e.d.converted r.e.part.minor (s.takenValue u c i r)) hj
    (by rw [dsz_eq_ssz hr.minor]; exact hr.last)
  obtain ⟨M, U, rfl, hw, hM⟩ := h
  rw [State.performElem_flat (hf r hin).1 (hf r hin).2]
  refine (memGet_memWrite hw _ _ _).trans ?_
  unfold firstByte
  rw [if_pos ⟨by omega, by omega⟩, show dst r + r.e.first + j - (dst r + r.e.first) = j by omega, hget, byteOf_converted hr.minor hjs,
    hval _ hjs]
  show byteOf (leNat (memBytes u.mem (src r) 16)) _ = _
  rw [byteOf_leNat, getD_memBytes _ _ _ _ (by have := hr.size; omega), Nat.add_assoc]

theorem Landed.other {s : State} (h : Written u rs dst s) {r x : Ready} (hx : x ∈ rs) (hr : Unchanged u c rs src dst r) (hl : Landed u src dst r s)
    (hne : x ≠ r) (i : Nat) : Landed u src dst r (s.performElem u c i x) := by
  intro j hj
  rw [← hl j hj]
  obtain ⟨M, U, rfl, hw, hM⟩ := h
  rw [State.performElem_flat (hf x hx).1 (hf x hx).2]
  have hap := (hr.apart x hx).resolve_left hne
  have hlen := length_elem_bytes x.e (x.e.d.converted x.e.part.minor (State.takenValue { u with mem := M, ue := U } u c i x))
  refine (memGet_memWrite hw _ _ _).trans (if_neg ?_)
  unfold firstByte byteCount at *
  omega

theorem Written.foldl {l : List (Ready × Nat)} (hl : ∀ x ∈ l, x.1 ∈ rs) {s : State} (h : Written u rs dst s) :
    Written u rs dst (l.foldl (fun s' x => s'.performElem u c x.2 x.1) s) := by
  induction l generalizing s with
  | nil => exact h
  | cons x t ih => exact ih (fun y hy => hl y (List.mem_cons_of_mem _ hy)) (h.step hf (hl x List.mem_cons_self) _)

theorem Landed.foldl {l : List (Ready × Nat)} (hl : ∀ x ∈ l, x.1 ∈ rs) {s : State} (h : Written u rs dst s) {r : Ready}
    (hr : Unchanged u c rs src dst r) (hd : Landed u src dst r s ∨ ∃ x ∈ l, x.1 = r) :
    Landed u src dst r (l.foldl (fun s' x => s'.performElem u c x.2 x.1) s) := by
  induction l generalizing s with
  | nil => exact hd.resolve_right (by simp)
  | cons x t ih =>
    have hx := hl x List.mem_cons_self
    refine ih (fun y hy => hl y (List.mem_cons_of_mem _ hy)) (h.step hf hx _) ?_
    by_cases he : x.1 = r
    · exact .inl (he ▸ Landed.self hf h hx (he ▸ hr) x.2)
    · refine hd.imp (fun hd => Landed.other hf h hx hr hd he _) fun hd => ?_
      obtain ⟨y, hy, hyr⟩ := hd
      rcases List.mem_cons.1 hy with rfl | hy
      · exact absurd hyr he
      · exact ⟨y, hy, hyr⟩

/-- The elements of a chunk in S and D performed: the bytes that they write change, and those of an unchanged source are
its own (R254). -/
theorem performElems_spec (hm : Memory.wf u.mem = true) : Written u rs dst (u.performElems c rs)
    ∧ ∀ r ∈ rs, Unchanged u c rs src dst r → Landed u src dst r (u.performElems c rs) := by
  have h0 : Written u rs dst u := ⟨u.mem, u.ue, rfl, hm, fun _ _ => rfl⟩
  obtain ⟨hin, hall⟩ := mem_inFreeOrder_zipIdx (ctr := u.ctr) (rs := rs)
  exact ⟨h0.foldl hf hin, fun r hr hun => Landed.foldl hf hin h0 hun (.inr (hall r hr))⟩

end

end Sys2Proof.Machine
end

section
/-! PROOFS. A chunk between S and D lands: its bytes are written, then its bit is set, and after the last chunk the
collective ends (R252, R253). -/

namespace Sys2Proof.Machine

open Sys2Proof

/-! ## Chunks that leave G alone -/

theorem mem_chunkEnds {s : State} {n : Nat} {es : List Elem} {r : Ready} (h : r ∈ (s.chunkEnds n es).1) : r.e ∈ es := by
  induction es with
  | nil => cases h
  | cons e t ih =>
    have e0 : s.chunkEnds n (e :: t) = (match s.elemEnds n e with
      | .ok r => (r :: (s.chunkEnds n t).1, (s.chunkEnds n t).2)
      | .error x => ((s.chunkEnds n t).1, x :: (s.chunkEnds n t).2)) := rfl
    rw [e0] at h
    cases he : s.elemEnds n e with
    | error x =>
      rw [he] at h
      exact List.mem_cons_of_mem _ (ih h)
    | ok q =>
      rw [he] at h
      rcases List.mem_cons.1 h with rfl | h
      · have hq : r.e = e := by
          unfold State.elemEnds at he
          split at he
          · cases he
          · cases he
          · cases he
          · split at he
            · cases he
              rfl
            · cases he
        exact hq ▸ List.mem_cons_self
      · exact List.mem_cons_of_mem _ (ih h)

section
variable {rs : List Ready} {src dst : Ready → Nat} (hf : FlatEnds rs src dst)
include hf

theorem FlatEnds.chunkAbort (s : State) : s.chunkAbort rs = none := by
  refine List.findSome?_eq_none_iff.2 fun r hr => ?_
  rw [(hf r hr).2]

theorem FlatEnds.chunkWriteLines (s : State) : s.chunkWriteLines rs = [] := by
  have e : s.chunkWrites rs = [] := by
    refine List.flatMap_eq_nil_iff.2 fun r hr => ?_
    rw [(hf r hr).2]
  rw [State.chunkWriteLines, e]
  rfl

theorem FlatEnds.chunkReadLines (s : State) : s.chunkReadLines rs = [] := by
  have e : (rs.flatMap fun r => match r.src with
      | .pages l => l.flatMap (s.segLines false)
      | _ => []) = [] := by
    refine List.flatMap_eq_nil_iff.2 fun r hr => ?_
    rw [(hf r hr).1]
  unfold State.chunkReadLines
  exact congrArg List.eraseDups e

/-- A chunk between S and D asks for no line and sends nothing: its elements are performed, and it has landed. -/
theorem State.stepChunk_flat {u : State} {c : Coll} {k : Nat} (hreq : u.request c.num k = none) (hw : u.chunkWaits c (c.elems k) k = false)
    (hends : u.chunkEnds c.num (wholeElems (c.elems k)) = (rs, [])) (hes : ∀ e ∈ wholeElems (c.elems k), e.d.dsp ≠ 4 ∧ e.part.minor ≤ 3) :
    u.stepChunk c k = (u.performElems c rs).landed c k := by
  unfold State.stepChunk
  extract_lets +onlyGivenNames es
  refine (if_neg (by simp [hreq])).trans ((if_neg (by rw [hw]; exact Bool.false_ne_true)).trans ?_)
  extract_lets +onlyGivenNames es2 r
  have hr : r = (rs, []) := hends
  clear_value r
  subst hr
  refine (if_neg (by simp [hf.chunkAbort])).trans ?_
  extract_lets remote red holder writes reads w d whole v v2 v3 v4
  have hremote : remote = false := List.any_eq_false.2 fun e he => by simpa using (hes e he).1
  have hred : red = false := List.any_eq_false.2 fun e he => by
    have := (hes e he).2
    simp
    omega
  have hwrites : writes = [] := hf.chunkWriteLines u
  have hreads : reads = [] := congrArg (List.filter _) (hf.chunkReadLines u)
  have hwd : w = (true, u) := by
    unfold w
    rw [hwrites]
    exact ite_self _
  have hd : d = (true, u) := by
    unfold d
    rw [hwd, hred, hreads]
    rfl
  have hv : v4 = u.performElems c rs := by
    unfold v4 v3 v2 v whole
    rw [hwrites, hreads, hd]
    rfl
  refine (if_neg (by simp [hwd, hd])).trans ((if_neg (by simp [hremote])).trans ?_)
  rw [hv]

end

/-! ## The bit of a chunk and the end of the last one -/

theorem State.fillGranules_frame {s : State} (hn : NoneParked s) (c : Coll) (bytes : List (Nat × Bool)) (ks : List Nat) :
    ∃ E, s.fillGranules c bytes ks = { s with empty := E } := ⟨_, State.fill_eq hn _⟩

/-- The bit of chunk k set in the bytes of an object (R250). -/
def setChunkBit (m : List Host.Cell) (block obj k : Nat) : List Host.Cell :=
  memPut m (atS block (obj + k / 8)) (memGet m (atS block (obj + k / 8)) ||| (1#8 <<< (k % 8)))

theorem State.setBit_eq {s : State} (hn : NoneParked s) {c : Coll} (hgen : memNat s.mem (atS s.b.uid (c.obj + 36)) 4 = c.gen.toNat) (k : Nat) :
    ∃ P E, s.setBit c k = { s with c := { s.c with perfCnt := P }, mem := setChunkBit s.mem s.b.uid c.obj k, empty := E } :=
  ⟨_, _, (if_pos ((s.objGen_eq_iff c.obj c.gen).2 hgen)).trans (State.fill_eq (hn.of_gangs (by rfl) (by rfl)) _)⟩

theorem State.follow_none {s : State} (h : ∀ x ∈ s.c.mxq, x.coll = none) (c : Coll) : s.follow c = s := by
  have e : (s.c.mxq.find? fun x => x.block == s.b.uid && x.coll == some c.num) = none :=
    List.find?_eq_none.2 fun x hx => by simp [h x hx]
  rw [State.follow, e]

theorem State.landed_spec {s : State} (hn : NoneParked s) (hq : ∀ x ∈ s.c.mxq, x.coll = none) {c : Coll} {k : Nat} (hl : c.landed.contains k = false)
    (hgen : memNat s.mem (atS s.b.uid (c.obj + 36)) 4 = c.gen.toNat) : ∃ P E A, s.landed c k = { s with
        b := { s.b with colls := s.b.colls.map fun x => if x.num = c.num then { c with landed := insertNat c.landed k } else x }
        c := { s.c with perfCnt := P }, mem := setChunkBit s.mem s.b.uid c.obj k, empty := E, agenda := A }
      ∧ (∀ i ∈ (if c.expect ≤ c.landed.length + 1 then [Instr.collectiveEnd s.b.uid c.num] else []), i ∈ A) ∧ ∀ i ∈ s.agenda, i ∈ A := by
  obtain ⟨E, hE⟩ := s.fillGranules_frame hn c (s.chunkFlat c k) (c.left k)
  obtain ⟨P, E', hbit⟩ := State.setBit_eq (s := { s with empty := E }) (hn.of_gangs rfl rfl) (c := c) hgen k
  have hlen : (insertNat c.landed k).length = c.landed.length + 1 := length_insertNat (by simpa using hl)
  have e := (congrArg (fun s : State => s.setBit c k) hE).trans hbit
  unfold State.landed
  extract_lets v c' w
  have hw : w = { s with
        b := { s.b with colls := s.b.colls.map fun x => if x.num = c.num then { c with landed := insertNat c.landed k } else x }
        c := { s.c with perfCnt := P }, mem := setChunkBit s.mem s.b.uid c.obj k, empty := E' } :=
    congrArg (fun s : State => s.modColl c.num fun _ => { c with landed := insertNat c.landed k }) e
  clear_value w
  subst hw
  by_cases hx : c.expect ≤ c.landed.length + 1
  · obtain ⟨A, hA, hin, hold⟩ := State.later_adds { s with
        b := { s.b with colls := s.b.colls.map fun x => if x.num = c.num then { c with landed := insertNat c.landed k } else x }
        c := { s.c with perfCnt := P }, mem := setChunkBit s.mem s.b.uid c.obj k, empty := E' } (.collectiveEnd s.b.uid c.num)
    refine ⟨P, E', A, (if_neg (by show ¬(insertNat c.landed k).length < c.expect; omega)).trans ?_, ?_, hold⟩
    · rw [State.follow_none (by exact hq)]
      exact hA
    · rw [if_pos hx]
      simpa using hin
  · refine ⟨P, E', s.agenda, if_pos (by show (insertNat c.landed k).length < c.expect; omega), ?_, fun _ h => h⟩
    rw [if_neg hx]
    simp

/-! ## CHUNK_LANDED -/

theorem exec_chunkLanded {s u : State} {block coll k : Nat} {c : Coll} (hu : s.atBlock block = u) (hb : u.b.uid = block)
    (hc : u.b.colls.find? (fun x => x.num == coll) = some c) (hfail : c.fail = none) (hk : c.kill = false) (hl : c.landed.contains k = false)
    (hr : ∀ r ∈ s.fab.requests, r.block ≠ block ∨ r.coll ≠ coll) : exec (.chunkLanded block coll k) s = .next (u.stepChunk c k) := by
  have hlate : (s.fab.requests.find? fun r => r.block == block && r.coll == coll && r.chunk == k && r.expired) = none := by
    refine List.find?_eq_none.2 fun r hr0 => ?_
    have := hr r hr0
    simp
    tauto
  show execChunkLanded block coll k s = _
  unfold execChunkLanded
  rw [hlate]
  dsimp only
  rw [hu, hc]
  exact congrArg Host.Outcome.next ((if_neg (by simp [hb, hk]; simpa using hl)).trans (if_neg (by simp [hfail])))

section
variable {s u : State} {block coll k : Nat} {c : Coll} {rs : List Ready} {src dst : Ready → Nat}

theorem chunkLanded_spec (hu : s.atBlock block = u) (hm : Memory.wf u.mem = true) (hn : NoneParked u) (hb : u.b.uid = block)
    (hc : u.b.colls.find? (fun x => x.num == coll) = some c) (hfail : c.fail = none) (hkill : c.kill = false)
    (hl : c.landed.contains k = false) (hk : k < 256) (hr : ∀ r ∈ s.fab.requests, r.block ≠ block ∨ r.coll ≠ coll)
    (hq : ∀ x ∈ u.c.mxq, x.coll = none) (hes : ∀ e ∈ wholeElems (c.elems k), e.d.dsp ≠ 4 ∧ e.part.minor ≤ 3)
    (hw : u.chunkWaits c (c.elems k) k = false) (hends : u.chunkEnds coll (wholeElems (c.elems k)) = (rs, [])) (hf : FlatEnds rs src dst)
    (hobj : ∀ a, atS block c.obj ≤ a → a < atS block (c.obj + 64) → ¬WritesByte rs dst a)
    (hgen : memNat u.mem (atS block (c.obj + 36)) 4 = c.gen.toNat) : ∃ t, exec (.chunkLanded block coll k) s = .next t
      ∧ t = { u with
          b := { u.b with colls := t.b.colls }
          c := { u.c with perfCnt := t.c.perfCnt }, mem := t.mem, ue := t.ue, empty := t.empty, agenda := t.agenda }
      ∧ t.b.colls = u.b.colls.map (fun x => if x.num = coll then { c with landed := insertNat c.landed k } else x)
      ∧ memGet t.mem (atS block (c.obj + k / 8)) = memGet u.mem (atS block (c.obj + k / 8)) ||| (1#8 <<< (k % 8))
      ∧ (∀ a, a ≠ atS block (c.obj + k / 8) → ¬WritesByte rs dst a → memGet t.mem a = memGet u.mem a)
      ∧ (∀ r ∈ rs, Unchanged u c rs src dst r → Landed u src dst r t)
      ∧ (∀ i ∈ (if c.expect ≤ c.landed.length + 1 then [Instr.collectiveEnd block coll] else []), i ∈ t.agenda)
      ∧ ∀ i ∈ u.agenda, i ∈ t.agenda := by
  subst hb
  have hnum : c.num = coll := by simpa using List.find?_some hc
  subst hnum
  have hreq : u.request c.num k = none := State.request_none (by rwa [show u.fab = s.fab by rw [← hu, State.atBlock_fab]]) k
  obtain ⟨⟨M, U, hp, hwf, hM⟩, hcopied⟩ := performElems_spec (c := c) hf hm
  have hobject : ∀ j < 64, memGet M (atS u.b.uid (c.obj + j)) = memGet u.mem (atS u.b.uid (c.obj + j)) := fun j hj =>
    hM _ (hobj _ (by rw [atS_add]; omega) (by rw [atS_add, atS_add]; omega))
  have hgen' : memNat M (atS u.b.uid (c.obj + 36)) 4 = c.gen.toNat := by
    rw [← hgen]
    refine memNat_congr fun j hj => ?_
    have := hobject (36 + j) (by omega)
    rwa [← Nat.add_assoc, atS_add] at this
  have hx := exec_chunkLanded hu rfl hc hfail hkill hl hr
  rw [State.stepChunk_flat hf hreq hw hends hes, hp] at hx
  rw [hp] at hcopied
  obtain ⟨P, E, A, ht, hin, hold⟩ := State.landed_spec (s := { u with mem := M, ue := U }) (hn.of_gangs rfl rfl) hq hl hgen'
  have hbit (a : Nat) : memGet (setChunkBit M u.b.uid c.obj k) a = if a = atS u.b.uid (c.obj + k / 8)
      then memGet M (atS u.b.uid (c.obj + k / 8)) ||| (1#8 <<< (k % 8)) else memGet M a := memGet_memPut hwf _ _ _
  refine ⟨_, hx.trans (congrArg Host.Outcome.next ht), rfl, rfl, ?_, fun a ha hwa => ?_, fun r hr hun i hi => ?_, hin, hold⟩
  · exact (hbit _).trans ((if_pos rfl).trans (by rw [hobject _ (by omega)]))
  · exact (hbit a).trans ((if_neg ha).trans (hM a hwa))
  · refine ((hbit _).trans (if_neg fun he => ?_)).trans (hcopied r hr hun i hi)
    refine hobj (firstByte dst r + i) ?_ ?_ ⟨r, hr, by omega, by omega⟩
    · rw [he, atS_add]; omega
    · rw [he, atS_add, atS_add]; omega

end

/-- Settles O29: the start, the chunks, a failure and the end of a collective, and FESET and CHRESET, each by the lemma on
its step. -/
theorem copySteps : Obligations.CopySteps := by
  unfold Obligations.CopySteps
  intro s block coll k gang op hm hn
  have hmu : Memory.wf (s.atBlock block).mem = true := by rwa [State.atBlock_mem]
  have hnu := hn.atBlock block
  refine ⟨?_, ?_, ?_, ?_, ?_, ?_, ?_⟩
  · intro hb p d hparts hcoll hminor h3 hdesc hg hin hs
    have h : OnePart (s.atBlock block) p d := ⟨hparts, hcoll, hminor, h3, hdesc⟩
    exact ⟨fun ha => collectiveStart_discarded rfl h hb hin hs hg ha,
      fun ha hgen hbad => collectiveStart_malformed rfl h hb hin hs ha hgen hbad,
      fun ha hgen hbad hpos => collectiveStart_running rfl h hb hin hs hmu hnu ha hgen hbad rfl hpos⟩
  · intro c rs hb hc hfail hkill hl hk hr hq hes hw hends src dst hf first n writes hobj hgen
    obtain ⟨t, hx, ht, hcolls, hbit, hframe, hcopy, hin, hold⟩ :=
      chunkLanded_spec rfl hmu hnu hb hc hfail hkill hl hk hr hq hes hw hends hf hobj hgen
    refine ⟨t, hx, ht, hcolls, hbit, hframe, fun r hr hsrc hsize hlast horig hapart =>
      hcopy r hr ⟨hsrc, hsize, hlast, horig, hapart, ?_⟩, hin, hold⟩
    exact (hes r.e (mem_chunkEnds (by rw [hends]; exact hr))).2
  · intro c rs a hb hc hfail hkill hl hr hends hnr hrs
    exact copyFailure_spec hb hc hfail hkill hl hr hends hnr hrs
  · intro c p hb hc hkill hfol hp h3 hg hq hr status faddr hst
    have hfinal : c.final = (status, faddr) := by
      unfold Coll.final status faddr
      cases c.fail <;> rfl
    obtain ⟨t, hx, ht, hop, hmem, hsub⟩ := collectiveEnd_spec hm hn hb hc hkill hfol hp h3 hg hq hr (by rw [hfinal]; exact hst)
    rw [hfinal] at hmem
    exact ⟨t, hx, ht, hop, hmem, hsub⟩
  · intro base len full hg h0 hw hbase hlen ho
    exact fesetEffect_spec hn hg h0 hw hbase hlen ho
  · exact fun hg => fesetComplete_spec op hg
  · intro off hg h0 hb hd hc hw ho
    exact chresetEffect_spec hm hn hg h0 hb hd hc hw ho

end Sys2Proof.Machine
end

section
/-! PROOFS. What the words of the integer pipe do to a destination: without a guard, and with an affine destination (R47, R74, R75). -/

namespace Sys2Proof.Machine

open Sys2Proof

/-! ## Words that no guard governs -/

theorem writes_put32_always {i : Instr} {F : Nat → Word} {s : State} {d : BitVec 6} {ops : List (Nat × Nat)} {f : Gang → Nat → Word}
    (h : exec i s = .next (s.put32 always d ops f)) (hF : ∀ L, F L = f s.src L) : Writes i s 1 d.toNat ops s.lanes (one F) :=
  s.exec_always ▸ writes_put32 h hF

theorem writes_put64_always {i : Instr} {F : Nat → DWord} {s : State} {d : Nat} {ops : List (Nat × Nat)} {f : Gang → Nat → DWord}
    (h : exec i s = .next (s.put64 always d ops f)) (hF : ∀ L, F L = f s.src L) : Writes i s 2 d ops s.lanes (two F) :=
  s.exec_always ▸ writes_put64 h hF

theorem writes_putPred_always {i : Instr} {F : Nat → Bool} {s : State} {k : Nat} {ops : List (Nat × Nat)} {f : Gang → Nat → Bool}
    (h : exec i s = .next (s.putPred always k ops f)) (hF : ∀ L, F L = f s.src L) : WritesPred i s k ops s.lanes F :=
  s.exec_always ▸ writes_putPred h hF

theorem writesGen_put32_always {i : Instr} {F : Nat → Word} {s : State} {d : BitVec 6} {ops : List (Nat × Nat)} {f : Gang → Nat → Word}
    {x : State → State}
    (h : exec i s = .next (s.withRegs ((1, d.toNat) :: ops) fun s => if s.isAffine d.toNat then x s else s.put32 always d [] f))
    (hF : ∀ L, F L = f s.src L) : WritesGen i s 1 d.toNat ops s.lanes (one F) :=
  s.exec_always ▸ writesGen_put32 h hF

theorem writesGen_put64_always {i : Instr} {F : Nat → DWord} {s : State} {d : Nat} {ops : List (Nat × Nat)} {f : Gang → Nat → DWord}
    {x : State → State}
    (h : exec i s = .next (s.withRegs ((2, d) :: ops) fun s => if s.isAffine d then x s else s.put64 always d [] f))
    (hF : ∀ L, F L = f s.src L) : WritesGen i s 2 d ops s.lanes (two F) :=
  s.exec_always ▸ writesGen_put64 h hF

/-! ## Affine destinations -/

@[simp] theorem State.putAff32_none (s : State) (q : BitVec 4) (d : Nat) : s.putAff32 q d none = s.fault 3 0 0 := rfl

@[simp] theorem State.putAff64_none (s : State) (q : BitVec 4) (d : Nat) : s.putAff64 q d none = s.fault 3 0 0 := rfl

theorem State.withRegs_affine {s : State} {ops : List (Nat × Nat)} {d : Nat} (hr : Readable s ops) (hd : s.isAffine d = true)
    (x y : State → State) : (s.withRegs ops fun s => if s.isAffine d then x s else y s) = x s :=
  (State.withRegs_ok hr _).trans (if_pos hd)

section
variable {s : State} {q : BitVec 4} {d a b : BitVec 6} {m : BitVec 2} {f : (w : Nat) → BitVec w → BitVec w → BitVec w}
  {fa : (w : Nat) → AffVal w → AffVal w → Option (AffVal w)}

/-- What `arith` does to an affine register: a result in mode 32, from two operands that give a base and a stride. -/
theorem State.arith_affine32 (hm : m ≠ 1) (hd : s.isAffine d.toNat = true) (hr : Readable s [(1, d.toNat), (1, a.toNat), (1, b.toNat)]) :
    s.arith q d a b m f fa = s.putAff32 q d.toNat
      (if m = 0 then (s.src.aff32 a.toNat).bind fun x => (s.src.aff32 b.toNat).bind fun y => fa 32 x y else none) := by
  rw [State.arith, if_neg hm, State.withRegs_affine hr hd]
  cases s.src.aff32 a.toNat <;> cases s.src.aff32 b.toNat <;> rfl

/-- What `arith` does to an affine pair. -/
theorem State.arith_affine64 (hm : m = 1) (hd : s.isAffine d.toNat = true) (hr : Readable s [(2, d.toNat), (2, a.toNat), (2, b.toNat)]) :
    s.arith q d a b m f fa = s.putAff64 q d.toNat
      ((s.src.aff64 a.toNat).bind fun x => (s.src.aff64 b.toNat).bind fun y => fa 64 x y) := by
  rw [State.arith, if_pos hm, State.withRegs_affine hr hd]
  cases s.src.aff64 a.toNat <;> cases s.src.aff64 b.toNat <;> rfl

/-- An affine destination that the mode or the operands do not admit (R75). -/
theorem State.arith_opr (hd : s.isAffine d.toNat = true)
    (h32 : m = 0 → ((s.src.aff32 a.toNat).bind fun x => (s.src.aff32 b.toNat).bind fun y => fa 32 x y) = none)
    (h64 : m = 1 → ((s.src.aff64 a.toNat).bind fun x => (s.src.aff64 b.toNat).bind fun y => fa 64 x y) = none) :
    s.arith q d a b m f fa = s.fault 3 0 0 := by
  by_cases hm : m = 1
  · by_cases hr : Readable s [(2, d.toNat), (2, a.toNat), (2, b.toNat)]
    · rw [State.arith_affine64 hm hd hr, h64 hm, State.putAff64_none]
    · rw [State.arith, if_pos hm, State.withRegs_bad hr]
  · by_cases hr : Readable s [(1, d.toNat), (1, a.toNat), (1, b.toNat)]
    · rw [State.arith_affine32 hm hd hr, ite_eq_right_iff.2 h32, State.putAff32_none]
    · rw [State.arith, if_neg hm, State.withRegs_bad hr]

theorem State.arith_opr32 (hm : m = 0) (hd : s.isAffine d.toNat = true)
    (h : ((s.src.aff32 a.toNat).bind fun x => (s.src.aff32 b.toNat).bind fun y => fa 32 x y) = none) :
    s.arith q d a b m f fa = s.fault 3 0 0 :=
  State.arith_opr hd (fun _ => h) fun h1 => absurd (hm.symm.trans h1) (by decide)

theorem State.arith_packed_opr (hd : s.isAffine d.toNat = true) (hm : m.toNat = 2 ∨ m.toNat = 3) :
    s.arith q d a b m f fa = s.fault 3 0 0 :=
  State.arith_opr hd (by rintro rfl; simp at hm) (by rintro rfl; simp at hm)

theorem State.arith_noAff_opr (hd : s.isAffine d.toNat = true) : s.arith q d a b m f noAff = s.fault 3 0 0 :=
  State.arith_opr hd (fun _ => by simp [noAff]) (fun _ => by simp [noAff])

end

end Sys2Proof.Machine
end

section
/-! PROOFS. Moves, constants, lane identities and the words that take values from other lanes (R83 to R88, R92). -/

namespace Sys2Proof.Machine

open Sys2Proof

/-! ## Lane identities and lane exchange -/

theorem laneIdentity_eq (m : BitVec 2) (width L : Nat) : laneIdentity m width L = BitVec.ofNat 32 (match m.toNat with
    | 0 => L
    | 1 => L / 4
    | 2 => L % 4
    | _ => width) := by
  match m with
  | 0#2 | 1#2 | 2#2 | 3#2 => rfl

/-- The number of the lane that SHFL names, which need not be a lane (R87). -/
def shflSource (m : BitVec 2) (L j : Nat) : Int :=
  match m.toNat with
  | 0 => (j % 32 : Nat)
  | 1 => (L : Int) - j
  | 2 => (L : Int) + j
  | _ => (L ^^^ (j % 32) : Nat)

theorem shflLane_eq (m : BitVec 2) (part : List Nat) (L j : Nat) : shflLane m part L j
    = if 0 ≤ shflSource m L j ∧ part.contains (shflSource m L j).toNat then some (shflSource m L j).toNat else none := by
  match m with
  | 0#2 | 1#2 | 2#2 | 3#2 => rfl

theorem shflLane_participant {m : BitVec 2} {part : List Nat} {L j P : Nat} (hP : P ∈ part) (h : (P : Int) = shflSource m L j) :
    shflLane m part L j = some P := by
  rw [shflLane_eq, ← h]
  simp [hP]

theorem shflLane_none {m : BitVec 2} {part : List Nat} {L j : Nat} (h : ∀ P ∈ part, (P : Int) ≠ shflSource m L j) :
    shflLane m part L j = none := by
  rw [shflLane_eq]
  refine if_neg fun ⟨h0, hc⟩ => h _ (by simpa using hc) ?_
  omega

theorem getLsbD_laneMask {l : List Nat} (hl : ∀ P ∈ l, P < 32) {L : Nat} (hL : L < 32) : (laneMask l).getLsbD L = true ↔ L ∈ l := by
  have h := getLsbD_foldl l (fun _ => true) 0 L hL hl
  simp only [if_true] at h
  unfold laneMask
  rw [h]
  by_cases hm : L ∈ l <;> simp [hm]

/-- Settles O1: each word by the frame it writes through, SHFL by the lane it names. -/
theorem movesAndLaneExchange : Obligations.MovesAndLaneExchange := by
  unfold Obligations.MovesAndLaneExchange
  refine ⟨fun s c d a b m q i18 i14 => ⟨?_, ?_, ?_, ?_, ?_⟩, fun s c d a b p m q => ⟨?_, ?_, ?_, ?_⟩⟩
  · exact writesGen_put32 rfl fun _ => rfl
  · exact writes_put32_always rfl fun _ => rfl
  · exact ⟨_, writes_put32_always rfl fun _ => rfl, fun L => ⟨BitVec.extractLsb'_append_eq_left, BitVec.extractLsb'_append_eq_right⟩⟩
  · exact writesGen_put32 rfl fun L => (laneIdentity_eq m _ L).symm
  · exact writes_put32 rfl fun _ => rfl
  · refine ⟨_, writes_put32 rfl fun _ => rfl, fun L => ⟨shflSource m L (s.src.val b.toNat L).toNat, ?_, fun P hP h => ?_, fun h => ?_⟩⟩
    · match m with
      | 0#2 | 1#2 | 2#2 | 3#2 => rfl
    · rw [shflLane_participant hP h]
      rfl
    · rw [shflLane_none h]
      rfl
  · refine ⟨_, writes_put32 rfl fun _ => rfl, ?_⟩
    rw [apply_ite (s.src.val a.toNat)]
    simp only [List.contains_iff_mem]
  · exact writes_put32 rfl fun _ => rfl
  · refine ⟨_, writes_put32 rfl fun _ => rfl, fun L hL => ?_⟩
    rw [getLsbD_laneMask (fun P hP => s.exec_lt q P (List.mem_filter.1 hP).1) hL, List.mem_filter]

end Sys2Proof.Machine
end

section
/-! PROOFS. The words that write predicates, and those that move predicates to registers and back (R89 to R92). -/

namespace Sys2Proof.Machine

open Sys2Proof

/-! ## Compares -/

/-- Less-than of R89, signed or unsigned, over the integer values. -/
theorem icond_lt {w : Nat} (uns : Bool) (x y : BitVec w) : (if uns then x.ult y else x.slt y) = true
    ↔ (if uns then (x.toNat : Int) else x.toInt) < (if uns then (y.toNat : Int) else y.toInt) := by
  cases uns <;> simp [BitVec.slt_iff_toInt_lt, BitVec.ult_iff_toNat_lt]

theorem intValue_inj {w : Nat} (uns : Bool) (x y : BitVec w) :
    (if uns then (x.toNat : Int) else x.toInt) = (if uns then (y.toNat : Int) else y.toInt) ↔ x = y := by
  cases uns
  · exact BitVec.toInt_inj
  · exact Int.ofNat_inj.trans BitVec.toNat_inj

/-- The conditions of R89 hold of the integer values; the two tests of bits do not depend on the sign. -/
theorem icond_iff {w : Nat} (uns : Bool) (c : Nat) (x y : BitVec w) : icond w uns c x y = true ↔ cmpHolds c uns x y := by
  have hlt := icond_lt uns x y
  have heq := intValue_inj uns x y
  have hle : (if uns then (x.toNat : Int) else x.toInt) ≤ (if uns then (y.toNat : Int) else y.toInt)
      ↔ (if uns then x.ult y else x.slt y) = true ∨ x = y := by
    rw [hlt, ← heq, Int.le_iff_lt_or_eq]
  unfold icond cmpHolds
  match c with
  | 0 => simp
  | 1 => simp
  | 2 => exact hlt
  | 3 => simpa using hlt.not.trans (by simp)
  | 4 => simpa using hle.symm
  | 5 => simpa using hle.not.symm.trans (by simp)
  | 6 => simp
  | _ + 7 => simp

/-- Combining of R89: with the bit set the old predicate must hold too. -/
theorem and_combine {c comb old : Bool} {P : Prop} (h : c = true ↔ P) :
    (c && (!comb || old)) = true ↔ P ∧ (comb = true → old = true) := by
  cases comb <;> simp [h]

/-- The condition of R90 for each number: 4 and 5 are those of 2 and 3 unsigned. -/
theorem icmpi_iff (k : BitVec 3) (x y : Word) : (match k.toNat with
      | 0 => x == y
      | 1 => x != y
      | 2 => x.slt y
      | 3 => !x.slt y
      | 4 => x.ult y
      | 5 => !x.ult y
      | 6 => (x &&& y) != 0
      | _ => (x &&& y) == 0) = true
    ↔ match k.toNat with
      | 4 => cmpHolds 2 true x y
      | 5 => cmpHolds 3 true x y
      | k => cmpHolds k false x y := by
  match k with
  | 0#3 => exact icond_iff false 0 x y
  | 1#3 => exact icond_iff false 1 x y
  | 2#3 => exact icond_iff false 2 x y
  | 3#3 => exact icond_iff false 3 x y
  | 4#3 => exact icond_iff true 2 x y
  | 5#3 => exact icond_iff true 3 x y
  | 6#3 => exact icond_iff false 6 x y
  | 7#3 => exact icond_iff false 7 x y

/-! ## Predicates to registers and back -/

theorem foldl_setBits_getLsbD (p : Nat → Bool) (l : List Nat) (w : Word) {k : Nat} (hk : k < 32) :
    (l.foldl (fun w j => if p j then w ||| (1#32 <<< j) else w) w).getLsbD k = (w.getLsbD k || (decide (k ∈ l) && p k)) := by
  induction l generalizing w with
  | nil => simp
  | cons j l ih =>
    have hbit : (if p j then w ||| (1#32 <<< j) else w).getLsbD k = (w.getLsbD k || (decide (k = j) && p k)) := by
      by_cases h : k = j
      · subst h
        cases hp : p k <;> simp [hk]
      · have : (1#32 <<< j).getLsbD k = false := by simp; omega
        cases hp : p j <;> simp [h, this]
    rw [List.foldl_cons, ih, hbit]
    by_cases h : k = j
    · subst h
      cases p k <;> simp
    · simp [h]

/-- P2V puts the predicates p0 to p7 into the bits 0 to 7 (R91). -/
theorem Gang.getLsbD_predBits (g : Gang) (L k : Nat) : (g.predBits L).getLsbD k = (decide (k < 8) && g.pred k L) := by
  by_cases hk : k < 32
  · rw [Gang.predBits, foldl_setBits_getLsbD (g.pred · L) _ _ hk]
    simp
  · rw [BitVec.getLsbD_of_ge _ _ (by omega), decide_eq_false (by omega), Bool.false_and]

theorem Gang.foldl_setPred_frame (lanes : List Nat) (f : Nat → Nat → Bool) (l : List Nat) (g : Gang) :
    ∃ P, l.foldl (fun g k => g.setPred k lanes (f k)) g = { g with preds := P } := by
  induction l generalizing g with
  | nil => exact ⟨g.preds, rfl⟩
  | cons k l ih =>
    obtain ⟨P, h⟩ := g.setPred_frame k lanes (f k)
    obtain ⟨P', h'⟩ := ih (g.setPred k lanes (f k))
    exact ⟨P', by rw [List.foldl_cons, h', h]⟩

theorem Gang.foldl_setPred_pred {lanes : List Nat} (hl : ∀ K ∈ lanes, K < 32) (f : Nat → Nat → Bool) {l : List Nat} (h7 : 7 ∉ l)
    (g : Gang) (k : Nat) {L : Nat} (hL : L < 32) :
    (l.foldl (fun g k => g.setPred k lanes (f k)) g).pred k L = if k ∈ l ∧ L ∈ lanes then f k L else g.pred k L := by
  induction l generalizing g with
  | nil => simp
  | cons j l ih =>
    have hj : j ≠ 7 := fun h => h7 (by simp [h])
    rw [List.foldl_cons, ih (fun h => h7 (by simp [h])), Gang.setPred_pred _ _ _ _ hl _ _ hL]
    by_cases hk : k = j
    · subst hk
      by_cases hm : L ∈ lanes <;> simp [hm, hj]
    · simp [hk]

/-- Settles O2: the compares by `icond_iff`, P2V and V2P bit by bit, the others by their truth tables. -/
theorem predicateWords : Obligations.PredicateWords := by
  unfold Obligations.PredicateWords
  intro s c d a b va vb m m1 q i
  refine ⟨?_, ?_, ?_, ?_, ?_, fun hr => ⟨_, rfl, ?_⟩, fun hr => ?_⟩
  · match m with
    | 0#2 => exact ⟨_, writes_putPred_always rfl fun _ => rfl, fun _ => and_combine (icond_iff false _ _ _)⟩
    | 1#2 => exact ⟨_, writes_putPred_always rfl fun _ => rfl, fun _ => and_combine (icond_iff true _ _ _)⟩
    | 2#2 => exact ⟨_, writes_putPred_always rfl fun _ => rfl, fun _ => and_combine (icond_iff false _ _ _)⟩
    | 3#2 => exact ⟨_, writes_putPred_always rfl fun _ => rfl, fun _ => and_combine (icond_iff true _ _ _)⟩
  · exact ⟨_, writes_putPred_always rfl fun _ => rfl, fun L => icmpi_iff a _ _⟩
  · refine ⟨_, writes_putPred rfl fun _ => rfl, fun L => ?_⟩
    match m with
    | 0#2 | 1#2 | 2#2 | 3#2 => simp
  · refine ⟨_, writes_putPred rfl fun _ => rfl, fun L => ?_⟩
    split <;> simp
  · exact ⟨_, writes_put32 rfl fun _ => rfl, fun L k => s.src.getLsbD_predBits L k⟩
  · rw [State.withRegs_ok hr]
    obtain ⟨P, hP⟩ := Gang.foldl_setPred_frame (s.exec q) (fun k L => (s.src.val va.toNat L).getLsbD k) (upto 7) s.g
    refine ⟨by rw [hP], fun k L hL => ?_⟩
    simp only [Gang.foldl_setPred_pred (s.exec_lt q) _ (by decide : 7 ∉ upto 7) s.g k hL, mem_upto]
  · exact congrArg Host.Outcome.next (State.withRegs_bad hr _)

end Sys2Proof.Machine
end

section
/-! PROOFS. Integer arithmetic and logic, high products, quotients and sums modulo a width (R93 to R98). -/

namespace Sys2Proof.Machine

open Sys2Proof

/-! ## Integer values -/

/-- IABS writes the absolute value modulo 2^w (R93). -/
theorem ofInt_natAbs {w : Nat} (x : BitVec w) : BitVec.ofInt w x.toInt.natAbs = if x.msb then -x else x := by
  cases h : x.msb
  · rw [Int.natAbs_of_nonneg (BitVec.toInt_nonneg_of_msb_false h), BitVec.ofInt_toInt]
    rfl
  · rw [Int.ofNat_natAbs_of_nonpos (BitVec.toInt_neg_of_msb_true h).le, BitVec.ofInt_neg, BitVec.ofInt_toInt]
    rfl

theorem ofInt_zero_sub {w : Nat} (x : BitVec w) : BitVec.ofInt w (0 - x.toInt) = 0 - x := by
  rw [Int.zero_sub, BitVec.ofInt_neg, BitVec.ofInt_toInt]
  exact (BitVec.zero_sub x).symm

/-- Settles O3: the arithmetic words by `writesModes_arith`, the logical words bit by bit. -/
theorem integerAndLogic : Obligations.IntegerAndLogic := by
  unfold Obligations.IntegerAndLogic
  refine ⟨fun s c d a b m q i => ⟨?_, ?_, ?_, ?_, ?_, fun hm hd => ⟨?_, ?_, ?_⟩, fun hd => ⟨?_, ?_⟩, ?_⟩, fun s c d a b m q i => ?_⟩
  · exact writesModes_arith rfl fun _ _ _ => rfl
  · exact writesModes_arith rfl fun _ _ _ => rfl
  · exact writesModes_arith rfl fun _ _ _ => rfl
  · exact writesModes_arith rfl fun _ x _ => ofInt_natAbs x
  · exact writesModes_arith rfl fun _ x _ => ofInt_zero_sub x
  · exact congrArg Host.Outcome.next (State.arith_packed_opr hd hm)
  · exact congrArg Host.Outcome.next (State.arith_packed_opr hd hm)
  · exact congrArg Host.Outcome.next (State.arith_packed_opr hd hm)
  · exact congrArg Host.Outcome.next (State.arith_noAff_opr hd)
  · exact congrArg Host.Outcome.next (State.arith_noAff_opr hd)
  · exact writes_put32_always rfl fun _ => rfl
  · refine ⟨?_, ?_, ?_, ?_, ?_, ?_, ?_, ?_⟩
    · exact writesWide_wide2 rfl (fun x y k _ => BitVec.getLsbD_and) (fun x y k _ => BitVec.getLsbD_and)
    · exact writesWide_wide2 rfl (fun x y k _ => BitVec.getLsbD_or) (fun x y k _ => BitVec.getLsbD_or)
    · exact writesWide_wide2 rfl (fun x y k _ => BitVec.getLsbD_xor) (fun x y k _ => BitVec.getLsbD_xor)
    · exact writesWide_wide2 rfl (fun x y k hk => by simp [hk]) (fun x y k hk => by simp [hk])
    · exact writesWide_wide2 rfl (fun x y k hk => by simp [hk]) (fun x y k hk => by simp [hk])
    · exact ⟨_, writes_put32_always rfl fun _ => rfl, fun L k _ => BitVec.getLsbD_and⟩
    · exact ⟨_, writes_put32_always rfl fun _ => rfl, fun L k _ => BitVec.getLsbD_or⟩
    · exact ⟨_, writes_put32_always rfl fun _ => rfl, fun L k _ => BitVec.getLsbD_xor⟩

/-! ## High products -/

/-- A product of two signed values is at most a quarter of the range of twice the width in size. -/
theorem toInt_mul_toInt_bounds {w : Nat} (hw : 0 < w) (x y : BitVec w) :
    -(2 ^ w * 2 ^ w) ≤ 4 * (x.toInt * y.toInt) ∧ 4 * (x.toInt * y.toInt) ≤ 2 ^ w * 2 ^ w := by
  have hp : (2 : Int) ^ w * 2 ^ w = 4 * 2 ^ (w * 2 - 2) := by
    rw [← pow_add, show w + w = 2 + (w * 2 - 2) by omega, pow_add]
    norm_num
  have hle := BitVec.toInt_mul_toInt_le (x := x) (y := y)
  have hge := BitVec.le_toInt_mul_toInt (x := x) (y := y)
  constructor <;> omega

theorem toInt_signExtend_mul {w : Nat} (hw : 0 < w) (x y : BitVec w) :
    (x.signExtend (w + w) * y.signExtend (w + w)).toInt = x.toInt * y.toInt := by
  obtain ⟨hge, hle⟩ := toInt_mul_toInt_bounds hw x y
  have hpos : (0 : Int) < 2 ^ w * 2 ^ w := by positivity
  rw [BitVec.toInt_mul, BitVec.toInt_signExtend_of_le (by omega), BitVec.toInt_signExtend_of_le (by omega)]
  refine Int.bmod_eq_of_le_mul_two ?_ ?_ <;> push_cast <;> rw [pow_add] <;> omega

/-- Shifting in zeros or copies of the sign leaves the same low half. -/
theorem setWidth_ushiftRight_eq_signExtend {w : Nat} (p : BitVec (w + w)) : (p >>> w).setWidth w = (p.sshiftRight w).signExtend w := by
  rw [BitVec.signExtend_eq_setWidth_of_le _ (by omega)]
  refine BitVec.eq_of_getLsbD_eq fun k hk => ?_
  rw [BitVec.getLsbD_setWidth, BitVec.getLsbD_setWidth, BitVec.getLsbD_ushiftRight, BitVec.getLsbD_sshiftRight,
    if_pos (by omega : w + k < w + w), decide_eq_false (by omega : ¬w + w ≤ k)]
  rfl

/-- The high half of a product so bounded fits the width. -/
theorem two_mul_ediv_bounds {p P : Int} (hP : 2 ≤ P) (hge : -(P * P) ≤ 4 * p) (hle : 4 * p ≤ P * P) :
    -P ≤ p / P * 2 ∧ p / P * 2 < P := by
  have hlow := Int.ediv_mul_le p (show P ≠ 0 by omega)
  have hhigh := Int.lt_ediv_add_one_mul_self p (show 0 < P by omega)
  constructor <;> nlinarith

theorem mulHigh_toInt {w : Nat} (hw : 0 < w) (x y : BitVec w) : (mulHigh true w x y).toInt = x.toInt * y.toInt / 2 ^ w := by
  obtain ⟨hge, hle⟩ := toInt_mul_toInt_bounds hw x y
  obtain ⟨hlow, hhigh⟩ := two_mul_ediv_bounds (le_self_pow₀ (by norm_num) hw.ne') hge hle
  show (((x.signExtend (w + w) * y.signExtend (w + w)) >>> w).setWidth w).toInt = _
  rw [setWidth_ushiftRight_eq_signExtend, BitVec.toInt_signExtend_eq_toInt_bmod_of_le _ (by omega), BitVec.toInt_sshiftRight,
    toInt_signExtend_mul hw, Int.shiftRight_eq_div_pow]
  exact Int.bmod_eq_of_le_mul_two (by exact_mod_cast hlow) (by exact_mod_cast hhigh)

theorem mulHigh_toNat {w : Nat} (x y : BitVec w) : (mulHigh false w x y).toNat = x.toNat * y.toNat / 2 ^ w := by
  have hlt : x.toNat * y.toNat < 2 ^ (w + w) := by
    have := BitVec.toNat_mul_toNat_lt (x := x) (y := y)
    rwa [Nat.mul_two] at this
  have hw : w ≤ w + w := by omega
  show (((x.setWidth (w + w) * y.setWidth (w + w)) >>> w).setWidth w).toNat = _
  rw [BitVec.toNat_setWidth, BitVec.toNat_ushiftRight, BitVec.toNat_mul, BitVec.toNat_setWidth_of_le hw,
    BitVec.toNat_setWidth_of_le hw, Nat.mod_eq_of_lt hlt, Nat.shiftRight_eq_div_pow, Nat.mod_eq_of_lt]
  rwa [Nat.div_lt_iff_lt_mul (by positivity), ← pow_add]

/-! ## Minima and maxima, quotients and remainders -/

theorem minMax_toInt {w : Nat} (mx : Bool) (x y : BitVec w) :
    (minMax mx false w x y).toInt = if mx then max x.toInt y.toInt else min x.toInt y.toInt := by
  simp only [minMax, BitVec.slt_eq_decide]
  cases mx <;> by_cases h : x.toInt < y.toInt <;> simp [h] <;> omega

theorem minMax_toNat {w : Nat} (mx : Bool) (x y : BitVec w) :
    (minMax mx true w x y).toNat = if mx then max x.toNat y.toNat else min x.toNat y.toNat := by
  simp only [minMax, BitVec.ult_eq_decide]
  cases mx <;> by_cases h : x.toNat < y.toNat <;> simp [h] <;> omega

theorem minMax_min {w : Nat} (uns : Bool) (x y : BitVec w) :
    if uns then (minMax false uns w x y).toNat = min x.toNat y.toNat else (minMax false uns w x y).toInt = min x.toInt y.toInt := by
  cases uns
  · exact minMax_toInt false x y
  · exact minMax_toNat false x y

theorem minMax_max {w : Nat} (uns : Bool) (x y : BitVec w) :
    if uns then (minMax true uns w x y).toNat = max x.toNat y.toNat else (minMax true uns w x y).toInt = max x.toInt y.toInt := by
  cases uns
  · exact minMax_toInt true x y
  · exact minMax_toNat true x y

theorem toInt_neg_one {w : Nat} (hw : 0 < w) : (-1#w).toInt = -1 := by
  rw [BitVec.neg_one_eq_allOnes, BitVec.toInt_allOnes, if_pos hw]

theorem quotient_overflow {w : Nat} (hw : 0 < w) {x y : BitVec w} (hx : x.toInt = -2 ^ (w - 1)) (hy : y.toInt = -1) : x.sdiv y = x := by
  obtain rfl : x = BitVec.intMin w := BitVec.eq_of_toInt_eq (hx.trans (BitVec.toInt_intMin_of_pos hw).symm)
  obtain rfl : y = -1#w := BitVec.eq_of_toInt_eq (hy.trans (toInt_neg_one hw).symm)
  exact BitVec.intMin_sdiv_neg_one

theorem quotient_spec {w : Nat} (hw : 0 < w) (uns : Bool) (x y : BitVec w) :
    if y = 0 then quotient uns w x y = BitVec.allOnes w
    else if uns then (quotient uns w x y).toNat = x.toNat / y.toNat
    else if x.toInt = -2 ^ (w - 1) ∧ y.toInt = -1 then quotient uns w x y = x
    else (quotient uns w x y).toInt = x.toInt.tdiv y.toInt := by
  unfold quotient
  split
  case isTrue => rfl
  case isFalse =>
  cases uns
  · rw [if_neg Bool.false_ne_true, if_neg Bool.false_ne_true]
    split
    case isTrue ho =>
      obtain ⟨hx, hy⟩ := ho
      exact quotient_overflow hw hx hy
    case isFalse ho =>
    refine BitVec.toInt_sdiv_of_ne_or_ne _ _ (not_and_or.1 ?_)
    rintro ⟨rfl, rfl⟩
    exact ho ⟨BitVec.toInt_intMin_of_pos hw, toInt_neg_one hw⟩
  · rw [if_pos rfl, if_pos rfl]
    exact BitVec.toNat_udiv

theorem remainder_spec {w : Nat} (uns : Bool) (x y : BitVec w) :
    if y = 0 then remainder uns w x y = x
    else if uns then (remainder uns w x y).toNat = x.toNat % y.toNat
    else (remainder uns w x y).toInt = x.toInt.tmod y.toInt := by
  unfold remainder
  split
  case isTrue => rfl
  case isFalse =>
  cases uns
  · exact BitVec.toInt_srem x y
  · exact BitVec.toNat_umod

/-! ## Sums modulo the width of the destination -/

theorem ofInt_mul_two_pow {w : Nat} (z : Int) (n : Nat) : BitVec.ofInt w (z * 2 ^ n) = BitVec.ofInt w z <<< n := by
  have hp : BitVec.ofInt w (2 ^ n) = BitVec.twoPow w n := by
    refine BitVec.eq_of_toNat_eq ?_
    rw [BitVec.toNat_twoPow, BitVec.toNat_ofInt]
    norm_cast
  rw [BitVec.ofInt_mul, BitVec.shiftLeft_eq_mul_twoPow, hp]

theorem ofInt_mul_add {w : Nat} (x y : Int) (z : BitVec w) :
    BitVec.ofInt w (x * y + z.toInt) = BitVec.ofInt w x * BitVec.ofInt w y + z := by
  rw [BitVec.ofInt_add, BitVec.ofInt_mul, BitVec.ofInt_toInt]

theorem ofNat_mul_add {v w : Nat} (x y : BitVec v) (z : BitVec w) :
    BitVec.ofNat w (x.toNat * y.toNat + z.toNat) = x.setWidth w * y.setWidth w + z := by
  simp only [BitVec.ofNat_add, BitVec.ofNat_mul, BitVec.ofNat_toNat, BitVec.setWidth_eq]

theorem ofInt_toNat {v w : Nat} (x : BitVec v) : BitVec.ofInt w (x.toNat : Int) = x.setWidth w :=
  (BitVec.ofInt_natCast w _).trans (BitVec.ofNat_toNat w x)

theorem iaccwTerm_eq (m : BitVec 2) (x : Word) : iaccwTerm m x = BitVec.ofInt 64 (match m.toNat with
    | 0 => x.toInt
    | 1 => x.toNat
    | 2 => (elem 16 0 x).toInt
    | _ => (elem 16 0 x).toNat) := by
  match m with
  | 0#2 | 2#2 => rfl
  | 1#2 => exact (ofInt_toNat x).symm
  | 3#2 => exact (ofInt_toNat (elem 16 0 x)).symm

/-- Settles O4: each word by the integer value of its element function. -/
theorem wideAndAccumulate : Obligations.WideAndAccumulate := by
  unfold Obligations.WideAndAccumulate
  refine ⟨fun s c d a b m m1 q => ⟨?_, ?_, ?_, ?_, ?_, ?_⟩, fun s c d a b e pd pe pa m q i => ⟨?_, ?_, ?_, ?_, ?_, ?_⟩⟩
  · exact writesWide_wide2 rfl (mulHigh_toInt (by decide)) (mulHigh_toInt (by decide))
  · exact writesWide_wide2 rfl mulHigh_toNat mulHigh_toNat
  · exact writesWide_wide2 rfl (minMax_min _) (minMax_min _)
  · exact writesWide_wide2 rfl (minMax_max _) (minMax_max _)
  · exact writesWide_wide2 rfl (quotient_spec (by decide) _) (quotient_spec (by decide) _)
  · exact writesWide_wide2 rfl (remainder_spec _) (remainder_spec _)
  · refine writes_put32_always rfl fun L => ?_
    rw [ofInt_mul_add, BitVec.ofInt_toInt, BitVec.ofInt_toInt]
  · exact writes_put64_always rfl fun L => ofInt_mul_add _ _ _
  · exact writes_put64_always rfl fun L => ofNat_mul_add _ _ _
  · exact writes_put64 rfl fun L => congrArg _ (iaccwTerm_eq m _).symm
  · exact writesGen_put64 rfl fun L => congrArg _ (ofInt_mul_two_pow _ _)
  · exact writesGen_put64_always rfl fun L => rfl

end Sys2Proof.Machine
end

section
/-! PROOFS. Shifts, bit fields, bit counts and the bit reversal (R99 to R101). -/

namespace Sys2Proof.Machine

open Sys2Proof

/-! ## Shifts by any count -/

/-- Bit j of v is bit j - k of x, with zeros below k (R99). -/
def IsShiftLeft (w : Nat) (x : BitVec w) (k : Nat) (v : BitVec w) : Prop :=
  ∀ j < w, v.getLsbD j = (decide (k ≤ j) && x.getLsbD (j - k))

/-- Bit j of v is bit j + k of x, with zeros or copies of the sign above (R99). -/
def IsShiftRight (fill : Bool) (w : Nat) (x : BitVec w) (k : Nat) (v : BitVec w) : Prop :=
  ∀ j < w, v.getLsbD j = if j + k < w then x.getLsbD (j + k) else fill && x.msb

theorem isShiftLeft_shiftBy (w : Nat) (x : BitVec w) (n : Nat) : IsShiftLeft w x n (shiftBy .left w x n) := by
  intro j hj
  show (if n < w then x <<< n else 0).getLsbD j = _
  split
  · simp only [BitVec.getLsbD_shiftLeft, hj, decide_true, Bool.true_and, ← Nat.not_lt, decide_not]
  · rw [decide_eq_false (by omega), Bool.false_and]
    exact BitVec.getLsbD_zero

theorem isShiftRight_shiftBy (w : Nat) (x : BitVec w) (n : Nat) : IsShiftRight false w x n (shiftBy .right w x n) := by
  intro j hj
  show (if n < w then x >>> n else 0).getLsbD j = _
  split
  · rw [BitVec.getLsbD_ushiftRight, Nat.add_comm n j]
    split
    · rfl
    · exact BitVec.getLsbD_of_ge _ _ (by omega)
  · rw [if_neg (by omega)]
    exact BitVec.getLsbD_zero

theorem isShiftRight_shiftBy_arith (w : Nat) (x : BitVec w) (n : Nat) : IsShiftRight true w x n (shiftBy .arith w x n) := by
  intro j hj
  show (if n < w then x.sshiftRight n else if x.msb then BitVec.allOnes w else 0).getLsbD j = _
  split
  · rw [BitVec.getLsbD_sshiftRight, Nat.add_comm n j, decide_eq_false (by omega)]
    rfl
  · rw [if_neg (show ¬j + n < w by omega)]
    cases x.msb <;> simp [hj]

section
variable {c : Bool} {d a : BitVec 6} {n : BitVec 6} {s : State}

theorem exec_shli_word : exec (.shli c d a 0 n) s = .next (s.withRegs [(1, d.toNat), (1, a.toNat)] fun s =>
    if s.isAffine d.toNat then s.putAff32 always d.toNat ((s.src.aff32 a.toNat).map fun x =>
      { uni := false, base := shiftBy .left 32 x.base n.toNat, stride := shiftBy .left 32 x.stride n.toNat })
    else s.put32 always d [] fun g L => shiftBy .left 32 (g.val a.toNat L) n.toNat) := rfl

theorem exec_shli_pair : exec (.shli c d a 1 n) s = .next (s.withRegs [(2, d.toNat), (2, a.toNat)] fun s =>
    if s.isAffine d.toNat then s.putAff64 always d.toNat ((s.src.aff64 a.toNat).map fun x =>
      { uni := false, base := shiftBy .left 64 x.base n.toNat, stride := shiftBy .left 64 x.stride n.toNat })
    else s.put64 always d.toNat [] fun g L => shiftBy .left 64 (g.val64 a.toNat L) n.toNat) := rfl

end

theorem elem_elems32 (f : (w : Nat) → BitVec w → BitVec w → BitVec w) (x y : Word) (e : Nat) (he : e < 1) :
    elem 32 e (elems 0 f x y) = f 32 (elem 32 e x) (elem 32 e y) := by
  obtain rfl : e = 0 := by omega
  have h (v : Word) : elem 32 0 v = v := BitVec.extractLsb'_eq_self
  rw [h, h, h]
  rfl

/-- A shift whose count is a register: a single one in the modes 32 and 64, element by element in the packed modes (R80, R99). -/
def WritesShift (i : Instr) (s : State) (d a b : BitVec 6) (m : BitVec 2) (lanes : List Nat)
    (r : (w : Nat) → BitVec w → Nat → BitVec w → Prop) : Prop :=
  let packed (w k : Nat) : Prop :=
    ∃ v, Writes i s 1 d.toNat [(1, a.toNat), (1, b.toNat)] lanes (one v)
      ∧ ∀ L e, e < k → r w (elem w e (s.src.val a.toNat L)) (elem w e (s.src.val b.toNat L)).toNat (elem w e (v L))
  match m.toNat with
  | 1 => ∃ v, Writes i s 2 d.toNat [(2, a.toNat), (1, b.toNat)] lanes (two v)
      ∧ ∀ L, r 64 (s.src.val64 a.toNat L) (s.src.val b.toNat L).toNat (v L)
  | 0 => packed 32 1
  | 2 => packed 16 2
  | _ => packed 8 4

theorem writesShift_shiftVar {i : Instr} {s : State} {k : Shift} {d a b : BitVec 6} {m : BitVec 2} {q : BitVec 4}
    {r : (w : Nat) → BitVec w → Nat → BitVec w → Prop} (hr : ∀ w x n, r w x n (shiftBy k w x n))
    (h : exec i s = .next (s.shiftVar k d a b m q)) : WritesShift i s d a b m (s.exec q) r := by
  have packed {w n : Nat} (hm : m ≠ 1)
      (he : ∀ f x y e, e < n → elem w e (elems m.toNat f x y) = f w (elem w e x) (elem w e y)) :
      ∃ v, Writes i s 1 d.toNat [(1, a.toNat), (1, b.toNat)] (s.exec q) (one v)
        ∧ ∀ L e, e < n → r w (elem w e (s.src.val a.toNat L)) (elem w e (s.src.val b.toNat L)).toNat (elem w e (v L)) := by
    rw [State.shiftVar, if_neg hm] at h
    refine ⟨_, writes_put32 h fun _ => rfl, fun L e hlt => ?_⟩
    rw [he _ _ _ e hlt]
    exact hr _ _ _
  match m with
  | 0#2 => exact packed (by decide) elem_elems32
  | 1#2 =>
    rw [State.shiftVar, if_pos (show 1#2 = 1 from rfl)] at h
    exact ⟨_, writes_put64 h fun _ => rfl, fun _ => hr _ _ _⟩
  | 2#2 => exact packed (by decide) elem_elems16
  | 3#2 => exact packed (by decide) elem_elems8

/-- What `shiftImm` does (R99). -/
theorem writes_shiftImm {i : Instr} {s : State} {k : Shift} {d a : BitVec 6} {w : BitVec 1} {n : BitVec 6}
    {r : (w : Nat) → BitVec w → Nat → BitVec w → Prop} (hr : ∀ w x n, r w x n (shiftBy k w x n))
    (h : exec i s = .next (s.shiftImm k d a w n)) :
    if w = 1 then ∃ v, Writes i s 2 d.toNat [(2, a.toNat)] s.lanes (two v) ∧ ∀ L, r 64 (s.src.val64 a.toNat L) n.toNat (v L)
    else ∃ v, Writes i s 1 d.toNat [(1, a.toNat)] s.lanes (one v) ∧ ∀ L, r 32 (s.src.val a.toNat L) n.toNat (v L) := by
  unfold State.shiftImm at h
  split
  case isTrue hw =>
    rw [if_pos hw] at h
    exact ⟨_, writes_put64_always h fun _ => rfl, fun _ => hr _ _ _⟩
  case isFalse hw =>
    rw [if_neg hw] at h
    exact ⟨_, writes_put32_always h fun _ => rfl, fun _ => hr _ _ _⟩

/-! ## Bit fields -/

theorem getLsbD_fieldMask (l : BitVec 5) {k : Nat} (hk : k < 32) : (fieldMask l).getLsbD k = decide (k ≤ l.toNat) := by
  rw [fieldMask, BitVec.getLsbD_ofNat, Nat.testBit_two_pow_sub_one, decide_eq_true hk, Bool.true_and]
  exact decide_eq_decide.2 Nat.lt_succ_iff

theorem getLsbD_bfx (x : Word) (l p : BitVec 5) {k : Nat} (hk : k < 32) :
    ((x >>> p.toNat) &&& fieldMask l).getLsbD k = (decide (k ≤ l.toNat) && x.getLsbD (p.toNat + k)) := by
  rw [BitVec.getLsbD_and, BitVec.getLsbD_ushiftRight, getLsbD_fieldMask l hk, Bool.and_comm]

theorem getLsbD_bfxs (x : Word) (l p : BitVec 5) {k : Nat} (hk : k < 32) :
    ((x.extractLsb' p.toNat (l.toNat + 1)).signExtend 32 : Word).getLsbD k = x.getLsbD (p.toNat + min k l.toNat) := by
  rw [BitVec.getLsbD_signExtend, decide_eq_true hk, Bool.true_and, BitVec.msb_eq_getLsbD_last, BitVec.getLsbD_extractLsb',
    BitVec.getLsbD_extractLsb']
  split
  · rw [decide_eq_true ‹_›, Bool.true_and, Nat.min_eq_left (by omega)]
  · rw [decide_eq_true (by omega), Bool.true_and, Nat.min_eq_right (by omega), Nat.add_sub_cancel]

theorem getLsbD_bfi (x old : Word) (l p : BitVec 5) {k : Nat} (hk : k < 32) :
    ((old &&& ~~~(fieldMask l <<< p.toNat)) ||| ((x &&& fieldMask l) <<< p.toNat)).getLsbD k
      = if p.toNat ≤ k ∧ k ≤ p.toNat + l.toNat then x.getLsbD (k - p.toNat) else old.getLsbD k := by
  have hmask : (fieldMask l <<< p.toNat).getLsbD k = decide (p.toNat ≤ k ∧ k ≤ p.toNat + l.toNat) := by
    rw [BitVec.getLsbD_shiftLeft, decide_eq_true hk, Bool.true_and, getLsbD_fieldMask l (by omega)]
    rw [Bool.eq_iff_iff, Bool.and_eq_true, Bool.not_eq_true', decide_eq_false_iff_not, decide_eq_true_iff, decide_eq_true_iff]
    omega
  rw [BitVec.shiftLeft_and_distrib, BitVec.getLsbD_or, BitVec.getLsbD_and, BitVec.getLsbD_and, BitVec.getLsbD_not, hmask,
    BitVec.getLsbD_shiftLeft, decide_eq_true hk]
  split
  case isTrue h => simp [h]
  case isFalse h => simp [h]

/-! ## Bit counts and the bit reversal -/

theorem mem_bitsOf_toNat {x : Word} {k : Nat} : k ∈ bitsOf 32 x.toNat ↔ k < 32 ∧ x.getLsbD k = true := by
  rw [bitsOf, List.mem_filter, mem_upto]
  rfl

theorem bitsOf_sorted (n v : Nat) : (bitsOf n v).Pairwise (· < ·) := List.pairwise_lt_range.filter _

/-- The count of the ones (R101). -/
theorem bitOp_ones (x : Word) : (bitOp 0 x).toNat = ((List.range 32).filter x.getLsbD).length := by
  have hle : (bitsOf 32 x.toNat).length ≤ 32 := (List.length_filter_le _ _).trans List.length_range.le
  show (BitVec.ofNat 32 (bitsOf 32 x.toNat).length).toNat = _
  rw [BitVec.toNat_ofNat, Nat.mod_eq_of_lt (by omega)]
  rfl

/-- The number of zeros above the highest one (R101). -/
theorem bitOp_leading (x : Word) : (bitOp 1 x).toNat ≤ 32 ∧ (∀ k < 32, 32 - (bitOp 1 x).toNat ≤ k → x.getLsbD k = false)
    ∧ ((bitOp 1 x).toNat < 32 → x.getLsbD (31 - (bitOp 1 x).toNat) = true) := by
  have hv : bitOp 1 x = BitVec.ofNat 32 (match (bitsOf 32 x.toNat).getLast? with
    | some i => 31 - i
    | none => 32) := rfl
  cases hl : (bitsOf 32 x.toNat).getLast? with
  | none =>
    have hz (k : Nat) (hk : k < 32) : x.getLsbD k = false := by
      rw [List.getLast?_eq_none_iff] at hl
      have := mem_bitsOf_toNat (x := x) (k := k)
      simpa [hl, hk] using this
    rw [hl] at hv
    rw [hv]
    exact ⟨le_rfl, fun k hk _ => hz k hk, fun h => absurd h (lt_irrefl _)⟩
  | some i =>
    obtain ⟨l, he⟩ := List.getLast?_eq_some_iff.1 hl
    obtain ⟨hi, hbit⟩ := mem_bitsOf_toNat.1 (he ▸ List.mem_concat_self : i ∈ bitsOf 32 x.toNat)
    have hn : (bitOp 1 x).toNat = 31 - i := by
      rw [hv, hl, BitVec.toNat_ofNat]
      exact Nat.mod_eq_of_lt (show 31 - i < 2 ^ 32 by omega)
    rw [hn]
    refine ⟨by omega, fun k hk hle => ?_, fun _ => by rwa [show 31 - (31 - i) = i by omega]⟩
    by_contra hk1
    have hmem : k ∈ l ++ [i] := he ▸ mem_bitsOf_toNat.2 ⟨hk, by simpa using hk1⟩
    have hs := he ▸ bitsOf_sorted 32 x.toNat
    rw [List.pairwise_append] at hs
    obtain ⟨-, -, hlt⟩ := hs
    rcases List.mem_append.1 hmem with h | h
    · have := hlt k h i (List.mem_singleton_self i)
      omega
    · have := List.mem_singleton.1 h
      omega

/-- The number of zeros below the lowest one (R101). -/
theorem bitOp_trailing (x : Word) : (bitOp 2 x).toNat ≤ 32 ∧ (∀ k < (bitOp 2 x).toNat, x.getLsbD k = false)
    ∧ ((bitOp 2 x).toNat < 32 → x.getLsbD (bitOp 2 x).toNat = true) := by
  have hv : bitOp 2 x = BitVec.ofNat 32 ((bitsOf 32 x.toNat).headD 32) := rfl
  have hs := bitsOf_sorted 32 x.toNat
  have hm (k : Nat) := mem_bitsOf_toNat (x := x) (k := k)
  cases hl : bitsOf 32 x.toNat with
  | nil =>
    rw [hl] at hv hm
    have hz (k : Nat) (hk : k < 32) : x.getLsbD k = false := by simpa [hk] using hm k
    rw [hv]
    exact ⟨le_rfl, hz, fun h => absurd h (lt_irrefl _)⟩
  | cons i l =>
    rw [hl] at hv hm hs
    obtain ⟨hi, hbit⟩ := (hm i).1 List.mem_cons_self
    have hn : (bitOp 2 x).toNat = i := by
      rw [hv, BitVec.toNat_ofNat, List.headD_cons, Nat.mod_eq_of_lt (by omega)]
    rw [hn]
    refine ⟨hi.le, fun k hk => ?_, fun _ => hbit⟩
    by_contra hk1
    rcases List.mem_cons.1 ((hm k).2 ⟨by omega, by simpa using hk1⟩) with h | h
    · omega
    · have := List.rel_of_pairwise_cons hs h
      omega

/-- The bits in reverse order (R101). -/
theorem bitOp_reverse (x : Word) {k : Nat} (hk : k < 32) : (bitOp 3 x).getLsbD k = x.getLsbD (31 - k) := by
  have hv : bitOp 3 x = laneMask ((bitsOf 32 x.toNat).map (31 - ·)) := by
    rw [laneMask, List.foldl_map]
    rfl
  rw [hv, Bool.eq_iff_iff, getLsbD_laneMask (fun P hP => ?_) hk, List.mem_map]
  · constructor
    · rintro ⟨i, hi, rfl⟩
      obtain ⟨hlt, hbit⟩ := mem_bitsOf_toNat.1 hi
      rwa [show 31 - (31 - i) = i by omega]
    · exact fun h => ⟨31 - k, mem_bitsOf_toNat.2 ⟨by omega, h⟩, by omega⟩
  · obtain ⟨i, -, rfl⟩ := List.mem_map.1 hP
    omega

/-- Settles O5: the shifts by the frames of their count, each field and each count bit by bit. -/
theorem shiftsAndBitFields : Obligations.ShiftsAndBitFields := by
  unfold Obligations.ShiftsAndBitFields
  refine ⟨fun s c d a b m w1 n q => ⟨?_, ?_, ?_, ?_, ?_, ?_⟩, fun s c d a l p m q => ⟨?_, ?_, ?_, ?_⟩⟩
  · exact writesShift_shiftVar isShiftLeft_shiftBy rfl
  · exact writesShift_shiftVar isShiftRight_shiftBy rfl
  · exact writesShift_shiftVar isShiftRight_shiftBy_arith rfl
  · match w1 with
    | 0#1 => exact ⟨_, writesGen_put32_always exec_shli_word fun _ => rfl, fun _ => isShiftLeft_shiftBy _ _ _⟩
    | 1#1 => exact ⟨_, writesGen_put64_always exec_shli_pair fun _ => rfl, fun _ => isShiftLeft_shiftBy _ _ _⟩
  · exact writes_shiftImm isShiftRight_shiftBy rfl
  · exact writes_shiftImm isShiftRight_shiftBy_arith rfl
  · exact ⟨_, writes_put32_always rfl fun _ => rfl, fun L k hk => getLsbD_bfx _ l p hk⟩
  · exact ⟨_, writes_put32_always rfl fun _ => rfl, fun L k hk => getLsbD_bfxs _ l p hk⟩
  · exact ⟨_, writes_put32_always rfl fun _ => rfl, fun L k hk => getLsbD_bfi _ _ l p hk⟩
  · refine ⟨_, writes_put32 rfl fun _ => rfl, fun L => ?_⟩
    match m with
    | 0#2 => exact bitOp_ones _
    | 1#2 => exact bitOp_leading _
    | 2#2 => exact bitOp_trailing _
    | 3#2 => exact fun k hk => bitOp_reverse _ hk

end Sys2Proof.Machine
end

section
/-! PROOFS. Scans and reductions over the participants (R102, R103). -/

namespace Sys2Proof.Machine

open Sys2Proof

/-! ## Running values -/

/-- The value of a scan at a participant covers those up to it, or those below it (R102). -/
theorem scanAt_eq {α : Type} (op : α → α → α) (x : Nat → α) (excl : Bool) (e : α) {part : List Nat}
    (hs : part.Pairwise (· < ·)) {L : Nat} (hL : L ∈ part) : scanAt op x excl e part L
      = (part.filter fun P => if excl then decide (P < L) else decide (P ≤ L)).foldl (fun v P => op v (x P)) e := by
  induction part generalizing e with
  | nil => cases hL
  | cons P t ih =>
    obtain ⟨hlt, ht⟩ := List.pairwise_cons.1 hs
    rw [scanAt]
    split
    case isTrue h =>
      subst h
      have hrest : (t.filter fun K => if excl then decide (K < P) else decide (K ≤ P)) = [] := by
        refine List.filter_eq_nil_iff.2 fun K hK => ?_
        have := hlt K hK
        cases excl <;> simp <;> omega
      rw [List.filter_cons, hrest]
      cases excl <;> simp
    case isFalse h =>
      have hLt : L ∈ t := (List.mem_cons.1 hL).resolve_left (Ne.symm h)
      have hPL : P < L := hlt L hLt
      rw [ih _ ht hLt, List.filter_cons, if_pos (by cases excl <;> simp <;> omega), List.foldl_cons]

/-! ## Sums, the greatest and the least -/

theorem foldl_add_ofInt {w : Nat} (y : Nat → Int) (l : List Nat) (z : Int) :
    l.foldl (fun v P => v + BitVec.ofInt w (y P)) (BitVec.ofInt w z) = BitVec.ofInt w (z + (l.map y).sum) := by
  induction l generalizing z with
  | nil => simp
  | cons P t ih => rw [List.foldl_cons, ← BitVec.ofInt_add, ih, List.map_cons, List.sum_cons, add_assoc]

theorem foldl_add_word (x : Nat → Word) (l : List Nat) : l.foldl (fun v P => v + x P) 0 = BitVec.ofInt 32 (l.map fun P => (x P).toInt).sum := by
  have h := foldl_add_ofInt (w := 32) (fun P => (x P).toInt) l 0
  simp only [BitVec.ofInt_toInt, zero_add] at h
  exact h

theorem foldl_add_signExtend (x : Nat → Word) (l : List Nat) :
    l.foldl (fun v P => v + (x P).signExtend 64) 0 = BitVec.ofInt 64 (l.map fun P => (x P).toInt).sum := by
  have h := foldl_add_ofInt (w := 64) (fun P => (x P).toInt) l 0
  rw [zero_add] at h
  exact h

/-- An operation that picks one of two words, none of which it ranks higher than its pick. -/
def Picks (f : Word → Int) (op : Word → Word → Word) : Prop :=
  ∀ a b, (op a b = a ∨ op a b = b) ∧ f a ≤ f (op a b) ∧ f b ≤ f (op a b)

theorem picks_smax : Picks BitVec.toInt smax := by
  intro a b
  unfold smax
  rw [BitVec.slt_eq_decide]
  by_cases h : a.toInt < b.toInt <;> simp [h] <;> omega

theorem picks_smin : Picks (fun v => -v.toInt) smin := by
  intro a b
  unfold smin
  rw [BitVec.slt_eq_decide]
  by_cases h : b.toInt < a.toInt <;> simp [h] <;> omega

theorem Picks.foldl {f : Word → Int} {op : Word → Word → Word} (h : Picks f op) (x : Nat → Word) (l : List Nat) (e : Word) :
    (l.foldl (fun v P => op v (x P)) e = e ∨ ∃ P ∈ l, l.foldl (fun v P => op v (x P)) e = x P)
      ∧ f e ≤ f (l.foldl (fun v P => op v (x P)) e) ∧ ∀ P ∈ l, f (x P) ≤ f (l.foldl (fun v P => op v (x P)) e) := by
  induction l generalizing e with
  | nil => simp
  | cons P t ih =>
    obtain ⟨hmem, hle, hall⟩ := ih (op e (x P))
    obtain ⟨hpick, he, hP⟩ := h e (x P)
    rw [List.foldl_cons]
    refine ⟨?_, he.trans hle, List.forall_mem_cons.2 ⟨hP.trans hle, hall⟩⟩
    rcases hmem with hv | ⟨K, hK, hv⟩
    · rw [hv]
      exact hpick.imp_right fun h => ⟨P, List.mem_cons_self, h⟩
    · exact .inr ⟨K, List.mem_cons_of_mem P hK, hv⟩

/-- From a start that it ranks lowest of all, such an operation picks one of the words of a list that is not empty. -/
theorem Picks.foldl_of_lowest {f : Word → Int} {op : Word → Word → Word} (h : Picks f op) (hf : Function.Injective f) {e : Word}
    (he : ∀ v, f e ≤ f v) (x : Nat → Word) {l : List Nat} (hl : l ≠ []) :
    (∃ P ∈ l, l.foldl (fun v P => op v (x P)) e = x P) ∧ ∀ P ∈ l, f (x P) ≤ f (l.foldl (fun v P => op v (x P)) e) := by
  obtain ⟨hmem, -, hall⟩ := h.foldl x l e
  refine ⟨hmem.elim (fun hv => ?_) id, hall⟩
  obtain ⟨P, hP⟩ := List.exists_mem_of_ne_nil l hl
  exact ⟨P, hP, hv.trans (hf (le_antisymm (he _) (hv ▸ hall P hP)))⟩

theorem foldl_smax (x : Nat → Word) {l : List Nat} (hl : l ≠ []) : (∃ P ∈ l, l.foldl (fun v P => smax v (x P)) 0x80000000 = x P)
    ∧ ∀ P ∈ l, (x P).toInt ≤ (l.foldl (fun v P => smax v (x P)) 0x80000000).toInt :=
  picks_smax.foldl_of_lowest (fun _ _ h => BitVec.eq_of_toInt_eq h) (e := 0x80000000) (fun v => v.le_toInt) x hl

theorem foldl_smin (x : Nat → Word) {l : List Nat} (hl : l ≠ []) : (∃ P ∈ l, l.foldl (fun v P => smin v (x P)) 0x7FFFFFFF = x P)
    ∧ ∀ P ∈ l, (l.foldl (fun v P => smin v (x P)) 0x7FFFFFFF).toInt ≤ (x P).toInt := by
  have hlow (v : Word) : -(0x7FFFFFFF : Word).toInt ≤ -v.toInt := by
    have : v.toInt < 2 ^ 31 := BitVec.toInt_lt
    rw [show (0x7FFFFFFF : Word).toInt = 2 ^ 31 - 1 from rfl]
    omega
  obtain ⟨hmem, hall⟩ := picks_smin.foldl_of_lowest (fun _ _ h => BitVec.eq_of_toInt_eq (neg_inj.1 h)) hlow x hl
  exact ⟨hmem, fun P hP => neg_le_neg_iff.1 (hall P hP)⟩

/-! ## SCAN and IRED -/

section
variable {c : Bool} {d a : BitVec 6} {q : BitVec 4} {s : State}

theorem exec_scan_incl : exec (.scan c d a 0 q) s
    = .next (s.put32 q d [(1, a.toNat)] fun g => scanAt (· + ·) (g.val a.toNat) false 0 (s.exec q)) := rfl

theorem exec_scan_excl : exec (.scan c d a 1 q) s
    = .next (s.put32 q d [(1, a.toNat)] fun g => scanAt (· + ·) (g.val a.toNat) true 0 (s.exec q)) := rfl

theorem exec_scan_wide : exec (.scan c d a 2 q) s = .next (s.put64 q d.toNat [(1, a.toNat)] fun g =>
    scanAt (· + ·) (fun P => (g.val a.toNat P).signExtend 64) false 0 (s.exec q)) := rfl

theorem exec_scan_max : exec (.scan c d a 3 q) s
    = .next (s.put32 q d [(1, a.toNat)] fun g => scanAt smax (g.val a.toNat) false 0x80000000 (s.exec q)) := rfl

theorem exec_ired_sum : exec (.ired c d a 0 q) s
    = .next (s.put32 q d [(1, a.toNat)] fun g _ => (s.exec q).foldl (fun v P => v + g.val a.toNat P) 0) := rfl

theorem exec_ired_wide : exec (.ired c d a 1 q) s = .next (s.put64 q d.toNat [(1, a.toNat)] fun g _ =>
    (s.exec q).foldl (fun v P => v + (g.val a.toNat P).signExtend 64) 0) := rfl

theorem exec_ired_max : exec (.ired c d a 2 q) s
    = .next (s.put32 q d [(1, a.toNat)] fun g _ => (s.exec q).foldl (fun v P => smax v (g.val a.toNat P)) 0x80000000) := rfl

theorem exec_ired_min : exec (.ired c d a 3 q) s
    = .next (s.put32 q d [(1, a.toNat)] fun g _ => (s.exec q).foldl (fun v P => smin v (g.val a.toNat P)) 0x7FFFFFFF) := rfl

end

/-- Settles O6: each word is a fold over participants in increasing order, a sum or a choice of the greatest or least. -/
theorem scanWords : Obligations.ScanWords := by
  unfold Obligations.ScanWords
  intro s c d a m q
  have hs := s.exec_sorted q
  refine ⟨?_, ?_⟩
  · match m with
    | 0#2 =>
      refine (writes_put32 exec_scan_incl fun _ => rfl).congr fun _ L hL => ?_
      exact (scanAt_eq _ _ _ _ hs hL).trans (foldl_add_word _ _)
    | 1#2 =>
      refine (writes_put32 exec_scan_excl fun _ => rfl).congr fun _ L hL => ?_
      exact (scanAt_eq _ _ _ _ hs hL).trans (foldl_add_word _ _)
    | 2#2 =>
      refine (writes_put64 exec_scan_wide fun _ => rfl).congr fun j L hL => ?_
      exact congrArg (elem 32 j) ((scanAt_eq _ _ _ _ hs hL).trans (foldl_add_signExtend _ _))
    | 3#2 =>
      refine ⟨_, writes_put32 exec_scan_max fun _ => rfl, fun L hL => ?_⟩
      rw [scanAt_eq _ _ _ _ hs hL]
      exact foldl_smax _ (List.ne_nil_of_mem (List.mem_filter.2 ⟨hL, decide_eq_true le_rfl⟩))
  · match m with
    | 0#2 => exact writes_put32 exec_ired_sum fun _ => (foldl_add_word _ _).symm
    | 1#2 => exact writes_put64 exec_ired_wide fun _ => (foldl_add_signExtend _ _).symm
    | 2#2 => exact ⟨_, writes_put32 exec_ired_max fun _ => rfl, foldl_smax _⟩
    | 3#2 => exact ⟨_, writes_put32 exec_ired_min fun _ => rfl, foldl_smin _⟩

end Sys2Proof.Machine
end

section
/-! PROOFS. The words with an affine destination: the base and the stride of each (R73 to R75). -/

namespace Sys2Proof.Machine

open Sys2Proof

/-! ## Operands -/

theorem State.isAffine_of_shape {s : State} {d k : Nat} (h : s.src.shape d = .affine k) : s.isAffine d = true := by
  rw [State.isAffine, h]

theorem Readable.subset {s : State} {ops ops' : List (Nat × Nat)} (h : Readable s ops) (hsub : ops' ⊆ ops) : Readable s ops' :=
  fun p hp => h p (hsub hp)

theorem AffOperand.aff32 {g : Gang} {r : Nat} {base stride : Word} (h : AffOperand g r base stride) :
    g.aff32 r = some { uni := (g.shape r).same (.uniform 0), base := base, stride := stride } := by
  obtain ⟨i, hs, rfl, rfl⟩ | ⟨i, hs, rfl, rfl⟩ := h <;> rw [Gang.aff32, hs] <;> rfl

theorem AffOperand64.aff64 {g : Gang} {r : Nat} {base stride : DWord} (h : AffOperand64 g r base stride) :
    g.aff64 r = some { uni := (g.shape r).same (.uniform 0), base := base, stride := stride } := by
  obtain ⟨i, hs, rfl, rfl⟩ | ⟨i, hs, rfl, rfl⟩ := h <;> rw [Gang.aff64, hs] <;> rfl

theorem Gang.aff32_general {g : Gang} {r : Nat} (h : g.shape r = .general) : g.aff32 r = none := by
  rw [Gang.aff32, h]

theorem Shape.not_uniform_of_affine {x : Shape} (h : x.same (.affine 0) = true) : x.same (.uniform 0) = false := by
  cases x with
  | affine => rfl
  | general | uniform | unalloc => exact absurd h Bool.false_ne_true

/-! ## What is written -/

/-- The word i writes n affine registers from number k in some lanes, and completes (R75). -/
def WritesAff (i : Instr) (s : State) (n k : Nat) (lanes : List Nat) (base stride : DWord) : Prop :=
  ∃ t, exec i s = .next t ∧ WroteAff s t n k lanes base stride

section
variable {i : Instr} {s : State} {q : BitVec 4} {d k : Nat}

/-- What `putAff32` does with a result: it writes the register, if any lane executes (R75). -/
theorem wroteAff_putAff32 (hd : s.src.shape d = .affine k) (uni : Bool) (base stride : Word) :
    WroteAff s (s.putAff32 q d (some ⟨uni, base, stride⟩)) 1 k (s.exec q) (base.setWidth 64) (stride.setWidth 64) := by
  have helem (x : Word) : elem 32 0 (x.setWidth 64 : DWord) = x := by rw [← half_low]; simp
  unfold State.putAff32
  rw [hd]
  cases he : s.exec q with
  | nil => exact ⟨rfl, fun j => by simp⟩
  | cons L t =>
    refine ⟨rfl, fun j => ?_⟩
    have hj : (k ≤ j ∧ j < k + 1 ∧ L :: t ≠ []) ↔ j = k := by simp; omega
    simp only [hj, List.isEmpty_cons, Bool.false_eq_true, if_false, Gang.setAff, Store.get_put]
    by_cases h : j = k <;> simp [h, helem]

/-- What `putAff64` does with a result: the low words go to the first register, the high words to the next (R8, R73). -/
theorem wroteAff_putAff64 (hd : s.src.shape d = .affine k) (uni : Bool) (base stride : DWord) :
    WroteAff s (s.putAff64 q d (some ⟨uni, base, stride⟩)) 2 k (s.exec q) base stride := by
  unfold State.putAff64
  rw [hd]
  cases he : s.exec q with
  | nil => exact ⟨rfl, fun j => by simp⟩
  | cons L t =>
    refine ⟨rfl, fun j => ?_⟩
    have hj : (k ≤ j ∧ j < k + 2 ∧ L :: t ≠ []) ↔ j = k + 1 ∨ j = k := by simp; omega
    simp only [hj, List.isEmpty_cons, Bool.false_eq_true, if_false, Gang.setAff, Store.get_put]
    by_cases h1 : j = k + 1
    · simp [h1, ← half_high]
    · by_cases h0 : j = k <;> simp [h0, h1, ← half_low]

theorem writesAff_putAff32 {v : AffVal 32} (h : exec i s = .next (s.putAff32 q d (some v))) (hd : s.src.shape d = .affine k) :
    WritesAff i s 1 k (s.exec q) (v.base.setWidth 64) (v.stride.setWidth 64) :=
  ⟨_, h, wroteAff_putAff32 hd v.uni v.base v.stride⟩

theorem writesAff_putAff64 {v : AffVal 64} (h : exec i s = .next (s.putAff64 q d (some v))) (hd : s.src.shape d = .affine k) :
    WritesAff i s 2 k (s.exec q) v.base v.stride :=
  ⟨_, h, wroteAff_putAff64 hd v.uni v.base v.stride⟩

theorem writesAff_putAff32_always {v : AffVal 32} (h : exec i s = .next (s.putAff32 always d (some v))) (hd : s.src.shape d = .affine k) :
    WritesAff i s 1 k s.lanes (v.base.setWidth 64) (v.stride.setWidth 64) :=
  s.exec_always ▸ writesAff_putAff32 h hd

theorem writesAff_putAff64_always {v : AffVal 64} (h : exec i s = .next (s.putAff64 always d (some v))) (hd : s.src.shape d = .affine k) :
    WritesAff i s 2 k s.lanes v.base v.stride :=
  s.exec_always ▸ writesAff_putAff64 h hd

end

section
variable {i : Instr} {s : State} {q : BitVec 4} {d a b : BitVec 6} {m : BitVec 2} {k : Nat}
  {f : (w : Nat) → BitVec w → BitVec w → BitVec w} {fa : (w : Nat) → AffVal w → AffVal w → Option (AffVal w)}

/-- An arithmetic word in mode 32 with an affine destination (R74). -/
theorem writesAff_arith32 {x1 s1 x2 s2 x t : Word} {uni : Bool} (h : exec i s = .next (s.arith q d a b m f fa)) (hm : m = 0)
    (hd : s.src.shape d.toNat = .affine k) (hr : Readable s [(1, d.toNat), (1, a.toNat), (1, b.toNat)])
    (ha : AffOperand s.src a.toNat x1 s1) (hb : AffOperand s.src b.toNat x2 s2)
    (hv : fa 32 ⟨(s.src.shape a.toNat).same (.uniform 0), x1, s1⟩ ⟨(s.src.shape b.toNat).same (.uniform 0), x2, s2⟩ = some ⟨uni, x, t⟩) :
    WritesAff i s 1 k (s.exec q) (x.setWidth 64) (t.setWidth 64) := by
  rw [State.arith_affine32 (by rw [hm]; decide) (State.isAffine_of_shape hd) hr, if_pos hm, ha.aff32, hb.aff32, Option.bind_some,
    Option.bind_some, hv] at h
  exact writesAff_putAff32 h hd

/-- An arithmetic word in mode 64 with an affine destination (R73, R74). -/
theorem writesAff_arith64 {y1 t1 y2 t2 y t : DWord} {uni : Bool} (h : exec i s = .next (s.arith q d a b m f fa)) (hm : m = 1)
    (hd : s.src.shape d.toNat = .affine k) (hr : Readable s [(2, d.toNat), (2, a.toNat), (2, b.toNat)])
    (ha : AffOperand64 s.src a.toNat y1 t1) (hb : AffOperand64 s.src b.toNat y2 t2)
    (hv : fa 64 ⟨(s.src.shape a.toNat).same (.uniform 0), y1, t1⟩ ⟨(s.src.shape b.toNat).same (.uniform 0), y2, t2⟩ = some ⟨uni, y, t⟩) :
    WritesAff i s 2 k (s.exec q) y t := by
  rw [State.arith_affine64 hm (State.isAffine_of_shape hd) hr, ha.aff64, hb.aff64, Option.bind_some, Option.bind_some, hv] at h
  exact writesAff_putAff64 h hd

/-- A general operand gives no base (R74). -/
theorem opr_arith_general (h : exec i s = .next (s.arith q d a b m f fa)) (hm : m = 0) (hd : s.isAffine d.toNat = true)
    (ha : s.src.shape a.toNat = .general) : Opr i s := by
  rw [State.arith_opr32 hm hd (by rw [Gang.aff32_general ha, Option.bind_none])] at h
  exact h

end

/-! ## MOV, LANEID, SHLI, ADDRI and ADDR -/

section
variable {c : Bool} {s : State} {q : BitVec 4} {d a b : BitVec 6} {pd pa : BitVec 5} {m : BitVec 2} {n : BitVec 6} {im : BitVec 12}

theorem exec_mov_affine (hr : Readable s [(1, d.toNat), (1, a.toNat)]) (hd : s.isAffine d.toNat = true) :
    exec (.mov c d a q) s = .next (s.putAff32 q d.toNat (s.src.aff32 a.toNat)) :=
  congrArg Host.Outcome.next (State.withRegs_affine hr hd _ _)

theorem exec_laneid_affine (hr : Readable s [(1, d.toNat)]) (hd : s.isAffine d.toNat = true) : exec (.laneid c d m q) s
    = .next (s.putAff32 q d.toNat (if m = 0 then some { uni := false, base := 0, stride := 1 } else none)) :=
  congrArg Host.Outcome.next (State.withRegs_affine hr hd _ _)

theorem exec_shli_affine (hr : Readable s [(1, d.toNat), (1, a.toNat)]) (hd : s.isAffine d.toNat = true) :
    exec (.shli c d a 0 n) s = .next (s.putAff32 always d.toNat ((s.src.aff32 a.toNat).map fun x =>
      { uni := false, base := shiftBy .left 32 x.base n.toNat, stride := shiftBy .left 32 x.stride n.toNat })) :=
  exec_shli_word.trans (congrArg Host.Outcome.next (State.withRegs_affine hr hd _ _))

theorem exec_shli_affine64 (hr : Readable s [(2, d.toNat), (2, a.toNat)]) (hd : s.isAffine d.toNat = true) :
    exec (.shli c d a 1 n) s = .next (s.putAff64 always d.toNat ((s.src.aff64 a.toNat).map fun x =>
      { uni := false, base := shiftBy .left 64 x.base n.toNat, stride := shiftBy .left 64 x.stride n.toNat })) :=
  exec_shli_pair.trans (congrArg Host.Outcome.next (State.withRegs_affine hr hd _ _))

theorem exec_addri_affine (hr : Readable s [(2, 2 * pd.toNat), (2, 2 * pa.toNat)]) (hd : s.isAffine (2 * pd.toNat) = true) :
    exec (.addri c pd pa im) s = .next (s.putAff64 always (2 * pd.toNat) ((s.src.aff64 (2 * pa.toNat)).map fun x =>
      { uni := false, base := x.base + im.signExtend 64, stride := x.stride })) :=
  congrArg Host.Outcome.next (State.withRegs_affine hr hd _ _)

theorem exec_addr_affine (hr : Readable s [(2, 2 * pd.toNat), (2, 2 * pa.toNat), (1, b.toNat)]) (hd : s.isAffine (2 * pd.toNat) = true) :
    exec (.addr c pd pa b m q) s = .next (s.putAff64 q (2 * pd.toNat) ((s.src.aff64 (2 * pa.toNat)).bind fun x =>
      (s.src.aff32 b.toNat).map fun y =>
        { uni := false, base := x.base + (y.base.signExtend 64 : DWord) <<< m.toNat
          stride := x.stride + (y.stride.signExtend 64 : DWord) <<< m.toNat })) := by
  refine congrArg Host.Outcome.next ((State.withRegs_affine hr hd _ _).trans ?_)
  cases s.src.aff64 (2 * pa.toNat) <;> cases s.src.aff32 b.toNat <;> rfl

end

theorem shiftBy_left_eq (w : Nat) (x : BitVec w) (k : Nat) : shiftBy .left w x k = x <<< k := by
  show (if k < w then x <<< k else 0) = _
  split
  · rfl
  · exact (BitVec.shiftLeft_eq_zero (by omega)).symm

section
variable {c : Bool} {s : State} {q : BitVec 4} {d a b : BitVec 6} {pd pa : BitVec 5} {m : BitVec 2} {n : BitVec 6} {im : BitVec 12}
  {k : Nat} {x1 s1 x2 s2 : Word} {y1 t1 : DWord}

theorem writesAff_mov (hr : Readable s [(1, d.toNat), (1, a.toNat)]) (hd : s.src.shape d.toNat = .affine k)
    (ha : AffOperand s.src a.toNat x1 s1) :
    WritesAff (.mov c d a q) s 1 k (s.exec q) (x1.setWidth 64) (s1.setWidth 64) := by
  have h := exec_mov_affine (c := c) (q := q) hr (State.isAffine_of_shape hd)
  rw [ha.aff32] at h
  exact writesAff_putAff32 h hd

theorem writesAff_shli (hr : Readable s [(1, d.toNat), (1, a.toNat)]) (hd : s.src.shape d.toNat = .affine k)
    (ha : AffOperand s.src a.toNat x1 s1) :
    WritesAff (.shli c d a 0 n) s 1 k s.lanes ((x1 <<< n.toNat).setWidth 64) ((s1 <<< n.toNat).setWidth 64) := by
  have h := exec_shli_affine (c := c) (n := n) hr (State.isAffine_of_shape hd)
  rw [ha.aff32, Option.map_some, shiftBy_left_eq, shiftBy_left_eq] at h
  exact writesAff_putAff32_always h hd

theorem writesAff_shli64 (hr : Readable s [(2, d.toNat), (2, a.toNat)]) (hd : s.src.shape d.toNat = .affine k)
    (ha : AffOperand64 s.src a.toNat y1 t1) : WritesAff (.shli c d a 1 n) s 2 k s.lanes (y1 <<< n.toNat) (t1 <<< n.toNat) := by
  have h := exec_shli_affine64 (c := c) (n := n) hr (State.isAffine_of_shape hd)
  rw [ha.aff64, Option.map_some, shiftBy_left_eq, shiftBy_left_eq] at h
  exact writesAff_putAff64_always h hd

theorem writesAff_addri (hr : Readable s [(2, 2 * pd.toNat), (2, 2 * pa.toNat)]) (hd : s.src.shape (2 * pd.toNat) = .affine k)
    (ha : AffOperand64 s.src (2 * pa.toNat) y1 t1) : WritesAff (.addri c pd pa im) s 2 k s.lanes (y1 + BitVec.ofInt 64 im.toInt) t1 := by
  have h := exec_addri_affine (c := c) (im := im) hr (State.isAffine_of_shape hd)
  rw [ha.aff64] at h
  exact writesAff_putAff64_always h hd

theorem writesAff_addr (hr : Readable s [(2, 2 * pd.toNat), (2, 2 * pa.toNat), (1, b.toNat)]) (hd : s.src.shape (2 * pd.toNat) = .affine k)
    (ha : AffOperand64 s.src (2 * pa.toNat) y1 t1) (hb : AffOperand s.src b.toNat x2 s2) :
    WritesAff (.addr c pd pa b m q) s 2 k (s.exec q) (y1 + BitVec.ofInt 64 (x2.toInt * 2 ^ m.toNat))
      (t1 + BitVec.ofInt 64 (s2.toInt * 2 ^ m.toNat)) := by
  have h := exec_addr_affine (c := c) (m := m) (q := q) hr (State.isAffine_of_shape hd)
  rw [ha.aff64, hb.aff32] at h
  rw [ofInt_mul_two_pow, ofInt_mul_two_pow]
  exact writesAff_putAff64 h hd

/-! A general operand gives no base (R74, R75). -/

theorem opr_mov (hr : Readable s [(1, d.toNat), (1, a.toNat)]) (hd : s.isAffine d.toNat = true) (ha : s.src.shape a.toNat = .general) :
    Opr (.mov c d a q) s := by
  rw [Opr, exec_mov_affine hr hd, Gang.aff32_general ha, State.putAff32_none]

theorem opr_shli (hr : Readable s [(1, d.toNat), (1, a.toNat)]) (hd : s.isAffine d.toNat = true) (ha : s.src.shape a.toNat = .general) :
    Opr (.shli c d a 0 n) s := by
  rw [Opr, exec_shli_affine hr hd, Gang.aff32_general ha, Option.map_none, State.putAff32_none]

theorem opr_addr (hr : Readable s [(2, 2 * pd.toNat), (2, 2 * pa.toNat), (1, b.toNat)]) (hd : s.isAffine (2 * pd.toNat) = true)
    (ha : AffOperand64 s.src (2 * pa.toNat) y1 t1) (hb : s.src.shape b.toNat = .general) : Opr (.addr c pd pa b m q) s := by
  rw [Opr, exec_addr_affine hr hd, ha.aff64, Gang.aff32_general hb]
  rfl

/-- LANEID has an affine result in mode 0 only (R74). -/
theorem writesAff_laneid (hr : Readable s [(1, d.toNat)]) (hd : s.src.shape d.toNat = .affine k) :
    if m = 0 then WritesAff (.laneid c d m q) s 1 k (s.exec q) 0 1 else Opr (.laneid c d m q) s := by
  have h := exec_laneid_affine (c := c) (m := m) (q := q) hr (State.isAffine_of_shape hd)
  split
  case isTrue hm =>
    rw [if_pos hm] at h
    exact writesAff_putAff32 h hd
  case isFalse hm =>
    rw [if_neg hm] at h
    exact h

/-- The product of two affine operands would not be affine (R74). -/
theorem opr_imul_affine (hm : m = 0) (hd : s.isAffine d.toNat = true) (ha : AffOperand s.src a.toNat x1 s1) (hb : AffOperand s.src b.toNat x2 s2)
    (hsa : (s.src.shape a.toNat).same (.affine 0) = true) (hsb : (s.src.shape b.toNat).same (.affine 0) = true) :
    Opr (.imul c d a b m q) s := by
  refine congrArg Host.Outcome.next (State.arith_opr32 hm hd ?_)
  rw [ha.aff32, hb.aff32, Shape.not_uniform_of_affine hsa, Shape.not_uniform_of_affine hsb]
  rfl

end

/-- Settles O7: each word by what `putAff32` or `putAff64` does with its base and stride, or by the operand that gives none. -/
theorem affineWords : Obligations.AffineWords := by
  unfold Obligations.AffineWords
  intro s c d a b pd pa m w1 n q i k x1 s1 x2 s2 y1 t1 y2 t2
  refine ⟨fun hd hr => ⟨?_, fun ha => ⟨?_, ?_⟩, fun ha hb hm => ⟨?_, ?_, ?_, ?_⟩, fun ha => ⟨?_, fun hm => ⟨?_, ?_, ?_⟩, ?_⟩⟩,
    fun hd hr ha => ⟨?_, fun hb hm => ⟨?_, ?_, ?_⟩⟩, fun hd hr ha => ⟨?_, ?_, ?_⟩⟩
  · exact writesAff_laneid (hr.subset (by simp)) hd
  · exact writesAff_mov (hr.subset (by simp)) hd ha
  · rintro rfl
    exact writesAff_shli (hr.subset (by simp)) hd ha
  · exact writesAff_arith32 rfl hm hd hr ha hb rfl
  · exact writesAff_arith32 rfl hm hd hr ha hb rfl
  · exact fun hu => writesAff_arith32 rfl hm hd hr ha hb (if_pos (Bool.or_eq_true_iff.2 hu))
  · exact opr_imul_affine hm (State.isAffine_of_shape hd) ha hb
  · exact opr_mov (hr.subset (by simp)) (State.isAffine_of_shape hd) ha
  · exact opr_arith_general rfl hm (State.isAffine_of_shape hd) ha
  · exact opr_arith_general rfl hm (State.isAffine_of_shape hd) ha
  · exact opr_arith_general rfl hm (State.isAffine_of_shape hd) ha
  · rintro rfl
    exact opr_shli (hr.subset (by simp)) (State.isAffine_of_shape hd) ha
  · rintro rfl
    exact writesAff_shli64 (hr.subset (by simp)) hd ha
  · exact writesAff_arith64 rfl hm hd hr ha hb rfl
  · exact writesAff_arith64 rfl hm hd hr ha hb rfl
  · exact fun hu => writesAff_arith64 rfl hm hd hr ha hb (if_pos (Bool.or_eq_true_iff.2 hu))
  · exact writesAff_addri (hr.subset (by simp)) hd ha
  · exact fun hb => writesAff_addr hr hd ha hb
  · exact opr_addr hr (State.isAffine_of_shape hd) ha

end Sys2Proof.Machine
end

section
/-! PROOFS. The words that the specification writes out. -/

namespace Sys2Proof.Machine

open Sys2Proof

/-- Settles O56: the decoder is run on each word. -/
theorem exampleWords : Obligations.ExampleWords := by
  unfold Obligations.ExampleWords
  decide +kernel

end Sys2Proof.Machine
end

section
/-! PROOFS. What rounding to an integer gives, and what a number of a format rounds to (R106 to R111). -/

namespace Sys2Proof.Machine

open Sys2Proof

/-! ## Rounding to an integer -/

/-- Whether m × 2^-k, which is no integer, is rounded up (R109). -/
def roundsUp (rm : Rm) (neg : Bool) (m k : Nat) : Bool :=
  match rm with
  | .rn => decide (2 ^ k < 2 * (m % 2 ^ k) ∨ 2 * (m % 2 ^ k) = 2 ^ k ∧ m / 2 ^ k % 2 = 1)
  | .rz => false
  | .ru => !neg
  | .rd => neg

theorem roundInt_zero (rm : Rm) (neg : Bool) (m : Nat) (st : Bool) : roundInt rm neg m 0 st = (m, st) := by
  simp [roundInt]

theorem roundInt_exact (rm : Rm) (neg : Bool) {m k : Nat} (h : m % 2 ^ k = 0) :
    roundInt rm neg m k false = (m / 2 ^ k, false) := by
  by_cases hk : k = 0
  · subst hk
    simpa using roundInt_zero rm neg m false
  · have hpos : 0 < 2 ^ (k - 1) := by positivity
    cases rm <;> simp [roundInt, hk, h, hpos.ne]

theorem roundInt_inexact (rm : Rm) (neg : Bool) {m k : Nat} (h : m % 2 ^ k ≠ 0) :
    roundInt rm neg m k false = (if roundsUp rm neg m k then m / 2 ^ k + 1 else m / 2 ^ k, true) := by
  have hk : k ≠ 0 := by
    rintro rfl
    exact h (Nat.mod_one m)
  have h2 := mul_pow_sub_one hk 2
  have hgt : 2 ^ (k - 1) < m % 2 ^ k ↔ 2 ^ k < 2 * (m % 2 ^ k) := by omega
  have heq : m % 2 ^ k = 2 ^ (k - 1) ↔ 2 * (m % 2 ^ k) = 2 ^ k := by omega
  cases rm with
  | rn => simp [roundInt, roundsUp, hk, h, hgt, heq]
  | rz => simp [roundInt, roundsUp, hk, h]
  | ru => simp [roundInt, roundsUp, hk, h]
  | rd => cases neg <;> simp [roundInt, roundsUp, hk, h]

/-- The integer lies beside the exact value, above it exactly if it was rounded up. -/
theorem roundInt_fst (rm : Rm) (neg : Bool) (m k : Nat) : (roundInt rm neg m k false).1
    = if m % 2 ^ k ≠ 0 ∧ roundsUp rm neg m k = true then m / 2 ^ k + 1 else m / 2 ^ k := by
  by_cases h : m % 2 ^ k = 0
  · simp [roundInt_exact rm neg h, h]
  · simp [roundInt_inexact rm neg h, h]

theorem roundInt_snd (rm : Rm) (neg : Bool) (m k : Nat) : (roundInt rm neg m k false).2 = true ↔ m % 2 ^ k ≠ 0 := by
  by_cases h : m % 2 ^ k = 0
  · simp [roundInt_exact rm neg h, h]
  · simp [roundInt_inexact rm neg h, h]

/-- The integer is the exact value if there is nothing to round. -/
theorem roundInt_fst_mul {rm : Rm} {neg : Bool} {m k : Nat} (h : m % 2 ^ k = 0) : (roundInt rm neg m k false).1 * 2 ^ k = m := by
  rw [roundInt_exact rm neg h]
  exact Nat.div_mul_cancel (Nat.dvd_of_mod_eq_zero h)

/-- m lies between two neighbouring multiples of 2^k. -/
theorem div_mul_two_pow_bounds (m k : Nat) : m / 2 ^ k * 2 ^ k + m % 2 ^ k = m ∧ m % 2 ^ k < 2 ^ k
    ∧ (m / 2 ^ k + 1) * 2 ^ k = m / 2 ^ k * 2 ^ k + 2 ^ k :=
  ⟨Nat.div_add_mod' m _, Nat.mod_lt _ (by positivity), Nat.succ_mul _ _⟩

/-- To nearest, ties to even: the distance is half a unit at most, and with a distance of half a unit the integer is even. -/
theorem roundInt_rn (neg : Bool) (m k : Nat) :
    let q := (roundInt .rn neg m k false).1
    2 * (q * 2 ^ k - m) ≤ 2 ^ k ∧ 2 * (m - q * 2 ^ k) ≤ 2 ^ k
      ∧ (2 * (q * 2 ^ k - m) = 2 ^ k ∨ 2 * (m - q * 2 ^ k) = 2 ^ k → q % 2 = 0 ∨ k = 0) := by
  obtain ⟨hm, hr, hs⟩ := div_mul_two_pow_bounds m k
  simp only [roundInt_fst, roundsUp, decide_eq_true_eq]
  split <;> omega

theorem le_roundInt_up {rm : Rm} {neg : Bool} {m k : Nat} (h : roundsUp rm neg m k = true) :
    m ≤ (roundInt rm neg m k false).1 * 2 ^ k := by
  obtain ⟨hm, hr, hs⟩ := div_mul_two_pow_bounds m k
  by_cases h0 : m % 2 ^ k = 0
  · exact (roundInt_fst_mul h0).ge
  · rw [roundInt_fst, if_pos ⟨h0, h⟩]
    omega

theorem roundInt_down {rm : Rm} {neg : Bool} {m k : Nat} (h : roundsUp rm neg m k = false) : (roundInt rm neg m k false).1 = m / 2 ^ k := by
  simp [roundInt_fst, h]

/-! ## A number of a format rounds to itself -/

/-- The three fields of a number of a format (R106). -/
theorem Fmt.fields (f : Fmt) {x : Nat} (hx : x < 2 * f.signBit) :
    (if x / f.signBit % 2 == 1 then f.signBit else 0) + (x / 2 ^ f.pw % 2 ^ f.ew * 2 ^ f.pw + x % 2 ^ f.pw) = x := by
  have hmag : x / 2 ^ f.pw % 2 ^ f.ew * 2 ^ f.pw + x % 2 ^ f.pw = x % f.signBit := by
    rw [Fmt.signBit, Nat.add_comm f.ew, pow_add, Nat.mod_mul, Nat.mul_comm, Nat.add_comm]
  have hs : x / f.signBit < 2 := Nat.div_lt_of_lt_mul (by omega)
  have hsplit := Nat.div_add_mod' x f.signBit
  rw [hmag]
  rcases Nat.lt_succ_iff_lt_or_eq.1 hs with h | h
  · simp only [Nat.lt_one_iff.1 h] at hsplit ⊢
    simpa using hsplit
  · rw [h] at hsplit ⊢
    simpa using hsplit

/-- A value whose last place is already that of the format is not changed by rounding. -/
theorem roundMag_exact {f : Fmt} (rm : Rm) (neg : Bool) {m : Nat} {e : Int} (hm : m ≠ 0)
    (hq : max (e + (Nat.log2 m : Int)) (1 - (f.bias : Int)) - f.pw = e)
    (hb : ((e + f.pw + f.bias).toNat - 1) * 2 ^ f.pw + m < f.inf) :
    roundMag f rm neg m e false
      = { bits := (if neg then f.signBit else 0) + (((e + f.pw + f.bias).toNat - 1) * 2 ^ f.pw + m), fl := 0 } := by
  simp [roundMag, hm, hq, roundInt_zero, Nat.not_le.2 hb]

theorem roundMag_subnormal {f : Fmt} (rm : Rm) (neg : Bool) {m : Nat} (hm : m < 2 ^ f.pw) (hf : 2 ^ f.ew ≠ 1) :
    roundMag f rm neg m (1 - (f.bias : Int) - f.pw) false = { bits := (if neg then f.signBit else 0) + m, fl := 0 } := by
  by_cases h0 : m = 0
  · subst h0
    rfl
  · have hl : Nat.log2 m < f.pw := (Nat.log2_lt h0).2 hm
    have he : (1 - (f.bias : Int) - f.pw + f.pw + f.bias).toNat - 1 = 0 := by omega
    have hinf : 2 ^ f.pw ≤ f.inf := Nat.le_mul_of_pos_left _ (by have := Nat.two_pow_pos f.ew; omega)
    rw [roundMag_exact rm neg h0 (by omega) (by rw [he]; omega), he, Nat.zero_mul, Nat.zero_add]

theorem roundMag_normal {f : Fmt} (rm : Rm) (neg : Bool) {ex fr : Nat} (h0 : ex ≠ 0) (hex : ex < 2 ^ f.ew - 1) (hfr : fr < 2 ^ f.pw) :
    roundMag f rm neg (2 ^ f.pw + fr) ((ex : Int) - f.bias - f.pw) false
      = { bits := (if neg then f.signBit else 0) + (ex * 2 ^ f.pw + fr), fl := 0 } := by
  have hm : 2 ^ f.pw + fr ≠ 0 := by have := Nat.two_pow_pos f.pw; omega
  have hl : Nat.log2 (2 ^ f.pw + fr) = f.pw := (Nat.log2_eq_iff hm).2 ⟨by omega, by rw [pow_succ]; omega⟩
  have he : ((ex : Int) - f.bias - f.pw + f.pw + f.bias).toNat - 1 = ex - 1 := by omega
  have hbits : (ex - 1) * 2 ^ f.pw + (2 ^ f.pw + fr) = ex * 2 ^ f.pw + fr := by
    rw [← Nat.add_assoc, ← Nat.succ_mul, Nat.succ_eq_add_one, Nat.sub_add_cancel (Nat.pos_of_ne_zero h0)]
  have hinf : ex * 2 ^ f.pw + fr < f.inf := calc
    ex * 2 ^ f.pw + fr < (ex + 1) * 2 ^ f.pw := by rw [Nat.succ_mul]; omega
    _ ≤ f.inf := Nat.mul_le_mul_right _ hex
  rw [roundMag_exact rm neg hm (by rw [hl]; omega) (by rwa [he, hbits]), he, hbits]

/-- A number of a format rounds to itself in every mode and raises no flag. -/
theorem roundF_val {f : Fmt} (rm : Rm) {x : Nat} (hx : x < 2 * f.signBit) (hn : (f.val x).isNan = false) :
    roundF f rm (f.val x) = { bits := x, fl := 0 } := by
  have hfields := f.fields hx
  have hfr : x % 2 ^ f.pw < 2 ^ f.pw := Nat.mod_lt _ (by positivity)
  have hex : x / 2 ^ f.pw % 2 ^ f.ew < 2 ^ f.ew := Nat.mod_lt _ (by positivity)
  unfold Fmt.val at hn ⊢
  simp only at hn ⊢
  generalize x / 2 ^ f.pw % 2 ^ f.ew = ex at *
  generalize x % 2 ^ f.pw = fr at *
  split_ifs at hn ⊢ with h1 h2 h3
  · rw [h1, h2] at hfields
    exact congrArg (FRes.mk · 0) hfields
  · cases hn
  · rw [h3, Nat.zero_mul, Nat.zero_add] at hfields
    rw [roundF, roundMag_subnormal rm _ hfr (by omega), hfields]
  · rw [roundF, roundMag_normal rm _ h3 (by omega) hfr, hfields]

theorem roundF_nan {f : Fmt} {v : FVal} (rm : Rm) (h : v.isNan = true) :
    roundF f rm v = { bits := f.nan, fl := if v.isSnan then flagIV else 0 } := by
  cases v with
  | nan s => rfl
  | inf n => cases h
  | fin n m e => cases h

/-! ## Operations on a NaN -/

@[simp] theorem FVal.isNan_neg (v : FVal) : v.neg.isNan = v.isNan := by
  cases v <;> rfl

@[simp] theorem FVal.isSnan_neg (v : FVal) : v.neg.isSnan = v.isSnan := by
  cases v <;> rfl

theorem fsumEx_nan {a b : FVal} (h : a.isNan = true ∨ b.isNan = true) : fsumEx [a, b] = (.nan (a.isSnan || b.isSnan), false) := by
  simp [fsumEx, h]

theorem fmulEx_nan {a b : FVal} (h : a.isNan = true ∨ b.isNan = true) : fmulEx a b = (.nan (a.isSnan || b.isSnan), false) := by
  cases a with
  | nan s => rfl
  | inf n | fin n m e =>
    cases b with
    | nan s => rfl
    | inf n' | fin n' m' e' => simp [FVal.isNan] at h

section
variable {f : Fmt} {x y : Nat} (h : (f.val x).isNan = true ∨ (f.val y).isNan = true)
include h

theorem fadd_nan : fadd f x y = { bits := f.nan, fl := if (f.val x).isSnan || (f.val y).isSnan then flagIV else 0 } := by
  simp [fadd, fsumEx_nan h, roundF, ivIf]

theorem fsub_nan : fsub f x y = { bits := f.nan, fl := if (f.val x).isSnan || (f.val y).isSnan then flagIV else 0 } := by
  have h' : (f.val x).isNan = true ∨ (f.val y).neg.isNan = true := by simpa using h
  simp [fsub, fsumEx_nan h', roundF, ivIf]

theorem fmul_nan : fmul f x y = { bits := f.nan, fl := if (f.val x).isSnan || (f.val y).isSnan then flagIV else 0 } := by
  simp [fmul, fmulEx_nan h, roundF, ivIf]

theorem fdiv_nan : fdiv f x y = { bits := f.nan, fl := if (f.val x).isSnan || (f.val y).isSnan then flagIV else 0 } := by
  unfold fdiv
  cases hx : f.val x with
  | nan s => rfl
  | inf n | fin n m e =>
    cases hy : f.val y with
    | nan s => rfl
    | inf n' | fin n' m' e' => simp [hx, hy, FVal.isNan] at h

end

/-! ## The order of the operands -/

theorem fmulEx_comm (a b : FVal) : fmulEx a b = fmulEx b a := by
  by_cases h : a.isNan = true ∨ b.isNan = true
  · rw [fmulEx_nan h, fmulEx_nan h.symm, Bool.or_comm]
  · match a, b with
    | .nan s, _ | _, .nan s => simp [FVal.isNan] at h
    | .inf n, .inf n' => simp [fmulEx, bne_comm]
    | .inf n, .fin n' m e | .fin n' m e, .inf n => simp [fmulEx, bne_comm]
    | .fin n m e, .fin n' m' e' => simp [fmulEx, bne_comm, Nat.mul_comm, Int.add_comm]

theorem fsumEx_comm (a b : FVal) : fsumEx [a, b] = fsumEx [b, a] := by
  by_cases h : a.isNan = true ∨ b.isNan = true
  · rw [fsumEx_nan h, fsumEx_nan h.symm, Bool.or_comm]
  · match a, b with
    | .nan s, _ | _, .nan s => simp [FVal.isNan] at h
    | .inf n, .inf n' => cases n <;> cases n' <;> rfl
    | .inf n, .fin n' m e | .fin n' m e, .inf n => cases n <;> rfl
    | .fin n m e, .fin n' m' e' =>
      simp [fsumEx, minExp, sumAt, FVal.isNan, Bool.and_comm, min_comm, Int.add_comm]

theorem fadd_comm (f : Fmt) (x y : Nat) : fadd f x y = fadd f y x := by
  rw [fadd, fsumEx_comm, fadd]

theorem fmul_comm (f : Fmt) (x y : Nat) : fmul f x y = fmul f y x := by
  rw [fmul, fmulEx_comm, fmul]

/-- Settles O11: rounding to an integer by what lies beside the exact value, rounding to a format by the fields of a number,
sums and products by their exact values. -/
theorem rounding : Obligations.Rounding := by
  unfold Obligations.Rounding
  refine ⟨fun rm neg m k => ⟨?_, fun h => ?_, ?_, ?_⟩, fun f rm x _ hx => ⟨roundF_val rm hx, roundF_nan rm⟩,
    fun f x y => ⟨fadd_comm f x y, fmul_comm f x y, fun h => ⟨fadd_nan h, fsub_nan h, fmul_nan h, fdiv_nan h⟩⟩⟩
  · rw [roundInt_snd]
    exact ⟨.inr, fun h h0 => h.elim (· (roundInt_fst_mul h0)) (· h0)⟩
  · rw [roundInt_exact rm neg h]
  · rw [roundInt_fst]
    exact (ite_eq_or_eq _ _ _).symm
  · cases rm with
    | rn => exact roundInt_rn neg m k
    | rz => exact roundInt_down rfl
    | ru =>
      cases neg with
      | false => exact le_roundInt_up rfl
      | true => exact roundInt_down rfl
    | rd =>
      cases neg with
      | false => exact roundInt_down rfl
      | true => exact le_roundInt_up rfl

end Sys2Proof.Machine
end

section
/-! PROOFS. The floating-point words whose results are one register, a pair or two packed elements (R121 to R137). -/

namespace Sys2Proof.Machine

open Sys2Proof

/-! ## Results that are numbers of the format -/

/-- An operation gives a number of the format for numbers of the format (R106). -/
def KeepsFormat (op : Fmt → Nat → Nat → FRes) : Prop :=
  ∀ (f : Fmt) (x y : Nat), 0 < f.pw → x < 2 * f.signBit → y < 2 * f.signBit → (op f x y).bits < 2 * f.signBit

theorem fadd_keepsFormat : KeepsFormat fadd := fun f _ _ hp _ _ => roundF_lt f hp .rn _

theorem fsub_keepsFormat : KeepsFormat fsub := fun f _ _ hp _ _ => roundF_lt f hp .rn _

theorem fmul_keepsFormat : KeepsFormat fmul := fun f _ _ hp _ _ => roundF_lt f hp .rn _

theorem fminmax_keepsFormat (mx : Bool) : KeepsFormat fun f => fminmax f mx := by
  intro f x y hp hx hy
  have hnan := f.nan_lt hp
  unfold fminmax
  simp only
  split_ifs
  · exact hnan.trans (by omega)
  all_goals assumption

theorem fsgn_keepsFormat : KeepsFormat fsgn := by
  intro f x y _ hx hy
  have hs : 0 < f.signBit := Nat.two_pow_pos _
  have hx' : x % f.signBit < f.signBit := Nat.mod_lt _ hs
  have hy' : y / f.signBit * f.signBit ≤ f.signBit :=
    (Nat.mul_le_mul_right _ (Nat.le_of_lt_succ (Nat.div_lt_of_lt_mul (by omega)))).trans_eq (Nat.one_mul _)
  simp only [fsgn]
  omega

theorem frnd_keepsFormat (rm : Rm) : KeepsFormat fun f x _ => frnd f rm x := by
  intro f x _ hp hx _
  have hnan := f.nan_lt hp
  simp only [frnd]
  split
  · simp only
    omega
  · exact hx
  · split
    · exact hx
    · exact roundMag_lt _ _ _ _ _ _

theorem ffma_lt {f : Fmt} (hp : 0 < f.pw) (x y z : Nat) : (ffma f x y z).bits < 2 * f.signBit := roundF_lt f hp .rn _

theorem fscale_lt {f : Fmt} (hp : 0 < f.pw) (x : Nat) (n : Int) : (fscale f x n).bits < 2 * f.signBit := by
  unfold fscale
  split <;> exact roundF_lt f hp .rn _

/-- The packed types have 16 bits (R108). -/
theorem packed_format {f : Fmt} (h : f ∈ [bf16, f16]) : 0 < f.pw ∧ 2 * f.signBit = 65536 := by
  revert f
  decide

/-! ## The frames -/

/-- A word over the four types whose operation keeps the format. -/
theorem KeepsFormat.writesFpModes {op : Fmt → Nat → Nat → FRes} (hop : KeepsFormat op) {i : Instr} {s : State} {q : BitVec 4}
    {d a b : BitVec 6} {m : BitVec 2} (h : exec i s = .next (s.fop2 q d a b m.toNat op)) :
    WritesFpModes i s d a b m.toNat (s.exec q) op := by
  refine writesFpModes_fop2 h m.isLt fun f hf x hx y hy => ?_
  obtain ⟨hp, h16⟩ := packed_format hf
  rw [← h16] at hx hy ⊢
  exact hop f x y hp hx hy

/-- A word over binary32 and binary64 (R130). -/
theorem writesFpModes_unpacked {op : Fmt → Nat → Nat → FRes} {i : Instr} {s : State} {q : BitVec 4} {d a b : BitVec 6} {m : Nat}
    (hm : m < 2) (h : exec i s = .next (s.fop2 q d a b m op)) : WritesFpModes i s d a b m (s.exec q) op := by
  match m, hm with
  | 0, _ =>
    exact writes_fput32 (f := fun g L => (op f32 (g.val a.toNat L).toNat (g.val b.toNat L).toNat).w32) h (fun _ => rfl) fun _ => rfl
  | 1, _ =>
    exact writes_fput64 (f := fun g L => (op f64 (g.val64 a.toNat L).toNat (g.val64 b.toNat L).toNat).w64) h (fun _ => rfl) fun _ => rfl

theorem writes_fput32_always {i : Instr} {X : Nat → FpFlags} {F : Nat → Word} {s : State} {d : BitVec 6} {ops : List (Nat × Nat)}
    {f : Gang → Nat → Fp32} (h : exec i s = .next (s.fput32 always d ops f)) (hF : ∀ L, F L = (f s.src L).bits)
    (hX : ∀ L, X L = (f s.src L).fl) : WritesFp i s 1 d.toNat ops s.lanes (one F) (orFlags s.lanes X) :=
  s.exec_always ▸ writes_fput32 h hF hX

theorem writes_fput64_always {i : Instr} {X : Nat → FpFlags} {F : Nat → DWord} {s : State} {d : Nat} {ops : List (Nat × Nat)}
    {f : Gang → Nat → Fp64} (h : exec i s = .next (s.fput64 always d ops f)) (hF : ∀ L, F L = (f s.src L).bits)
    (hX : ∀ L, X L = (f s.src L).fl) : WritesFp i s 2 d ops s.lanes (two F) (orFlags s.lanes X) :=
  s.exec_always ▸ writes_fput64 h hF hX

/-- A word with two packed results: element e of lane L is `r L e` (R80, R108). -/
theorem writes_pack2 {i : Instr} {s : State} {q : BitVec 4} {d : BitVec 6} {ops : List (Nat × Nat)} {lo hi : Gang → Nat → FRes}
    {r : Nat → Nat → FRes} (h : exec i s = .next (s.fput32 q d ops fun g L => pack2 (lo g L) (hi g L)))
    (hlo : ∀ L, lo s.src L = r L 0) (hhi : ∀ L, hi s.src L = r L 1) (hlt : ∀ L, (r L 0).bits < 65536) :
    ∃ v, WritesFp i s 1 d.toNat ops (s.exec q) (one v) (orFlags (s.exec q) fun L => (r L 0).fl ||| (r L 1).fl)
      ∧ ∀ L e, e < 2 → elem 16 e (v L) = BitVec.ofNat 16 (r L e).bits := by
  refine ⟨fun L => (pack2 (r L 0) (r L 1)).bits, writes_fput32 h (fun L => ?_) (fun L => ?_), fun L e he => ?_⟩
  · rw [hlo, hhi]
  · rw [hlo, hhi]
    rfl
  · obtain ⟨h0, h1⟩ := elem_pack2 (r L 0) (r L 1) (hlt L)
    match e, he with
    | 0, _ => exact h0
    | 1, _ => exact h1

/-- A function of XF in each lane (R131). -/
theorem writes_xf {i : Instr} {s : State} {q : BitVec 4} {d a : BitVec 6} {f : Nat → FRes} (h : exec i s = .next (s.xf q d a f)) :
    WritesFp i s 1 d.toNat [(1, a.toNat)] (s.exec q) (one fun L => BitVec.ofNat 32 (f (s.src.val a.toNat L).toNat).bits)
      (orFlags (s.exec q) fun L => (f (s.src.val a.toNat L).toNat).fl) :=
  writes_fput32 h (fun _ => rfl) fun _ => rfl

/-- FMOVI puts its immediate into the high bits (R132). -/
theorem writes_fmovi (s : State) (c : Bool) (d : BitVec 6) (i : BitVec 18) :
    ∃ v, Writes (.fmovi c d i) s 1 d.toNat [] s.lanes (one fun _ => v) ∧ v.extractLsb' 14 18 = i ∧ v.extractLsb' 0 14 = 0 :=
  ⟨i ++ 0#14, writes_put32_always rfl fun _ => rfl, BitVec.extractLsb'_append_eq_left, BitVec.extractLsb'_append_eq_right⟩

/-- Settles O8: the words over the four types by the operations that keep the format, CVTP by its two elements, the others by
their frame. -/
theorem floatArithmeticAndFunctions : Obligations.FloatArithmeticAndFunctions := by
  unfold Obligations.FloatArithmeticAndFunctions
  refine ⟨fun s c d a b m r m1 q => ⟨?_, ?_, ?_, ?_, ?_, ?_, ?_, ?_, ?_⟩,
    fun s c d a b m1 q i => ⟨?_, ?_, ?_, ?_, ?_, ?_, writes_fmovi s c d i, ?_, ?_, ?_⟩⟩
  · exact fadd_keepsFormat.writesFpModes rfl
  · exact fsub_keepsFormat.writesFpModes rfl
  · exact fmul_keepsFormat.writesFpModes rfl
  · exact (fminmax_keepsFormat false).writesFpModes rfl
  · exact (fminmax_keepsFormat true).writesFpModes rfl
  · exact fsgn_keepsFormat.writesFpModes rfl
  · exact (frnd_keepsFormat (Rm.ofBits r)).writesFpModes rfl
  · exact writesFpModes_unpacked m1.isLt rfl
  · exact writesFpModes_unpacked m1.isLt rfl
  · exact writes_xf rfl
  · exact writes_xf rfl
  · exact writes_xf rfl
  · exact writes_xf rfl
  · exact writes_xf rfl
  · exact writes_xf rfl
  · obtain ⟨hp, h16⟩ := packed_format (f := if m1 = 0 then bf16 else f16) (by split <;> simp)
    let r (L e : Nat) : FRes := roundF (if m1 = 0 then bf16 else f16) .rn (f32.val (s.src.val (if e = 0 then a else b).toNat L).toNat)
    obtain ⟨v, hv, he⟩ := writes_pack2 (i := .cvtp c d a b m1 q) (r := r) rfl (fun _ => rfl) (fun _ => rfl)
      fun L => (roundF_lt _ hp .rn _).trans_eq h16
    exact ⟨v, hv, fun L => ⟨he L 0 (by decide), he L 1 (by decide)⟩⟩
  · exact writes_fput32 rfl (fun _ => rfl) fun _ => rfl
  · exact writes_fput32 rfl (fun _ => rfl) fun _ => rfl

/-! ## The fused words and FSCALE -/

theorem writes_fop3packed {i : Instr} {s : State} {d a b e : BitVec 6} {f : Fmt} (hf : f ∈ [bf16, f16])
    (h : exec i s = .next (s.fop3packed d a b e f)) :
    let x (r : BitVec 6) (L k : Nat) : Nat := (elem 16 k (s.src.val r.toNat L)).toNat
    let r (L k : Nat) : FRes := ffma f (x a L k) (x b L k) (x e L k)
    ∃ v, WritesFp i s 1 d.toNat [(1, a.toNat), (1, b.toNat), (1, e.toNat)] s.lanes (one v)
        (orFlags s.lanes fun L => (r L 0).fl ||| (r L 1).fl)
      ∧ ∀ L k, k < 2 → elem 16 k (v L) = BitVec.ofNat 16 (r L k).bits := by
  intro x r
  obtain ⟨hp, h16⟩ := packed_format hf
  rw [← s.exec_always]
  exact writes_pack2 (r := r) h (fun L => by simp only [el16_eq, r, x]) (fun L => by simp only [el16_eq, r, x])
    fun L => (ffma_lt hp _ _ _).trans_eq h16

/-- FSCALE in a packed type scales each element by its own integer (R129). -/
theorem writes_fscale_packed {i : Instr} {s : State} {q : BitVec 4} {d a b : BitVec 6} {f : Fmt} (hf : f ∈ [bf16, f16])
    (h : exec i s = .next (s.fput32 q d [(1, a.toNat), (1, b.toNat)] fun g L =>
      pack2 (fscale f (el16 (g.val a.toNat L) 0) (elem 16 0 (g.val b.toNat L)).toInt)
        (fscale f (el16 (g.val a.toNat L) 1) (elem 16 1 (g.val b.toNat L)).toInt))) :
    let r (L j : Nat) : FRes := fscale f (elem 16 j (s.src.val a.toNat L)).toNat (elem 16 j (s.src.val b.toNat L)).toInt
    ∃ v, WritesFp i s 1 d.toNat [(1, a.toNat), (1, b.toNat)] (s.exec q) (one v)
        (orFlags (s.exec q) fun L => (r L 0).fl ||| (r L 1).fl)
      ∧ ∀ L j, j < 2 → elem 16 j (v L) = BitVec.ofNat 16 (r L j).bits := by
  intro r
  obtain ⟨hp, h16⟩ := packed_format hf
  exact writes_pack2 (r := r) h (fun L => by rw [el16_eq]) (fun L => by rw [el16_eq]) fun L => (fscale_lt hp _ _).trans_eq h16

/-- Settles O9: the packed words by their elements, the others by their frame. -/
theorem fusedWords : Obligations.FusedWords := by
  unfold Obligations.FusedWords
  intro s c d a b e pd pa pb pe m q
  refine ⟨?_, ?_, writes_fop3packed (by simp) rfl, writes_fop3packed (by simp) rfl, ?_, ?_⟩
  · exact writes_fput32_always rfl (fun _ => rfl) fun _ => rfl
  · exact writes_fput64_always rfl (fun _ => rfl) fun _ => rfl
  · exact writes_fput32_always rfl (fun _ => by simp only [el16_eq]; rfl) fun _ => by simp only [el16_eq]; rfl
  · match m with
    | 0#2 =>
      exact writes_fput32 (f := fun g L => (fscale f32 (g.val a.toNat L).toNat (g.val b.toNat L).toInt).w32) rfl (fun _ => rfl)
        fun _ => rfl
    | 1#2 =>
      exact writes_fput64 (f := fun g L => (fscale f64 (g.val64 a.toNat L).toNat (g.val b.toNat L).toInt).w64) rfl (fun _ => rfl)
        fun _ => rfl
    | 2#2 => exact writes_fscale_packed (f := bf16) (by simp) rfl
    | 3#2 => exact writes_fscale_packed (f := f16) (by simp) rfl

end Sys2Proof.Machine
end

section
/-! PROOFS. Floating compares, classes, conversions, gang sums and prefixes (R126, R127, R133, R134, R138, R139). -/

namespace Sys2Proof.Machine

open Sys2Proof

/-! ## Compares -/

/-- The state after a predicate has been written in the active lanes and flags have been merged (R114, R126). -/
theorem State.putPred_mergeFp (s : State) (k : Nat) (f : Gang → Nat → Bool) (fl : FpFlags) :
    ∃ P, (s.putPred always k [] f).mergeFp fl
        = { s with g := { s.g with preds := P, fpstat := s.g.fpstat ||| fl }, iss := { s.iss with fp := s.iss.fp ||| fl } }
      ∧ ∀ j L, L < 32 → { s.g with preds := P }.pred j L = if j = k ∧ k ≠ 7 ∧ L ∈ s.lanes then f s.src L else s.g.pred j L := by
  obtain ⟨P, hP⟩ := s.g.setPred_frame k s.lanes (f s.src)
  refine ⟨P, ?_, fun j L hL => ?_⟩
  · rw [State.putPred, State.withRegs_ok readable_nil, s.exec_always, hP]
    rfl
  · rw [← hP]
    exact Gang.setPred_pred _ _ _ _ s.lanes_lt j L hL

/-! ## Classes -/

/-- FCLASS gives one mask, or one for each packed element (R127). -/
theorem writes_fclass (s : State) (c : Bool) (d a : BitVec 6) (m : BitVec 2) (q : BitVec 4) :
    Writes (.fclass c d a m q) s 1 d.toNat [(if m = 1 then 2 else 1, a.toNat)] (s.exec q)
      (one fun L => BitVec.ofNat 32 (match m.toNat with
        | 0 => fclass f32 (s.src.val a.toNat L).toNat
        | 1 => fclass f64 (s.src.val64 a.toNat L).toNat
        | k =>
          let h (j : Nat) : Nat := fclass (if k = 2 then bf16 else f16) (elem 16 j (s.src.val a.toNat L)).toNat
          h 0 + 2 ^ 16 * h 1)) := by
  refine writes_put32 rfl fun L => ?_
  match m with
  | 0#2 | 1#2 => rfl
  | 2#2 | 3#2 =>
    simp only [← el16_eq]
    rfl

/-! ## Conversions -/

/-- The types 1 and 5, of 64 bits, take a pair (R133). -/
theorem cvtWide_iff (t : BitVec 3) : cvtWide t.toNat = true ↔ t = 1 ∨ t = 5 := by
  revert t
  decide

/-- CVT with its operand and its result in one register or a pair each (R133, R134). -/
theorem writes_cvt (s : State) (c : Bool) (d a : BitVec 6) (t r3 : BitVec 3) (r : BitVec 2) (q : BitVec 4) :
    let ops := [(if cvtWide r3.toNat then 2 else 1, a.toNat)]
    let res (L : Nat) : Fp64 := convert (Rm.ofBits r) t.toNat
      (cvtSource r3.toNat (if cvtWide r3.toNat then s.src.val64 a.toNat L else (s.src.val a.toNat L).setWidth 64))
    let fl := orFlags (s.exec q) fun L => (res L).fl
    if cvtWide t.toNat then WritesFp (.cvt c d a t r3 r q) s 2 d.toNat ops (s.exec q) (two fun L => (res L).bits) fl
    else WritesFp (.cvt c d a t r3 r q) s 1 d.toNat ops (s.exec q) (one fun L => elem 32 0 (res L).bits) fl := by
  intro ops res fl
  split
  next ht => exact writes_fput64 (congrArg Host.Outcome.next (if_pos ht)) (fun _ => rfl) fun _ => rfl
  next ht => exact writes_fput32 (congrArg Host.Outcome.next (if_neg ht)) (fun _ => (half_low _).symm) fun _ => rfl

/-- Settles O10: FCMP by the predicate it writes, CVT by the widths of its types, FSUM and FSCAN by their frame. -/
theorem convertWords : Obligations.ConvertWords := by
  unfold Obligations.ConvertWords
  intro s c p d a b t r3 m r m1 q
  refine ⟨⟨fun hr => ⟨_, rfl, ?_⟩, fun hr => congrArg Host.Outcome.next (State.withRegs_bad hr _)⟩, writes_fclass s c d a m q, ?_, ?_⟩
  · rw [State.withRegs_ok hr]
    obtain ⟨P, hP, hp⟩ := s.putPred_mergeFp p.toNat _ _
    rw [hP]
    exact ⟨rfl, hp⟩
  · simp only [← cvtWide_iff]
    exact writes_cvt s c d a t r3 r q
  · split
    next hm =>
      exact ⟨writes_fput64 (congrArg Host.Outcome.next (if_pos hm)) (fun _ => rfl) fun _ => rfl,
        writes_fput64 (congrArg Host.Outcome.next (if_pos hm)) (fun _ => rfl) fun _ => rfl⟩
    next hm =>
      exact ⟨writes_fput32 (congrArg Host.Outcome.next (if_neg hm)) (fun _ => rfl) fun _ => rfl,
        writes_fput32 (congrArg Host.Outcome.next (if_neg hm)) (fun _ => rfl) fun _ => rfl⟩

end Sys2Proof.Machine
end

section
/-! PROOFS. The mask stack, and the words that only hold their group back or order its accesses (R159, R163, R164, R180,
R202 to R204, R210). -/

namespace Sys2Proof.Machine

open Sys2Proof

/-! ## The mask stack -/

/-- The bits of a mask made of lanes of a slice. -/
theorem getLsbD_laneBits (l : List Nat) {k : Nat} (hk : k < 4) (hl : ∀ j ∈ l, j < 4) :
    (execMkpush.laneBits l).getLsbD k = decide (k ∈ l) := by
  have key (l : List Nat) (m : BitVec 4) (hl : ∀ j ∈ l, j < 4) :
      (l.foldl (fun m j => m ||| (1#4 <<< j)) m).getLsbD k = (m.getLsbD k || decide (k ∈ l)) := by
    induction l generalizing m with
    | nil => simp
    | cons j t ih =>
      have hj := hl j List.mem_cons_self
      rw [List.foldl_cons, ih _ fun x hx => hl x (List.mem_cons_of_mem _ hx)]
      by_cases h : k = j
      · subst h
        simp [hk]
      · have : (1#4 <<< j).getLsbD k = false := by
          simp
          omega
        simp [this, h]
  simpa [execMkpush.laneBits] using key l 0 hl

/-- The lanes of a slice that hold a guard, as MKPUSH takes them for its mask (R154, R159). -/
theorem getLsbD_guardLanes (g : Gang) (q : BitVec 4) (i : Nat) {k : Nat} (hk : k < 4) :
    (execMkpush.laneBits (g.guardLanes q i)).getLsbD k = ((g.slice i).active.getLsbD k && g.guardAt q (4 * i + k)) := by
  have hl : ∀ j ∈ g.guardLanes q i, j < 4 := fun j hj => (mem_upto _ _).mp (List.mem_filter.mp hj).1
  rw [getLsbD_laneBits _ hk hl]
  simp [Gang.guardLanes, hk]

/-- A word of the mask stack whose test fails in no slice of the group changes the slices of the group. -/
theorem slicesOnly_unless_fault {w : Instr} {s : State} {test : Nat → Bool} {f : Nat → Slice → Slice}
    (he : exec w s = .next (if s.group.any test then s.fault 4 0 0 else { s with g := s.g.modSlices s.group f })) :
    ((∀ i ∈ s.group, test i = false) → ∃ t, exec w s = .next t
        ∧ SlicesOnly s t fun i => if i ∈ s.group then f i (s.g.slice i) else s.g.slice i)
      ∧ ((∃ i ∈ s.group, test i = true) → exec w s = .next (s.fault 4 0 0)) := by
  rw [he]
  refine ⟨fun h => ⟨_, congrArg _ (if_neg ?_), slicesOnly_modSlices s _ s.group_nodup f⟩, fun h => congrArg _ (if_pos (List.any_eq_true.mpr h))⟩
  rw [List.any_eq_true]
  rintro ⟨i, hi, ht⟩
  exact Bool.false_ne_true ((h i hi).symm.trans ht)

/-- Settles O13: each word tests its stacks first, then changes the slices of its group. -/
theorem maskStack : Obligations.MaskStack := by
  unfold Obligations.MaskStack
  intro s c q o old now top
  obtain ⟨push, full⟩ := slicesOnly_unless_fault (w := .mkpush c q) (s := s) rfl
  obtain ⟨ctl, empty⟩ := slicesOnly_unless_fault (w := .mkctl c o) (s := s) rfl
  refine ⟨fun h => ?_, fun ⟨i, hi, h⟩ => full ⟨i, hi, decide_eq_true h⟩, fun h => ctl fun i hi => ?_,
    fun ⟨i, hi, h⟩ => empty ⟨i, hi, List.isEmpty_iff.mpr h⟩⟩
  · obtain ⟨t, ht, hs⟩ := push fun i hi => decide_eq_false (Nat.not_le.mpr (h i hi))
    refine ⟨t, _, ht, fun i k hk => ?_, hs⟩
    rw [BitVec.getLsbD_and, getLsbD_guardLanes _ _ _ hk, Bool.and_right_comm]
  · exact Bool.eq_false_iff.mpr fun he => h i hi (List.isEmpty_iff.mp he)

/-! ## Waiting -/

/-- A wait at the word at hand moves every slice of the issuing group to it. -/
theorem slicesMoved_waitHere (s : State) (w : Nat → Wait) :
    SlicesMoved s (s.waitHere s.group w) (fun _ => true) fun i sl => { sl with pc := s.iss.wpc, wait := w i } := by
  have h := slicesMoved_modSlices s (fun _ => true) fun i sl => { sl with pc := s.iss.wpc, wait := w i }
  rwa [List.filter_eq_self.mpr fun _ _ => rfl] at h

/-- WAITC awaits the operations of its class in order, but for the n youngest (R203). -/
theorem Gang.awaited_append (g : Gang) (cls n : Nat) : ∃ young,
    g.awaited cls n ++ young = (g.kops.filter fun o => o.cls == cls).map KOp.id
      ∧ young.length = min n (g.kops.filter fun o => o.cls == cls).length := by
  refine ⟨_, List.take_append_drop _ _, ?_⟩
  rw [List.length_drop, List.length_map]
  omega

/-- Steps that name the gang in focus, added one by one. -/
theorem State.foldl_later_gang (f : Nat → Nat → Instr) (l : List Nat) (s : State) :
    ∃ A, l.foldl (fun s k => s.later (f s.g.uid k)) s = { s with agenda := A }
      ∧ (∀ k ∈ l, f s.g.uid k ∈ A) ∧ (∀ i ∈ s.agenda, i ∈ A) ∧ ∀ i ∈ A, i ∈ s.agenda ∨ ∃ k ∈ l, i = f s.g.uid k := by
  induction l generalizing s with
  | nil => exact ⟨s.agenda, rfl, by simp, fun _ h => h, fun _ h => .inl h⟩
  | cons k t ih =>
    have hnew (i : Instr) (hi : i ∈ (s.later (f s.g.uid k)).agenda) : i ∈ s.agenda ∨ i = f s.g.uid k := by
      unfold State.later at hi
      split at hi
      · exact .inl hi
      · exact (List.mem_append.mp hi).imp_right List.mem_singleton.mp
    obtain ⟨B, hB, hin, hold⟩ := s.later_adds (f s.g.uid k)
    obtain ⟨A, hA, hin', hold', hnew'⟩ := ih (s.later (f s.g.uid k))
    rw [hB] at hA hin' hold' hnew' hnew
    refine ⟨A, (congrArg (List.foldl _ · t) hB).trans hA, fun j hj => ?_, fun i hi => hold' i (hold i hi), fun i hi => ?_⟩
    · rcases List.mem_cons.mp hj with rfl | hj
      · exact hold' _ hin
      · exact hin' j hj
    · rcases hnew' i hi with hi | ⟨j, hj, rfl⟩
      · exact (hnew i hi).imp_right fun h => ⟨k, List.mem_cons_self, h⟩
      · exact .inr ⟨j, List.mem_cons_of_mem _ hj, rfl⟩

/-! ## FENCE -/

/-- The words before a FENCE, by what each does (R204). -/
theorem Gang.fenced_eq (g : Gang) (acq : Bool) : g.fenced acq =
    (g.outstanding.filter fun f => f.op.kind != .gst && (f.op.kind != .atom || f.op.ret)
      && (!acq || f.op.kind == .atom || [MemKind.ld, .ldw, .ldt, .lda, .ldx].contains f.op.kind)).map (·.id) := by
  unfold Gang.fenced
  congr 2
  funext f
  unfold MemOp.covered
  cases f.op.kind <;> simp [MemKind.writes]

/-- The posted ATOM words of the gang in focus are those that have not left the MEM pipe and those with a lane to perform (R210). -/
theorem State.mem_postedWords {s : State} {w : Nat} : w ∈ s.postedWords ↔
    (∃ f ∈ s.g.outstanding, f.op.kind = .atom ∧ f.op.ret = false ∧ f.id = w) ∨ ∃ p ∈ s.posted, p.gang = s.g.uid ∧ p.word = w := by
  simp [State.postedWords, and_assoc]

/-- A FENCE as it drains: what its second order awaits, and where its abort would be reported (R204, R210). -/
def drainRec (s : State) (sc : BitVec 3) : FenceRec :=
  { at_ := s.next, waits := s.postedWords, writesOnly := false, scope := sc.toNat
    drain := some { pc := s.iss.wpc, slice := s.group.headD 0, group := sliceMask s.group, priv := s.priv, hit := s.g.abort.isSome } }

/-- A state with the orders of a FENCE entered. -/
def fencing (s : State) (order : FenceRec) (drains : List FenceRec) : State :=
  { s with g := { s.g with fences := s.g.fences ++ order :: drains }, next := s.next + 1 }

/-- What FENCE does: it enters its orders, and takes a recorded abort if it drains and nothing is left to drain (R204, R210). -/
theorem exec_fence (s : State) (c : Bool) (r : BitVec 1) (k : BitVec 2) (sc : BitVec 3) : exec (.fence c r k sc) s = .next (
    let order : FenceRec := { at_ := s.next, waits := s.g.fenced (k == 1), writesOnly := k == 2, scope := sc.toNat }
    let t := fencing s order (if r = 1 then [drainRec s sc] else [])
    match s.g.abort with
    | some a => if r = 1 && s.postedWords.isEmpty then { t with g := { t.g with abort := none } }.stopAfter 7 2 a else t
    | none => t) := rfl

/-- A draining FENCE with nothing left to drain takes the recorded abort after its chain (R204, R210). -/
theorem exec_fence_aborts {s : State} {x : DWord} (ha : s.g.abort = some x) (hp : s.postedWords = []) (hl : s.iss.wpc ≠ s.iss.last)
    (c : Bool) (k : BitVec 2) (sc : BitVec 3) : ∃ t, exec (.fence c 1 k sc) s = .next t ∧ t.g.abort = none
      ∧ ∃ st, t.iss.after = some st ∧ st.code = 7 ∧ st.info = 2 ∧ st.pc = s.iss.wpc ∧ st.addr = x := by
  have hw : ¬(s.iss.wpc == s.iss.last) = true := fun h => hl (eq_of_beq h)
  rw [exec_fence]
  simp only [ha, hp, fencing, State.stopAfter, if_neg hw]
  exact ⟨_, rfl, rfl, _, rfl, rfl, rfl, rfl, rfl⟩

/-- A FENCE that takes no abort only enters its orders (R204). -/
theorem exec_fence_orders {s : State} {r : BitVec 1} (h : r = 0 ∨ s.g.abort = none ∨ s.postedWords ≠ []) (c : Bool) (k : BitVec 2)
    (sc : BitVec 3) : exec (.fence c r k sc) s = .next (fencing s
      { at_ := s.next, waits := s.g.fenced (k == 1), writesOnly := k == 2, scope := sc.toNat } (if r = 1 then [drainRec s sc] else [])) := by
  rw [exec_fence]
  cases ha : s.g.abort with
  | none => rfl
  | some a =>
    refine congrArg Host.Outcome.next (if_neg ?_)
    rw [Bool.and_eq_true, decide_eq_true_eq, List.isEmpty_iff]
    rintro ⟨rfl, hp⟩
    rcases h with h | h | h
    · exact absurd h (by decide)
    · exact Option.some_ne_none a (ha.symm.trans h)
    · exact h hp

/-- What a draining FENCE's second order says (R204, R210). -/
theorem drainRec_spec (s : State) (sc : BitVec 3) :
    (∃ d, (drainRec s sc).drain = some d ∧ d.pc = s.iss.wpc ∧ d.slice = s.group.headD 0 ∧ (d.hit = true ↔ s.g.abort ≠ none))
      ∧ ∀ w, w ∈ (drainRec s sc).waits ↔ (∃ f ∈ s.g.outstanding, f.op.kind = .atom ∧ f.op.ret = false ∧ f.id = w)
        ∨ ∃ p ∈ s.posted, p.gang = s.g.uid ∧ p.word = w :=
  ⟨⟨_, rfl, rfl, rfl, Option.isSome_iff_ne_none⟩, fun _ => State.mem_postedWords⟩

/-- Settles O14: WAITF and WAITC by `slicesMoved_waitHere`, SLEEP by `foldl_later_gang`, FENCE by whether it takes an abort. -/
theorem waitsAndFences : Obligations.WaitsAndFences := by
  unfold Obligations.WaitsAndFences
  refine ⟨fun s m k n n16 => ⟨⟨_, rfl, slicesMoved_waitHere s _⟩, ?_, ?_, rfl⟩, fun s c r k sc => ?_⟩
  · obtain ⟨young, happ, hlen⟩ := s.g.awaited_append k.toNat n.toNat
    exact ⟨_, _, young, rfl, happ, hlen, slicesMoved_waitHere s _⟩
  · let u := s.waitAfter s.group (.sleep n16.toNat n16.toNat (s.c.cycle + 16 * n16.toNat + 1))
    have hu : SlicesOnly s u _ := slicesOnly_modSlices s _ s.group_nodup _
    have huid : u.g.uid = s.g.uid := congrArg (·.g.uid) hu.1
    obtain ⟨A, hA, hin, hold, hnew⟩ := u.foldl_later_gang .sleepExpiry s.group
    rw [huid] at hin hnew
    exact ⟨_, u, congrArg Host.Outcome.next hA, rfl, hu, hin, hold, hnew⟩
  · intro before record
    have hrec : { at_ := s.next, waits := s.g.fenced (k == 1), writesOnly := k == 2, scope := sc.toNat } = record := by
      have h1 : (k == 1) = (k.toNat == 1) := by revert k; decide
      have h2 : (k == 2) = (k.toNat == 2) := by revert k; decide
      rw [Gang.fenced_eq, h1, h2]
      rfl
    have horders (h : r = 0 ∨ s.g.abort = none ∨ s.postedWords ≠ []) := hrec ▸ exec_fence_orders h c k sc
    have h10 : (1 : BitVec 1) ≠ 0 := by decide
    rcases BitVec.eq_zero_or_eq_one r with rfl | rfl
    · exact ⟨_, [], horders (.inl rfl), fun _ => rfl, fun h => absurd h.symm h10, fun _ => rfl, fun h => absurd h.symm h10⟩
    obtain ⟨hd, hw⟩ := drainRec_spec s sc
    by_cases hc : s.g.abort = none ∨ s.postedWords ≠ []
    · refine ⟨_, [drainRec s sc], horders (.inr hc), fun h => absurd h h10, fun _ => ⟨_, rfl, rfl, rfl, rfl, hd, hw⟩, fun _ => rfl,
        fun _ hp x ha _ => ?_⟩
      exact absurd hp (hc.resolve_left (by rw [ha]; exact Option.some_ne_none x))
    · refine ⟨_, [drainRec s sc], exec_fence s c 1 k sc, fun h => absurd h h10, fun _ => ⟨_, rfl, rfl, rfl, rfl, hd, hw⟩,
        fun h => absurd (h.resolve_left h10) hc, fun _ hp x ha hl => ?_⟩
      obtain ⟨t, ht, habort, hafter⟩ := exec_fence_aborts ha hp hl c k sc
      rw [exec_fence] at ht
      injection ht with ht
      rw [ht]
      exact ⟨habort, hafter⟩

end Sys2Proof.Machine
end

section
/-! PROOFS. Special registers: what WRS does to each, and where RDS of TASK.ID departs from its statement (R142 to R153). -/

namespace Sys2Proof.Machine

open Sys2Proof

/-! ## Reads -/

/-- A gang that has changed its task since its chain began: no run reaches it, for a chain begins from the gang itself. -/
def taskChanged : State :=
  let g : Gang := { ngen := 1, slices := [{ active := 1 }], live := 1, task := 2 }
  { g := g, snap := some { g with task := 1 } }

/-- Refutes O21: RDS of TASK.ID gives the task of the gang as it stands, where the statement has that of the gang before the
chain. -/
theorem not_specialRegisterReads : ¬ Obligations.SpecialRegisterReads := by
  unfold Obligations.SpecialRegisterReads
  intro h
  obtain ⟨-, -, -, -, -, -, -, -, -, -, htask, -⟩ := h taskChanged false 0
  have hw : Writable taskChanged 1 0 [] := by unfold Writable Readable; decide
  obtain ⟨t, ht, -, hval⟩ := (htask rfl (.inl (by decide))).1 hw
  have hread : t.g.val 0 0 = 2 := by
    injection ht with ht
    rw [← ht]
    decide
  exact absurd (hread.symm.trans (hval 0 0 (by decide))) (by decide)

/-! ## Writes -/

theorem State.priv_iff {s : State} : s.priv = true ↔ ∀ i ∈ s.group, (s.src.slice i).priv = true := List.all_eq_true

/-- A word that only privileged code may issue raises PRV where a slice of the group is unprivileged (R33). -/
theorem exec_unprivileged {w : Instr} {s : State} {f : State → State} (he : exec w s = .next (s.privileged f))
    (h : ∃ i ∈ s.group, (s.src.slice i).priv = false) : exec w s = .next (s.fault 2 0 0) := by
  obtain ⟨i, hi, hp⟩ := h
  have hn : s.priv = false := Bool.eq_false_iff.mpr fun hs => Bool.false_ne_true (hp.symm.trans (State.priv_iff.mp hs i hi))
  rw [he, State.privileged_neg hn]

/-- A register that a word writes with the leader's value takes it wherever a lane executes (R153). -/
theorem exec_wrs_leader {w : Instr} {s : State} {wide : Bool} {d : BitVec 6} {f : State → DWord → State}
    (he : exec w s = .next (s.wrs wide d f)) :
    (Readable s [(if wide then 2 else 1, d.toNat)] → exec w s = .next (if s.lanes = [] then s else
        f s (if wide then s.src.val64 d.toNat (leader s.lanes) else (s.src.val d.toNat (leader s.lanes)).setWidth 64)))
      ∧ (¬Readable s [(if wide then 2 else 1, d.toNat)] → Opr w s) := by
  refine ⟨fun hr => he.trans (congrArg _ ((State.withRegs_ok hr _).trans ?_)), fun hr => he.trans (congrArg _ (State.withRegs_bad hr _))⟩
  cases s.lanes with
  | nil => rfl
  | cons L t => rfl

/-- A 32-bit register written with the leader's value. -/
theorem exec_wrs_word {w : Instr} {s t : State} {d : BitVec 6} {f : State → DWord → State} (he : exec w s = .next (s.wrs false d f))
    (ht : f s ((s.src.val d.toNat (leader s.lanes)).setWidth 64) = t) :
    (Readable s [(1, d.toNat)] → exec w s = .next (if s.lanes = [] then s else t)) ∧ (¬Readable s [(1, d.toNat)] → Opr w s) :=
  ht ▸ exec_wrs_leader he

/-- A 64-bit register written with the leader's value. -/
theorem exec_wrs_pair {w : Instr} {s t : State} {d : BitVec 6} {f : State → DWord → State} (he : exec w s = .next (s.wrs true d f))
    (ht : f s (s.src.val64 d.toNat (leader s.lanes)) = t) :
    (Readable s [(2, d.toNat)] → exec w s = .next (if s.lanes = [] then s else t)) ∧ (¬Readable s [(2, d.toNat)] → Opr w s) :=
  ht ▸ exec_wrs_leader he

/-- The low bits of a word that was carried as a pair. -/
theorem setWidth_word (v : Word) {k : Nat} (hk : k ≤ 32) : (v.setWidth 64).setWidth k = v.extractLsb' 0 k :=
  (BitVec.setWidth_setWidth_of_le v (Nat.le_trans hk (by decide))).trans (BitVec.setWidth_eq_extractLsb' hk)

/-- Bits 14 to 8 of a word, where TRAP.Q's select stands (R315). -/
theorem setWidth_ushiftRight_word (v : Word) : (v >>> 8).setWidth 7 = v.extractLsb' 8 7 := by
  ext i hi
  simp

/-- WRS of a register that the group may write and that is not SLICE.LINK (R142, R153). -/
theorem exec_wrs {s : State} {n : BitVec 10} (hp : n.toNat < 0x100 ∨ s.priv = true) (hn : n.toNat ≠ 2) (c : Bool) (d : BitVec 6) :
    exec (.wrs c d n) s = .next (s.wrs (sregWide n.toNat) d fun s v => s.writeSreg n.toNat v) := by
  have ha (f : State → State) : s.sregAccess n.toNat f = f s := by
    unfold State.sregAccess
    split
    · rfl
    next h => exact State.privileged_pos (hp.resolve_left h) f
  exact congrArg Host.Outcome.next ((ha _).trans (if_neg hn))

theorem Gang.modSlice_id (g : Gang) (i : Nat) : g.modSlice i (fun sl => sl) = g := by
  have hm (l : List Slice) (i : Nat) : modAt (fun sl => sl) l i = l := by
    induction l generalizing i with
    | nil => rfl
    | cons x t ih => cases i <;> simp [modAt, ih]
  simp only [Gang.modSlice, hm]

/-- A slice register takes, in each slice of the group with an executing lane, the value of the lowest (R153). -/
theorem slicesOnly_writeSlices (s : State) (f : Nat → Slice → Slice) :
    SlicesOnly s (s.writeSlices f) fun i =>
      match s.lanes.find? fun K => K / 4 == i with
      | some K => if i ∈ s.group then f K (s.g.slice i) else s.g.slice i
      | none => s.g.slice i := by
  let put (i : Nat) (sl : Slice) : Slice := (s.lanes.find? fun K => K / 4 == i).elim sl fun K => f K sl
  have he : s.writeSlices f = { s with g := s.g.modSlices s.group put } := by
    refine congrArg (fun one => { s with g := s.group.foldl one s.g }) (funext fun g => funext fun i => ?_)
    dsimp only [put]
    cases s.lanes.find? fun K => K / 4 == i with
    | none => exact (g.modSlice_id i).symm
    | some K => rfl
  obtain ⟨hs, hl, hv⟩ := slicesOnly_modSlices s s.group s.group_nodup put
  rw [he]
  refine ⟨hs, hl, fun i hi => (hv i hi).trans ?_⟩
  dsimp only [put]
  cases s.lanes.find? fun K => K / 4 == i with
  | none => exact ite_self _
  | some K => rfl

/-- A value of DBG.CTL with HALT as it was lets sleeping slices sleep on (R164, R324). -/
theorem State.setDbgCtl_sameHalt {s : State} {v : BitVec 18} (h : s.c.dbgCtl.getLsbD 16 = v.getLsbD 16) :
    s.setDbgCtl v = { s with c := { s.c with dbgCtl := v } } := by
  unfold State.setDbgCtl
  rw [h]
  cases v.getLsbD 16 <;> rfl

/-- What a word does that writes a slice register (R153). -/
theorem exec_wrsSlice {w : Instr} {s : State} {k : Nat} {d : BitVec 6} {f : Nat → Slice → Slice}
    (he : exec w s = .next (s.withRegs [(k, d.toNat)] fun s => s.writeSlices f)) :
    (Readable s [(k, d.toNat)] → ∃ t, exec w s = .next t ∧ SlicesOnly s t fun i =>
        match s.lanes.find? fun K => K / 4 == i with
        | some K => if i ∈ s.group then f K (s.g.slice i) else s.g.slice i
        | none => s.g.slice i)
      ∧ (¬Readable s [(k, d.toNat)] → Opr w s) :=
  ⟨fun hr => ⟨_, he.trans (congrArg _ (State.withRegs_ok hr _)), slicesOnly_writeSlices s f⟩,
    fun hr => he.trans (congrArg _ (State.withRegs_bad hr _))⟩

/-- Settles O22: each register by the word's own form, `exec_wrs_word`, `exec_wrs_pair` or `exec_wrsSlice`. -/
theorem specialRegisterWrites : Obligations.SpecialRegisterWrites := by
  unfold Obligations.SpecialRegisterWrites
  intro s c d n3 privileged L v vv first sliceWise sets wr inGang inCore
  have prv {w : Instr} (hw : ∃ f, exec w s = .next (s.privileged f)) (h : ∃ i ∈ s.group, (s.src.slice i).priv = false) :
      exec w s = .next (s.fault 2 0 0) := exec_unprivileged hw.choose_spec h
  have above {n : BitVec 10} (hn : ¬n.toNat < 0x100) : ∃ f, exec (wr n) s = .next (s.privileged f) := ⟨_, congrArg _ (if_neg hn)⟩
  have hv : (v.setWidth 64).setWidth 32 = v := by simp
  have low {k : Nat} (hk : k ≤ 32) : (v.setWidth 64).setWidth k = v.extractLsb' 0 k := setWidth_word v hk
  have gang {g g' : Gang} (h : g = g') : ({ s with g := g } : State) = inGang g' := congrArg inGang h
  have core {x x' : Core} (h : x = x') : ({ s with c := x } : State) = inCore x' := congrArg inCore h
  refine ⟨?_, ?_, fun hp => ?_, ?_, ?_, exec_wrs_word rfl (gang ?_), exec_wrs_word rfl (gang ?_), fun hp => ?_⟩
  · simp only [List.forall_mem_cons]
    refine ⟨prv (above (by decide)), prv (above (by decide)), prv (above (by decide)), prv (above (by decide)), prv (above (by decide)),
      prv (above (by decide)), prv (above (by decide)), prv (above (by decide)), prv (above (by decide)), prv ⟨_, rfl⟩, prv ⟨_, rfl⟩,
      prv ⟨_, rfl⟩, prv ⟨_, rfl⟩, List.forall_mem_nil _⟩
  · exact exec_wrsSlice (w := .wrs c d 2) rfl
  · exact exec_wrsSlice (w := .wrsSliceStatus c d) (congrArg Host.Outcome.next (State.privileged_pos (State.priv_iff.mpr hp) _))
  · exact exec_wrs_word (exec_wrs (.inl (by decide)) (by decide) c d) (gang (by rw [low (by decide)]))
  · exact exec_wrs_word (exec_wrs (.inl (by decide)) (by decide) c d) (gang (by rw [low (by decide)]))
  · rw [hv, BitVec.setWidth_eq_extractLsb' (by decide)]
  · rw [low (by decide), BitVec.getLsbD_setWidth]
    rfl
  · replace hp := State.priv_iff.mpr hp
    have hw {n : BitVec 10} (hn : n.toNat ≠ 2) := exec_wrs (s := s) (n := n) (.inr hp) hn c d
    have hpos (f : State → State) := State.privileged_pos hp f
    refine ⟨exec_wrs_word (hw (by decide)) (gang ?_), exec_wrs_pair (hw (by decide)) rfl, exec_wrs_pair (hw (by decide)) rfl,
      exec_wrs_word (hw (by decide)) (gang ?_), exec_wrs_word (hw (by decide)) (core ?_), exec_wrs_pair (hw (by decide)) rfl, fun k hk => ?_,
      exec_wrs_word (congrArg _ (hpos _)) ?_, exec_wrs_word (congrArg _ (hpos _)) (gang ?_), fun hh => exec_wrs_word (congrArg _ (hpos _)) ?_⟩
    · rw [hv]
    · rw [hv, setWidth_ushiftRight_word]
    · rw [low (by decide)]
    · match k, hk with
      | 0, _ | 1, _ | 2, _ | 3, _ | 4, _ | 5, _ | 6, _ | 7, _ => exact exec_wrs_pair (hw (by decide)) rfl
    · rw [hv]
    · rw [hv]
    · rw [low (by decide)]
      refine State.setDbgCtl_sameHalt (hh.trans ?_)
      rw [BitVec.getLsbD_extractLsb']
      rfl

end Sys2Proof.Machine
end

section
/-! PROOFS. Sending, receiving and launching, and the words of the channels (R153, R269 to R272, R274, R286, R287). -/

namespace Sys2Proof.Machine

open Sys2Proof

/-! ## A message enters the fabric -/

/-- A message that finds no way is settled as at its destination, so one that enters the fabric is on its way (R364, R366, R271). -/
theorem State.enter_message (s : State) (src dst : Nat) (raw : List Byte) (id : Nat) :
    let t := s.enter src dst raw (.flitPlacement id)
    t = { s with fab := { s.fab with links := t.fab.links, held := t.fab.held }, agenda := t.agenda } ∧ OnWay t (.flitPlacement id)
      ∧ ∀ i ∈ s.agenda, i ∈ t.agenda := by
  by_cases hw : HasWay s src dst ((fieldAt raw 11 1).testBit 2)
  · obtain ⟨he, hon, hold, -⟩ := s.enter_spec src dst raw (.flitPlacement id) hw
    exact ⟨he, hon, hold⟩
  have hne : src ≠ dst := fun h => hw (.inl h)
  simp only [State.enter]
  split
  · exact ⟨rfl, .inr (.inr ⟨_, List.mem_append_right _ (List.mem_singleton_self _), rfl⟩), fun _ h => h⟩
  have harr : s.hop src dst raw (.flitPlacement id) = s.arrives (.flitPlacement id) := by
    simp only [State.hop]
    split
    · rfl
    split
    · split <;> rfl
    next p hp =>
      obtain ⟨k, h1, h2⟩ := Option.bind_eq_some_iff.mp hp
      exact absurd (.inr (.inr ⟨k, _, h1, h2⟩)) hw
  rw [harr]
  exact ⟨rfl, .inl (List.mem_append_right _ (List.mem_singleton_self _)), fun i hi => List.mem_append_left _ hi⟩

/-- A flit sent to its endpoint (R271). -/
theorem State.sendFlit_spec (s : State) (f : Flit) :
    let t := s.sendFlit f
    t = { s with fab := { s.fab with links := t.fab.links, held := t.fab.held }, flits := s.flits ++ [f], agenda := t.agenda }
      ∧ OnWay t (.flitPlacement f.id) ∧ ∀ i ∈ s.agenda, i ∈ t.agenda :=
  State.enter_message { s with flits := s.flits ++ [f] } _ _ _ _

/-! ## A flit is sent -/

/-- What a gang has when it has sent a flit: an operation more in k4, a unit less, the channel's sequence gone on (R270, R272, R274). -/
def senderGang (s : State) (n chan : Nat) : Gang :=
  let g := { s.g with
    kops := s.g.kops ++ [{ id := s.next + 1, cls := 4 }]
    allow := Store.put s.g.allow n (s.g.allowance n - 1) }
  if chan = 0 then g
  else { g with chans := Store.put g.chans chan { g.chan chan with seqno := ((g.chan chan).seqno + 1) % 65536 } }

theorem senderGang_frame (s : State) (n chan : Nat) : senderGang s n chan = { s.g with
    kops := s.g.kops ++ [{ id := s.next + 1, cls := 4 }], allow := (senderGang s n chan).allow, chans := (senderGang s n chan).chans } := by
  unfold senderGang
  split <;> rfl

theorem senderGang_allowance (s : State) (n chan m : Nat) :
    (senderGang s n chan).allowance m = if m = n then s.g.allowance n - 1 else s.g.allowance m := by
  have h : (senderGang s n chan).allow = Store.put s.g.allow n (s.g.allowance n - 1) := by
    unfold senderGang
    split <;> rfl
  rw [Gang.allowance, h, Store.get_put]
  rfl

theorem senderGang_chan (s : State) (n chan m : Nat) : (senderGang s n chan).chan m
    = if m = chan ∧ chan ≠ 0 then { s.g.chan m with seqno := ((s.g.chan m).seqno + 1) % 65536 } else s.g.chan m := by
  unfold senderGang
  by_cases h : chan = 0
  · simp [h, Gang.chan]
  · simp only [if_neg h, Gang.chan, Store.get_put]
    by_cases hm : m = chan
    · subst hm
      simp [h]
    · simp [hm]

/-- The flit that the gang in focus sends (R268). -/
def sentFlit (s : State) (n chan : Nat) (payload : List Byte) : Flit :=
  let t := s.task s.g.task
  { id := s.next, payload := payload, tenant := t.tenant, task := t.id, sender := some s.g.uid, window := none, cap := n
    chan := chan, seqno := (s.g.chan chan).seqno, dst := (t.cap n).endpoint t, reply := (t.cap n).replyTo t, kid := some (s.next + 1) }

/-- The state when the gang in focus has sent a flit that has not left it yet. -/
def sending (s : State) (n chan : Nat) : State :=
  { s with g := senderGang s n chan, c := s.c.count 0x018 1 (some (s.g.sched, s.b.prio)), next := s.next + 2 }

/-- A gang that is no replay sends: a task record waits for the dispatcher, any other flit goes to its endpoint (R272, R398). -/
theorem State.sendVia_eq {s : State} (hr : s.b.replay = none) (n chan : Nat) (payload : List Byte) : s.sendVia n chan payload =
    let f := sentFlit s n chan payload
    let c := (s.task s.g.task).cap n
    if c.kind = 2 then
      State.fresh (State.later { sending s n chan with records := s.records ++ [{ id := s.next + 2, bytes := payload, ctx := c.f8, flit := f }] }
        (.taskRecordArrival (s.next + 2)))
    else (sending s n chan).sendFlit f := by
  have hn : ¬(s.b.replay.isSome = true) := by simp [hr]
  exact if_neg hn

/-- What each word that sends leaves, by the kind of the capability (R270, R272, R274, R286). -/
theorem State.sent_sendVia {s : State} (hr : s.b.replay = none) (n chan : Nat) (payload : List Byte) :
    Sent s (s.sendVia n chan payload) n chan payload := by
  refine ⟨sentFlit s n chan payload, rfl, rfl, rfl, rfl, rfl, rfl, rfl, rfl, rfl, rfl, rfl, rfl, rfl, rfl, ?_⟩
  rw [State.sendVia_eq hr]
  have hg := senderGang_frame s n chan
  dsimp only
  split
  next hk =>
    obtain ⟨A, hA, hin, hold⟩ := State.later_adds { sending s n chan with
      records := s.records ++ [{ id := s.next + 2, bytes := payload, ctx := ((s.task s.g.task).cap n).f8, flit := sentFlit s n chan payload }] }
      (.taskRecordArrival (s.next + 2))
    rw [hA]
    refine ⟨?_, hold, senderGang_allowance s n chan, senderGang_chan s n chan, fun _ => ⟨rfl, rfl, rfl, rfl, hin⟩, fun h => absurd hk h⟩
    dsimp only [State.fresh, sending]
    rw [← hg]
    rfl
  next hk =>
    obtain ⟨ht, hon, hold⟩ := (sending s n chan).sendFlit_spec (sentFlit s n chan payload)
    generalize (sending s n chan).sendFlit (sentFlit s n chan payload) = t at ht hon hold
    have htg : t.g = senderGang s n chan := (congrArg State.g ht :)
    have hc : t.c = (sending s n chan).c := (congrArg State.c ht :)
    have hflits : t.flits = s.flits ++ [sentFlit s n chan payload] := (congrArg State.flits ht :)
    have hrec : t.records = s.records := (congrArg State.records ht :)
    have hnext : t.next = s.next + 2 := (congrArg State.next ht :)
    rw [htg, hc, hflits, hrec, hnext, ← hg]
    exact ⟨ht, hold, senderGang_allowance s n chan, senderGang_chan s n chan, fun h => absurd h hk, fun _ => ⟨rfl, rfl, rfl, hon⟩⟩

/-! ## WRS MQ.SEND -/

/-- A four-byte field of a row of them. -/
theorem fieldAt_flatMap_leBytes (x : Nat → Nat) (l : List Nat) {K : Nat} (hK : K < l.length) :
    fieldAt (l.flatMap fun L => leBytes 4 (x L)) (4 * K) 4 = x l[K] % 2 ^ 32 := by
  induction l generalizing K with
  | nil => simp at hK
  | cons L t ih =>
    rw [List.flatMap_cons]
    cases K with
    | zero =>
      rw [fieldAt, Nat.mul_zero, List.drop_zero, List.take_left' (length_leBytes 4 _), leNat_leBytes]
      rfl
    | succ k =>
      have hd : 4 * (k + 1) = (leBytes 4 (x L)).length + 4 * k := by
        rw [length_leBytes]
        omega
      rw [fieldAt, hd, List.drop_length_add_append]
      exact ih (Nat.lt_of_succ_lt_succ hK)

/-- The payload of a register has the word of each lane that executes, and 0 for every other lane (R153). -/
theorem State.payloadOf_field (s : State) (d : Nat) {K : Nat} (hK : K < 32) :
    fieldAt (s.payloadOf d) (4 * K) 4 = if K ∈ s.lanes then (s.src.val d K).toNat else 0 := by
  refine (fieldAt_flatMap_leBytes _ _ (by simpa [upto] using hK)).trans ?_
  simp only [upto, List.getElem_range, List.contains_eq_mem, decide_eq_true_eq]
  split
  · exact Nat.mod_eq_of_lt (BitVec.isLt _)
  · rfl

theorem State.payloadOf_length (s : State) (d : Nat) : (s.payloadOf d).length = 128 := by
  simp [State.payloadOf, List.length_flatMap, length_leBytes, upto]

/-- A send through a closed channel (R274). -/
theorem State.sendCap_closed {s : State} (hc : s.src.chCur.toNat ≠ 0) (ho : (s.src.chan s.src.chCur.toNat).opened = false) :
    s.sendCap = .error 9 := by
  unfold State.sendCap
  simp [hc, ho]

/-- A send goes by MQ.DEST, or by the channel that CH.CUR names (R272, R274). -/
theorem State.sendCap_open {s : State} (h : s.src.chCur.toNat = 0 ∨ (s.src.chan s.src.chCur.toNat).opened = true) :
    let cur := s.src.chCur.toNat
    let t := s.task s.g.task
    let n := if cur = 0 then s.src.mqDest.toNat else (s.src.chan cur).cap
    s.sendCap = if s.capOk t (t.cap n) [1, if cur = 0 then 2 else 3] 0 then .ok (n, cur) else .error 8 := by
  unfold State.sendCap
  by_cases hc : s.src.chCur.toNat = 0
  · simp only [hc, if_true]
  · simp only [if_neg hc, h.resolve_left hc, Bool.not_true, Bool.false_eq_true, if_false]

theorem State.kHold_eq_false {s : State} {cls : Nat} : s.kHold cls = false ↔ (s.src.kops.filter fun k => k.cls == cls).length < 63 := by
  rw [Bool.eq_false_iff, ne_eq, State.kHold_iff, not_not]

/-- A word of the queue engine waits while k4 is full or its allowance is used up (R198, R270). -/
theorem State.sendHold_eq_false {s : State} {n ch : Nat} (h : s.sendCap = .ok (n, ch)) :
    s.sendHold = false ↔ (s.src.kops.filter fun k => k.cls == 4).length < 63 ∧ s.g.allowance n ≠ 0 := by
  simp only [State.sendHold, h, Bool.or_eq_false_iff, State.kHold_eq_false, beq_eq_false_iff_ne]

section
variable {s : State} {c : Bool} {d : BitVec 6} (hr : Readable s [(1, d.toNat)])
include hr

theorem exec_wrsMqSend_error {k : Nat} (h : s.sendCap = .error k) : exec (.wrsMqSend c d) s = .next (s.fault k 0 0) := by
  refine congrArg Host.Outcome.next ((State.withRegs_ok hr _).trans ?_)
  simp only [h]

theorem exec_wrsMqSend_ok {n ch : Nat} (h : s.sendCap = .ok (n, ch)) :
    exec (.wrsMqSend c d) s = .next (if s.sendHold then s.hold else s.sendVia n ch (s.payloadOf d.toNat)) := by
  refine congrArg Host.Outcome.next ((State.withRegs_ok hr _).trans ?_)
  simp only [h]

end

/-! ## RDS MQ.RECVn -/

/-- What a flit's allowance unit is given back to: its sender's counter, or its window's (R270). -/
theorem State.returnUnit_spec (s : State) (f : Flit) : ∃ A G I W,
    s.returnUnit f = { s with g := { s.g with allow := A }, gangs := G, images := I, windows := W }
      ∧ (f.sender = some s.g.uid → (∀ m, Store.get 0 A m = s.g.allowance m + if m = f.cap then 1 else 0) ∧ G = s.gangs ∧ W = s.windows)
      ∧ (∀ g, f.sender = some g → g ≠ s.g.uid → A = s.g.allow ∧ W = s.windows
          ∧ G = s.gangs.map fun h => if h.uid = g then { h with allow := Store.put h.allow f.cap (Store.get 0 h.allow f.cap + 1) } else h)
      ∧ (∀ v, f.sender = none → f.window = some v → A = s.g.allow ∧ G = s.gangs
          ∧ (Store.get {} W v).left = (Store.get {} s.windows v).left + 1) := by
  unfold State.returnUnit
  cases hs : f.sender with
  | some g =>
    dsimp only
    unfold State.modGang
    by_cases hg : s.g.uid = g
    · rw [if_pos hg]
      subst hg
      refine ⟨_, _, _, _, rfl, fun _ => ⟨fun m => ?_, rfl, rfl⟩, fun g h hn => absurd (Option.some.inj h).symm hn, nofun⟩
      rw [Store.get_put, Gang.allowance]
      split
      next h => rw [h]
      · rfl
    · rw [if_neg hg]
      refine ⟨_, _, _, _, rfl, fun h => absurd (Option.some.inj h).symm hg, fun k h _ => ?_, nofun⟩
      obtain rfl := Option.some.inj h
      exact ⟨rfl, rfl, rfl⟩
  | none =>
    cases hw : f.window with
    | none => exact ⟨_, _, _, _, rfl, nofun, nofun, nofun⟩
    | some w =>
      refine ⟨_, _, _, _, rfl, nofun, nofun, fun v _ h => ?_⟩
      obtain rfl := Option.some.inj h
      exact ⟨rfl, rfl, by rw [Store.get_put_same]⟩

/-- The refused flits told to be sent again are the flits there were, and no step is lost (R271). -/
theorem State.signalAll_spec (s : State) : ∃ fl A, s.signalAll = { s with flits := fl, agenda := A }
    ∧ fl.map Flit.id = s.flits.map Flit.id ∧ ∀ i ∈ s.agenda, i ∈ A := by
  obtain ⟨fl, A, h⟩ := s.signalAll_flitsOnly
  have hk : s.signalAll.flits.map Flit.id = s.flits.map Flit.id ∧ ∀ i ∈ s.agenda, i ∈ s.signalAll.agenda := by
    refine foldl_rel (R := fun a b : State => b.flits.map Flit.id = a.flits.map Flit.id ∧ ∀ i ∈ a.agenda, i ∈ b.agenda)
      (fun _ => ⟨rfl, fun _ h => h⟩) (fun h k => ⟨k.1.trans h.1, fun i hi => k.2 i (h.2 i hi)⟩) _ (fun s f => ?_) _ s
    split
    · exact ⟨by rw [State.later_flits], (s.later_spec _).2.2⟩
    split
    · exact ⟨rfl, fun _ h => h⟩
    · refine ⟨?_, (State.later_spec (s.modFlit f.id _) _).2.2⟩
      rw [State.later_flits, State.modFlit, List.map_map]
      refine List.map_congr_left fun x _ => ?_
      dsimp only [Function.comp]
      split <;> rfl
  rw [h] at hk
  exact ⟨fl, A, h, hk⟩

/-- The state when the oldest flit of a queue has been taken and written to a register (R153, R269). -/
def received (s : State) (d n : Nat) (f : Flit) (rest : List Flit) : State :=
  { s with
    g := s.g.write d s.lanes fun L => BitVec.ofNat 32 (fieldAt f.payload (4 * L) 4)
    b := { s.b with queues := Store.put s.b.queues n rest } }

theorem received_spec (s : State) (d n : Nat) (f : Flit) (rest : List Flit) : ∃ R U,
    received s d n f rest = { s with g := { s.g with gen := R, uni := U }, b := { s.b with queues := Store.put s.b.queues n rest } }
      ∧ ∀ r K, K < 32 → Gang.val { s.g with gen := R, uni := U } r K
        = written s.g 1 d s.lanes (one fun K => BitVec.ofNat 32 (fieldAt f.payload (4 * K) 4)) r K := by
  obtain ⟨R, U, h⟩ := s.g.write_frame d s.lanes fun L => BitVec.ofNat 32 (fieldAt f.payload (4 * L) 4)
  refine ⟨R, U, by rw [received, h], fun r K hK => ?_⟩
  rw [← h]
  exact Gang.write_val _ _ _ _ s.lanes_lt r K hK

section
variable {s : State} {c : Bool} {d : BitVec 6} {n : BitVec 2} (hw : Writable s 1 d.toNat [])
include hw

theorem exec_rdsMqRecv_none (hn : s.b.rq ≤ n.toNat) : exec (.rdsMqRecv c d n) s = .next (s.fault 8 0 0) :=
  congrArg Host.Outcome.next ((State.withDest_ok hw _).trans (if_pos hn))

theorem exec_rdsMqRecv_empty (hn : n.toNat < s.b.rq) (hq : s.queue n.toNat = []) : exec (.rdsMqRecv c d n) s = .next s.hold := by
  refine congrArg Host.Outcome.next ((State.withDest_ok hw _).trans ((if_neg (Nat.not_le.mpr hn)).trans ?_))
  simp only [hq]

theorem exec_rdsMqRecv {f : Flit} {rest : List Flit} (hn : n.toNat < s.b.rq) (hq : s.queue n.toNat = f :: rest) :
    exec (.rdsMqRecv c d n) s = .next (((received s d.toNat n.toNat f rest).returnUnit f).signalAll) := by
  refine congrArg Host.Outcome.next ((State.withDest_ok hw _).trans ((if_neg (Nat.not_le.mpr hn)).trans ?_))
  simp only [hq]
  rfl

end

/-! ## LAUNCH -/

section
variable {s : State} {c : Bool} {n y : BitVec 6}

theorem exec_launch_nil (hr : Readable s [(1, y.toNat)]) (hl : s.lanes = []) : exec (.launch c n y) s = .next s := by
  refine congrArg Host.Outcome.next ((State.withRegs_ok hr _).trans ?_)
  simp only [hl]

/-- LAUNCH with executing lanes, by the CODE of its fault (R286). -/
theorem exec_launch {k : Nat} (hr : Readable s [(1, y.toNat)]) (hl : s.lanes ≠ []) (hf : s.launchFault n.toNat y.toNat (leader s.lanes) = k) :
    exec (.launch c n y) s = .next (
      if k ≠ 0 then s.fault k 0 0
      else if s.launchHold n.toNat y.toNat then s.hold
      else s.withRead (s.src.val y.toNat (leader s.lanes)).toNat 128 fun t =>
        t.sendVia n.toNat 0 (memBytes t.mem (atS t.b.uid (s.src.val y.toNat (leader s.lanes)).toNat) 128)) := by
  subst hf
  refine congrArg Host.Outcome.next ((State.withRegs_ok hr _).trans ?_)
  obtain ⟨t, ht⟩ := lanes_cons hl
  generalize leader s.lanes = K at ht ⊢
  simp only [ht]

/-- Where LAUNCH finds its record in range, it goes by its capability (R286). -/
theorem State.launchFault_inRange {k r L off : Nat} (ho : (s.src.val r L).toNat = off) (h1 : off % 128 = 0) (h2 : off + 128 ≤ s.b.sbytes) :
    s.launchFault k r L = if s.capOk (s.task s.g.task) ((s.task s.g.task).cap k) [2] 1 then 0 else 8 := by
  simp only [State.launchFault, ho]
  exact if_neg (by omega)

theorem State.launchHold_eq_false {k r : Nat} (hl : s.lanes ≠ []) (hf : s.launchFault k r (leader s.lanes) = 0) :
    s.launchHold k r = false ↔ (s.src.kops.filter fun k => k.cls == 4).length < 63 ∧ s.g.allowance k ≠ 0
      ∧ s.storesPending (s.src.val r (leader s.lanes)).toNat 128 = false := by
  have he : s.launchHold k r = (s.launchFault k r (leader s.lanes) == 0
      && (s.kHold 4 || s.g.allowance k == 0 || s.storesPending (s.src.val r (leader s.lanes)).toNat 128)) := by
    obtain ⟨t, ht⟩ := lanes_cons hl
    unfold State.launchHold
    rw [ht]
    rfl
  rw [he, hf]
  simp only [beq_self_eq_true, Bool.true_and, Bool.or_eq_false_iff, State.kHold_eq_false, beq_eq_false_iff_ne, and_assoc, ne_eq]

end

/-! ## Channels -/

theorem get_chan_put (s : State) (n : Nat) (x : Chan) (m : Nat) :
    Gang.chan { s.g with chans := Store.put s.g.chans n x } m = if m = n then x else s.g.chan m := Store.get_put _ _ _ _ _

/-- The flits that a gang has sent on a channel and that are still on their way (R287). -/
def sentOn (s : State) (n : Nat) : List Nat := (s.flits.filter fun f => f.sender == some s.g.uid && f.chan == n).map Flit.id

/-- CHCLOSE of an open channel: it is closed, and its operation completes with the last flit on its way (R287). -/
theorem exec_chclose {s : State} {n : BitVec 4} (ho : (s.g.chan n.toNat).opened = true) (hk : s.kHold 4 = false) (c : Bool) :
    ∃ K, exec (.chclose c n) s = .next { s with
        g := { s.g with
          chans := Store.put s.g.chans n.toNat { s.g.chan n.toNat with opened := false }
          chCur := if s.g.chCur = n then 0 else s.g.chCur
          kops := K }
        next := s.next + 1 }
      ∧ (let ops : List KOp := s.g.kops ++ [{ id := s.next, cls := 4, work := .chclose (sentOn s n.toNat) }]
         K = if sentOn s n.toNat = [] then retireOps [] (markDone s.next ops) else ops) := by
  refine ⟨_, congrArg Host.Outcome.next ((if_neg (by simp [ho])).trans ((if_neg (by simp [hk])).trans ?_)), rfl⟩
  by_cases h : sentOn s n.toNat = []
  · rw [if_pos h]
    exact (if_pos (List.isEmpty_iff.mpr h)).trans (State.doneK_focus rfl _)
  · rw [if_neg h]
    exact if_neg fun he => h (List.isEmpty_iff.mp he)

/-- Settles O30: sends by `sent_sendVia`, receipts by `returnUnit_spec` and `signalAll_spec`, the others by their checks in order. -/
theorem queueWords : Obligations.QueueWords := by
  unfold Obligations.QueueWords
  intro s c d y n6 n4 n2 task below L
  refine ⟨?_, ?_, ?_, ?_⟩
  · intro cur ch n ok w
    refine ⟨fun hr => congrArg Host.Outcome.next (State.withRegs_bad hr _), fun hr => ⟨fun hc ho => ?_, fun h => ?_⟩⟩
    · exact exec_wrsMqSend_error hr (State.sendCap_closed hc ho)
    have hcap : s.sendCap = if ok then .ok (n, cur) else .error 8 := State.sendCap_open h
    refine ⟨fun hok => ?_, fun hok hn => ?_, fun hok hb ha hrep => ?_⟩
    · exact exec_wrsMqSend_error hr (hcap.trans (if_neg (by simp [hok])))
    all_goals replace hcap := hcap.trans (if_pos hok)
    · refine (exec_wrsMqSend_ok hr hcap).trans (congrArg _ (if_pos ?_))
      exact Bool.of_not_eq_false fun hh => hn ((State.sendHold_eq_false hcap).mp hh)
    · refine ⟨_, _, (exec_wrsMqSend_ok hr hcap).trans (congrArg _ (if_neg ?_)), State.sent_sendVia hrep _ _ _,
        s.payloadOf_length _, fun K hK => s.payloadOf_field _ hK⟩
      rw [(State.sendHold_eq_false hcap).mpr ⟨hb, ha⟩]
      exact Bool.false_ne_true
  · intro n w
    refine ⟨fun hw => congrArg Host.Outcome.next (State.withDest_bad hw _),
      fun hw => ⟨exec_rdsMqRecv_none hw, exec_rdsMqRecv_empty hw, fun hn f rest hq => ?_⟩⟩
    obtain ⟨R, U, hreg, hval⟩ := received_spec s d.toNat n f rest
    obtain ⟨A, G, I, W, hu, hself, hother, hwindow⟩ := State.returnUnit_spec
      { s with g := { s.g with gen := R, uni := U }, b := { s.b with queues := Store.put s.b.queues n rest } } f
    obtain ⟨fl, ag, hs, hids, hold⟩ := State.signalAll_spec { s with
      g := { s.g with gen := R, uni := U, allow := A }, b := { s.b with queues := Store.put s.b.queues n rest }
      gangs := G, images := I, windows := W }
    have he := exec_rdsMqRecv (c := c) hw hn hq
    rw [hreg, hu, hs] at he
    exact ⟨_, he, rfl, hval, fun m => Store.get_put _ _ _ _ _, hids, hold, hself, hother, hwindow⟩
  · intro n off ok w
    refine ⟨fun hr => congrArg Host.Outcome.next (State.withRegs_bad hr _),
      fun hr => ⟨exec_launch_nil hr, fun hl ho => ?_, fun hl h1 h2 => ?_⟩⟩
    · exact (exec_launch hr hl (if_pos ho)).trans (congrArg _ (if_pos (by decide)))
    have hf := State.launchFault_inRange (k := n) rfl h1 h2
    refine ⟨fun hok => ?_, fun hok hn => ?_, fun hok hb ha hs => ?_⟩
    · exact (exec_launch hr hl (hf.trans (if_neg (Bool.eq_false_iff.mp hok)))).trans (congrArg _ (if_pos (by decide)))
    all_goals
      replace hf := hf.trans (if_pos hok)
      have he := (exec_launch (c := c) hr hl hf).trans (congrArg _ (if_neg (by decide)))
    · refine he.trans (congrArg _ (if_pos ?_))
      exact Bool.of_not_eq_false fun hh => hn ((State.launchHold_eq_false hl hf).mp hh)
    · replace he := he.trans (congrArg _ (if_neg (Bool.eq_false_iff.mp ((State.launchHold_eq_false hl hf).mpr ⟨hb, ha, hs⟩))))
      exact ⟨fun hm => he.trans (congrArg _ (State.withRead_marked hm _)),
        fun hm hrep => ⟨_, he.trans (congrArg _ (State.withRead_clean hm _)), State.sent_sendVia hrep _ _ _⟩⟩
  · intro n isOpen chans closed mine op
    have hshut : (!(s.g.chan n).opened) = true ↔ isOpen = false := iff_of_eq (Bool.not_eq_true' _)
    refine ⟨fun h => congrArg _ (if_pos h), fun h hc => ?_, fun h hc => ?_, fun h => congrArg _ (if_pos (hshut.mpr h)), fun h hb => ?_,
      fun h hb => ?_,
      fun h0 h => congrArg _ (if_pos ⟨h0, hshut.mpr h⟩), fun h => congrArg _ (if_neg ?_)⟩
    · exact congrArg Host.Outcome.next ((if_neg (Bool.eq_false_iff.mp h)).trans (if_pos (by rw [hc]; rfl)))
    · exact ⟨_, congrArg Host.Outcome.next ((if_neg (Bool.eq_false_iff.mp h)).trans (if_neg (by rw [hc]; decide))), rfl, get_chan_put s _ _⟩
    · exact congrArg Host.Outcome.next ((if_neg fun hs => Bool.noConfusion (h.symm.trans (hshut.mp hs))).trans (if_pos (State.kHold_iff.mpr hb)))
    · obtain ⟨K, he, hK⟩ := exec_chclose h (State.kHold_false hb) c
      refine ⟨⟨_, he, rfl, get_chan_put s _ _⟩, fun t ht => ?_⟩
      injection he.symm.trans ht with ht
      subst ht
      refine ⟨fun hm => hK.trans (if_neg hm), fun hm => ?_⟩
      rw [hK.trans (if_pos hm)]
      exact Gang.opDone _ s.next
    · rintro ⟨h0, h1⟩
      exact Bool.noConfusion ((h.resolve_left h0).symm.trans (hshut.mp h1))

end Sys2Proof.Machine
end

section
/-! PROOFS. GST and ATOM at issue: lanes killed, words captured and launched, lanes posted (R180, R186, R190, R198, R207, R210). -/

namespace Sys2Proof.Machine

open Sys2Proof

/-! ## Holds and addresses -/

theorem mayLaunch_iff {s : State} {flag : Nat} : MayLaunch s flag ↔ s.flagHold flag = false ∧ s.fullFlights = false := by
  have hfull : s.fullFlights = false ↔ s.src.flights.length < 16 := by
    rw [State.fullFlights, decide_eq_false_iff_not, Nat.not_le]
  simp [MayLaunch, hfull, State.flagHold]

/-- A word of G may issue while its flag is not pending, a place is free and its class stands below 63 (R56, R198, R311). -/
theorem State.gstHold_iff {s : State} {flag : Nat} :
    s.gstHold flag = false ↔ MayLaunch s flag ∧ (s.src.kops.filter fun k => k.cls == 1).length < 63 := by
  rw [State.gstHold, Bool.or_eq_false_iff, Bool.or_eq_false_iff, mayLaunch_iff, State.kHold_eq_false]

/-- A returning ATOM waits as a GST does, at k2; a no-return one waits for a place and for posted entries (R210, R311). -/
theorem State.atomHold_iff {s : State} {flag : Nat} : s.atomHold flag = false ↔ s.src.flights.length < 16
    ∧ if flag ≠ 15 then MayLaunch s flag ∧ (s.src.kops.filter fun k => k.cls == 2).length < 63 else s.lanes.length ≤ s.postedRoom := by
  rw [State.atomHold, Bool.or_eq_false_iff, State.fullFlights, decide_eq_false_iff_not, Nat.not_le]
  refine and_congr_right fun hfree => ?_
  by_cases h15 : flag = 15
  · simp [h15]
  · have hfull : s.fullFlights = false := decide_eq_false (Nat.not_le.mpr hfree)
    simp [h15, mayLaunch_iff, hfull, State.kHold_eq_false]

/-- A G address that is not canonical, or not a multiple of the size (R186, R207). -/
def State.BadVa (s : State) (a size L : Nat) : Prop :=
  (s.src.val64 a L).extractLsb' 48 16 ≠ 0 ∨ (s.src.val64 a L).toNat % size ≠ 0

theorem State.badVa_lowest {s : State} {a size L : Nat} (hL : L ∈ s.lanes) (hbad : s.BadVa a size L)
    (hlow : ∀ K ∈ s.lanes, K < L → ¬s.BadVa a size K) : s.badVa a size = some L := by
  have hact {K : Nat} : K ∈ s.lanes ↔ K ∈ List.range 32 ∧ s.src.active s.grp K = true := List.mem_filter
  rw [State.badVa, State.lanes, Gang.lanes, List.find?_filter, upto, List.find?_range_eq_some]
  refine ⟨?_, (hact.mp hL).1, fun K hK => ?_⟩
  · simpa [(hact.mp hL).2, State.BadVa] using hbad
  · have hK32 : K ∈ List.range 32 := List.mem_range.mpr (hK.trans (List.mem_range.mp (hact.mp hL).1))
    rw [Bool.not_eq_true', Bool.eq_false_iff]
    intro h
    obtain ⟨ha, hb⟩ := of_decide_eq_true h
    exact hlow K (hact.mpr ⟨hK32, ha⟩) hK (by simpa [State.BadVa] using hb)

theorem State.badVa_none {s : State} {a size : Nat} (h : ∀ L ∈ s.lanes, ¬s.BadVa a size L) : s.badVa a size = none := by
  rw [State.badVa, List.find?_eq_none]
  intro L hL
  simpa [State.BadVa] using h L hL

/-! ## Captured operands -/

/-- What is stored for some lanes, each under its number. -/
theorem Store.get_map {α : Type} (d : α) (f : Nat → α) {l : List Nat} {L : Nat} (h : L ∈ l) :
    Store.get d (l.map fun L => (L, f L)) L = f L := by
  induction l with
  | nil => cases h
  | cons K t ih =>
    rw [List.map_cons, Store.get]
    split
    next hK => rw [hK]
    next hK => exact ih ((List.mem_cons.mp h).resolve_left hK)

theorem maskLanes_laneMask (p : Nat → Bool) : maskLanes (laneMask ((upto 32).filter p)) = (upto 32).filter p := by
  refine List.filter_congr fun L hL => ?_
  rw [Bool.eq_iff_iff, getLsbD_laneMask (fun P hP => (mem_upto 32 P).mp (List.mem_filter.mp hP).1) ((mem_upto 32 L).mp hL), List.mem_filter]
  exact and_iff_right hL

/-- The lanes of a word that pass a test, taken from the mask that holds them. -/
theorem State.maskLanes_filter (s : State) (p : Nat → Bool) : maskLanes (laneMask (s.lanes.filter p)) = s.lanes.filter p := by
  rw [State.lanes, Gang.lanes, List.filter_filter]
  exact maskLanes_laneMask _

theorem captured_newFlight (s : State) (op : MemOp) (word : Word) (flag : Nat) {lanes : List Nat} (h : ∀ L ∈ lanes, L < 32) :
    Captured s (s.newFlight op word flag lanes) s.next op flag lanes :=
  ⟨rfl, rfl, rfl, rfl, rfl, rfl, fun _ hL => getLsbD_laneMask h hL, rfl⟩

/-! ## Slices that keep their group -/

theorem nth_of_length_le {α : Type} (d : α) {l : List α} {i : Nat} (h : l.length ≤ i) : nth d l i = d := by
  induction l generalizing i with
  | nil => rfl
  | cons x t ih =>
    cases i with
    | zero => exact absurd h (by simp)
    | succ i => exact ih (Nat.le_of_succ_le_succ h)

/-- A part of every slice is kept where the slices that are there keep it. -/
theorem SlicesAre.keeps {α : Type} {g g' : Gang} {f : Nat → Slice} (h : SlicesAre g g' f) (p : Slice → α)
    (hf : ∀ i, p (f i) = p (g.slice i)) (i : Nat) : p (g'.slice i) = p (g.slice i) := by
  by_cases hi : i < g.slices.length
  · rw [h.2 i hi, hf]
  · have hle := Nat.not_lt.mp hi
    rw [Gang.slice, Gang.slice, nth_of_length_le _ hle, nth_of_length_le _ (h.1 ▸ hle)]

/-- The issuing group is the same where the slices keep their groups (R24). -/
theorem State.group_congr {s t : State} (hsnap : t.snap = s.snap) (hsel : t.sel = s.sel) (hlive : t.g.live = s.g.live)
    (hgrp : ∀ i, (t.g.slice i).grp = (s.g.slice i).grp) : t.group = s.group := by
  have hin (k i : Nat) : t.g.inGroup k i = s.g.inGroup k i := by rw [Gang.inGroup, Gang.inGroup, hlive, hgrp]
  rw [State.group, State.group, State.src, State.src, State.grp, State.grp, hsnap, hsel]
  cases s.snap with
  | none => exact List.filter_congr fun i _ => hin _ i
  | some g => rfl

theorem State.addK_group (s : State) (cls : Nat) (work : KWork) : (s.addK cls work).group = s.group :=
  State.group_congr rfl rfl rfl fun _ => rfl

/-! ## Lanes killed at issue -/

/-- A slice whose killed lanes are switched off (R180). -/
def Slice.without (sl : Slice) (lanes : List Nat) (i : Nat) : Slice :=
  let keep : BitVec 4 := ~~~((laneMask lanes).extractLsb' (4 * i) 4)
  { sl with active := sl.active &&& keep, stack := sl.stack.map (· &&& keep) }

theorem Gang.kill_eq (g : Gang) (lanes : List Nat) (cause : Nat) : g.kill lanes cause = { g with
    slices := (g.modSlices (upto 8) fun i sl => sl.without lanes i).slices
    killed := g.killed ||| laneMask lanes
    killCause := if g.killed = 0 then BitVec.ofNat 3 cause else g.killCause
    frame := (g.kill lanes cause).frame } := rfl

theorem Gang.kill_slice (g : Gang) (lanes : List Nat) (cause : Nat) {i : Nat} (hi : i < g.slices.length) :
    (g.kill lanes cause).slice i = if i ∈ upto 8 then (g.slice i).without lanes i else g.slice i := by
  have h := Gang.modSlices_slice g (upto 8) (fun i sl => sl.without lanes i) List.nodup_range i hi
  rw [g.kill_eq]
  unfold Gang.slice at h ⊢
  exact h

theorem Gang.kill_length (g : Gang) (lanes : List Nat) (cause : Nat) : (g.kill lanes cause).slices.length = g.slices.length := by
  obtain ⟨S, hS, hlen⟩ := g.modSlices_frame (upto 8) fun i sl => sl.without lanes i
  rw [g.kill_eq, hS]
  exact hlen

theorem getLsbD_without_active {lanes : List Nat} (hl : ∀ L ∈ lanes, L < 32) {i k : Nat} (hi : i < 8) (hk : k < 4) (sl : Slice) :
    (sl.without lanes i).active.getLsbD k = (sl.active.getLsbD k && !lanes.contains (4 * i + k)) := by
  have hbit : (laneMask lanes).getLsbD (4 * i + k) = lanes.contains (4 * i + k) := by
    rw [Bool.eq_iff_iff, getLsbD_laneMask hl (by omega), List.contains_iff_mem]
  rw [← hbit]
  simp [Slice.without, hk]

/-- The state t is s with some lanes killed: their bits in the slices and in a saved frame, the record of them and the
core's counters are all that changed (R148, R180). -/
def LanesKilled (s t : State) (lanes : List Nat) (cause : Nat → Nat) : Prop :=
  t = { s with
      g := { s.g with slices := t.g.slices, killed := t.g.killed, killCause := t.g.killCause, frame := t.g.frame }
      c := { s.c with perfCnt := t.c.perfCnt } }
    ∧ SlicesAre s.g t.g (fun i => { s.g.slice i with active := (t.g.slice i).active, stack := (t.g.slice i).stack })
    ∧ Killed s t lanes cause

theorem LanesKilled.refl (s : State) (cause : Nat → Nat) : LanesKilled s s [] cause :=
  ⟨rfl, ⟨rfl, fun _ _ => rfl⟩, by simp [Killed]⟩

theorem State.lanesKilled_killLanes (s : State) {lanes : List Nat} (hl : ∀ L ∈ lanes, L < 32) (cause : Nat → Nat) :
    LanesKilled s (s.killLanes lanes (cause (lanes.headD 0))) lanes cause := by
  cases lanes with
  | nil => exact LanesKilled.refl s cause
  | cons K t =>
    have hg : (s.killLanes (K :: t) (cause K)).g = s.g.kill (K :: t) (cause K) := rfl
    have heq := s.g.kill_eq (K :: t) (cause K)
    have hslice (i : Nat) (hi : i < s.g.slices.length) := s.g.kill_slice (K :: t) (cause K) hi
    have hlen := s.g.kill_length (K :: t) (cause K)
    unfold LanesKilled Killed SlicesAre
    rw [List.headD_cons, hg]
    refine ⟨rfl, ⟨hlen, fun i hi => ?_⟩, fun L hL => ?_, fun i hi hi8 k hk => ?_, ?_⟩
    · dsimp only
      rw [hslice i hi]
      split <;> rfl
    · rw [heq, BitVec.getLsbD_or, Bool.or_eq_true, getLsbD_laneMask hl hL]
    · rw [hslice i hi, if_pos ((mem_upto 8 i).mpr hi8), getLsbD_without_active hl hi8 hk]
    · rw [heq]
      simp

theorem LanesKilled.group {s t : State} {lanes : List Nat} {cause : Nat → Nat} (h : LanesKilled s t lanes cause) : t.group = s.group := by
  obtain ⟨ht, hsl, -⟩ := h
  exact State.group_congr (congrArg State.snap ht :) (congrArg State.sel ht :) (congrArg (fun t : State => t.g.live) ht :)
    (hsl.keeps Slice.grp fun _ => rfl)

/-- What is killed is told by the active lanes and the record of them. -/
theorem Killed.congr {s u t : State} {lanes : List Nat} {cause : Nat → Nat} (h : Killed s u lanes cause) (hk : t.g.killed = u.g.killed)
    (hc : t.g.killCause = u.g.killCause) (ha : ∀ i < s.g.slices.length, (t.g.slice i).active = (u.g.slice i).active) :
    Killed s t lanes cause := by
  obtain ⟨hrec, hact, hcause⟩ := h
  exact ⟨fun L hL => hk ▸ hrec L hL, fun i hi hi8 k hk4 => ha i hi ▸ hact i hi hi8 k hk4, hc.trans hcause⟩

/-! ## A word launched -/

/-- A slice when a word has opened its flag, or is awaited, in the issuing group (R56, R58). -/
def State.opened (s : State) (flag look id i : Nat) (sl : Slice) : Slice :=
  { sl with
    flags := if i ∈ s.group ∧ flag < 12 then sl.flags ++ [{ flag := flag, op := id, win := look + s.iss.idx + 1 }] else sl.flags
    sync := if i ∈ s.group ∧ 12 ≤ flag then sl.sync ++ [id] else sl.sync }

theorem State.openFlag_eq (s : State) (flag look id : Nat) : ∃ T, s.openFlag flag look id = { s with g := { s.g with slices := T } }
    ∧ T.length = s.g.slices.length ∧ ∀ i < s.g.slices.length, nth {} T i = s.opened flag look id i (s.g.slice i) := by
  have key : SlicesOnly s (s.openFlag flag look id) fun i => s.opened flag look id i (s.g.slice i) := by
    by_cases hf : flag < 12
    · rw [State.openFlag, if_pos hf]
      convert slicesOnly_modSlices s s.group s.group_nodup _ using 1
      funext i
      by_cases hi : i ∈ s.group <;> simp [State.opened, hi, hf, Nat.not_le.mpr hf]
    · rw [State.openFlag, if_neg hf, State.awaitWords]
      convert slicesOnly_modSlices s s.group s.group_nodup _ using 1
      funext i
      by_cases hi : i ∈ s.group <;> simp [State.opened, hi, hf, Nat.not_lt.mp hf]
  exact ⟨_, key.1, key.2.1, key.2.2⟩

/-- What a slice is when a word has opened its flag, told from what it was before lanes were killed. -/
theorem State.opened_of_killed {s : State} {flag look id i : Nat} {x y z : Slice} (hy : y = { x with active := y.active, stack := y.stack })
    (hz : z = s.opened flag look id i y) : z = { s.opened flag look id i x with active := z.active, stack := z.stack } := by
  obtain ⟨a, st, rfl⟩ : ∃ a st, y = { x with active := a, stack := st } := ⟨_, _, hy⟩
  subst hz
  rfl

/-- A word enters the outstanding words: its step is to come (R311). -/
theorem State.launchFlight_eq (s : State) (fl : Flight) : ∃ A,
    s.launchFlight fl = { s with g := { s.g with flights := s.g.flights ++ [fl] }, next := s.next + 1, agenda := A }
      ∧ fl.event s.g.uid ∈ A ∧ ∀ i ∈ s.agenda, i ∈ A :=
  State.later_adds { s with g := { s.g with flights := s.g.flights ++ [fl] }, next := s.next + 1 } (fl.event s.g.uid)

theorem State.launched_launchFlight (s : State) (fl : Flight) :
    Launched s (s.launchFlight fl) fl 1 s.g ∧ (s.launchFlight fl).g.slices = s.g.slices := by
  obtain ⟨A, hA, hin, hold⟩ := s.launchFlight_eq fl
  rw [hA]
  exact ⟨⟨rfl, hin, hold⟩, rfl⟩

/-- A word that is counted in a class, opens its flag and enters the outstanding words, some of its lanes having been killed
(R56, R180, R198, R311). -/
theorem LanesKilled.launch {s u : State} {lanes : List Nat} {cause : Nat → Nat} (h : LanesKilled s u lanes cause) (cls flag look : Nat)
    (fl : Flight) :
    let t := ((u.addK cls .plain).openFlag flag look (s.next + 1)).launchFlight fl
    Launched s t fl 2 { s.g with kops := s.g.kops ++ [{ id := s.next, cls := cls }] } ∧ FlagOpened s t flag look (s.next + 1)
      ∧ Killed s t lanes cause := by
  have hgroup : (u.addK cls .plain).group = s.group := (u.addK_group cls .plain).trans h.group
  obtain ⟨T, hT, hlen, hopen⟩ := (u.addK cls .plain).openFlag_eq flag look (s.next + 1)
  obtain ⟨hu, ⟨hulen, hukept⟩, hkill⟩ := h
  obtain ⟨S, K, C, F, P, rfl⟩ : ∃ S K C F P, u = { s with
    g := { s.g with slices := S, killed := K, killCause := C, frame := F }, c := { s.c with perfCnt := P } } := ⟨_, _, _, _, _, hu⟩
  have hslice (i : Nat) (hi : i < s.g.slices.length) : nth {} T i = s.opened flag look (s.next + 1) i (nth {} S i) := by
    rw [hopen i (hulen ▸ hi), State.opened, hgroup]
    rfl
  rw [hT]
  obtain ⟨A, hA, hin, hold⟩ := State.launchFlight_eq _ fl
  rw [hA]
  exact ⟨⟨rfl, hin, hold⟩, ⟨hlen.trans hulen, fun i hi => State.opened_of_killed (hukept i hi) (hslice i hi)⟩,
    hkill.congr rfl rfl fun i hi => (congrArg Slice.active (hslice i hi) :)⟩

end Sys2Proof.Machine
end

section
/-! PROOFS. Lanes of a no-return ATOM enter the posted-atomic buffer (R210). -/

namespace Sys2Proof.Machine

open Sys2Proof

/-! ## Entries -/

/-- The entry that a lane of a no-return ATOM makes at a place and a leaf. -/
def State.entry (s : State) (f : Flight) (ctx : Nat) (xl : Nat → Nat × Nat) (L : Nat) : Posted :=
  { id := s.next, word := f.id, lane := L, gang := s.g.uid, block := s.b.uid, die := s.b.die, core := s.b.core, op := f.op
    addr := Store.get 0 f.addr L, phys := (xl L).1, leaf := (xl L).2, data := Store.get 0 f.data L, ctx := ctx, task := s.g.task, late := f.late }

/-- One lane posted. -/
def State.postLane (f : Flight) (ctx : Nat) (xl : Nat → Nat × Nat) (s : State) (L : Nat) : State :=
  State.later { s with posted := s.posted ++ [s.entry f ctx xl L], next := s.next + 1 } (.postedAtomicPerform s.next)

theorem State.post_eq (s : State) (f : Flight) (xl : Nat → Nat × Nat) :
    s.post f xl = ((maskLanes f.remain).foldl (State.postLane f (s.ctxOf s.b) xl) s).spill := rfl

/-- Lanes posted one by one: an entry each, in their order, and its step to come. -/
theorem State.foldl_postLane (f : Flight) (ctx : Nat) (xl : Nat → Nat × Nat) (l : List Nat) (s : State) : ∃ N k A,
    l.foldl (State.postLane f ctx xl) s = { s with posted := s.posted ++ N, next := k, agenda := A } ∧ N.map Posted.lane = l
      ∧ (∀ q ∈ N, q = { s.entry f ctx xl q.lane with id := q.id } ∧ Instr.postedAtomicPerform q.id ∈ A)
      ∧ ∀ i ∈ s.agenda, i ∈ A := by
  induction l generalizing s with
  | nil => exact ⟨[], s.next, s.agenda, by simp, rfl, by simp, fun _ h => h⟩
  | cons L t ih =>
    obtain ⟨B, hB, hin, hold⟩ := State.later_adds { s with posted := s.posted ++ [s.entry f ctx xl L], next := s.next + 1 }
      (.postedAtomicPerform s.next)
    obtain ⟨N, k, A, hA, hlanes, hN, hkept⟩ := ih (State.postLane f ctx xl s L)
    rw [State.postLane, hB] at hA hN hkept
    refine ⟨s.entry f ctx xl L :: N, k, A, ?_, congrArg _ hlanes, fun q hq => ?_, fun i hi => hkept i (hold i hi)⟩
    · rw [List.foldl_cons, State.postLane, hB, hA]
      simp
    · rcases List.mem_cons.mp hq with rfl | hq
      · exact ⟨rfl, hkept _ hin⟩
      · exact hN q hq

/-! ## Spilling -/

/-- An entry but for where it stands: in the buffer, or in the overflow area. -/
def Posted.unplaced (p : Posted) : Posted := { p with slot := none }

theorem State.spillOne_frame (s : State) (p : Posted) : ∃ P M, s.spillOne p = { s with posted := P, mem := M }
    ∧ P.map Posted.unplaced = s.posted.map Posted.unplaced := by
  refine ⟨_, _, rfl, ?_⟩
  rw [List.map_map]
  refine List.map_congr_left fun q _ => ?_
  dsimp only [Function.comp]
  split <;> rfl

theorem State.foldl_spillOne_frame (l : List Posted) (s : State) : ∃ P M, l.foldl State.spillOne s = { s with posted := P, mem := M }
    ∧ P.map Posted.unplaced = s.posted.map Posted.unplaced := by
  induction l generalizing s with
  | nil => exact ⟨s.posted, s.mem, rfl, rfl⟩
  | cons p t ih =>
    obtain ⟨P, M, h, hP⟩ := s.spillOne_frame p
    obtain ⟨P', M', h', hP'⟩ := ih (s.spillOne p)
    rw [h] at h' hP'
    exact ⟨P', M', by rw [List.foldl_cons, h, h'], hP'.trans hP⟩

/-- Entries that spill change their place alone, and none spills from a buffer that is not over its size (R210). -/
theorem State.spill_frame (s : State) : ∃ P M C, s.spill = { s with posted := P, mem := M, c := C }
    ∧ P.map Posted.unplaced = s.posted.map Posted.unplaced ∧ (s.postedIn s.b.die s.b.core ≤ 4096 → M = s.mem) := by
  unfold State.spill
  dsimp only
  split
  next => exact ⟨s.posted, s.mem, s.c, rfl, rfl, fun _ => rfl⟩
  next h =>
    obtain ⟨P, M, hf, hP⟩ := State.foldl_spillOne_frame
      ((s.posted.filter fun p => p.die == s.b.die && p.core == s.b.core && p.slot.isNone).take (s.postedIn s.b.die s.b.core - 4096)) s
    rw [hf]
    exact ⟨P, M, _, rfl, hP, fun hle => absurd (Nat.sub_eq_zero_of_le hle) h⟩

/-! ## A word posted -/

/-- Entries for the core of the block in focus count towards its buffer. -/
theorem postedIn_append {s t : State} {f : Flight} {ctx : Nat} {xl : Nat → Nat × Nat} {N : List Posted} (hp : t.posted = s.posted ++ N)
    (hN : ∀ q ∈ N, q = { s.entry f ctx xl q.lane with id := q.id }) :
    t.postedIn s.b.die s.b.core = s.postedIn s.b.die s.b.core + N.length := by
  have hall : (N.filter fun p => p.die == s.b.die && p.core == s.b.core && p.slot.isNone) = N := by
    refine List.filter_eq_self.mpr fun q hq => ?_
    rw [hN q hq]
    simp [State.entry]
  rw [State.postedIn, hp, List.filter_append, List.length_append, hall, State.postedIn]

/-- Lanes posted: the entries that were there keep all but their places, the new ones follow in the order of their lanes with
their steps to come, and memory changes only where entries spill (R210). -/
theorem State.post_spec (s : State) (f : Flight) (xl : Nat → Nat × Nat) : ∃ old new, (s.post f xl).posted = old ++ new
    ∧ old.map Posted.unplaced = s.posted.map Posted.unplaced ∧ new.map Posted.lane = maskLanes f.remain
    ∧ (∀ q ∈ new, q.unplaced = { s.entry f (s.ctxOf s.b) xl q.lane with id := q.id }
      ∧ Instr.postedAtomicPerform q.id ∈ (s.post f xl).agenda)
    ∧ (s.postedIn s.b.die s.b.core + (maskLanes f.remain).length ≤ 4096 → (s.post f xl).mem = s.mem) ∧ (s.post f xl).g = s.g := by
  obtain ⟨N, k, A, hN, hlanes, hentry, -⟩ := State.foldl_postLane f (s.ctxOf s.b) xl (maskLanes f.remain) s
  obtain ⟨P, M, C, hP, hplaces, hmem⟩ := State.spill_frame { s with posted := s.posted ++ N, next := k, agenda := A }
  rw [State.post_eq, hN, hP]
  rw [List.map_append] at hplaces
  obtain ⟨old, new, rfl, hold, hnew⟩ := List.map_eq_append_iff.mp hplaces
  have hlane (l : List Posted) : l.map Posted.lane = (l.map Posted.unplaced).map Posted.lane := by rw [List.map_map]; rfl
  refine ⟨old, new, rfl, hold, ?_, fun q hq => ?_, fun hle => hmem ?_, rfl⟩
  · rw [hlane, hnew, ← hlane, hlanes]
  · obtain ⟨q', hq', he⟩ := List.mem_map.mp (hnew ▸ List.mem_map_of_mem hq : q.unplaced ∈ N.map Posted.unplaced)
    have hid : q'.id = q.id := (congrArg Posted.id he :)
    have hl : q'.lane = q.lane := (congrArg Posted.lane he :)
    obtain ⟨heq, hin⟩ := hentry q' hq'
    rw [hid, hl] at heq
    refine ⟨he.symm.trans ?_, hid ▸ hin⟩
    rw [heq]
    rfl
  · rw [← hlanes, List.length_map] at hle
    exact (postedIn_append rfl fun q hq => (hentry q hq).1).trans_le hle

end Sys2Proof.Machine
end

section
/-! PROOFS. GST and ATOM at issue, a step at a time (R186, R198, R207, R210). -/

namespace Sys2Proof.Machine

open Sys2Proof

theorem State.addK_val64 (s : State) (cls : Nat) (work : KWork) (r L : Nat) : (s.addK cls work).src.val64 r L = s.src.val64 r L := by
  unfold State.src State.addK
  cases s.snap <;> rfl

theorem State.addK_valN (s : State) (cls : Nat) (work : KWork) (n r L : Nat) : (s.addK cls work).src.valN n r L = s.src.valN n r L := by
  unfold State.src State.addK
  cases s.snap <;> rfl

/-! ## GST -/

/-- What GST does. -/
def gstOp (d : BitVec 6) (z : BitVec 2) : MemOp := { kind := .gst, space := .g, size := 4 * 2 ^ z.toNat, reg := d.toNat }

/-- The word in flight of a GST, captured once its operation is counted. -/
def gstFlight (s : State) (d : BitVec 6) (a : BitVec 5) (f l : BitVec 4) (z : BitVec 2) : Flight :=
  let t := s.addK 1 .plain
  { t.newFlight (gstOp d z) (wordOf t (.gst false d a f l z)) f.toNat s.lanes with
    addr := s.lanes.map fun L => (L, t.src.val64 (2 * a.toNat) L)
    place := s.lanes.map fun L => (L, atVa (t.src.val64 (2 * a.toNat) L).toNat)
    data := s.lanes.map fun L => (L, t.src.valN (2 ^ z.toNat) d.toNat L)
    kid := some s.next, walked := s.lanes.isEmpty }

theorem captured_gstFlight (s : State) (d : BitVec 6) (a : BitVec 5) (f l : BitVec 4) (z : BitVec 2) :
    Captured s (gstFlight s d a f l z) (s.next + 1) (gstOp d z) f.toNat s.lanes := by
  obtain ⟨-, -, -, hslice, -, -, hlanes, -⟩ := captured_newFlight (s.addK 1 .plain) (gstOp d z) 0 f.toNat s.lanes_lt
  exact ⟨rfl, rfl, rfl, hslice.trans (congrArg (List.headD · 0) (s.addK_group 1 .plain)), rfl, rfl, hlanes, rfl⟩

section
variable {s : State} {d : BitVec 6} {a : BitVec 5} {f l : BitVec 4} {z : BitVec 2} (c : Bool)

theorem exec_gst_held (h : s.gstHold f.toNat = true) : exec (.gst c d a f l z) s = .next s.hold := congrArg _ (if_pos h)

theorem exec_gst_free (h : s.gstHold f.toNat = false) : exec (.gst c d a f l z) s =
    .next (s.withRegs [(2 ^ z.toNat, d.toNat), (2, 2 * a.toNat)] fun s => match s.badVa (2 * a.toNat) (4 * 2 ^ z.toNat) with
    | some L => s.fault 6 0 (s.src.val64 (2 * a.toNat) L)
    | none => ((s.addK 1 .plain).openFlag f.toNat l.toNat (s.next + 1)).launchFlight (gstFlight s d a f l z)) :=
  congrArg _ (if_neg (Bool.eq_false_iff.mp h))

end

/-! ## ATOM -/

/-- The address of a lane of an ATOM (R207). -/
def State.atomVa (s : State) (op : MemOp) (a L : Nat) : DWord :=
  if op.space == .g then s.src.val64 a L else (s.src.val a L).setWidth 64

/-- The cause for which an ATOM kills a lane, 0 for none (R180, R207). -/
def State.atomCause (s : State) (op : MemOp) (a L : Nat) : Nat :=
  if op.space == .g then 0 else s.laneFault .s 3 false L (s.atomVa op a L).toNat op.size

/-- The lanes that an ATOM performs, and those that it kills. -/
def State.atomGood (s : State) (op : MemOp) (a : Nat) : List Nat := s.lanes.filter fun L => s.atomCause op a L == 0
def State.atomBad (s : State) (op : MemOp) (a : Nat) : List Nat := s.lanes.filter fun L => s.atomCause op a L != 0

/-- The word in flight of an ATOM. -/
def State.atomFlight (s : State) (op : MemOp) (word : Word) (n d a flag : Nat) : Flight :=
  let good := s.atomGood op a
  { s.newFlight op word flag good with
    addr := good.map fun L => (L, s.atomVa op a L)
    place := good.map fun L => (L, if op.space == .g then atVa (s.atomVa op a L).toNat
      else (s.spadAt s.g s.b .s 3 L (s.atomVa op a L).toNat op.size).getD 0)
    data := good.map fun L => (L, s.src.valN n d L)
    casv := if op.aop = 10 then good.map fun L => (L, s.src.valN n (d + n) L) else []
    walked := !(op.space == .g) || good.isEmpty }

/-- The state when an ATOM has killed the lanes that fail their checks. -/
def State.atomKilled (s : State) (op : MemOp) (a : Nat) : State :=
  s.killLanes (s.atomBad op a) (s.atomCause op a ((s.atomBad op a).headD 0))

theorem State.issueAtom_eq (s : State) (op : MemOp) (word : Word) (n d a flag : Nat) : s.issueAtom op word n d a flag =
    let fl := s.atomFlight op word n d a flag
    let u := s.atomKilled op a
    if op.ret then ((u.addK 2 .plain).openFlag flag 15 (u.next + 1)).launchFlight { fl with id := u.next + 1, kid := some u.next }
    else if op.space == .g then (if (s.atomGood op a).isEmpty then u else u.launchFlight fl)
    else State.post { u with next := u.next + 1 } fl fun L => (Store.get 0 fl.place L, 0) := rfl

theorem State.lanesKilled_atomKilled (s : State) (op : MemOp) (a : Nat) : LanesKilled s (s.atomKilled op a) (s.atomBad op a) (s.atomCause op a) :=
  s.lanesKilled_killLanes (fun L hL => s.lanes_lt L (List.mem_filter.mp hL).1) _

theorem State.captured_atomFlight (s : State) (op : MemOp) (word : Word) (n d a flag : Nat) :
    Captured s (s.atomFlight op word n d a flag) s.next op flag (s.atomGood op a) :=
  captured_newFlight s op word flag fun L hL => s.lanes_lt L (List.mem_filter.mp hL).1

/-- The operands of the lanes that an ATOM performs are captured at issue (R207, R332). -/
def State.AtomTaken (s : State) (op : MemOp) (n d a : Nat) (fl : Flight) : Prop :=
  ∀ L ∈ s.lanes, s.atomCause op a L = 0 → Store.get 0 fl.addr L = s.atomVa op a L ∧ Store.get 0 fl.data L = s.src.valN n d L
    ∧ (op.aop = 10 → Store.get 0 fl.casv L = s.src.valN n (d + n) L)

theorem State.atomTaken_atomFlight (s : State) (op : MemOp) (word : Word) (n d a flag : Nat) :
    s.AtomTaken op n d a (s.atomFlight op word n d a flag) := by
  intro L hL hc
  have hgood : L ∈ s.atomGood op a := List.mem_filter.mpr ⟨hL, beq_iff_eq.mpr hc⟩
  refine ⟨Store.get_map 0 _ hgood, Store.get_map 0 _ hgood, fun h10 => ?_⟩
  rw [State.atomFlight, if_pos h10]
  exact Store.get_map 0 _ hgood

/-- A returning ATOM: counted in k2, captured and launched (R198, R207). -/
theorem State.issueAtom_ret {s : State} {op : MemOp} (hret : op.ret = true) (word : Word) (n d a flag : Nat) :
    let t := s.issueAtom op word n d a flag
    ∃ fl, Captured s fl (s.next + 1) op flag (s.atomGood op a) ∧ fl.kid = some s.next ∧ s.AtomTaken op n d a fl
      ∧ Launched s t fl 2 { s.g with kops := s.g.kops ++ [{ id := s.next, cls := 2 }] } ∧ FlagOpened s t flag 15 (s.next + 1)
      ∧ Killed s t (s.atomBad op a) (s.atomCause op a) := by
  have hk := s.lanesKilled_atomKilled op a
  have hnext : (s.atomKilled op a).next = s.next := (congrArg State.next hk.1 :)
  obtain ⟨-, hcap⟩ := s.captured_atomFlight op word n d a flag
  rw [State.issueAtom_eq]
  dsimp only
  rw [if_pos hret, hnext]
  exact ⟨{ s.atomFlight op word n d a flag with id := s.next + 1, kid := some s.next }, ⟨rfl, hcap⟩, rfl,
    s.atomTaken_atomFlight op word n d a flag, hk.launch 2 flag 15 _⟩

/-- No lane of an ATOM of G is killed at issue (R207). -/
theorem State.atomGood_global (s : State) {op : MemOp} (hg : op.space = .g) (a : Nat) : s.atomGood op a = s.lanes := by
  simp [State.atomGood, State.atomCause, hg]

theorem State.atomKilled_global (s : State) {op : MemOp} (hg : op.space = .g) (a : Nat) : s.atomKilled op a = s := by
  have hbad : s.atomBad op a = [] := by simp [State.atomBad, State.atomCause, hg]
  rw [State.atomKilled, hbad]
  rfl

/-- A no-return ATOM of G is launched, unless it has no lane (R210). -/
theorem State.issueAtom_global {s : State} {op : MemOp} (hret : op.ret = false) (hg : op.space = .g) (word : Word) (n d a flag : Nat) :
    s.issueAtom op word n d a flag = if s.lanes.isEmpty then s else s.launchFlight (s.atomFlight op word n d a flag) := by
  rw [State.issueAtom_eq]
  simp only [hret, hg, s.atomGood_global hg, s.atomKilled_global hg, Bool.false_eq_true, if_false, beq_self_eq_true, if_true]

theorem State.spadAt_of_laneFault {s : State} {sp : Space} {perm : Nat} {waits : Bool} {L x size : Nat}
    (h : s.laneFault sp perm waits L x size = 0) : s.spadAt s.g s.b sp perm L x size = some ((s.spadAt s.g s.b sp perm L x size).getD 0) := by
  unfold State.laneFault at h
  split at h
  · exact absurd h (by decide)
  · simp [*]

/-- The place of a lane that an ATOM of S performs. -/
theorem State.spadAt_atomFlight (s : State) {op : MemOp} (hs : op.space = .s) (word : Word) (n d flag : Nat) {a L : Nat} (hL : L ∈ s.lanes)
    (hc : s.atomCause op a L = 0) : s.spadAt s.g s.b .s 3 L (s.atomVa op a L).toNat op.size
      = some (Store.get 0 (s.atomFlight op word n d a flag).place L) := by
  have hgood : L ∈ s.atomGood op a := List.mem_filter.mpr ⟨hL, beq_iff_eq.mpr hc⟩
  rw [State.atomCause, hs] at hc
  rw [State.atomFlight, hs, Store.get_map 0 _ hgood]
  exact State.spadAt_of_laneFault hc

/-- A no-return ATOM of S is posted at once, a lane an entry (R210). -/
theorem State.issueAtom_posted {s : State} {op : MemOp} (hret : op.ret = false) (hs : op.space = .s) (word : Word) (n d a flag : Nat) :
    let t := s.issueAtom op word n d a flag
    ∃ new old, t.posted = old ++ new ∧ old.map Posted.id = s.posted.map Posted.id ∧ old.map Posted.lane = s.posted.map Posted.lane
      ∧ new.map Posted.lane = s.atomGood op a
      ∧ (∀ q ∈ new, s.spadAt s.g s.b .s 3 q.lane (s.atomVa op a q.lane).toNat op.size = some q.phys ∧ q.data = s.src.valN n d q.lane
          ∧ q.addr = s.atomVa op a q.lane ∧ q.op = op ∧ q.gang = s.g.uid ∧ q.block = s.b.uid ∧ q.leaf = 0
          ∧ Instr.postedAtomicPerform q.id ∈ t.agenda)
      ∧ (s.postedIn s.b.die s.b.core + (s.atomGood op a).length ≤ 4096 → t.mem = s.mem) ∧ t.g.flights = s.g.flights
      ∧ Killed s t (s.atomBad op a) (s.atomCause op a) := by
  obtain ⟨hu, -, hkill⟩ := s.lanesKilled_atomKilled op a
  have hflanes : maskLanes (s.atomFlight op word n d a flag).remain = s.atomGood op a := s.maskLanes_filter _
  have hissue : s.issueAtom op word n d a flag = State.post { s.atomKilled op a with next := (s.atomKilled op a).next + 1 }
      (s.atomFlight op word n d a flag) fun L => (Store.get 0 (s.atomFlight op word n d a flag).place L, 0) := by
    rw [State.issueAtom_eq]
    simp only [hret, hs, Bool.false_eq_true, if_false, show (Space.s == Space.g) = false from rfl]
  dsimp only
  rw [hissue]
  generalize s.atomKilled op a = u at hu hkill
  obtain ⟨old, new, hposted, hold, hnew, hentry, hmem, hg⟩ := State.post_spec { u with next := u.next + 1 }
    (s.atomFlight op word n d a flag) fun L => (Store.get 0 (s.atomFlight op word n d a flag).place L, 0)
  generalize State.post { u with next := u.next + 1 } _ _ = t at hposted hentry hmem hg
  obtain ⟨S, K, C, F, P, rfl⟩ : ∃ S K C F P, u = { s with
    g := { s.g with slices := S, killed := K, killCause := C, frame := F }, c := { s.c with perfCnt := P } } := ⟨_, _, _, _, _, hu⟩
  rw [hflanes] at hnew hmem
  have hkept {α : Type} (p : Posted → α) (hp : ∀ q, p q.unplaced = p q) : old.map p = s.posted.map p := by
    have h : (old.map Posted.unplaced).map p = (s.posted.map Posted.unplaced).map p := congrArg _ hold
    simpa only [List.map_map, Function.comp_def, hp] using h
  refine ⟨new, old, hposted, hkept _ fun _ => rfl, hkept _ fun _ => rfl, hnew, fun q hq => ?_, hmem, by rw [hg], ?_⟩
  · obtain ⟨hL, hc⟩ := List.mem_filter.mp (hnew ▸ List.mem_map_of_mem hq : q.lane ∈ s.atomGood op a)
    obtain ⟨haddr, hdata, -⟩ := s.atomTaken_atomFlight op word n d a flag q.lane hL (beq_iff_eq.mp hc)
    obtain ⟨he, hstep⟩ := hentry q hq
    have hfield {α : Type} (p : Posted → α) (hp : ∀ q, p q.unplaced = p q) := (hp q).symm.trans (congrArg p he)
    exact ⟨(s.spadAt_atomFlight hs word n d flag hL (beq_iff_eq.mp hc)).trans (congrArg some (hfield Posted.phys fun _ => rfl).symm),
      (hfield Posted.data fun _ => rfl).trans hdata, (hfield Posted.addr fun _ => rfl).trans haddr, hfield Posted.op fun _ => rfl,
      hfield Posted.gang fun _ => rfl, hfield Posted.block fun _ => rfl, hfield Posted.leaf fun _ => rfl, hstep⟩
  · exact hkill.congr (by rw [hg]) (by rw [hg]) fun i _ => by rw [hg]

/-! ## ATOM from its checks on -/

/-- What ATOM does, and the operands it reads. -/
def atomOp (d : BitVec 6) (ty : BitVec 3) (o : BitVec 4) (p : BitVec 1) (f : BitVec 4) : MemOp :=
  { kind := .atom, space := if p = 1 then .g else .s, size := 4 * atomRegs ty.toNat, reg := d.toNat, aop := o.toNat, aty := ty.toNat
    ret := f != 15 }

def atomOperands (d a : BitVec 6) (ty : BitVec 3) (o : BitVec 4) (p : BitVec 1) : List (Nat × Nat) :=
  ((if p = 1 then 2 else 1), a.toNat) :: (if o = 10 then [(atomRegs ty.toNat, d.toNat + atomRegs ty.toNat)] else [])

theorem atomOp_global {p : BitVec 1} (d : BitVec 6) (ty : BitVec 3) (o f : BitVec 4) : ((atomOp d ty o p f).space == .g) = true ↔ p = 1 := by
  by_cases hp : p = 1
  · exact iff_of_true (by rw [atomOp, if_pos hp]; rfl) hp
  · exact iff_of_false (by rw [atomOp, if_neg hp]; exact Bool.false_ne_true) hp

/-- The operands of an ATOM are good (R46, R72, R75). -/
def State.AtomAllowed (s : State) (d a : BitVec 6) (ty : BitVec 3) (o : BitVec 4) (p : BitVec 1) (f : BitVec 4) : Prop :=
  if f ≠ 15 then Writable s (atomRegs ty.toNat) d.toNat (atomOperands d a ty o p)
  else Readable s ((atomRegs ty.toNat, d.toNat) :: atomOperands d a ty o p)

section
variable {s : State} {d a : BitVec 6} {ty : BitVec 3} {o : BitVec 4} {p : BitVec 1} {f : BitVec 4} (c : Bool)

theorem exec_atom_held (h : s.atomHold f.toNat = true) : exec (.atom c d a ty o p f) s = .next s.hold := congrArg _ (if_pos h)

/-- The operands of an ATOM are checked before it goes on (R46, R72, R75). -/
theorem State.atomChecked (go : State → State) :
    let ops := atomOperands d a ty o p
    let t := if f != 15 then s.withDest (atomRegs ty.toNat, d.toNat) ops go else s.withRegs ((atomRegs ty.toNat, d.toNat) :: ops) go
    (s.AtomAllowed d a ty o p f → t = go s) ∧ (¬s.AtomAllowed d a ty o p f → t = s.fault 3 0 0) := by
  by_cases hf : f = 15
  · simp only [State.AtomAllowed, hf, bne_self_eq_false, ne_eq, not_true_eq_false, Bool.false_eq_true, if_false]
    exact ⟨(State.withRegs_ok · go), (State.withRegs_bad · go)⟩
  · simp only [State.AtomAllowed, bne_iff_ne.mpr hf, ne_eq, hf, not_false_eq_true, if_true]
    exact ⟨(State.withDest_ok · go), (State.withDest_bad · go)⟩

theorem exec_atom_opr (h : s.atomHold f.toNat = false) (ha : ¬s.AtomAllowed d a ty o p f) : Opr (.atom c d a ty o p f) s :=
  congrArg _ ((if_neg (Bool.eq_false_iff.mp h)).trans ((State.atomChecked _).2 ha))

theorem exec_atom_allowed (h : s.atomHold f.toNat = false) (ha : s.AtomAllowed d a ty o p f) : exec (.atom c d a ty o p f) s = .next
    (match (if p = 1 then s.badVa a.toNat (4 * atomRegs ty.toNat) else none) with
    | some L => s.fault 6 0 (s.src.val64 a.toNat L)
    | none => s.issueAtom (atomOp d ty o p f) (wordOf s (.atom false d a ty o p f)) (atomRegs ty.toNat) d.toNat a.toNat f.toNat) :=
  congrArg _ ((if_neg (Bool.eq_false_iff.mp h)).trans ((State.atomChecked _).1 ha))

/-- An ATOM of G with an address that is not good takes XLT at its lowest such lane (R207). -/
theorem exec_atom_xlt (h : s.atomHold f.toNat = false) (ha : s.AtomAllowed d a ty o p f) (hp : p = 1) {L : Nat}
    (hL : s.badVa a.toNat (4 * atomRegs ty.toNat) = some L) :
    exec (.atom c d a ty o p f) s = .next (s.fault 6 0 (s.src.val64 a.toNat L)) := by
  rw [exec_atom_allowed c h ha, if_pos hp, hL]

theorem exec_atom_issue (h : s.atomHold f.toNat = false) (ha : s.AtomAllowed d a ty o p f)
    (hv : p = 1 → s.badVa a.toNat (4 * atomRegs ty.toNat) = none) : exec (.atom c d a ty o p f) s = .next
      (s.issueAtom (atomOp d ty o p f) (wordOf s (.atom false d a ty o p f)) (atomRegs ty.toNat) d.toNat a.toNat f.toNat) := by
  have hnone : (if p = 1 then s.badVa a.toNat (4 * atomRegs ty.toNat) else none) = none := by
    split
    next hp => exact hv hp
    next => rfl
  rw [exec_atom_allowed c h ha, hnone]

end

/-- Settles O25: the checks in order, then a GST or a returning ATOM by `LanesKilled.launch`, a no-return ATOM of S by
`State.issueAtom_posted`. -/
theorem globalWords : Obligations.GlobalWords := by
  intro s c d a pa f l z ty o p below bad lowestBad counted
  refine ⟨?_, ?_⟩
  · intro n w ops hz
    refine ⟨fun h => exec_gst_held c ?_, fun hl hk => ⟨fun hr => ?_, fun hr L hL => ?_, fun hr hok => ?_⟩⟩
    · exact Bool.of_not_eq_false fun hh => h (State.gstHold_iff.mp hh)
    all_goals have hx := exec_gst_free (d := d) (a := pa) (l := l) (z := z) c (State.gstHold_iff.mpr ⟨hl, hk⟩)
    · exact hx.trans (congrArg _ (State.withRegs_bad hr _))
    · obtain ⟨hin, hbad, hlow⟩ := hL
      rw [State.withRegs_ok hr, State.badVa_lowest hin hbad hlow] at hx
      exact hx
    · rw [State.withRegs_ok hr, State.badVa_none hok] at hx
      refine ⟨_, gstFlight s d pa f l z, hx, captured_gstFlight s d pa f l z, rfl, fun L hL => ⟨?_, ?_⟩,
        (LanesKilled.refl s fun _ => 0).launch 1 f.toNat l.toNat (gstFlight s d pa f l z)⟩
      · exact (Store.get_map 0 _ hL).trans (s.addK_val64 1 .plain _ L)
      · exact (Store.get_map 0 _ hL).trans (s.addK_valN 1 .plain _ _ L)
  · intro n w ret gl ops allowed va place cause op taken good room
    have hspace := atomOp_global (p := p) d ty o f
    have hva (L : Nat) : s.atomVa (atomOp d ty o p f) a.toNat L = va L := if_congr hspace rfl rfl
    have hcause (L : Nat) : s.atomCause (atomOp d ty o p f) a.toNat L = cause L := by
      rw [State.atomCause, hva]
      exact if_congr hspace rfl rfl
    have hgood : s.atomGood (atomOp d ty o p f) a.toNat = good := by
      refine List.filter_congr fun L _ => ?_
      rw [hcause]
      rfl
    have hbad : s.atomBad (atomOp d ty o p f) a.toNat = s.lanes.filter fun L => cause L ≠ 0 := by
      refine List.filter_congr fun L _ => ?_
      rw [hcause, decide_not]
      rfl
    have hf15 : f.toNat ≠ 15 ↔ ret := not_congr ⟨fun h => BitVec.eq_of_toNat_eq h, congrArg BitVec.toNat⟩
    have hroom : s.atomHold f.toNat = false ↔ room :=
      State.atomHold_iff.trans (and_congr_right fun _ => iff_of_eq (if_congr hf15 rfl rfl))
    have htaken {fl : Flight} (h : s.AtomTaken (atomOp d ty o p f) n d.toNat a.toNat fl) : taken fl := by
      intro L hL hc
      obtain ⟨haddr, hdata, hcas⟩ := h L hL ((hcause L).trans hc)
      exact ⟨haddr.trans (hva L), hdata, fun ho => hcas (congrArg BitVec.toNat ho)⟩
    refine ⟨fun h => exec_atom_held c (Bool.of_not_eq_false (mt hroom.mp h)),
      fun h => ⟨fun ha => ?_, fun ha hp L hL => ?_, fun ha hv => ?_⟩⟩
    all_goals have hfree := hroom.mpr h
    · exact exec_atom_opr c hfree ha
    · obtain ⟨hin, hb, hlow⟩ := hL
      exact exec_atom_xlt c hfree ha hp (State.badVa_lowest hin hb hlow)
    · have hx := exec_atom_issue c hfree ha fun hp => State.badVa_none (hv hp)
      have hret (hn : ¬ret) : (atomOp d ty o p f).ret = false := bne_eq_false_iff_eq.mpr (not_not.mp hn)
      rw [← hgood, ← hbad, ← funext hcause]
      refine ⟨fun hr => ?_, fun hr hp hl => ?_, fun hr hp hl => ?_, fun hr hp => ?_⟩
      · obtain ⟨fl, hcap, hkid, htk, hlaunch⟩ := State.issueAtom_ret (s := s) (op := atomOp d ty o p f) (bne_iff_ne.mpr hr)
          (wordOf s (.atom false d a ty o p f)) n d.toNat a.toNat f.toNat
        exact ⟨_, fl, hx, hcap, hkid, htaken htk, hlaunch⟩
      · rw [State.issueAtom_global (hret hr) (if_pos hp), if_pos (List.isEmpty_iff.mpr hl)] at hx
        exact hx
      · rw [State.issueAtom_global (hret hr) (if_pos hp), if_neg (mt List.isEmpty_iff.mp hl)] at hx
        exact ⟨_, _, hx, s.captured_atomFlight _ _ _ _ _ _, rfl, htaken (s.atomTaken_atomFlight _ _ _ _ _ _), s.launched_launchFlight _⟩
      · obtain ⟨new, old, h⟩ := State.issueAtom_posted (s := s) (op := atomOp d ty o p f) (hret hr) (if_neg hp)
          (wordOf s (.atom false d a ty o p f)) n d.toNat a.toNat f.toNat
        simp only [hva] at h
        exact ⟨_, new, old, hx, h⟩

end Sys2Proof.Machine
end

section
/-! PROOFS. FLIT_PLACEMENT and FLIT_RESEND (R198, R270, R271, R274). -/

namespace Sys2Proof.Machine

open Sys2Proof

/-! ## The end of a flit's way -/

/-- An operation that has not completed, and is not the flit's own, stays; a CHCLOSE among them waits for the flit no longer (R287). -/
theorem KOp.afterFlit_pending {f : Flit} {k : KOp} (hd : k.done = false) (hk : some k.id ≠ f.kid) :
    ((∀ l, k.work ≠ .chclose l) → k.afterFlit f = k)
      ∧ ∀ l, k.work = .chclose l → (∃ x ∈ l, x ≠ f.id) → k.afterFlit f = { k with work := .chclose (l.filter (· != f.id)) } := by
  unfold KOp.afterFlit
  rw [if_neg hk]
  refine ⟨fun h => ?_, fun l hl ⟨x, hx, hne⟩ => ?_⟩
  · split
    next l hl => exact absurd hl (h l)
    · rfl
  · have hrest : (l.filter (· != f.id)).isEmpty = false :=
      List.isEmpty_eq_false_iff_exists_mem.mpr ⟨x, List.mem_filter.mpr ⟨hx, bne_iff_ne.mpr hne⟩⟩
    simp only [hl, hd, hrest, Bool.or_self]

/-- The gang when a flit of its has reached its endpoint or has been discarded (R198, R270). -/
theorem Gang.flitGone (g : Gang) (f : Flit) {A : Store Nat} {back : Nat}
    (hA : ∀ m, Store.get 0 A m = g.allowance m + if m = f.cap then back else 0) :
    FlitGone g { g with allow := A, kops := retireOps [] (g.kops.map (KOp.afterFlit f)) } f back := by
  refine ⟨rfl, hA, fun k hk hd hne => ?_, fun k hk _ => (pending_of_mem_retireOps hk).resolve_left List.not_mem_nil⟩
  obtain ⟨hother, hclose⟩ := KOp.afterFlit_pending hd hne
  exact ⟨fun hw => mem_retireOps_of_pending (List.mem_map.mpr ⟨k, hk, hother hw⟩) hd,
    fun l hl hx => mem_retireOps_of_pending (List.mem_map.mpr ⟨k, hk, hclose l hl hx⟩) hd⟩

/-- The operation of a flit that the gang in focus has sent completes (R198). -/
theorem State.flitDone_focus {s : State} {f : Flit} (hf : f.sender = some s.g.uid) :
    s.flitDone f = { s with g := { s.g with kops := retireOps [] (s.g.kops.map (KOp.afterFlit f)) } } := by
  unfold State.flitDone
  rw [hf]
  exact if_pos rfl

/-- Occurrences of an event change counters of cores only (R419). -/
theorem State.countGang_frame (s : State) (gang event n : Nat) :
    ∃ P C, s.countGang gang event n = { s with c := { s.c with perfCnt := P }, cores := C } := by
  unfold State.countGang
  split
  · exact ⟨_, _, rfl⟩
  split
  · exact ⟨_, _, rfl⟩
  unfold State.modCore
  split
  · exact ⟨_, _, rfl⟩
  split
  · exact ⟨s.c.perfCnt, _, rfl⟩
  · exact ⟨s.c.perfCnt, _, rfl⟩

/-- The unit of a flit that the gang in focus has sent returns to its counter (R270). -/
theorem State.returnUnit_focus {s : State} {f : Flit} (hf : f.sender = some s.g.uid) :
    s.returnUnit f = { s with g := { s.g with allow := Store.put s.g.allow f.cap (s.g.allowance f.cap + 1) } } := by
  unfold State.returnUnit
  rw [hf]
  exact if_pos rfl

/-- The flit of an identity changed to one of that identity: the other flits are the same. -/
theorem State.modFlit_others (s : State) {id : Nat} {h : Flit → Flit} (hid : ∀ x, x.id = id → (h x).id = id) :
    (s.modFlit id h).flits.filter (fun x => x.id != id) = s.flits.filter fun x => x.id != id := by
  unfold State.modFlit
  dsimp only
  induction s.flits with
  | nil => rfl
  | cons x t ih =>
    rw [List.map_cons, List.filter_cons, List.filter_cons, ih]
    by_cases hx : x.id = id
    · simp [hx, hid x hx]
    · simp [hx]

/-- A change of the flit of an identity depends on the flits of that identity alone. -/
theorem State.modFlit_congr {s : State} {id : Nat} {h k : Flit → Flit} (hk : ∀ x ∈ s.flits, x.id = id → h x = k x) :
    s.modFlit id h = s.modFlit id k := by
  have hm : (s.flits.map fun x => if x.id = id then h x else x) = s.flits.map fun x => if x.id = id then k x else x :=
    List.map_congr_left fun x hx => by
      split
      next he => exact hk x hx he
      · rfl
  unfold State.modFlit
  rw [hm]

/-! ## The three ends -/

/-- A flit of the gang in focus is discarded: its unit returns and its operation completes (R270, R271). -/
theorem State.discardFlit_spec {s : State} {f : Flit} (hf : f.sender = some s.g.uid) :
    let t := s.discardFlit f
    t = { s with
        g := t.g, flits := s.flits.filter (fun x => x.id != f.id), c := { s.c with perfCnt := t.c.perfCnt }, cores := t.cores }
      ∧ FlitGone s.g t.g f 1 := by
  obtain ⟨P, C, hc⟩ := s.countGang_frame s.g.uid 0x01A 1
  have hd : s.discardFlit f = { s with
      g := { s.g with
        allow := Store.put s.g.allow f.cap (s.g.allowance f.cap + 1), kops := retireOps [] (s.g.kops.map (KOp.afterFlit f)) }
      flits := s.flits.filter (fun x => x.id != f.id), c := { s.c with perfCnt := P }, cores := C } := by
    unfold State.discardFlit
    rw [hf]
    dsimp only
    rw [hc, State.returnUnit_focus (by exact hf), State.flitDone_focus (by exact hf)]
    rfl
  rw [hd]
  refine ⟨rfl, s.g.flitGone f fun m => ?_⟩
  rw [Store.get_put]
  split
  next h => rw [h]
  · rfl

/-- A refusal recorded: the flit waits behind those refused before it (R271). -/
theorem State.refuseFlit_spec {s : State} {f : Flit} (hf : f.sender = some s.g.uid) :
    let t := s.refuseFlit f
    t = { s with
      flits := s.flits.filter (fun x => x.id != f.id) ++ [{ f with refused := some s.next, reserved := false }], next := s.next + 1
      c := { s.c with perfCnt := t.c.perfCnt }, cores := t.cores } := by
  obtain ⟨P, C, hc⟩ := s.countGang_frame s.g.uid 0x019 1
  unfold State.refuseFlit
  rw [hf]
  dsimp only
  rw [hc]
  rfl

/-- A flit as it stands at its endpoint. -/
def Flit.landed (f : Flit) : Flit := { f with refused := none, reserved := false }

/-- A flit placed in a queue of the block in focus stands at its end (R269, R271). -/
theorem State.placeFlit_queue {s : State} {f : Flit} (hf : f.sender = some s.g.uid) {task num q : Nat} {b : Block}
    (hdst : f.dst = .queue task num q) (hb : s.destBlock task num = some b) (hu : b.uid = s.b.uid) :
    let t := s.placeFlit f
    t = { s with g := t.g, b := { s.b with queues := t.b.queues }, flits := s.flits.filter (fun x => x.id != f.id) }
      ∧ (∀ m, t.queue m = if m = q then s.queue q ++ [f.landed] else s.queue m) ∧ FlitGone s.g t.g f 0 := by
  have hp : s.placeFlit f = { s with
      g := { s.g with kops := retireOps [] (s.g.kops.map (KOp.afterFlit f)) }
      b := { s.b with queues := Store.put s.b.queues q (s.queue q ++ [f.landed]) }
      flits := s.flits.filter (fun x => x.id != f.id) } := by
    have hb' : (s.dropFlit f.id).destBlock task num = some b := hb
    unfold State.placeFlit
    simp only [hdst, hb', State.modBlock, hu]
    rw [if_pos (by rfl), State.flitDone_focus (by exact hf), ← hdst]
    rfl
  rw [hp]
  exact ⟨rfl, fun m => Store.get_put _ _ _ _ _, s.g.flitGone f fun m => by split <;> rfl⟩

/-- A flit placed at a host window stands at its end (R271, R273). -/
theorem State.placeFlit_window {s : State} {f : Flit} (hf : f.sender = some s.g.uid) {v : Nat} (hdst : f.dst = .window v) :
    let t := s.placeFlit f
    t = { s with g := t.g, windows := t.windows, flits := s.flits.filter (fun x => x.id != f.id) }
      ∧ (∀ m, Store.get {} t.windows m
          = let x := Store.get ({} : Window) s.windows m
            if m = v then { x with recv := x.recv ++ [f.landed] } else x)
      ∧ FlitGone s.g t.g f 0 := by
  have hp : s.placeFlit f = { s with
      g := { s.g with kops := retireOps [] (s.g.kops.map (KOp.afterFlit f)) }
      windows := Store.put s.windows v
        { Store.get ({} : Window) s.windows v with recv := (Store.get ({} : Window) s.windows v).recv ++ [f.landed] }
      flits := s.flits.filter (fun x => x.id != f.id) } := by
    unfold State.placeFlit
    simp only [hdst]
    rw [State.flitDone_focus (by exact hf), ← hdst]
    rfl
  rw [hp]
  refine ⟨rfl, fun m => ?_, s.g.flitGone f fun m => by split <;> rfl⟩
  dsimp only
  rw [Store.get_put]
  split
  next h => rw [h]
  · rfl

/-- A refused flit that its sender sends again is on its way (R271). -/
theorem State.carry_spec (s : State) (f : Flit) :
    let t := s.carry f
    t = { s with fab := { s.fab with links := t.fab.links, held := t.fab.held }, agenda := t.agenda }
      ∧ OnWay t (.flitPlacement f.id) ∧ ∀ i ∈ s.agenda, i ∈ t.agenda :=
  s.enter_message _ _ _ _

/-! ## The two steps -/

theorem State.channelBusy_iff {s : State} {f : Flit} : s.channelBusy f = true
    ↔ f.chan ≠ 0 ∧ ∃ x ∈ s.flits, x.sender = f.sender ∧ x.chan = f.chan ∧ x.cap = f.cap ∧ x.id < f.id := by
  simp [State.channelBusy, and_assoc]

/-- The tenant condition of a reply's entry holds back only flits of the device (R343). -/
theorem State.replyBarred_sent {s : State} {f : Flit} {g : Nat} (hf : f.sender = some g) : s.replyBarred f = false := by
  simp [State.replyBarred, hf]

section
variable {s : State} {flit : Nat} {f : Flit} (hfind : s.flits.find? (fun x => x.id == flit) = some f)
include hfind

/-- A flit on its way comes to its endpoint: it waits for those of its channel before it, and then is discarded, refused or placed
(R271, R274). -/
theorem exec_flitPlacement (hs : f.sender = some s.g.uid) (hr : f.refused = none) : exec (.flitPlacement flit) s = .next (
    if s.channelBusy f then s.later (.flitPlacement flit)
    else if s.endpointGone f.dst then s.discardFlit f
    else if (s.modFlit flit fun x => { x with reserved := false }).roomAt f.dst = 0 then s.refuseFlit f
    else s.placeFlit f) := by
  refine congrArg Host.Outcome.next ?_
  simp only [hfind, hr, State.replyBarred_sent hs, Bool.or_false]
  rfl

/-- A refused flit whose sender has been told to send it again (R271). -/
theorem exec_flitResend (hr : f.refused ≠ none) : exec (.flitResend flit) s = .next (
    let back := s.modFlit flit fun _ => { f with reserved := false }
    if s.endpointGone f.dst then back.discardFlit { f with reserved := false }
    else if back.roomAt f.dst = 0 then back
    else if f.reserved then (s.modFlit flit fun x => { x with refused := none }).carry { f with refused := none }
    else s) := by
  refine congrArg Host.Outcome.next ?_
  have hr' : f.refused.isNone = false := Option.isNone_eq_false_iff.mpr (Option.isSome_iff_ne_none.mpr hr)
  simp only [hfind, hr']
  rfl

end

/-- Settles O37: a flit on its way by the order of its checks, a refused one by what has become of its endpoint. -/
theorem flitSteps : Obligations.FlitSteps := by
  unfold Obligations.FlitSteps
  intro s flit f hfind hs f' left placed discarded busy gone freed
  have hid : f.id = flit := by simpa using List.find?_some hfind
  have hbusy : s.channelBusy f = true ↔ busy := State.channelBusy_iff
  subst hid
  refine ⟨fun hr => ?_, fun hr hone => ?_⟩
  · have hx := exec_flitPlacement hfind hs hr
    refine ⟨fun hb => ?_, fun hb hg => ?_, fun hb hg h0 => ?_, fun hb hg h0 => ?_⟩
    · rw [if_pos (hbusy.mpr hb)] at hx
      exact ⟨_, hx, s.later_spec _⟩
    all_goals rw [if_neg (mt hbusy.mp hb)] at hx
    · rw [if_pos hg] at hx
      exact ⟨_, hx, State.discardFlit_spec hs⟩
    · rw [if_neg hg, if_pos h0] at hx
      exact ⟨_, hx, State.refuseFlit_spec hs⟩
    · rw [if_neg hg, if_neg h0] at hx
      exact ⟨fun task num q b hd hb hu => ⟨_, hx, State.placeFlit_queue hs hd hb hu⟩, fun v hd => ⟨_, hx, State.placeFlit_window hs hd⟩⟩
  · have hx := exec_flitResend hfind hr
    have hback : (s.modFlit f.id fun _ => { f with reserved := false }) = freed :=
      State.modFlit_congr fun x hx he => by rw [hone x hx he]
    have hagain : (s.modFlit f.id fun x => { x with refused := none }) = s.modFlit f.id fun _ => { f with refused := none } :=
      State.modFlit_congr fun x hx he => by rw [hone x hx he]
    dsimp only at hx
    rw [hback] at hx
    refine ⟨fun hg => ?_, fun hg h0 => ?_, fun hg h0 hres => ?_, fun hg h0 hres => ?_⟩
    · rw [if_pos hg] at hx
      obtain ⟨ht, hgone⟩ := State.discardFlit_spec (s := freed) (f := { f with reserved := false }) hs
      have hleft : freed.flits.filter (fun x => x.id != f.id) = left := s.modFlit_others fun _ he => he
      dsimp only at ht
      rw [hleft] at ht
      exact ⟨_, hx, ht, hgone⟩
    all_goals rw [if_neg hg] at hx
    · rw [if_pos h0] at hx
      exact hx
    all_goals rw [if_neg h0] at hx
    · rw [if_neg (by simp [hres])] at hx
      exact hx
    · rw [if_pos hres] at hx
      rw [hagain] at hx
      obtain ⟨ht, hon, hold⟩ := (s.modFlit f.id fun _ => { f with refused := none }).carry_spec { f with refused := none }
      exact ⟨_, hx, ht, hold, hon⟩

end Sys2Proof.Machine
end

section
/-! PROOFS. The MX words at issue (R198, R213, R214, R218, R222 to R230, R238). -/

namespace Sys2Proof.Machine

open Sys2Proof

/-! ## A word that is held back, does nothing, or goes on -/

/-- There is room for one more matrix command: in k3 and in the core's queue (R198, R218). -/
def State.MxRoom (s : State) : Prop := (s.src.kops.filter fun k => k.cls == 3).length < 63 ∧ s.c.mxq.length < 32

theorem State.mxHold_iff {s : State} : s.mxHold = true ↔ s.lanes ≠ [] ∧ ¬s.MxRoom := by
  simp only [State.mxHold, State.MxRoom, Bool.and_eq_true, Bool.not_eq_true', Bool.or_eq_true, decide_eq_true_eq, State.kHold_iff,
    List.isEmpty_eq_false_iff, not_and_or, Nat.not_lt]

/-- The value that the leader gives to the i-th of the register fields of an MX word (R218). -/
def State.mxValue (s : State) (regs : List (BitVec 6)) (i : Nat) : Word :=
  match regs[i]? with
  | some r => s.src.val r.toNat (leader s.lanes)
  | none => 0

/-- What an MX word does before its checks: it is held back, does nothing, raises OPR, or goes on to `P` (R46, R198, R218). -/
def MxIssue (s : State) (w : Instr) (regs : List (BitVec 6)) (P : Prop) : Prop :=
  let ops := regs.map fun r => (1, r.toNat)
  (s.lanes ≠ [] → ¬s.MxRoom → exec w s = .next s.hold)
    ∧ (s.MxRoom → ¬Readable s ops → Opr w s)
    ∧ (Readable s ops → s.lanes = [] → exec w s = .next s)
    ∧ (s.MxRoom → Readable s ops → s.lanes ≠ [] → P)

theorem mxIssue_of {s : State} {w : Instr} {regs : List (BitVec 6)} {go : Word → Word → State → State} {P : Prop}
    (hx : exec w s = .next (s.mxWord regs go))
    (hgo : exec w s = .next (go (s.mxValue regs 0) (s.mxValue regs 1) s) → P) : MxIssue s w regs P := by
  have hfree (h : ¬(s.lanes ≠ [] ∧ ¬s.MxRoom)) : s.mxWord regs go
      = s.withRegs (regs.map fun r => (1, r.toNat)) fun s => match s.lanes with
        | [] => s
        | L :: _ =>
          let v (i : Nat) : Word := match regs[i]? with
            | some r => s.src.val r.toNat L
            | none => 0
          go (v 0) (v 1) s := if_neg (mt State.mxHold_iff.mp h)
  refine ⟨fun hl hr => hx.trans ?_, fun hr ho => hx.trans ?_, fun ho hl => hx.trans ?_, fun hr ho hl => hgo (hx.trans ?_)⟩
  · exact congrArg Host.Outcome.next (if_pos (State.mxHold_iff.mpr ⟨hl, hr⟩))
  · rw [hfree fun h => h.2 hr, State.withRegs_bad ho]
  · rw [hfree fun h => h.1 hl, State.withRegs_ok ho]
    simp only [hl]
  · rw [hfree fun h => h.2 hr, State.withRegs_ok ho]
    obtain ⟨t, ht⟩ := lanes_cons hl
    rw [ht]
    rfl

/-! ## A command accepted -/

/-- A command as the gang in focus leaves it in its core's queue (R218, R220). -/
def State.mxEntry (s : State) (c : MxCmd) : MxCmd :=
  { c with
    id := s.next + 1, gang := s.g.uid, kid := s.next, block := s.b.uid, late := (s.addK 3 .plain).closedIssue
    after := (s.g.flights.filter fun f => f.op.kind.writes).map (·.id) }

/-- A command that has not begun. -/
def MxCmd.Fresh (c : MxCmd) : Prop := c.started = false ∧ c.ready = true ∧ c.tiles = 0 ∧ c.step = 0 ∧ c.coll = none

theorem mxCmd_fresh (word : Instr) (y z : Word) (slotsR slotsW zR zW tys : List Nat) : (mxCmd word y z slotsR slotsW zR zW tys).Fresh :=
  ⟨rfl, rfl, rfl, rfl, rfl⟩

theorem State.noteReady_frame (s : State) : ∃ q, s.noteReady = { s with c := { s.c with mxq := q } } ∧ SameQueue s.c.mxq q := by
  refine ⟨_, rfl, ?_⟩
  unfold SameQueue
  rw [List.map_map]
  refine List.map_congr_left fun c _ => ?_
  dsimp only [Function.comp]
  split <;> rfl

/-- A command enters the queue of its core and counts in k3; the block keeps the binding table that it has by then (R218, R223). -/
theorem State.accepted_accept (s : State) {b : Block} (hb : b.uid = s.b.uid) {c : MxCmd} (hc : c.Fresh) :
    Accepted s (State.accept { s with b := b } c) (State.mxEntry { s with b := b } c) b := by
  obtain ⟨hstarted, hready, htiles, hstep, hcoll⟩ := hc
  obtain ⟨q, hq, hsame⟩ := State.noteReady_frame { s with
    g := { s.g with kops := s.g.kops ++ [{ id := s.next, cls := 3 }] }, b := b
    c := { s.c with mxq := s.c.mxq ++ [State.mxEntry { s with b := b } c] }, next := s.next + 2 }
  obtain ⟨A, hA, hin, hold⟩ := State.later_adds { s with
    g := { s.g with kops := s.g.kops ++ [{ id := s.next, cls := 3 }] }, b := b
    c := { s.c with mxq := q }, next := s.next + 2 } (.mxCommandStart (s.next + 1))
  have ht : State.accept { s with b := b } c = { s with
      g := { s.g with kops := s.g.kops ++ [{ id := s.next, cls := 3 }] }, b := b
      c := { s.c with mxq := q }, next := s.next + 2, agenda := A } := by
    rw [← hA]
    refine Eq.trans ?_ (congrArg (State.later · (.mxCommandStart (s.next + 1))) hq)
    rfl
  rw [ht]
  exact ⟨rfl, hsame, hin, hold, rfl, rfl, rfl, hb, hstarted, hready, htiles, hstep, hcoll⟩

/-! ## A word that raises MXF or is accepted -/

/-- The word raises MXF with the address that a failed check gives, or is accepted as `w0` with the leader's values and the slots
and tiles that it reads and writes (R218, R222). -/
def MxTakes (s : State) (w w0 : Instr) (vy vz : Word) (fault : Option Nat) (slotsR slotsW zR zW : List Nat) : Prop :=
  match fault with
  | some x => exec w s = .next (s.fault 10 0 (BitVec.ofNat 64 x))
  | none => ∃ t cmd, exec w s = .next t ∧ Accepted s t cmd s.b ∧ cmd.word = w0 ∧ cmd.y = vy ∧ cmd.z = vz
      ∧ cmd.slotsR = slotsR ∧ cmd.slotsW = slotsW ∧ cmd.zR = zR ∧ cmd.zW = zW

section
variable {s : State} {w w0 : Instr} {vy vz : Word} {slotsR slotsW zR zW : List Nat}

theorem mxTakes_fault {x : Nat} (hx : exec w s = .next (s.mxf x)) : MxTakes s w w0 vy vz (some x) slotsR slotsW zR zW := hx

theorem mxTakes_accept {tys : List Nat} (hx : exec w s = .next (s.accept (mxCmd w0 vy vz slotsR slotsW zR zW tys))) :
    MxTakes s w w0 vy vz none slotsR slotsW zR zW :=
  ⟨_, _, hx, s.accepted_accept rfl (mxCmd_fresh _ _ _ _ _ _ _ _), rfl, rfl, rfl, rfl, rfl, rfl, rfl⟩

/-- A check that names an address where it fails. -/
theorem mxTakes_check {fault : Option Nat} {go : State}
    (hx : exec w s = .next (match fault with | some x => s.mxf x | none => go))
    (hgo : exec w s = .next go → MxTakes s w w0 vy vz none slotsR slotsW zR zW) :
    MxTakes s w w0 vy vz fault slotsR slotsW zR zW := by
  cases fault with
  | some x => exact mxTakes_fault hx
  | none => exact hgo hx

/-- Such a check, before others. -/
theorem mxTakes_then {fault fault' : Option Nat} {go : State}
    (hx : exec w s = .next (match fault with | some x => s.mxf x | none => go))
    (hgo : exec w s = .next go → MxTakes s w w0 vy vz fault' slotsR slotsW zR zW) :
    MxTakes s w w0 vy vz (match (generalizing := false) fault with | some x => some x | none => fault') slotsR slotsW zR zW := by
  cases fault with
  | some x => exact mxTakes_fault hx
  | none => exact hgo hx

/-- A condition under which the word raises MXF with an address, before other checks. -/
theorem mxTakes_guard {p : Prop} [Decidable p] {a : Nat} {fault : Option Nat} {go : State}
    (hx : exec w s = .next (if p then s.mxf a else go))
    (hgo : ¬p → exec w s = .next go → MxTakes s w w0 vy vz fault slotsR slotsW zR zW) :
    MxTakes s w w0 vy vz (if p then some a else fault) slotsR slotsW zR zW := by
  by_cases hp : p
  · rw [if_pos hp] at hx ⊢
    exact mxTakes_fault hx
  · rw [if_neg hp] at hx ⊢
    exact hgo hp hx

end

/-! ## The checks of the words -/

/-- The check on an image with at least one row (R222). -/
theorem State.imageFault_eq (s : State) (base : Nat) {rows : Nat} (hr : rows ≠ 0) (rowbytes pitch : Nat) :
    s.imageFault base rows rowbytes pitch = ImageFault s base rows rowbytes pitch := by
  unfold State.imageFault ImageFault extent
  simp only [if_neg hr]

/-- A word whose last check is that on an image of S. -/
theorem mxTakes_image {s : State} {w w0 : Instr} {vy vz : Word} {slotsR slotsW zR zW tys : List Nat} {base rows rowbytes pitch : Nat}
    (hr : rows ≠ 0) (hx : exec w s = .next (match s.imageFault base rows rowbytes pitch with
      | some x => s.mxf x
      | none => s.accept (mxCmd w0 vy vz slotsR slotsW zR zW tys))) :
    MxTakes s w w0 vy vz (ImageFault s base rows rowbytes pitch) slotsR slotsW zR zW := by
  rw [← s.imageFault_eq base hr]
  exact mxTakes_check hx mxTakes_accept

theorem State.withSlot_none {s : State} {n : Nat} (h : Store.find s.b.slotTab n = none) (go : SlotBind → State) :
    s.withSlot n go = s.mxf 0 := by
  unfold State.withSlot Block.bound
  rw [h]

theorem State.withSlot_some {s : State} {n : Nat} {x : SlotBind} (h : Store.find s.b.slotTab n = some x) (go : SlotBind → State) :
    s.withSlot n go = go x := by
  unfold State.withSlot Block.bound
  rw [h]

/-- A word that needs its slot name bound: the check goes on with the binding (R222). -/
theorem mxTakes_slot {s : State} {w w0 : Instr} {vy vz : Word} {slotsR slotsW zR zW : List Nat} {n : Nat}
    {fault : SlotBind → Option Nat} {go : SlotBind → State} (hx : exec w s = .next (s.withSlot n go))
    (hgo : ∀ x, Store.find s.b.slotTab n = some x → exec w s = .next (go x) → MxTakes s w w0 vy vz (fault x) slotsR slotsW zR zW) :
    MxTakes s w w0 vy vz (match Store.find s.b.slotTab n with | none => some 0 | some x => fault x) slotsR slotsW zR zW := by
  cases hn : Store.find s.b.slotTab n with
  | none => exact mxTakes_fault (hx.trans (congrArg Host.Outcome.next (State.withSlot_none hn go)))
  | some x => exact hgo x hn (hx.trans (congrArg Host.Outcome.next (State.withSlot_some hn go)))

theorem slotGeom_rows (ty : Nat) : (slotGeom ty).1 ≠ 0 := by
  unfold slotGeom
  split_ifs <;> decide

/-- The types that TLDT refuses (R224). -/
theorem untransposed_iff {ty : Nat} : (decide (ty = 5) || isSparse ty) = true ↔ ty = 5 ∨ ty = 7 ∨ ty = 8 := by
  simp [isSparse]

/-- The check on the image that TLDT reads: for the types of one byte an element rows and row bytes change places (R222, R224). -/
theorem State.imageFault_trans (s : State) (base : Nat) {ty : Nat} (hle : ty ≤ 8) (h : ¬(ty = 5 ∨ ty = 7 ∨ ty = 8)) (pitch : Nat) :
    s.imageFault base (transGeom ty).1 (transGeom ty).2 pitch
      = ImageFault s base (if ty = 3 then 128 else if ty = 4 then 64 else (slotGeom ty).1)
          (if ty = 3 then 64 else if ty = 4 then 128 else (slotGeom ty).2) pitch := by
  have hg : transGeom ty = (if ty = 3 then 128 else if ty = 4 then 64 else (slotGeom ty).1,
      if ty = 3 then 64 else if ty = 4 then 128 else (slotGeom ty).2) := by
    obtain rfl | rfl | rfl | rfl | rfl | rfl : ty = 0 ∨ ty = 1 ∨ ty = 2 ∨ ty = 3 ∨ ty = 4 ∨ ty = 6 := by omega
    all_goals rfl
  rw [hg]
  refine s.imageFault_eq base ?_ _ pitch
  split_ifs
  · decide
  · decide
  · exact slotGeom_rows ty

/-- Rows and row bytes of a ZST (R227). -/
theorem zstGeom_eq (m : BitVec 2) : zstGeom m.toNat = (if m = 3 then 32 else 64, if m = 2 then 128 else 256) := by
  revert m
  decide

/-- The check of an MMA on its two slots and on its tiles (R222, R229). -/
def mmaFault (s : State) (ta tb : Nat) (tiles : List Nat) (x y : Option SlotBind) : Option Nat :=
  match x, y with
  | some x, some y => if x.ty = ta ∧ y.ty = tb ∧ ∀ k ∈ tiles, k < s.b.zt then none else some 0
  | _, _ => some 0

/-- The physical slot that a name is bound to; 0 where it is bound to none. -/
def physOf (x : Option SlotBind) : Nat := (x.map SlotBind.phys).getD 0

theorem State.mmaSlots_eq (s : State) (m : Mma) (zn a b : Nat) : s.mmaSlots m zn a b
    = if mmaFault s m.types.1 m.types.2 (m.tiles zn) (s.b.bound a) (s.b.bound b) = none
      then some (physOf (s.b.bound a), physOf (s.b.bound b)) else none := by
  unfold State.mmaSlots mmaFault
  cases s.b.bound a with
  | none => rfl
  | some x =>
    cases s.b.bound b with
    | none => rfl
    | some y =>
      simp only [Bool.and_eq_true, beq_iff_eq, List.all_eq_true, decide_eq_true_eq, and_assoc]
      split <;> rfl

theorem mmaFault_address {s : State} {ta tb : Nat} {tiles : List Nat} {x y : Option SlotBind} (h : mmaFault s ta tb tiles x y ≠ none) :
    mmaFault s ta tb tiles x y = some 0 := by
  unfold mmaFault at h ⊢
  split
  · split
    next hc => exact absurd (if_pos hc) h
    · rfl
  · rfl

/-- An MMA word reads its two slots and writes its tiles (R229, R230). -/
theorem mma_issue {s : State} {w w0 : Instr} {m : Mma} {zn a b ta tb : Nat} {tiles : List Nat} (hx : exec w s = .next (s.mma m w0 zn a b))
    (ht : m.types = (ta, tb)) (hz : m.tiles zn = tiles) : MxIssue s w [] (MxTakes s w w0 0 0
      (mmaFault s ta tb tiles (s.b.bound a) (s.b.bound b)) [physOf (s.b.bound a), physOf (s.b.bound b)] [] [] tiles) := by
  refine mxIssue_of hx fun hx => ?_
  have h1 : m.types.1 = ta := congrArg Prod.fst ht
  have h2 : m.types.2 = tb := congrArg Prod.snd ht
  rw [State.mmaSlots_eq, h1, h2, hz] at hx
  by_cases hf : mmaFault s ta tb tiles (s.b.bound a) (s.b.bound b) = none
  · rw [if_pos hf] at hx
    rw [hf]
    exact mxTakes_accept hx
  · rw [if_neg hf] at hx
    rw [mmaFault_address hf]
    exact mxTakes_fault hx

/-! ## CLAIM -/

/-- A physical slot of the block in focus that no name is bound to (R213, R223). -/
def State.FreeSlot (s : State) (p : Nat) : Prop := p < s.b.slots ∧ ∀ x ∈ (s.b.slotTab : List (Nat × SlotBind)), x.2.phys ≠ p

theorem State.mem_freeSlots {s : State} {p : Nat} : p ∈ s.freeSlots ↔ s.FreeSlot p := by
  have hany (q : Nat → Bool) (l : List Nat) : (p ∈ l.filter (fun p => !q p) ++ l.filter q) ↔ p ∈ l := by
    cases hq : q p <;> simp [hq]
  unfold State.freeSlots State.FreeSlot
  refine (hany _ _).trans ?_
  simp

/-- CLAIM of an unbound name takes a free physical slot, where there is one (R223). -/
theorem claim_spec {s : State} {w : Instr} {k : Nat} {go : Nat → State}
    (hx : exec w s = .next (if (s.b.bound k).isSome then s.mxf 0 else match s.freeSlots with | [] => s.mxf 0 | p :: _ => go p)) :
    ((s.b.bound k ≠ none ∨ ∀ p, ¬s.FreeSlot p) → exec w s = .next (s.mxf 0))
      ∧ (s.b.bound k = none → ∀ p, s.FreeSlot p → ∃ q, s.FreeSlot q ∧ exec w s = .next (go q)) := by
  have hempty : s.freeSlots = [] ↔ ∀ p, ¬s.FreeSlot p := by
    simp only [List.eq_nil_iff_forall_not_mem, State.mem_freeSlots]
  refine ⟨fun h => hx.trans ?_, fun h p hp => ?_⟩
  · by_cases hb : s.b.bound k = none
    · simp only [hb, hempty.mpr (h.resolve_left (not_not.mpr hb)), Option.isSome_none, Bool.false_eq_true, if_false]
    · rw [if_pos (Option.isSome_iff_ne_none.mpr hb)]
  · cases hl : s.freeSlots with
    | nil => exact absurd hp (hempty.mp hl p)
    | cons q t =>
      refine ⟨q, State.mem_freeSlots.mp (hl ▸ List.mem_cons_self), hx.trans ?_⟩
      simp only [h, hl, Option.isSome_none, Bool.false_eq_true, if_false]

/-- Settles O26: each word by its checks in order, `mxIssue_of` for those before it is issued and `MxTakes` for those on its operands. -/
theorem matrixWords : Obligations.MatrixWords := by
  unfold Obligations.MatrixWords
  intro s c n a b ty zn zp m h y z vy vz pitch bound room word mxf takes slot phys tile mma pair
  have hphys (k : BitVec 5) {x : SlotBind} (hk : Store.find s.b.slotTab k.toNat = some x) : phys k = x.phys :=
    congrArg physOf hk
  refine ⟨mxIssue_of rfl fun hx => ⟨fun hf => ?_, fun hn p hp => ?_⟩, mxIssue_of rfl fun hx => ⟨fun hf => ?_, fun hn => ?_⟩,
    mxIssue_of rfl fun hx => mxTakes_slot hx fun x hn hx => mxTakes_guard hx fun _ hx => ?_,
    fun hty => mxIssue_of rfl fun hx => mxTakes_slot hx fun x hn hx =>
      mxTakes_guard (hx.trans (congrArg Host.Outcome.next (if_congr untransposed_iff rfl rfl))) fun ht hx => ?_,
    mxIssue_of rfl fun hx => mxTakes_slot hx fun x hn hx => ?_,
    mxIssue_of rfl fun hx => mxTakes_guard hx fun _ => mxTakes_accept,
    mxIssue_of rfl fun hx => mxTakes_guard hx fun _ hx => ?_,
    mxIssue_of rfl fun hx => mxTakes_guard hx fun _ hx => ?_,
    mxIssue_of rfl fun hx => mxTakes_slot hx fun x hn hx => mxTakes_guard hx fun _ hx => ?_,
    mma_issue rfl rfl rfl, mma_issue rfl rfl rfl, mma_issue rfl rfl rfl, mma_issue rfl rfl rfl, mma_issue rfl rfl rfl,
    mma_issue rfl rfl rfl, mma_issue rfl rfl rfl, mma_issue rfl rfl rfl, fun hp => ?_⟩
  -- CLAIM
  · exact (claim_spec hx).1 hf
  · obtain ⟨q, hq, hx⟩ := (claim_spec hx).2 hn p hp
    have hacc := s.accepted_accept (b := { s.b with slotTab := Store.put s.b.slotTab n.toNat { phys := q, ty := ty.toNat } }) rfl
      (mxCmd_fresh (.claim false n ty) 0 0 [] [q] [] [] [ty.toNat])
    exact ⟨_, _, q, hx, hq, hacc, rfl, rfl⟩
  -- FREE
  · exact hx.trans (congrArg Host.Outcome.next (State.withSlot_none hf _))
  · obtain ⟨x, hn⟩ := Option.ne_none_iff_exists'.mp hn
    rw [State.withSlot_some hn] at hx
    have hacc := s.accepted_accept (b := { s.b with slotTab := Store.del s.b.slotTab n.toNat }) rfl
      (mxCmd_fresh (.free false n) 0 0 [] [] [] [] [])
    exact ⟨_, _, hx, rfl, hacc⟩
  -- TLD
  · rw [hphys n hn]
    exact mxTakes_image (slotGeom_rows x.ty) hx
  -- TLDT
  · rw [← s.imageFault_trans _ (hty x hn) ht, hphys n hn]
    exact mxTakes_check hx mxTakes_accept
  -- TLDM
  · rw [hphys n hn]
    by_cases hs : x.ty = 7 ∨ x.ty = 8
    · have hsp : isSparse x.ty = true := by simpa [isSparse] using hs
      rw [if_pos hs]
      exact mxTakes_image Nat.one_ne_zero (hx.trans (congrArg Host.Outcome.next (if_neg (by simp [hsp]))))
    · have hsp : isSparse x.ty = false := by simpa [isSparse] using hs
      rw [if_neg hs]
      exact mxTakes_fault (hx.trans (congrArg Host.Outcome.next (if_pos (by simp [hsp]))))
  -- ZLD
  · exact mxTakes_image (by decide) hx
  -- ZST
  · have hi : s.imageFault vy.toNat (zstGeom m.toNat).1 (zstGeom m.toNat).2 pitch
        = ImageFault s vy.toNat (if m = 3 then 32 else 64) (if m = 2 then 128 else 256) pitch := by
      rw [zstGeom_eq]
      refine s.imageFault_eq _ ?_ _ _
      dsimp only
      split_ifs <;> decide
    rw [← hi]
    exact mxTakes_then hx fun hx => mxTakes_guard hx fun _ => mxTakes_accept
  -- TST
  · rw [hphys n hn]
    exact mxTakes_image (slotGeom_rows x.ty) hx
  -- MGEMM
  · have hfree : ¬(!s.lanes.isEmpty && s.storesPending vy.toNat 56) = true := by simp [hp]
    refine mxIssue_of (congrArg Host.Outcome.next (if_neg hfree)) fun hx => ⟨fun h1 => ?_, fun h1 h2 => ?_, fun h1 h2 => ?_⟩
    · exact hx.trans (congrArg Host.Outcome.next (if_pos h1))
    · exact hx.trans (congrArg Host.Outcome.next ((if_neg (not_not.mpr h1)).trans (if_pos h2)))
    · have hin := hx.trans (congrArg Host.Outcome.next ((if_neg (not_not.mpr h1)).trans (if_neg (Nat.not_lt.mpr h2))))
      exact ⟨_, _, hin, s.accepted_accept (b := s.b) rfl ⟨rfl, rfl, rfl, rfl, rfl⟩, rfl, rfl, rfl⟩

end Sys2Proof.Machine
end

section
/-! PROOFS. What an atomic operation computes (R206, R207). -/

namespace Sys2Proof.Machine

open Sys2Proof

/-! ## Operations on elements -/

theorem mapElems_succ (w k : Nat) (f : Nat → Nat → Nat) (a b : Nat) : mapElems w (k + 1) f a b
    = mapElems w k f a b + f (a / 2 ^ (w * k) % 2 ^ w) (b / 2 ^ (w * k) % 2 ^ w) % 2 ^ w * 2 ^ (w * k) := by
  unfold mapElems upto
  rw [List.range_succ, List.foldl_append]
  rfl

theorem mapElems_lt (w k : Nat) (f : Nat → Nat → Nat) (a b : Nat) : mapElems w k f a b < 2 ^ (w * k) := by
  induction k with
  | zero => simp [mapElems, upto]
  | succ k ih =>
    rw [mapElems_succ, Nat.mul_succ, Nat.pow_add, Nat.mul_comm (2 ^ (w * k))]
    generalize f _ _ = v
    have hv : v % 2 ^ w + 1 ≤ 2 ^ w := Nat.mod_lt _ (Nat.two_pow_pos w)
    calc mapElems w k f a b + v % 2 ^ w * 2 ^ (w * k)
        < 2 ^ (w * k) + v % 2 ^ w * 2 ^ (w * k) := Nat.add_lt_add_right ih _
      _ = (v % 2 ^ w + 1) * 2 ^ (w * k) := by ring
      _ ≤ 2 ^ w * 2 ^ (w * k) := Nat.mul_le_mul_right _ hv

/-- Element e of the result is what the operation gives for the elements e of the operands (R206). -/
theorem mapElems_elem {w k e : Nat} (he : e < k) (f : Nat → Nat → Nat) (a b : Nat) : mapElems w k f a b / 2 ^ (w * e) % 2 ^ w
    = f (a / 2 ^ (w * e) % 2 ^ w) (b / 2 ^ (w * e) % 2 ^ w) % 2 ^ w := by
  induction k with
  | zero => omega
  | succ k ih =>
    rw [mapElems_succ]
    rcases Nat.lt_or_eq_of_le (Nat.lt_succ_iff.mp he) with hlt | rfl
    · obtain ⟨j, rfl⟩ := Nat.exists_eq_add_of_lt hlt
      have hsplit (c : Nat) : c * 2 ^ (w * (e + j + 1)) = 2 ^ (w * e) * (2 ^ w * (c * 2 ^ (w * j))) := by ring
      rw [hsplit, Nat.add_mul_div_left _ _ (Nat.two_pow_pos _), Nat.add_mul_mod_self_left, ih hlt]
    · rw [Nat.add_mul_div_right _ _ (Nat.two_pow_pos _), Nat.div_eq_of_lt (mapElems_lt w e f a b), Nat.zero_add, Nat.mod_mod]

/-! ## The new value -/

/-- A floating-point operation acts on each element of the types that it has (R206). -/
theorem mapElems_typed (g : Fmt → Nat → Nat → FRes) {ty w : Nat} (old x : Nat)
    (ht : (ty = 2 ∧ w = 32) ∨ (ty = 3 ∧ w = 64) ∨ (ty = 4 ∧ w = 32) ∨ (ty = 5 ∧ w = 64)) :
    let v := mapElems (atomFmt ty).2.1 (atomFmt ty).2.2 (fun a b => (g (atomFmt ty).1 a b).bits) old x % 2 ^ w
    let fm := if ty = 3 then f64 else if ty = 4 then bf16 else f32
    let ew := if ty = 3 then 64 else if ty = 4 then 16 else 32
    v < 2 ^ w ∧ ∀ e, ew * e < w → v / 2 ^ (ew * e) % 2 ^ ew = (g fm (old / 2 ^ (ew * e) % 2 ^ ew) (x / 2 ^ (ew * e) % 2 ^ ew)).bits % 2 ^ ew := by
  intro v fm ew
  refine ⟨Nat.mod_lt _ (Nat.two_pow_pos w), fun e he => ?_⟩
  have key (k : Nat) (hk : w = ew * k) (hf : atomFmt ty = (fm, ew, k)) :
      v / 2 ^ (ew * e) % 2 ^ ew = (g fm (old / 2 ^ (ew * e) % 2 ^ ew) (x / 2 ^ (ew * e) % 2 ^ ew)).bits % 2 ^ ew := by
    have hv : v = mapElems ew k (fun a b => (g fm a b).bits) old x := by
      show mapElems _ _ _ _ _ % _ = _
      rw [hf, hk]
      exact Nat.mod_eq_of_lt (mapElems_lt _ _ _ _ _)
    rw [hv]
    exact mapElems_elem (Nat.lt_of_mul_lt_mul_left (hk ▸ he)) _ _ _
  rcases ht with ⟨rfl, hw⟩ | ⟨rfl, hw⟩ | ⟨rfl, hw⟩ | ⟨rfl, hw⟩
  · exact key 1 hw rfl
  · exact key 1 hw rfl
  · exact key 2 hw rfl
  · exact key 2 hw rfl

/-- The new value of an atomic operation, cut to the width of its access (R206, R207). -/
theorem atomValue_atomNew {w old x nv : Nat} (aop ty : Nat) (ho : old < 2 ^ w) (hx : x < 2 ^ w) (hn : nv < 2 ^ w) :
    AtomValue aop ty w old x nv (atomNew aop ty w old x nv % 2 ^ w) := by
  have cut {v : Nat} (hv : v < 2 ^ w) : v % 2 ^ w = v := Nat.mod_eq_of_lt hv
  match aop with
  | 0 => exact Nat.mod_mod _ _
  | 1 =>
    have h : atomNew 1 ty w old x nv = (old + 2 ^ w - x % 2 ^ w) % 2 ^ w := rfl
    rw [h, cut hx, Nat.mod_mod]
    refine ⟨Nat.mod_lt _ (Nat.two_pow_pos w), ?_⟩
    rw [Nat.mod_add_mod, Nat.sub_add_cancel (by omega), Nat.add_mod_right, cut ho]
  | 2 =>
    show (_ ∨ _) ∧ _
    have h : atomNew 2 ty w old x nv = if (BitVec.ofNat w x).toInt < (BitVec.ofNat w old).toInt then x else old := rfl
    rw [h]
    split
    next hlt => exact ⟨.inr (cut hx), by rw [cut hx, min_eq_right hlt.le]⟩
    next hge => exact ⟨.inl (cut ho), by rw [cut ho, min_eq_left (not_lt.mp hge)]⟩
  | 3 =>
    show (_ ∨ _) ∧ _
    have h : atomNew 3 ty w old x nv = if (BitVec.ofNat w old).toInt < (BitVec.ofNat w x).toInt then x else old := rfl
    rw [h]
    split
    next hlt => exact ⟨.inr (cut hx), by rw [cut hx, max_eq_right hlt.le]⟩
    next hge => exact ⟨.inl (cut ho), by rw [cut ho, max_eq_left (not_lt.mp hge)]⟩
  | 4 => exact cut (Nat.lt_of_le_of_lt (Nat.min_le_left _ _) ho)
  | 5 => exact cut (Nat.max_lt.mpr ⟨ho, hx⟩)
  | 6 => exact cut (Nat.and_lt_two_pow _ hx)
  | 7 => exact cut (Nat.or_lt_two_pow ho hx)
  | 8 => exact cut (Nat.xor_lt_two_pow ho hx)
  | 9 => exact cut hx
  | 10 =>
    show (if old = x then nv else old) % 2 ^ w = if old = x then nv else old
    split
    · exact cut hn
    · exact cut ho
  | 11 => exact mapElems_typed fadd old x
  | 12 => exact mapElems_typed (fun fm => fminmax fm false) old x
  | k + 13 => exact mapElems_typed (fun fm => fminmax fm true) old x

/-- The operands of a word are as wide as its access (R206). -/
theorem MemOp.atomValue_spec (o : MemOp) {old : Nat} (ho : old < 256 ^ o.size) (data nv : Nat) :
    AtomValue o.aop o.aty (8 * o.size) old (data % 2 ^ (8 * o.size)) (nv % 2 ^ (8 * o.size)) (o.atomValue old data nv % 256 ^ o.size) := by
  have hw : 256 ^ o.size = 2 ^ (8 * o.size) := by rw [Nat.pow_mul]
  rw [hw] at ho ⊢
  exact atomValue_atomNew _ _ ho (Nat.mod_lt _ (Nat.two_pow_pos _)) (Nat.mod_lt _ (Nat.two_pow_pos _))

end Sys2Proof.Machine
end

section
/-! PROOFS. Bytes of device memory written under a key (R256, R347, R405). -/

namespace Sys2Proof.Machine

open Sys2Proof

/-! ## Stores with some keys dropped -/

theorem Store.get_filter {α : Type} (d : α) (p : Nat → Bool) (l : Store α) (k : Nat) :
    Store.get d (l.filter fun x => p x.1) k = if p k then Store.get d l k else d := by
  induction l with
  | nil => simp
  | cons x t ih =>
    obtain ⟨j, v⟩ := x
    rw [List.filter_cons]
    by_cases hk : k = j
    · subst hk
      by_cases hp : p k
      · simp [hp, Store.get]
      · simp [hp, ih]
    · by_cases hp : p j <;> simp [hp, Store.get, hk, ih]

/-- What is stored for other numbers than those of a list. -/
theorem Store.get_map_outside {α : Type} (d : α) (f : Nat → α) {l : List Nat} {k : Nat} (h : k ∉ l) :
    Store.get d (l.map fun i => (i, f i)) k = d := by
  induction l with
  | nil => rfl
  | cons i t ih =>
    obtain ⟨hi, ht⟩ := not_or.mp (mt List.mem_cons.mpr h)
    rw [List.map_cons, Store.get, if_neg hi, ih ht]

/-! ## Seals -/

theorem get_putSeal (l : Store Seal) (block : Nat) (x : Seal) (j : Nat) :
    Store.get {} (putSeal l block x) j = if j = block then x else Store.get {} l j := by
  unfold putSeal
  split
  next h => rw [Store.get_del, h]
  · exact Store.get_put _ _ _ _ _

theorem get_foldl_putSeal (f : Nat → Seal) (l : List Nat) (seals : Store Seal) (j : Nat) :
    Store.get {} (l.foldl (fun l b => putSeal l b (f b)) seals) j = if j ∈ l then f j else Store.get {} seals j := by
  induction l generalizing seals with
  | nil => simp
  | cons b t ih =>
    rw [List.foldl_cons, ih, get_putSeal]
    by_cases hb : j = b
    · subst hb
      simp
    · simp [hb]

/-- A byte as it is read under the key of a slot (R347). -/
theorem State.seenGet_eq (s : State) (slot a : Nat) : s.seenGet slot a = s.seenByte (s.keyGen slot) a := by
  unfold State.seenGet
  split
  next h =>
    obtain ⟨hs, hk⟩ := Bool.and_eq_true_iff.mp h
    have hx : s.sealOf (a / 16) = {} := by rw [State.sealOf, List.isEmpty_iff.mp hs]; rfl
    rw [State.seenByte, hx, beq_iff_eq.mp hk]
    rfl
  · rfl

/-- What a block keeps beside the bytes written: what their reader saw (R347). -/
theorem State.get_sealBlock (s : State) (gen block : Nat) (written : Nat → Bool) (d : Byte) {i : Nat} (hi : i < 16) :
    Store.get d (s.sealBlock gen block written).kept i = if written i then d
      else if (s.sealOf block).gen = gen then Store.get d (s.sealOf block).kept i else s.seenByte gen (16 * block + i) := by
  have hkept : (s.sealBlock gen block written).kept = if (s.sealOf block).gen = gen
      then (s.sealOf block).kept.filter fun p => !written p.1
      else ((upto 16).filter fun i => !written i).map fun i => (i, s.seenByte gen (16 * block + i)) := rfl
  have hmem : i ∈ (upto 16).filter (fun i => !written i) ↔ written i = false := by simp [hi]
  rw [hkept]
  by_cases hgen : (s.sealOf block).gen = gen
  · rw [if_pos hgen, if_pos hgen]
    exact (Store.get_filter d (fun i => !written i) _ i).trans (by cases written i <;> rfl)
  · rw [if_neg hgen, if_neg hgen]
    by_cases hw : written i = true
    · rw [if_pos hw]
      exact Store.get_map_outside d _ (by simp [hmem, hw])
    · rw [if_neg hw]
      exact Store.get_map d (fun i => s.seenByte gen (16 * block + i)) (hmem.mpr (Bool.of_not_eq_true hw))

/-- Whether a byte of a block lies among n bytes from an address up. -/
def inRange (a n block i : Nat) : Bool := decide (a ≤ 16 * block + i) && decide (16 * block + i < a + n)

/-- The blocks that a write touches take the seal of its key (R347). -/
theorem State.sealOf_putG (s : State) (slot a : Nat) (bytes : List Byte) (j : Nat) : (s.putG slot a bytes).sealOf j
    = if j ∈ granules a bytes.length then s.sealBlock (s.keyGen slot) j (inRange a bytes.length j) else s.sealOf j := by
  unfold State.putG State.sealOf State.sealsAfter
  dsimp only
  split
  next h =>
    obtain ⟨hs, hk⟩ := Bool.and_eq_true_iff.mp h
    have hx : s.sealOf j = {} := by rw [State.sealOf, List.isEmpty_iff.mp hs]; rfl
    split
    · rw [State.sealBlock, hx, beq_iff_eq.mp hk]
      exact hx
    · rfl
  · exact get_foldl_putSeal _ _ _ _

section
variable {s : State} (hm : Memory.wf s.mem = true) (slot a : Nat) (bytes : List Byte)
include hm

theorem State.memGet_putG (k : Nat) : memGet (s.putG slot a bytes).mem k
    = if a ≤ k ∧ k < a + bytes.length then bytes.getD (k - a) 0 else memGet s.mem k := memGet_memWrite hm a k bytes

/-- A byte of a block that a write touches: the one written, or the one that was read under the same key (R347). -/
theorem State.seenByte_putG_touched {k : Nat} (hk : k / 16 ∈ granules a bytes.length) :
    (s.putG slot a bytes).seenByte (s.keyGen slot) k
      = if a ≤ k ∧ k < a + bytes.length then bytes.getD (k - a) 0 else s.seenByte (s.keyGen slot) k := by
  have hblock : 16 * (k / 16) + k % 16 = k := Nat.div_add_mod k 16
  have hin : inRange a bytes.length (k / 16) (k % 16) = true ↔ a ≤ k ∧ k < a + bytes.length := by
    simp only [inRange, hblock, Bool.and_eq_true, decide_eq_true_eq]
  have hseal : (s.putG slot a bytes).sealOf (k / 16) = s.sealBlock (s.keyGen slot) (k / 16) (inRange a bytes.length (k / 16)) :=
    (s.sealOf_putG slot a bytes _).trans (if_pos hk)
  have hread : (s.putG slot a bytes).seenByte (s.keyGen slot) k = Store.get (memGet (s.putG slot a bytes).mem k)
      (s.sealBlock (s.keyGen slot) (k / 16) (inRange a bytes.length (k / 16))).kept (k % 16) := by
    unfold State.seenByte
    dsimp only
    rw [hseal]
    exact if_pos rfl
  rw [hread, State.get_sealBlock _ _ _ _ _ (Nat.mod_lt k (by decide)), State.memGet_putG hm]
  by_cases hw : a ≤ k ∧ k < a + bytes.length
  · rw [if_pos (hin.mpr hw), if_pos hw, if_pos hw]
  · rw [if_neg (mt hin.mp hw), if_neg hw, if_neg hw, hblock]
    split
    next hgen => exact (if_pos hgen).symm
    · rfl

/-- A byte of a block that a write does not touch reads as before under every key (R347). -/
theorem State.seenByte_putG_outside {k : Nat} (hk : k / 16 ∉ granules a bytes.length) (gen : Nat) :
    (s.putG slot a bytes).seenByte gen k = s.seenByte gen k := by
  have hmem {i : Nat} (hi : i < 16) : memGet (s.putG slot a bytes).mem (16 * (k / 16) + i) = memGet s.mem (16 * (k / 16) + i) := by
    rw [State.memGet_putG hm, if_neg]
    rw [mem_granules] at hk
    omega
  have hseal : (s.putG slot a bytes).sealOf (k / 16) = s.sealOf (k / 16) := (s.sealOf_putG slot a bytes _).trans (if_neg hk)
  have hplain : (s.putG slot a bytes).plainBlock (k / 16) = s.plainBlock (k / 16) := by
    refine List.map_congr_left fun i hi => ?_
    rw [hseal, hmem ((mem_upto 16 i).mp hi)]
  have hk : memGet (s.putG slot a bytes).mem k = memGet s.mem k := by
    have := hmem (Nat.mod_lt k (by decide : 0 < 16))
    rwa [Nat.div_add_mod] at this
  unfold State.seenByte
  rw [hseal, hplain, hk]

theorem State.seenGet_putG (k : Nat) : (s.putG slot a bytes).seenGet slot k
    = if a ≤ k ∧ k < a + bytes.length then bytes.getD (k - a) 0 else s.seenGet slot k := by
  rw [State.seenGet_eq, State.seenGet_eq]
  by_cases hk : k / 16 ∈ granules a bytes.length
  · exact State.seenByte_putG_touched hm slot a bytes hk
  · rw [if_neg fun h => hk (mem_granules.mpr (by omega))]
    exact State.seenByte_putG_outside hm slot a bytes hk _

/-- Bytes written under a key read so under it; every other byte is as it was (R347). -/
theorem State.wroteUnder_putG : WroteUnder s (s.putG slot a bytes) slot a bytes.length fun i => bytes.getD i 0 := by
  refine ⟨fun i hi => ?_, fun k hk => ⟨?_, ?_⟩, fun b hb => ?_⟩
  · rw [State.seenGet_putG hm, if_pos ⟨Nat.le_add_right a i, Nat.add_lt_add_left hi a⟩, Nat.add_sub_cancel_left]
  · rw [State.seenGet_putG hm, if_neg (by omega)]
  · rw [State.memGet_putG hm, if_neg (by omega)]
  · rw [State.sealOf_putG, if_neg]
    rw [mem_granules]
    omega

end

/-- What a write leaves depends on memory, its seals and the keys alone. -/
theorem WroteUnder.congr {s t u : State} {slot a n : Nat} {byte byte' : Nat → Byte} (h : WroteUnder s t slot a n byte)
    (hmem : u.mem = t.mem) (hseals : u.seals = t.seals) (hck : u.ck = t.ck) (hb : ∀ i < n, byte i = byte' i) :
    WroteUnder s u slot a n byte' := by
  obtain ⟨hin, hout, hs⟩ := h
  have hsee (k : Nat) : u.seenGet slot k = t.seenGet slot k := by
    unfold State.seenGet State.seenByte State.plainBlock State.sealOf State.keyGen
    rw [hmem, hseals, hck]
  refine ⟨fun i hi => (hsee _).trans ((hin i hi).trans (hb i hi)), fun k hk => ?_, fun b hb => ?_⟩
  · rw [hsee, hmem]
    exact hout k hk
  · rw [State.sealOf, hseals]
    exact hs b hb

end Sys2Proof.Machine
end

section
/-! PROOFS. A line that an access has used (R364, R366, R368, R370). -/

namespace Sys2Proof.Machine

open Sys2Proof

/-- A flit that goes into a link's replay buffer changes links and the agenda (R362). -/
theorem State.enqueue_frame (s : State) (i side dstn : Nat) (raw : List Byte) (d : Instr) : ∃ L A,
    s.enqueue i side dstn raw d = { s with fab := { s.fab with links := L }, agenda := A } ∧ ∀ j ∈ s.agenda, j ∈ A := by
  cases hl : s.fab.links[i]? with
  | none =>
    refine ⟨s.fab.links, s.agenda, ?_, fun _ h => h⟩
    unfold State.enqueue
    rw [hl]
  | some l =>
    obtain ⟨h, hold, -⟩ := s.enqueue_spec i side dstn raw d l hl
    exact ⟨_, _, h, hold⟩

/-- A flit of whose way nothing is left where it cannot go on changes links, waiting flits and the agenda (R361, R364, R366). -/
theorem State.enter_frame (s : State) (src dst : Nat) (raw : List Byte) {d : Instr} (hd : ∀ node, s.unsent node d = s) : ∃ L H A,
    s.enter src dst raw d = { s with fab := { s.fab with links := L, held := H }, agenda := A } ∧ ∀ j ∈ s.agenda, j ∈ A := by
  unfold State.enter
  split
  · exact ⟨_, _, _, rfl, fun _ h => h⟩
  unfold State.hop
  dsimp only
  have harr : ∃ L H A, s.arrives d = { s with fab := { s.fab with links := L, held := H }, agenda := A } ∧ ∀ j ∈ s.agenda, j ∈ A :=
    ⟨_, _, _, rfl, fun _ h => List.mem_append_left _ h⟩
  split
  · exact harr
  split
  · split
    · exact harr
    · rw [hd]
      exact ⟨_, _, _, rfl, fun _ h => h⟩
  · obtain ⟨L, A, h, hold⟩ := s.enqueue_frame _ _ dst _ d
    exact ⟨_, _, _, h, hold⟩

/-- A line as a holder leaves it that has written to it: dirty, and asked for no longer (R368, R369). -/
def Line.written (l : Line) (h : Nat) : Line :=
  { l.set h { l.of h with dirty := true, valid := true } with
    wants := l.wants.filter fun p => p.1 != h, tries := l.tries.filter fun p => p.1 != h
    waiting := l.waiting.filter fun p => p.1 != h, asked := l.asked.filter fun p => p.1 != h }

theorem Line.of_written (l : Line) (h d : Nat) :
    (l.written h).of d = if d = h then { l.of d with dirty := true, valid := true } else l.of d := by
  refine (Line.of_set l h _ d).trans ?_
  split
  next hd => rw [hd]
  · rfl

/-- A holder that has written to a line leaves every other line alone; it gives up its persistent entry, if one is active (R370). -/
theorem State.usedLine_spec (s : State) (h n : Nat) : ∃ K L H A,
    s.usedLine h n true = { s with fab := { s.fab with lines := K, links := L, held := H }, agenda := A }
      ∧ ∀ m, (Store.get {} K m : Line) = if m = n then (s.line n).written h else s.line m := by
  let u := ((s.putLine n ((s.line n).written h)).notLater (.transientRetryTimeout h n)).notLater (lineTimeout h n)
  have hlines (m : Nat) : (Store.get {} u.fab.lines m : Line) = if m = n then (s.line n).written h else s.line m :=
    s.line_putLine n _ m
  have hused : s.usedLine h n true = u.askHome h n 4 (.persistentDeactivate h n) ∨ s.usedLine h n true = u := ite_eq_or_eq _ _ _
  rcases hused with hx | hx
  · obtain ⟨L, H, A, hask, -⟩ := u.enter_frame (holderNode h n) (homeNode n)
      (linkFlit { cls := 4, srcn := holderNode h n, dstn := homeNode n, srcp := u.fab.pkg, dstp := u.fab.pkg, tag := n, addr := 128 * n } [])
      (d := .persistentDeactivate h n) fun _ => rfl
    exact ⟨_, _, _, _, hx.trans hask, hlines⟩
  · exact ⟨_, _, _, _, hx, hlines⟩

end Sys2Proof.Machine
end

section
/-! PROOFS. POSTED_ATOMIC_PERFORM (R204, R208, R210). -/

namespace Sys2Proof.Machine

open Sys2Proof

/-- A number written in n bytes reads as its residue. -/
theorem memNat_memWriteNat {m : List Host.Cell} (h : Memory.wf m = true) (a n v : Nat) : memNat (memWriteNat m a n v) a n = v % 256 ^ n := by
  have hl : (leBytes n v).length = n := length_leBytes n v
  have hb := memBytes_memWrite h a 0 n (leBytes n v) (by omega)
  rw [List.drop_zero, List.take_of_length_le hl.le] at hb
  exact (congrArg leNat hb).trans (leNat_leBytes n v)

/-! ## The end of a posted atomic -/

/-- No draining FENCE of the gang in focus has an abort to raise (R204). -/
def Gang.Calm (g : Gang) : Prop := ∀ r ∈ g.fences, ∀ d, r.drain = some d → d.hit = false

theorem State.raiseDrained_calm {s : State} (h : s.g.Calm) : s.raiseDrained = s := by
  have hdue : s.dueDrain = none := by
    refine List.find?_eq_none.mpr fun r hr => ?_
    cases hd : r.drain with
    | none => simp
    | some d => simp [h r hr d hd]
  unfold State.raiseDrained
  rw [hdue]

/-- A struck FENCE that nothing keeps from being complete raises the abort recorded (R204, R210). -/
theorem State.raiseDrained_due {s : State} {r : FenceRec} {d : Drain} {a : DWord} (hf : s.g.fences = [r]) (hd : r.drain = some d)
    (hhit : d.hit = true) (hout : ∀ w ∈ r.waits, s.isOut w = false) (ha : s.g.abort = some a) (hstop : s.g.stop = none)
    (hlive : s.g.live ≠ 0) (hev : s.b.evicting = false) (hmode : s.g.mode = .running) :
    ∃ grp, s.raiseDrained = State.raise { s with g := { s.g with abort := none, fences := [] } }
      { code := 7, info := 2, pc := d.pc, addr := a, slice := d.slice, group := grp } := by
  have hwaits : (r.waits.all fun w => !s.isOut w) = true := List.all_eq_true.mpr fun w hw => by rw [hout w hw]; rfl
  have hl : ¬s.g.live = 0#8 := hlive
  have hdue : s.dueDrain = some r := by
    unfold State.dueDrain
    simp [hf, hd, hhit, hstop, hl, hev, hmode, hwaits]
  unfold State.raiseDrained
  rw [hdue]
  simp only [ha, hd, hf, List.erase_cons_head]
  exact ⟨_, rfl⟩

/-- A draining FENCE that awaits a word learns of its abort. -/
theorem FenceRec.struck_drain {r : FenceRec} {d : Drain} {word : Nat} (hw : word ∈ r.waits) (hd : r.drain = some d) :
    r.struck word = { r with drain := some { d with hit := true } } := by
  unfold FenceRec.struck
  rw [if_pos (List.contains_iff_mem.mpr hw), hd]
  rfl

/-- A word is over that is outstanding in no gang and has no posted lane left. -/
theorem State.isOut_eq_false {s : State} {word : Nat} (hg : ∀ f ∈ s.g.outstanding, f.id ≠ word)
    (hothers : ∀ h ∈ s.gangs ++ s.images.flatMap Image.gangs, ∀ f ∈ h.outstanding, f.id ≠ word) (hp : ∀ q ∈ s.posted, q.word ≠ word) :
    s.isOut word = false := by
  have hholds {g : Gang} (h : ∀ f ∈ g.outstanding, f.id ≠ word) : g.holds word = false :=
    List.any_eq_false.mpr fun f hf => by simpa using h f hf
  have hposted : (s.posted.any fun p => p.word == word) = false := List.any_eq_false.mpr fun q hq => by simpa using hp q hq
  have hrest : (s.gangs ++ s.images.flatMap Image.gangs).any (fun g => g.holds word) = false :=
    List.any_eq_false.mpr fun h hh => by rw [hholds (hothers h hh)]; exact Bool.false_ne_true
  unfold State.isOut
  rw [hholds hg, hrest, hposted]
  rfl

/-- A gang in focus with its block and core stays there. -/
theorem State.focus_self {s : State} {gang : Nat} (hg : s.g.uid = gang) (hb : s.g.block = s.b.uid) (hd : s.b.die = s.c.die)
    (hc : s.b.core = s.c.idx) : s.focus gang = s := by
  unfold State.focus State.focusGang
  rw [if_pos hg]
  exact State.atBlock_self hb hd hc

/-- A posted atomic of the gang in focus leaves the buffer (R210). -/
theorem State.postedEnd_focus {s : State} {p : Posted} (hg : s.g.uid = p.gang) (hb : s.g.block = s.b.uid) (hd : s.b.die = s.c.die)
    (hc : s.b.core = s.c.idx) : s.postedEnd p = State.raiseDrained { s with posted := s.posted.filter fun q => q.id != p.id } := by
  have hf : State.focus { s with posted := s.posted.filter fun q => q.id != p.id } p.gang
      = { s with posted := s.posted.filter fun q => q.id != p.id } := State.focus_self hg hb hd hc
  unfold State.postedEnd
  rw [hf]
  exact if_pos (beq_iff_eq.mpr hg)

/-! ## An abort -/

/-- The home of a line answers where that of an address in it does. -/
theorem State.reachable_lineOf (s : State) (a : Nat) : s.reachable (128 * lineOf a) = s.reachable a := by
  have h : homeDie (128 * lineOf a) = homeDie a := by
    unfold homeDie lineOf
    omega
  unfold State.reachable
  rw [h]

/-- A posted atomic of the gang in focus that meets an abort completion records it there, and with the FENCEs that drain its word
(R204, R210). -/
theorem State.abortPosted_focus {s : State} {p : Posted} (hg : s.g.uid = p.gang) (h0 : s.g.uid ≠ 0) (hlive : s.g.live ≠ 0) :
    s.abortPosted p [] = { s with
      g := { s.g with abort := some (s.g.abort.getD p.addr), fences := s.g.fences.map (FenceRec.struck p.word) } } := by
  have hgone : ((s.allGangs ++ s.images.flatMap Image.gangs).all fun g => g.uid != p.gang || g.live == 0) = false := by
    refine List.all_eq_false.mpr ⟨s.g, List.mem_append_left _ (List.mem_filter.mpr ⟨List.mem_cons_self, bne_iff_ne.mpr h0⟩), ?_⟩
    rw [bne_eq_false_iff_eq.mpr hg, Bool.false_or, beq_iff_eq]
    exact hlive
  unfold State.abortPosted
  refine (if_neg (Bool.eq_false_iff.mp hgone)).trans ?_
  exact if_pos hg

/-! ## An atomic of G performs -/

theorem State.length_seen (s : State) (x : Xlat) (n : Nat) : (s.seen x n).length = n := by
  unfold State.seen State.seenAt
  split
  · exact length_memBytes _ _ _
  · simp [upto]

theorem State.seen_lt (s : State) (x : Xlat) (n : Nat) : leNat (s.seen x n) < 256 ^ n := by
  have h := leNat_lt (s.seen x n)
  rwa [State.length_seen] at h

/-- The state with a term added to the signature of the block in focus (R379). -/
def State.signed (s : State) (t : DWord) : State := { s with b := { s.b with sig := s.b.sig + t } }

/-- An atomic on a page that is not versioned: its bytes are written, and its term is added to the signature of its block
(R182, R207, R379). -/
theorem State.atomG_plain {s : State} (hb : s.findBlock s.b.uid = some s.b) (hr : s.b.replay = none) (hg : s.b.gone = false) {x : Xlat}
    (hv : x.ver = false) (task : Nat) (op : MemOp) (va data nv : Nat) :
    (s.atomG s.b.uid task x false op va data nv).2
      = (s.putG x.key x.writePhys (leBytes op.size (op.atomValue (leNat (s.seen x op.size)) data nv))).signed
          (sigTerm va op.size (1 + op.aop) op.aty (data % 2 ^ (8 * op.size)) (nv % 2 ^ (8 * op.size))) := by
  have hrep : s.isReplay s.b.uid = false := by simp [State.isReplay, hb, hr]
  have hread : s.noteRead task x = s := by
    unfold State.noteRead
    rw [hv]
    rfl
  have hwrite (bytes : List Byte) : s.gWrite s.b.uid task x false bytes = s.putG x.key x.writePhys bytes := by
    have hp : s.makePending x = s := by
      unfold State.makePending
      rw [hv]
      rfl
    unfold State.gWrite State.noteWrite
    rw [hrep, hp, hv]
    rfl
  have hterm (t : DWord) (bytes : List Byte) : (s.putG x.key x.writePhys bytes).addTerm s.b.uid t = (s.putG x.key x.writePhys bytes).signed t := by
    have hfind : (s.putG x.key x.writePhys bytes).findBlock s.b.uid = some s.b := hb
    unfold State.addTerm
    rw [hfind]
    refine (if_neg (by simp [hg])).trans ?_
    exact if_pos rfl
  unfold State.atomG
  dsimp only
  rw [hread, hwrite, hterm]

/-- A posted atomic that has written its line leaves the buffer (R210, R368, R379). -/
theorem State.postedEnd_written {s : State} {p : Posted} (hg : s.g.uid = p.gang) (hb : s.g.block = s.b.uid) (hd : s.b.die = s.c.die)
    (hc : s.b.core = s.c.idx) (hcalm : s.g.Calm) (M : List Host.Cell) (S : Store Seal) (T : DWord) (line : Nat) : ∃ K L H A,
    ((State.signed { s with mem := M, seals := S } T).usedLine homeHolder line true).postedEnd p = { s with
        mem := M, seals := S, posted := s.posted.filter (fun q => q.id != p.id), b := { s.b with sig := s.b.sig + T }
        fab := { s.fab with lines := K, links := L, held := H }, agenda := A }
      ∧ ∀ m, (Store.get {} K m : Line) = if m = line then (s.line line).written homeHolder else s.line m := by
  obtain ⟨K, L, H, A, hused, hlines⟩ := (State.signed { s with mem := M, seals := S } T).usedLine_spec homeHolder line
  refine ⟨K, L, H, A, ?_, hlines⟩
  rw [hused, State.postedEnd_focus (by exact hg) (by exact hb) (by exact hd) (by exact hc), State.raiseDrained_calm (by exact hcalm)]
  rfl

/-! ## The step -/

/-- No lower lane of the word of a posted atomic still has its target (R208). -/
def State.PostedFirst (s : State) (p : Posted) : Prop := ∀ q ∈ s.posted, q.word ≠ p.word ∨ q.addr ≠ p.addr ∨ p.lane ≤ q.lane

theorem State.postedFirst_iff {s : State} {p : Posted} : s.PostedFirst p
    ↔ (s.posted.any fun q => q.word == p.word && q.addr == p.addr && decide (q.lane < p.lane)) = false := by
  simp only [State.PostedFirst, List.any_eq_false, Bool.and_eq_true, beq_iff_eq, decide_eq_true_eq, and_assoc, not_and_or, Nat.not_lt,
    ne_eq]

section
variable {s : State} {op : Nat} {p : Posted} (hfind : s.posted.find? (fun q => q.id == op) = some p)
include hfind

theorem exec_posted_waits (h : ¬s.PostedFirst p) : exec (.postedAtomicPerform op) s = .next (s.later (.postedAtomicPerform op)) := by
  refine congrArg Host.Outcome.next ?_
  simp only [hfind, Bool.of_not_eq_false (mt State.postedFirst_iff.mpr h), if_true]

variable (h : s.PostedFirst p)
include h

/-- A posted atomic of a scratchpad without uncorrectable data performs (R207, R210). -/
theorem exec_posted_spad (hs : p.op.space ≠ .g) (hue : s.ue = []) : exec (.postedAtomicPerform op) s = .next (State.postedEnd
    { s with mem := memWriteNat s.mem p.phys p.op.size (p.op.atomValue (memNat s.mem p.phys p.op.size) p.data.toNat 0) } p) := by
  have hclean : hasUE s.ue p.phys p.op.size = false := by rw [hue]; rfl
  refine congrArg Host.Outcome.next ?_
  simp only [hfind, State.postedFirst_iff.mp h, bne_iff_ne.mpr hs, hclean, Bool.false_eq_true, if_true, if_false]

variable (hs : p.op.space = .g) (hr : s.isReplay p.block = false) (hn : s.noReply homeHolder (lineOf (s.postedXlat p).writePhys) = false)
include hs hr hn

/-- One of G performs at the home of its line, which holds the line's tokens (R207, R210). -/
theorem exec_posted_global (hreach : s.reachable (s.postedXlat p).writePhys = true)
    (hbad : s.lineBad (lineOf (s.postedXlat p).writePhys) = false)
    (henough : (s.line (lineOf (s.postedXlat p).writePhys)).enough homeHolder true = true) :
    exec (.postedAtomicPerform op) s = .next (State.postedEnd
      ((s.atomG p.block p.task (s.postedXlat p) p.late p.op p.addr.toNat p.data.toNat 0).2.usedLine homeHolder
        (lineOf (s.postedXlat p).writePhys) true) p) := by
  have hplace : s.writeAt p.block (s.postedXlat p) = (s.postedXlat p).writePhys := if_neg (Bool.eq_false_iff.mp hr)
  have hready : s.readyLines homeHolder true [lineOf (s.postedXlat p).writePhys] = (true, s) := by
    simp [State.readyLines, henough]
  refine congrArg Host.Outcome.next ?_
  simp only [hfind, State.postedFirst_iff.mp h, hs, hplace, hreach, hn, hbad, hr, hready, bne_self_eq_false, Bool.not_true, Bool.or_self,
    Bool.false_eq_true, if_true, if_false]

/-- One of G whose home does not answer meets an abort completion (R210). -/
theorem exec_posted_abort (hreach : s.reachable (s.postedXlat p).writePhys = false) :
    exec (.postedAtomicPerform op) s = .next (State.postedEnd (s.abortPosted p []) p) := by
  have hplace : s.writeAt p.block (s.postedXlat p) = (s.postedXlat p).writePhys := if_neg (Bool.eq_false_iff.mp hr)
  have hgave : s.gaveUp homeHolder [lineOf (s.postedXlat p).writePhys] = s :=
    State.gaveUp_eq fun n hin => by rw [List.mem_singleton.mp hin, hn]
  have hlines : s.badLines [lineOf (s.postedXlat p).writePhys] = [] := by
    have hnone : ∀ n ∈ [lineOf (s.postedXlat p).writePhys].eraseDups, ¬(s.reachable (128 * n) && s.lineBad n) = true := by
      intro n hin
      rw [List.mem_singleton.mp (List.mem_eraseDups.mp hin), State.reachable_lineOf, hreach]
      exact Bool.false_ne_true
    unfold State.badLines
    rw [List.filter_eq_nil_iff.mpr hnone]
    rfl
  refine congrArg Host.Outcome.next ?_
  simp only [hfind, State.postedFirst_iff.mp h, hs, hplace, hreach, hgave, hlines, bne_self_eq_false, Bool.not_false, Bool.true_or,
    Bool.false_eq_true, if_true, if_false]

end

/-- Settles O36: a posted atomic waits, performs in its scratchpad or at the home of its line, or meets an abort completion. -/
theorem postedSteps : Obligations.PostedSteps := by
  unfold Obligations.PostedSteps
  intro s op p hm hfind _ hg hb hd hc hue size data left first calm w
  have hid : p.id = op := by simpa using List.find?_some hfind
  subst hid
  refine ⟨fun hf => ?_, fun hf hcalm hs => ?_, fun hf hs hblock hself hrep hgone hlate => ?_⟩
  · exact ⟨_, exec_posted_waits hfind hf, s.later_spec _⟩
  · have hx := exec_posted_spad hfind hf hs hue
    rw [State.postedEnd_focus (by exact hg) (by exact hb) (by exact hd) (by exact hc), State.raiseDrained_calm (by exact hcalm)] at hx
    refine ⟨_, hx, rfl, ?_, fun a ha => memGet_memWriteNat_outside hm _ _ _ a ha⟩
    have hv := p.op.atomValue_spec (memNat_lt s.mem p.phys p.op.size) p.data.toNat 0
    rw [Nat.zero_mod] at hv
    dsimp only
    rw [memNat_memWriteNat hm]
    exact hv
  · intro x line hver _
    have hplain : s.isReplay p.block = false := by simp [State.isReplay, hblock, hself, hrep]
    refine ⟨fun hcalm hreach hlost hn henough => ?_, fun hreach hn h0 hlive => ?_⟩
    · have hbad : s.lineBad line = false := by rw [State.lineBad, hue, hlost]; rfl
      have hx := exec_posted_global hfind hf hs hplain hn hreach hbad henough
      have hv := p.op.atomValue_spec (s.seen_lt x p.op.size) p.data.toNat 0
      rw [Nat.zero_mod] at hv
      rw [hblock, hlate, State.atomG_plain hself hrep hgone hver, Nat.zero_mod] at hx
      generalize p.op.atomValue (leNat (s.seen x p.op.size)) p.data.toNat 0 = new at hv hx
      let u := s.putG x.key x.writePhys (leBytes p.op.size new)
      have hwrote : WroteUnder s u x.key x.writePhys (leBytes p.op.size new).length _ := s.wroteUnder_putG hm _ _ _
      rw [length_leBytes] at hwrote
      obtain ⟨K, L, H, A, hend, hlines⟩ := State.postedEnd_written hg hb hd hc hcalm u.mem u.seals
        (sigTerm p.addr.toNat p.op.size (1 + p.op.aop) p.op.aty data 0) line
      refine ⟨_, _, hx.trans (congrArg Host.Outcome.next hend), rfl, hv, hwrote.congr rfl rfl rfl fun i hi => ?_, rfl, ?_⟩
      · exact (getD_leBytes _ hi).trans (byteOf_mod hi).symm
      · exact (congrArg (Line.of · 4) ((hlines line).trans (if_pos rfl))).trans (Line.of_written _ 4 4)
    · have hx := exec_posted_abort hfind hf hs hplain hn hreach
      rw [State.abortPosted_focus hg h0 hlive, State.postedEnd_focus (by exact hg) (by exact hb) (by exact hd) (by exact hc)] at hx
      refine ⟨fun hnone => ?_, fun r d hone hdrain hwaits hout hpost hothers hstop hev hmode => ?_⟩
      · have hfences : s.g.fences.map (FenceRec.struck p.word) = s.g.fences := by rw [hnone]; rfl
        have hcalm : s.g.Calm := fun r hr => absurd (hnone ▸ hr) List.not_mem_nil
        rw [hfences, State.raiseDrained_calm (by exact hcalm)] at hx
        exact hx
      · have hfences : s.g.fences.map (FenceRec.struck p.word) = [{ r with drain := some { d with hit := true } }] := by
          rw [hone, List.map_singleton, FenceRec.struck_drain (hwaits ▸ List.mem_singleton_self _) hdrain]
        have hended : State.isOut { s with posted := left } p.word = false := State.isOut_eq_false hout hothers hpost
        have hover : ∀ v ∈ r.waits, State.isOut { s with posted := left } v = false := fun v hv => by
          rw [hwaits, List.mem_singleton] at hv
          rw [hv]
          exact hended
        rw [hfences] at hx
        obtain ⟨grp, hraise⟩ := State.raiseDrained_due (s := { s with
            posted := left
            g := { s.g with abort := some (s.g.abort.getD p.addr), fences := [{ r with drain := some { d with hit := true } }] } })
          rfl rfl rfl hover rfl hstop hlive hev hmode
        exact ⟨grp, hx.trans (congrArg Host.Outcome.next hraise)⟩

end Sys2Proof.Machine
end
